-- ==== Sys2Proof/Word.lean ====
section
/-!
DEFINITION. The plain words of the T220 model: bytes, 64-byte rows, and the two sparse containers that hold
per-element state. Numbers that software sees as counts, times or identifiers are `Nat`; the values a manual
field map cuts into bits are `BitVec`.
-/
namespace Sys2Proof

/-- One byte. -/
abbrev Byte := BitVec 8

/-- One 64-byte scratchpad row, stack row or token payload (R59, R91), byte 0 in bits [7:0] (R10). -/
abbrev Row := BitVec 512

/-- A sparse table: keys strictly rising, no entry equal to the table's default (canonical form). -/
abbrev SMap (α : Type) := List (Nat × α)

end Sys2Proof
end

