-- ==== Sys2Proof/Data.lean ====
section
/-!
DEFINITION. The plain data that the panel's commands carry and its state holds: tokens, descriptors, fault-log
entries, fabric packets, control packets and the other messages that meet the panel.
-/
namespace Sys2Proof

/-- A token: payload and the fields of its tag word (R91). Token kinds: 0 data, 1 control, 2 configuration,
3 end-of-configuration, 4 error, 5 to 7 reserved. -/
structure Token where
  payload : Row := 0
  tag : BitVec 16 := 0
  lane : Fin 256 := 0
  wm : Fin 4 := 0
  kind : Fin 8 := 0
  life : Fin 8 := 0
  deriving DecidableEq, Repr

/-- A token as a tile holds it: with its arrival order on the tile (R103) and the node that produced it (R87). -/
structure TokRec where
  tok : Token := {}
  order : Nat := 0
  producer : Nat := 0
  deriving DecidableEq, Repr

/-- A unit descriptor, eight 64-bit words (R61). The defaults are the values after tile reset. -/
structure Desc where
  d0 : BitVec 64 := 0
  d1 : BitVec 64 := 0x0000FFFF00FFFFFF#64
  d2 : BitVec 64 := 0
  d3 : BitVec 64 := 0
  d4 : BitVec 64 := 0
  d5 : BitVec 64 := 0
  d6 : BitVec 64 := 0
  d7 : BitVec 64 := 0
  deriving DecidableEq, Repr

/-- A fault-log entry, which is also the payload of an error token (R87). -/
structure FaultEntry where
  address : Nat := 0
  cause : Nat := 0
  slot : Nat := 0
  queue : Nat := 0x3F
  tag : Nat := 0
  lane : Nat := 0
  wmCur : Nat := 0
  wmSeen : Nat := 0
  producer : Nat := 0
  logicalUnit : Nat := 0
  time : Nat := 0
  detail : Nat := 0
  deriving DecidableEq, Repr

/-- One payload flit: 512 bits and its sideband, the tag word on token-carrying packets and 0 elsewhere (R155). `tok` marks a payload flit of a token-carrying packet where a flit stands apart from its head. -/
structure Flit where
  side : BitVec 32 := 0
  row : Row := 0
  tok : Bool := false
  /-- The virtual channel of a flit that stands apart from its head. -/
  vc : Nat := 0
  deriving DecidableEq, Repr

/-- A fabric packet: the head flit's fields and the payload flits (R155). `op` is head bytes 32 to 63; `rsv` gathers
every reserved bit of the head. -/
structure Pkt where
  dest : Nat := 0
  src : Nat := 0
  ptype : Nat := 0
  vc : Nat := 0
  gen : Nat := 0
  srcSlot : Nat := 0xF
  queue : Nat := 0
  offset : Nat := 0
  retOffset : Nat := 0
  txn : Nat := 0
  hops : Nat := 0
  rowsM1 : Nat := 0
  rsv : Nat := 0
  op : List Nat := []
  body : List Flit := []
  deriving DecidableEq, Repr

/-- A control-network packet (R177): destination, source, operation, transaction, payload words, class. Its CRC word is the link
layer's (log entry 83). -/
structure Ctl where
  dest : Nat := 0
  src : Nat := 0
  op : Nat := 0
  txn : Nat := 0
  words : List Nat := []
  /-- The class bit, and the two reserved bits. -/
  cls : Nat := 0
  rsv : Nat := 0
  deriving DecidableEq, Repr

/-- A transfer block of a die-to-die link (R171): the flit in each slot, if any, and the trailer. Kinds: 0 data, 1 idle, 2 calibration marker, 3 purge marker, 4 retrain request. -/
structure Block where
  kind : Nat := 1
  seq : BitVec 16 := 0
  nak : Bool := false
  ackSeq : BitVec 16 := 0
  xoff : Nat := 0
  slots : List (Option Flit) := []
  /-- Reserved bits of the trailer, and its CRC word. -/
  rsv : Nat := 0
  crc : Nat := 0
  deriving DecidableEq, Repr

/-- A route-table entry: destination node or multicast group, and queue (R62). -/
structure Route where
  node : Nat := 0
  queue : Nat := 0
  deriving DecidableEq, Repr

/-- A buffer-table entry: node, base offset and length in bytes (R62). -/
structure Buffer where
  node : Nat := 0
  base : Nat := 0
  len : Nat := 0
  deriving DecidableEq, Repr

/-- The entries of an INSTALL packet: of the route, buffer or region table, or program words (R156). Region entries carry G0
and G1. -/
inductive InstallRows where
  | routes (l : List Route)
  | buffers (l : List Buffer)
  | regions (l : List (BitVec 64 × BitVec 64))
  | program (l : List (BitVec 32))
  deriving DecidableEq, Repr

/-- What an INSTALL packet writes (R156): entries of one table, from the first on. -/
structure Install where
  first : Nat
  rows : InstallRows
  deriving DecidableEq, Repr

/-- A firing of a slot, and what other users request of its banks in that handshake: bank and user (R138; log entry 104). -/
structure Firing where
  slot : Fin 16
  contests : List (Fin 32 × Fin 5)
  deriving DecidableEq, Repr

/-- What a stack's on-die ECC reports of the rows that an access reads (R185, R188): how many it has corrected, and the offsets of
those that it cannot correct. -/
structure EccReport where
  corrected : Nat
  bad : List Nat
  deriving DecidableEq, Repr

/-- A GATHER at a base die, with what the ECC reports of the rows that it reads (R188, R192). -/
structure Gathering where
  pkt : Pkt
  ecc : EccReport
  deriving DecidableEq, Repr

/-- What a link end does as a block reaches it: the flits that have moved on from its receive buffers, buffer and count, and those
that its own next block takes (R159, R171; log entry 25). -/
structure LinkTurn where
  drained : List (Nat × Nat)
  reply : List (Option Flit)
  deriving DecidableEq, Repr

/-- An address on a host's network: family 4 or 6 (0 none), UDP port, address bytes as a little-endian number. -/
structure Endpoint where
  family : Nat := 0
  port : Nat := 0
  addr : Nat := 0
  deriving DecidableEq, Repr

/-- How a datagram leaves a port: its source, the address that it goes to next, and its tag, a VLAN or none (0) and a priority.
Every datagram of the panel has Don't Fragment set where it is IPv4, and is marked ECT(0) (R271, R282). -/
structure Wire where
  source : Endpoint := {}
  via : Nat := 0
  vlan : Nat := 0
  pcp : Nat := 0
  deriving DecidableEq, Repr

/-- A UDP datagram that reaches the panel (R271, R272): the port it came in on (0 to 15, 16 and up the management
ports), its sender, its destination UDP port, a CE mark, whether it is a fragment or carries options, and its payload. -/
structure Dgram where
  port : Nat := 0
  src : Endpoint := {}
  udp : Nat := 0
  ce : Bool := false
  frag : Bool := false
  body : List Nat := []
  deriving DecidableEq, Repr

/-- A SUBMIT (R275, R276), its prompt put together. -/
structure Submit where
  stream : Nat := 0
  furnish : List Nat := []
  cls : Nat := 0
  drafts : Nat := 0
  rate : Nat := 0
  lead : Nat := 0
  maxTokens : Nat := 0
  prompt : Nat := 0
  seed : Nat := 0
  credit : Nat := 0
  stops : List Nat := []
  stopCount : Nat := 0
  alt : Endpoint := {}
  tokens : List Nat := []
  deriving DecidableEq, Repr

-- ------------------------------------------------------------------ the furnish (R209 to R219)

/-- A section table entry (R210). -/
structure Sect where
  kind : Nat := 0
  id : Nat := 0
  off : Nat := 0
  len : Nat := 0
  crc : Nat := 0
  deriving DecidableEq, Repr

/-- A logical tile record (R212). -/
structure LTile where
  coord : Nat := 0
  firstDesc : Nat := 0
  nDesc : Nat := 0
  queues : Nat := 0
  firstRegion : Nat := 0
  nRegion : Nat := 0
  nRoute : Nat := 0
  firstRoute : Nat := 0
  firstBuf : Nat := 0
  nBuf : Nat := 0
  regs : Nat := 0
  nOps : Nat := 0
  firstOp : Nat := 0
  firstConst : Nat := 0
  nConst : Nat := 0
  constRow : Nat := 0
  rowsM1 : Nat := 0
  opBase : Nat := 0
  deriving DecidableEq, Repr

/-- A route entry of a furnish (R213). -/
structure RouteRec where
  target : Nat := 0
  queue : Nat := 0
  kind : Nat := 0
  deriving DecidableEq, Repr

/-- A buffer entry of a furnish (R214). -/
structure BufRec where
  kind : Nat := 0
  layer : Nat := 0
  target : Nat := 0
  off : Nat := 0
  len : Nat := 0
  deriving DecidableEq, Repr

/-- A reduction record (R215). -/
structure RedRec where
  id : Nat := 0
  order : Nat := 0
  /-- Bytes 5 to 7, reserved (R11). -/
  rsv : Nat := 0
  partials : Nat := 0
  nodes : List (Nat × Nat) := []
  deriving DecidableEq, Repr

/-- One variant of one region program (R211). -/
structure RegionProg where
  secId : Nat := 0
  region : Nat := 0
  variant : Nat := 0
  seam : Nat := 0
  layer : Nat := 0xFFFF
  role : Nat := 0
  fold : Nat := 0
  width : Nat := 0
  stride : Nat := 0
  tiles : List LTile := []
  descs : List Desc := []
  regions : List (BitVec 64 × BitVec 64) := []
  routes : List RouteRec := []
  bufs : List BufRec := []
  ops : List (BitVec 32) := []
  consts : List Row := []
  reds : List RedRec := []
  deriving DecidableEq, Repr

/-- An entry point (R216). -/
structure EntryPt where
  ltile : Nat := 0
  queue : Nat := 0
  role : Nat := 0
  first : Nat := 0
  last : Nat := 0
  deriving DecidableEq, Repr

/-- A cost-model record (R217). -/
structure CostRec where
  region : Nat := 0
  variant : Nat := 0
  width : Nat := 0
  bottleneck : Nat := 0
  slope : Nat := 0
  vops : Nat := 0
  stackBytes : Nat := 0
  weightRows : Nat := 0
  deriving DecidableEq, Repr

/-- A logical multicast group and its members (R218): logical tile and queue. -/
structure McGroup where
  group : Nat := 0
  kind : Nat := 1
  members : List (Nat × Nat) := []
  deriving DecidableEq, Repr

/-- A furnish, read from its image (R209 to R219). -/
structure Furnish where
  fid : List Nat := []
  seed : Nat := 0
  layers : Nat := 0
  refContext : Nat := 0
  maxContext : Nat := 0
  folds : List Nat := []
  regionCount : Nat := 0
  sects : List Sect := []
  progs : List RegionProg := []
  lanesMax : Nat := 0
  classes : Nat := 0
  draftMax : Nat := 0
  entries : List EntryPt := []
  kv : List (Nat × Nat) := []
  egress : Nat := 0
  commitRegion : Nat := 0
  costs : List CostRec := []
  groups : List McGroup := []
  keyId : Option (List Nat) := none
  deriving DecidableEq, Repr

-- ------------------------------------------------------------------ what leaves the panel

/-- A command of a hub to a tile, a base die or a die, carried by the control network or a packet (R148, R177, R192,
R193, R196). -/
inductive HubCmd where
  | hold | run
  | scanOut (node offset : Nat)
  | scanIn (node offset : Nat)
  | regionSet (entry : Nat) (g0 g1 : BitVec 64) (position : Nat)
  | fill (first rows : Nat) (pattern : BitVec 64) (full : Bool)
  | swap (entry : Nat)
  | save (first rows node offset : Nat)
  | restore (node offset : Nat)
  | bankFlip (bank : Nat)
  | idle
  | stackCopy (offset rows node dest : Nat)
  | dirSet (lane key base entryBytes pages group : Nat)
  | groupSet (group role slabRows slabBase : Nat) (members : List Nat)
  deriving DecidableEq, Repr

/-- What the panel sends: it stands in flight, or at its receiver outside the panel, until an arrival takes it. -/
inductive Emit where
  | pkt (p : Pkt)
  | ctl (c : Ctl)
  | block (link : Nat) (b : Block)
  /-- A hub's command to a node. -/
  | cmd (node : Nat) (c : HubCmd)
  /-- An INSTALL packet to a tile (R156). -/
  | install (node : Nat) (i : Install)
  /-- A UDP datagram out of a port to an endpoint. -/
  | udp (port : Nat) (dst : Endpoint) (body : List Nat) (wire : Wire)
  /-- A link-layer answer out of a port: ARP, Neighbor Discovery, echo, LLDP (R270). -/
  | frame (port kind : Nat) (body : List Nat)
  /-- A seam transfer to another panel of a cascade (R404, R406): its kind and content. -/
  | seam (panel kind : Nat) (body : List Nat)
  deriving DecidableEq, Repr

end Sys2Proof

namespace Sys2Proof.Machine

-- ------------------------------------------------------------------ a stream's record (chapters 09, 10)

/-- A pass of a lane (R245, R246). Kinds: 0 ingest, 1 verify, 3 bulk, 4 background. -/
structure Pass where
  kind : Nat
  base : Nat
  drafts : Nat
  count : Nat
  life : Fin 8
  deriving DecidableEq, Repr

/-- A run-ahead pending (R248): its base, the base it runs ahead of, drafts and life. -/
structure RunAhead where
  base : Nat
  origin : Nat
  drafts : Nat
  life : Fin 8
  deriving DecidableEq, Repr

/-- A token sent and not yet acknowledged (R279). -/
structure TokSent where
  index : Nat
  token : Nat
  sched : Nat
  lastTx : Nat
  tries : Nat := 0
  deriving DecidableEq, Repr

/-- A control message sent and not yet acknowledged (R279). -/
structure CtlSent where
  seq : Nat
  mtype : Nat
  body : List Nat
  lastTx : Nat
  tries : Nat := 0
  deriving DecidableEq, Repr

/-- A committed token that the port die has not released: its ID and when it was committed (R252 to R254). -/
structure ReelTok where
  token : Nat
  at' : Nat
  deriving DecidableEq, Repr

/-- A stream's lane: its record in the stream table (R244 to R261), its telemetry (R264), and its RT side (R269, R279
to R281). Times are TIME64; clock times for timers. -/
structure LaneRec where
  st : Nat := 1
  sub : Submit := {}
  slot : Nat := 0
  leadTokens : Nat := 0
  B : Nat := 0
  R : Nat := 0
  /-- First uncommitted stream position. -/
  p : Nat := 0
  /-- Every token of the stream so far, by stream position. -/
  toks : List Nat := []
  released : Nat := 0
  reel : List ReelTok := []
  pass : Option Pass := none
  aborted : Bool := false
  runAhead : Option RunAhead := none
  /-- The run-ahead has become the next pass: its role 0 start tokens are due (R248). -/
  guessRight : Bool := false
  /-- The aborted pass waits for its replay (R119). -/
  replayDue : Bool := false
  held : Bool := false
  /-- Of the last 64 passes, which committed d + 1 positions. -/
  history : List Bool := []
  anchor : Nat := 0
  anchorT : Nat := 0
  primed : Bool := false
  refilling : Bool := false
  everRefilling : Bool := false
  covered : Bool := false
  submittedAt : Nat := 0
  primedAt : Nat := 0
  firstReleaseAt : Option Nat := none
  lastReleaseAt : Option Nat := none
  terminal : Option (Nat × Nat) := none
  ended : Bool := false
  /-- Violations and stalls that the pass under way has had: die, cause (0 a stall), logical unit, tag (R391, R393). -/
  violations : List (Nat × Nat × Nat × Nat) := []
  passes : Nat := 0
  proposed : Nat := 0
  accepted : Nat := 0
  broke : Nat := 0
  raRight : Nat := 0
  raKilled : Nat := 0
  replays : Nat := 0
  underruns : Nat := 0
  underrunNs : Nat := 0
  late : Nat := 0
  hist : SMap Nat := []
  ttft : Nat := 0
  prodCount : Nat := 0
  -- RT
  port : Nat := 0xFF
  reply : Endpoint := {}
  limit : Nat := 0
  acked : Nat := 0
  sent : List TokSent := []
  ctlIn : Nat := 1
  ctlOut : Nat := 0
  ctlSent : List CtlSent := []
  heardAt : Nat := 0
  stallFrom : Option Nat := none
  retransmits : Nat := 0
  creditStalls : Nat := 0
  creditStallNs : Nat := 0
  failovers : Nat := 0
  binNs : Nat := 1000
  /-- The stream has failed over: its answers go to its alternate endpoint, if it named one (R285). -/
  useAlt : Bool := false
  /-- An ABORT met it FLUSHING: the rest of its tokens goes out unpaced, and this ABORT is answered after the END (R261). -/
  unpaced : Bool := false
  abortSeq : Option Nat := none
  /-- The switch token of a couch: tokens from it on are the receiving panel's to release (R421). -/
  stopAt : Option Nat := none
  deriving DecidableEq, Repr

end Sys2Proof.Machine

namespace Sys2Proof

-- ------------------------------------------------------------------ what crosses a seam (chapter 16)

/-- The heartbeat of another panel of the cascade (R409), and what its sender reports with it (log entry 55): READY, PTP
locked and in which domain, its strap, the members it shares a MEMBER link with, the members it counts as lost, its role,
the slots it has PLACED, the streams of each class that it could still take, and whether it reads ISOLATED. -/
structure Beat where
  ready : Bool := false
  locked : Bool := false
  domain : Nat := 0
  strap : Bool := false
  peers : Nat := 0
  lost : Nat := 0
  role : Nat := 3
  placed : Nat := 0
  room : List Nat := []
  isolated : Bool := false
  deriving DecidableEq, Repr

/-- What another panel's seam engine brings besides heartbeats: channel 2 control packets, answers, and what its
transfers write here (R405 to R426, log entry 55). -/
inductive SeamMsg where
  /-- A transfer is acknowledged. -/
  | ack (id : Nat)
  /-- The master declares the cascade FORMED, or names the roles in force. -/
  | formed
  | roles (master deputy : Nat)
  /-- A slot's furnish image from the master (R410); a config record to be stored (R424). -/
  | image (slot mode cuts : Nat) (bytes : List Nat)
  | config (fields : List Nat)
  /-- A SUBMIT that the master admits here (R411), and a stream that it ends. -/
  | submit (sub : Submit)
  | terminate (stream reason detail : Nat)
  /-- The master's drain reads a reel (R411), and the answer to a drain read of the master's own. -/
  | drainRead (id stream index : Nat)
  | drained (stream index token : Nat)
  | ended (stream reason detail : Nat)
  /-- RT control state mirrored to the deputy: the stream and the panels that run it (R411). -/
  | mirror (x : Machine.LaneRec) (panels : List Nat)
  /-- A deepened pass: a cut's seam buffer arrives; another member aborts the pass; tokens released so far (R412). -/
  | cross (slot stream : Nat) (pass : Machine.Pass) (bufs : List (Nat × List Row))
  | abortPass (stream : Nat)
  | released (stream upTo : Nat)
  /-- A pace level and its PTP time (R414). -/
  | level (lvl at' : Nat)
  /-- A ream's panel word, partials of the segment owned here, and an FP32 segment (R417, R418). -/
  | word (slot red w : Nat)
  | partials (slot red panel : Nat) (l : List Nat)
  | segment (slot red panel : Nat) (l : List Nat)
  /-- A couch: the master's command, extents of a layer from a position on, the stream record with its furnish's ID and
  digest, the receiver's answer with its address, and the switch token (R420, R421). -/
  | couchCmd (stream panel serial : Nat)
  | extents (stream layer first : Nat) (bytes : List Nat)
  | couch (x : Machine.LaneRec) (fid digest : List Nat)
  | couchReady (stream : Nat) (dst : Endpoint)
  | couchRefused (stream : Nat)
  | couchSwitch (stream x panel : Nat)
  /-- A panel is expelled (R425). -/
  | expelled (panel : Nat)
  deriving DecidableEq, Repr

end Sys2Proof
end

