-- ==== Sys2Proof/Syntax.lean ====
section
/-!
DEFINITION. The commands and events of the panel, one constructor per row of spec/opcode_table.json. Every
constructor's first operand `dt` is the time in ns since the command before it (log entry 1); the other operands are
what the event brings from outside the panel, or the element that it concerns.
-/
namespace Sys2Proof

/-- The commands and events of the T220. -/
inductive Instr where
  /-- HUB_DISPATCH_POINT (R2). One turn of the hub firmware loop: it samples doorbells and flags, takes mailbox and queue items, and acts on each to completion. -/
  | hubDispatchPoint (dt : Nat) (hub : Fin 2) (work : Nat)
  /-- STEWARD_DISPATCH_POINT (R2). One turn of a steward's firmware loop, which samples its doorbells and mailboxes. -/
  | stewardDispatchPoint (dt : Nat) (sec : Fin 16)
  /-- TILE_SEQUENCER_DISPATCH (R84). One turn of a tile sequencer loop: it advances the heartbeat, drains the fault log and serves scan. -/
  | tileSequencerDispatch (dt : Nat) (tile : Nat)
  /-- CONFIG_TOKEN_ARRIVAL (R108). A configuration token arrives; the sequencer lifts it out, checks it and installs it as the slot's shadow descriptor. -/
  | configTokenArrival (dt : Nat) (tile : Nat) (q : Fin 48) (payload : Row) (wm : Fin 4) (src : Nat)
  /-- TOKEN_ARRIVAL (R98). A data, control, error or end-of-configuration token reaches a queue and is accepted, discarded as dead, or treated as a violation. -/
  | tokenArrival (dt : Nat) (tile : Nat) (q : Fin 48) (tok : Token) (src : Nat)
  /-- MATCHING_STORE_MOVE (R102). A visible token that cannot complete a firing moves into the matching store when an entry is free, unblocking its queue. -/
  | matchingStoreMove (dt : Nat) (tile : Nat) (slot : Fin 16) (input : Fin 4)
  /-- MATRIX_GROUP_FIRE (R70). A matrix unit fires on a group token and runs the group's blocks and handshakes into the partial store. -/
  | matrixGroupFire (dt : Nat) (tile : Nat) (slot : Fin 16)
  /-- MATRIX_EMIT (R72). A matrix unit emits one result token as output space allows. -/
  | matrixEmit (dt : Nat) (tile : Nat) (firing : Firing)
  /-- VECTOR_FIRE (R75). A vector unit consumes one token per input, runs its program once and emits assembled tokens at EMIT ops. -/
  | vectorFire (dt : Nat) (tile : Nat) (firing : Firing)
  /-- SCRATCHPAD_READ_FIRE (R79). A scratchpad read unit reads rows_per_fire rows from its region and emits each row as a data token. -/
  | scratchpadReadFire (dt : Nat) (tile : Nat) (slot : Fin 16) (contests : List (Fin 32 × Fin 5))
  /-- SCRATCHPAD_WRITE_FIRE (R79). A scratchpad write unit writes an input token's payload to the next row of its region, with a completion after rows_per_fire rows. -/
  | scratchpadWriteFire (dt : Nat) (tile : Nat) (slot : Fin 16) (contests : List (Fin 32 × Fin 5))
  /-- DMA_FIRE (R79). A DMA unit moves rows between its region and its buffer after checking the whole range. -/
  | dmaFire (dt : Nat) (tile : Nat) (slot : Fin 16) (contests : List (Fin 32 × Fin 5))
  /-- PAGE_GATHER_FIRE (R194). A page gather unit sends GATHER to the layer's home stack and waits for its WRITE_ACK before completing. -/
  | pageGatherFire (dt : Nat) (tile : Nat) (slot : Fin 16)
  /-- SWITCH_FIRE (R81). A switch pairs data and control by key and sends the data token to out0 or out1 by the decision bit. -/
  | switchFire (dt : Nat) (tile : Nat) (slot : Fin 16)
  /-- MERGE_FIRE (R81). A merge consumes its control token and the data token the control chooses, and forwards it. -/
  | mergeFire (dt : Nat) (tile : Nat) (slot : Fin 16)
  /-- GATE_FIRE (R81). A gate forwards its data token when the decision is 1 and consumes it silently when 0. -/
  | gateFire (dt : Nat) (tile : Nat) (slot : Fin 16)
  /-- SPLIT_FIRE (R81). A split copies its input token to both outputs when both have space. -/
  | splitFire (dt : Nat) (tile : Nat) (slot : Fin 16)
  /-- JOIN_FIRE (R81). A join consumes tokens of one tag on every bound input and forwards in0's token. -/
  | joinFire (dt : Nat) (tile : Nat) (slot : Fin 16)
  /-- INBOUND_MAILBOX_FIRE (R83). An inbound mailbox unit reads a full mailbox, clearing its flag, and emits the word as a data token with its tag counter. -/
  | inboundMailboxFire (dt : Nat) (tile : Nat) (slot : Fin 16)
  /-- OUTBOUND_MAILBOX_FIRE (R83). An outbound mailbox unit writes its token's payload to the mailbox its route handle names. -/
  | outboundMailboxFire (dt : Nat) (tile : Nat) (slot : Fin 16)
  /-- MAILBOX_RETRY (R180). A sender answered BUSY writes again after at least the busy backoff. -/
  | mailboxRetry (dt : Nat) (tile : Nat) (slot : Fin 16)
  /-- ERROR_TOKEN_FIRE (R86). A unit with an error token on an input consumes the matching tokens, performs nothing and emits error tokens on each output. -/
  | errorTokenFire (dt : Nat) (tile : Nat) (slot : Fin 16)
  /-- STALL_DETECTED (R107). A slot holding a token without firing for the stall threshold is recorded, its stall flag set and an event published. -/
  | stallDetected (dt : Nat) (tile : Nat) (slot : Fin 16)
  /-- SLOT_SWITCH (R111). When every W input shows end-of-configuration and the shadow is installed, the slot discards orphans, passes on end-of-configuration and takes W + 1. -/
  | slotSwitch (dt : Nat) (tile : Nat) (slot : Fin 16)
  /-- FENCE_APPLY (R115). A tile applies a lane's life advance at its next dispatch point, with any COMMIT and ROLLBACK sent with the fence. -/
  | fenceApply (dt : Nat) (tile : Nat) (lane : Fin 256)
  /-- FENCE_ACK (R115). A tile acknowledges a fence once it holds no dead token of the lane. -/
  | fenceAck (dt : Nat) (tile : Nat) (lane : Fin 256)
  /-- EPOCH_END (R250). The hub takes a commit word, reads the pass record, truncates at stops, writes the commit record and sends COMMIT, ROLLBACK and the fence. -/
  | epochEnd (dt : Nat) (mbox : Fin 64)
  /-- EPOCH_ABORT (R119). The hub marks the epoch aborted, fences the lanes by + 2, rolls heads back, re-places and reissues the pass with the same tags. -/
  | epochAbort (dt : Nat) (lane : Fin 256)
  /-- PASS_ISSUE (R252). The hub issues a lane's next pass start tokens once the hold rules allow. -/
  | passIssue (dt : Nat) (lane : Fin 256)
  /-- RUNAHEAD_ISSUE (R248). The hub issues a run-ahead draft pass at life L + 1 when the issue conditions hold. -/
  | runaheadIssue (dt : Nat) (lane : Fin 256)
  /-- TILE_HOLD (R122). A TILE_CMD puts a tile into HOLD; started firings complete and the matrix engine stops at a handshake boundary. -/
  | tileHold (dt : Nat) (tile : Nat)
  /-- TILE_RUN (R122). A TILE_CMD releases a tile to RUN. -/
  | tileRun (dt : Nat) (tile : Nat)
  /-- TILE_SCAN_OUT (R124). A tile writes its 144 KiB scan image to the named buffer. -/
  | tileScanOut (dt : Nat) (tile node offset : Nat)
  /-- TILE_SCAN_IN (R125). A tile accepts a checked consistent scan image and replaces its whole dataflow state, or rejects it unchanged. -/
  | tileScanIn (dt : Nat) (tile node offset : Nat)
  /-- REGION_SET (R148). Hub command installing a region descriptor and zeroing its pointers. -/
  | regionSet (dt : Nat) (tile : Nat) (entry : Fin 32) (g0 g1 : BitVec 64) (position : Nat)
  /-- FILL (R148). Hub command writing a pattern into scratchpad rows and setting their tags. -/
  | scratchFill (dt : Nat) (tile first rows : Nat) (pattern : BitVec 64) (full : Bool)
  /-- COPY (R148). Hub command copying scratchpad rows and their tags. -/
  | scratchCopy (dt : Nat) (tile source dest rows : Nat)
  /-- TAGSET (R148). Hub command setting row tags without changing contents. -/
  | tagset (dt : Nat) (tile first rows : Nat) (full : Bool)
  /-- COMMIT (R146). Hub command setting a POSITION region's commit_pos. -/
  | scratchCommit (dt : Nat) (tile : Nat) (entry : Fin 32) (position : Nat)
  /-- ROLLBACK (R146). Hub command setting head_pos back to commit_pos once started dead firings complete. -/
  | scratchRollback (dt : Nat) (tile : Nat) (entry : Fin 32)
  /-- SWAP (R141). Hub command flipping the live copy of a two-copy resident region. -/
  | scratchSwap (dt : Nat) (tile : Nat) (entry : Fin 32)
  /-- SAVE (R151). Hub command writing a save image of scratchpad rows and the region table. -/
  | scratchSave (dt : Nat) (tile first rows node offset : Nat)
  /-- RESTORE (R151). Hub command reading a save image and installing it if format, row count and CRC check. -/
  | scratchRestore (dt : Nat) (tile node offset : Nat)
  /-- SWAP_PROTOCOL (R141). Once new draft state is complete, the hub quiesces the reading lanes, sends SWAP everywhere, then releases the lanes. -/
  | swapProtocol (dt : Nat) (slot : Fin 8)
  /-- TOKENS_PACKET (R156). A TOKENS packet arrives and delivers its tokens to one queue. -/
  | tokensPacket (dt : Nat) (p : Pkt)
  /-- REMOTE_WRITE (R167). A WRITE packet is taken into the remote request table and written under the tag rules, then acknowledged. -/
  | remoteWrite (dt : Nat) (p : Pkt)
  /-- REMOTE_READ (R167). A READ packet is taken into the remote request table and answered with READ_DATA once its rows are ready. -/
  | remoteRead (dt : Nat) (p : Pkt) (ecc : EccReport)
  /-- WRITE_ACK (R156). A WRITE_ACK response reaches the source of a WRITE. -/
  | writeAck (dt : Nat) (p : Pkt)
  /-- READ_DATA (R156). READ_DATA lands at the requester's ret_offset. -/
  | readData (dt : Nat) (p : Pkt)
  /-- ERROR_PACKET (R168). An ERROR packet reaches a source, which logs cause 0x000A and completes any memory firing with error tokens. -/
  | errorPacket (dt : Nat) (p : Pkt)
  /-- CONFIG_PACKET (R156). A CONFIG packet delivers configuration or end-of-configuration tokens to a tile. -/
  | configPacket (dt : Nat) (p : Pkt)
  /-- INSTALL (R156). An INSTALL packet from a hub writes rows into a tile's tables or program store. -/
  | install (dt : Nat) (p : Pkt) (first : Nat) (rows : InstallRows)
  /-- MULTICAST_FORWARD (R170). A die forwards a multicast packet arriving on its parent edge to its branches and tiles. -/
  | multicastForward (dt : Nat) (site : Fin 256) (edge : Fin 5) (p : Pkt) (inst : Option Install)
  /-- LINK_BLOCK_RECEIVED (R172). A transfer block is received, checked by CRC and sequence, acknowledged or NAKed, and its flits are taken. -/
  | linkBlockReceived (dt : Nat) (link : Nat) (b : Block) (turn : LinkTurn)
  /-- ACK_TIMEOUT_RETRAIN (R173). No acknowledgement for 10 µs with blocks outstanding starts a retrain. -/
  | ackTimeoutRetrain (dt : Nat) (link : Nat)
  /-- RETRAIN_REQUEST (R173). A link end decides to retrain, or receives a kind-4 block, and enters the retrain. -/
  | retrainRequest (dt : Nat) (link : Nat) (received : Bool)
  /-- RETRAIN_DONE (R173). A retrain completes, recalibrating the link at full or half width or failing it, and publishes a link event. -/
  | retrainDone (dt : Nat) (link lanes minPs : Nat) (ok : Bool)
  /-- LINK_FAIL (R174). A failed link discards its buffers; lanes in its unacknowledged flits abort and the next generation routes around it. -/
  | linkFail (dt : Nat) (link : Nat) (cut : List (Pkt × Nat))
  /-- HELD_FLIT_FAULT (R175). A flit held on one hop for the held-flit limit purges the link and aborts the lanes named. -/
  | heldFlitFault (dt : Nat) (link : Nat) (cut : List (Pkt × Nat))
  /-- BANK_FLIP (R163). Every die flips its active table bank at the epoch boundary of a new generation; the old bank drains. -/
  | bankFlip (dt : Nat) (pairs : Nat)
  /-- BANK_DRAIN_END (R163). A draining bank becomes idle once the held-flit limit has passed since the flip. -/
  | bankDrainEnd (dt : Nat) (bank : Fin 2)
  /-- LINK_ADMIT (R165). A die or link passable again is admitted after affected lanes are quiet, by a bank flip. -/
  | linkAdmit (dt : Nat) (pairs : Nat)
  /-- MBOX_WRITE (R180). A mailbox write stores the word and is answered ACCEPTED, or BUSY if full, or ERROR if not allowed. -/
  | mboxWrite (dt : Nat) (c : Ctl)
  /-- MBOX_RESP (R177). A sender receives the response to its mailbox write. -/
  | mboxResp (dt : Nat) (c : Ctl)
  /-- MBOX_POLL (R180). A sender polls a mailbox's full flag. -/
  | mboxPoll (dt : Nat) (c : Ctl)
  /-- MBOX_POLL_RESP (R177). A poller receives the mailbox full flag. -/
  | mboxPollResp (dt : Nat) (c : Ctl)
  /-- DOORBELL (R183). A doorbell packet or write sets a doorbell bit, or adds to its coalesced count. -/
  | doorbell (dt : Nat) (c : Ctl)
  /-- FLAG_READ (R177). A node is asked for a group of polled flags and answers. -/
  | flagRead (dt : Nat) (c : Ctl)
  /-- FLAG_RESP (R177). The hub receives the flags it polled. -/
  | flagResp (dt : Nat) (c : Ctl)
  /-- FAULT_NOTICE (R178). A fault notice reaches the hub's queue, or is answered BUSY when the queue is full. -/
  | faultNotice (dt : Nat) (c : Ctl)
  /-- NOTICE_RESP (R178). A notice sender receives taken or BUSY. -/
  | noticeResp (dt : Nat) (c : Ctl)
  /-- NOTICE_RESEND (R178). A sender answered BUSY resends its fault notice after the backoff. -/
  | noticeResend (dt : Nat) (node : Nat)
  /-- SCAN_DATA (R177). A control packet carries one row of a scan image, save image or dump record. -/
  | scanData (dt : Nat) (c : Ctl)
  /-- BITMAP_READ (R441). The hub reads a die's 512-bit firmware chunk bitmap. -/
  | bitmapRead (dt : Nat) (c : Ctl)
  /-- OD_REQ (R177). An object-dictionary agent request reaches a node. -/
  | odReq (dt : Nat) (c : Ctl)
  /-- OD_RESP (R177). An object-dictionary agent response reaches the hub. -/
  | odResp (dt : Nat) (c : Ctl)
  /-- GATHER (R194). A base die looks up the lane and key, writes the entries to the tile and sends WRITE_ACK, or fails with 0x0008. -/
  | gather (dt : Nat) (g : Gathering)
  /-- STACK_FILL (R192). Base-die command filling a stack range with a pattern. -/
  | stackFill (dt : Nat) (p : Pkt)
  /-- STACK_COPY (R192). Base-die command copying a stack range to a stack or tile. -/
  | stackCopy (dt : Nat) (p : Pkt)
  /-- DIR_SET (R193). Hub command writing one KV directory entry. -/
  | dirSet (dt : Nat) (p : Pkt)
  /-- DIR_CLEAR (R193). Hub command clearing a lane's KV directory entries. -/
  | dirClear (dt : Nat) (p : Pkt)
  /-- GROUP_SET (R196). Hub command installing an erasure group's membership on a member. -/
  | groupSet (dt : Nat) (p : Pkt)
  /-- PARITY_DELTA (R199). A parity member applies a newer delta, forwards or acknowledges it, or discards a stale one. -/
  | parityDelta (dt : Nat) (p : Pkt)
  /-- GROUP_READ (R200). A data member answers a code row read once the row is not open. -/
  | groupRead (dt : Nat) (p : Pkt)
  /-- REBUILD (R202). Hub command starting the rebuild of a lost group member into a target slab. -/
  | rebuild (dt : Nat) (p : Pkt)
  /-- REBUILD_COMPLETE (R202). A rebuild's last row is done; the target joins the group by GROUP_SET and degraded service ends. -/
  | rebuildComplete (dt : Nat) (group : Fin 256) (member : Fin 12)
  /-- SCRUB (R204). Hub command scrubbing a stack range at once. -/
  | scrub (dt : Nat) (p : Pkt) (corrected : Nat) (bad : List Nat)
  /-- SCRUB_PASS (R204). A base die scrubs its stack space once per scrub period, correcting, reconstructing or reporting rows. -/
  | scrubPass (dt : Nat) (site corrected : Nat) (bad : List Nat)
  /-- STACK_TEMP_SAMPLE (R206). Every 100 µs a stack's temperature is sampled, suspect marks updated and the level set. -/
  | stackTempSample (dt : Nat) (site : Nat) (baseMc dramMc : Int)
  /-- STACK_REJOIN (R207). An offline stack below 80 °C for 60 s passes a DRAM test and rejoins empty at a re-plan. -/
  | stackRejoin (dt : Nat) (site : Nat) (passed : Bool)
  /-- WEIGHT_COPY_RESTORE (R203). Background COPY restores a second weight copy after one is lost. -/
  | weightCopyRestore (dt : Nat) (slot : Fin 8) (sec : Nat)
  /-- SLOT_BEGIN (R220). BEGIN reserves image staging and sets the cursor, or is refused. -/
  | slotBegin (dt : Nat) (slot : Fin 8)
  /-- SLOT_IMAGE_WRITE (R220). 1to1,024 bytes land at the slot cursor and advance it. -/
  | slotImageWrite (dt : Nat) (slot : Fin 8) (b : List Nat)
  /-- SLOT_CURSOR_WRITE (R220). A write to the slot cursor, accepted only in RECEIVING or during resupply. -/
  | slotCursorWrite (dt : Nat) (slot : Fin 8) (v : Nat)
  /-- SLOT_COMMIT (R221). COMMIT with a full image starts the load checks. -/
  | slotCommit (dt : Nat) (slot : Fin 8)
  /-- LOAD_CHECKS_DONE (R221). The load checks end, sending the slot to PLACING or to FAILED with a load error. -/
  | loadChecksDone (dt : Nat) (slot : Fin 8)
  /-- PLACEMENT_DONE (R220). The placer finishes placing a slot, which reads PLACED or PARKED. -/
  | placementDone (dt : Nat) (slot : Fin 8) (est cap bulk : Nat)
  /-- SLOT_CANCEL (R220). CANCEL empties a receiving or failed slot. -/
  | slotCancel (dt : Nat) (slot : Fin 8)
  /-- SLOT_UNLOAD (R220). UNLOAD with no admitted stream enters UNLOADING and ends queued streams that no other slot serves. -/
  | slotUnload (dt : Nat) (slot : Fin 8)
  /-- UNLOAD_DONE (R220). An unloading slot becomes EMPTY once its tiles and stack space are free. -/
  | unloadDone (dt : Nat) (slot : Fin 8)
  /-- RESUPPLY (R222). RESUPPLY checks resupplied bytes against the recorded digest and restores two copies, or publishes the request again. -/
  | resupply (dt : Nat) (slot : Fin 8)
  /-- REPLAN_FORCE (R236). A write of 1 requests a FULL re-plan at the next couch point. -/
  | replanForce (dt : Nat)
  /-- REBALANCE (R236). A REBALANCE step at a couch point moves up to replan_max_dies dies. -/
  | rebalance (dt : Nat) (pauseUs : Nat)
  /-- RESPARE (R236). At a couch point an active die of a spareless sector moves to a spare of a sector holding two. -/
  | respare (dt : Nat) (pauseUs : Nat)
  /-- SLICE (R235). At slice end the outgoing furnish is quiesced, scanned and saved and the incoming one restored. -/
  | slice (dt : Nat) (out in' : Fin 9) (est cap bulk pauseUs : Nat)
  /-- FULL_REPLAN (R236). A FULL re-plan step recomputes everything and takes effect as live moves at couch points. -/
  | fullReplan (dt : Nat) (pauseUs : Nat)
  /-- SPEED_SAMPLE (R239). Each second the placer samples every active die's handshake rate and speed factor and detects stragglers. -/
  | speedSample (dt : Nat) (rates : List (Nat × Nat))
  /-- PLAN_RECOMPUTE_DONE (R231). The placer finishes recomputing plan entries for a new generation. -/
  | planRecomputeDone (dt : Nat)
  /-- SUBMIT_FRAGMENT (R276). A SUBMIT fragment is staged, overwriting any earlier copy of that fragment. -/
  | submitFragment (dt : Nat) (d : Dgram)
  /-- SUBMIT (R258). A complete SUBMIT is checked against the refusals and queued for admission, or answered as a retransmission. -/
  | rtSubmit (dt : Nat) (stream : Nat) (src : Endpoint)
  /-- SUBMIT_TIMEOUT (R276). Fragments incomplete after submit_timeout_ms are discarded. -/
  | submitTimeout (dt : Nat) (stream : Nat) (src : Endpoint)
  /-- ADMIT (R258). A queued stream is admitted to the first fitting slot, taking a lane, extents, B and R. -/
  | admitStream (dt : Nat)
  /-- TOKEN_RELEASE (R253). The port die releases an express token at its due time in a TOKENS message. -/
  | tokenRelease (dt : Nat) (lane : Fin 4096)
  /-- UNDERRUN_RELEASE (R254). A token not committed at its due time is released when its entry arrives and becomes the new anchor. -/
  | underrunRelease (dt : Nat) (lane : Fin 4096)
  /-- ABORT (R261). An RT ABORT is decided against the stream table and answered with ABORT_RESP. -/
  | rtAbort (dt : Nat) (d : Dgram)
  /-- TERMINAL_RECORD_EXPIRE (R260). A terminal record is dropped terminal_keep_s after its END. -/
  | terminalRecordExpire (dt : Nat) (stream : Nat)
  /-- PRODUCTION_CHECK (R257). Each second a stream's production is compared with ρ and contract_risk published if below. -/
  | productionCheck (dt : Nat) (lane : Fin 256)
  /-- ADAPT_CYCLE_START (R262). A full sample ring begins an adaptation cycle of background passes. -/
  | adaptCycleStart (dt : Nat) (slot : Fin 8)
  /-- ADAPT_CYCLE_DONE (R263). An adaptation cycle ends by swap, generation increment and new state digest. -/
  | adaptCycleDone (dt : Nat) (slot : Fin 8)
  /-- PORT_ROLE_WRITE (R267). A role write on a port without streams takes effect at once and retrains the link, or is refused. -/
  | portRoleWrite (dt : Nat) (port : Fin 16) (role : Nat)
  /-- SACK (R278). A host SACK acknowledges tokens and control messages and echoes CE. -/
  | rtSack (dt : Nat) (d : Dgram)
  /-- CREDIT (R280). A newer CREDIT moves the credit limit forward and frees waiting tokens. -/
  | rtCredit (dt : Nat) (d : Dgram)
  /-- RT_RETRANSMIT (R279). An unacknowledged token or control message is retransmitted after the RTO, doubling. -/
  | rtRetransmit (dt : Nat) (stream : Nat)
  /-- HOST_SILENCE (R281). A stream whose host is silent for host_silence_ms is aborted. -/
  | hostSilence (dt : Nat) (stream : Nat)
  /-- PFC_PAUSE (R283). A PFC pause on the RT priority holds all transmissions of the port until it ends. -/
  | pfcPause (dt : Nat) (port : Fin 16) (prio : Nat)
  /-- PFC_PAUSE_END (R283). A pause ends and held tokens go out with their scheduled times. -/
  | pfcPauseEnd (dt : Nat) (port : Fin 16)
  /-- PTP_MESSAGE (R284). A PTP message updates the time base as an ordinary slave clock. -/
  | ptpMessage (dt : Nat) (port : Fin 16) (domain : Nat) (announce : Bool) (offsetNs : Int)
  /-- PTP_PORT_MOVE (R284). When the PTP port fails, PTP moves to the next host port. -/
  | ptpPortMove (dt : Nat)
  /-- HOST_PORT_FAIL (R285). A failed host port's streams move to its alternate with their unacknowledged tokens and messages. -/
  | hostPortFail (dt : Nat) (port : Fin 16)
  /-- HOST_PORT_UP (R287). A host port returns to UP and takes new SUBMITs. -/
  | hostPortUp (dt : Nat) (port : Fin 16)
  /-- MODULE_INSERT (R288). An optical module is identified, checked and trained, or refused. -/
  | moduleInsert (dt : Nat) (port : Fin 16) (vendor part serial revision cmis : Nat) (app : Bool) (powerMw warnUa : Nat)
  /-- MODULE_REMOVE (R289). An optical module is removed, failing a host port or re-seaming a cascade port. -/
  | moduleRemove (dt : Nat) (port : Fin 16)
  /-- MODULE_MONITOR_READ (R288). Once per second module monitors are read for the life records. -/
  | moduleMonitorRead (dt : Nat) (port : Fin 16) (tempMc : Int) (biasUa : Nat) (fault : Bool)
  /-- LLDP_RECEIVE (R273). An LLDP frame is received and its neighbour published. -/
  | lldpReceive (dt : Nat) (port : Fin 16) (mac : Nat) (portId name : List Nat)
  /-- ARP_REQUEST (R270). An ARP request for the port's IPv4 address is answered. -/
  | arpRequest (dt : Nat) (port : Fin 16) (target sender : Nat)
  /-- NEIGHBOR_DISCOVERY (R270). An IPv6 Neighbor Discovery message is answered. -/
  | neighborDiscovery (dt : Nat) (port : Fin 16) (target sender : Nat)
  /-- ICMP_ECHO (R270). An ICMP or ICMPv6 echo request is answered. -/
  | icmpEcho (dt : Nat) (d : Dgram) (v6 : Bool) (target : Nat)
  /-- EOP_FRAGMENT_TIMEOUT (R293). EOP fragments incomplete after 100 ms are discarded. -/
  | eopFragmentTimeout (dt : Nat)
  /-- HELLO (R295). A HELLO makes a half-open session and is answered with CHALLENGE. -/
  | hello (dt : Nat) (d : Dgram)
  /-- HALF_OPEN_EXPIRE (R295). A half-open session is discarded after 10 s. -/
  | halfOpenExpire (dt : Nat)
  /-- PROOF (R297). A PROOF is checked and the session opened with OPENED, or refused. -/
  | proof (dt : Nat) (session : Nat)
  /-- PROTECTED_RECEIVE (R299). A protected datagram is accepted by sequence and tag, silently discarded, or answered REFUSE SESSION. -/
  | protectedReceive (dt : Nat) (d : Dgram)
  /-- CLOSE (R298). A CLOSE ends a session. -/
  | closeSession (dt : Nat) (session : Nat)
  /-- KEEPALIVE (R300). A KEEPALIVE is answered with a KEEPALIVE. -/
  | keepalive (dt : Nat) (session : Nat)
  /-- SESSION_IDLE_TIMEOUT (R298). A session without a valid client message for 60 s is closed. -/
  | sessionIdleTimeout (dt : Nat) (session : Nat)
  /-- SESSION_LIFETIME_END (R298). A session is closed 12 h after OPENED. -/
  | sessionLifetimeEnd (dt : Nat) (session : Nat)
  /-- READ (R303). A READ of 1to32 entries is served whole at one dispatch point. -/
  | readReq (dt : Nat) (session : Nat)
  /-- WRITE (R303). A WRITE's entries are applied in order, each independently. -/
  | writeReq (dt : Nat) (session : Nat)
  /-- BULK_READ (R304). A BULK_READ returns up to 16,384 bytes of one object's encoding from an offset. -/
  | bulkRead (dt : Nat) (session : Nat)
  /-- SUBSCRIBE (R308). A SUBSCRIBE creates a filtered subscription or answers BUSY. -/
  | subscribe (dt : Nat) (session : Nat)
  /-- UNSUBSCRIBE (R308). An UNSUBSCRIBE ends the named subscription. -/
  | unsubscribe (dt : Nat) (session : Nat)
  /-- EVENT_ACK (R309). An EVENT_ACK acknowledges events up to a number. -/
  | eventAck (dt : Nat) (session : Nat)
  /-- EVENT_RESEND (R309). An unacknowledged EVENT is sent again after its doubling interval. -/
  | eventResend (dt : Nat) (session sub : Nat)
  /-- QUORUM (R312). A QUORUM command is checked in order and accepted or answered with the first failure. -/
  | quorum (dt : Nat) (session : Nat)
  /-- QUORUM_ID_EXPIRE (R313). A taken command_id is dropped once its not_after has passed. -/
  | quorumIdExpire (dt : Nat)
  /-- RETIRE (R336). RETIRE stores retired, ends streams WITHDRAWN, waits for ENDs, unloads and powers sectors down. -/
  | retire (dt : Nat)
  /-- EXPEL (R425). EXPEL stops admission to the subject, couches its streams, withdraws the rest and sends the expulsion notice. -/
  | expel (dt : Nat)
  /-- FORCED_HANDOVER (R422). FORCED_HANDOVER couches the named stream, or all, to the subject panel one at a time. -/
  | forcedHandover (dt : Nat)
  /-- OBJECT_WRITE (R320). A write to an RW object without a row of its own is checked and applied, clearing counters on zero. -/
  | objectWrite (dt : Nat) (level ix sub : Nat) (b : List Nat)
  /-- RECORD_WRITE (R322). A whole-record write applies all writable fields together if RO fields match. -/
  | recordWrite (dt : Nat) (level ix : Nat) (b : List Nat)
  /-- STORE_COMMIT (R325). A changed STORED value is committed to the older flash copy and its WRITE_RESP then sent. -/
  | storeCommit (dt : Nat)
  /-- HOLD (R333). device.control.hold written 1 closes admission and ends queued streams REFUSED detail 8. -/
  | holdCmd (dt : Nat)
  /-- RELEASE_HOLD (R333). device.control.hold written 0 returns to READY or SERVING. -/
  | releaseHold (dt : Nat)
  /-- START (R447). START in STANDBY begins bring-up at sector power-up. -/
  | startCmd (dt : Nat)
  /-- STOP (R333). STOP with no stream powers sectors down to STANDBY. -/
  | stopCmd (dt : Nat)
  /-- WARM_RESET (R447). WARM_RESET keeps the hubs and powered sectors, puts stacks into self-refresh, resets other dies and begins bring-up. -/
  | warmReset (dt : Nat)
  /-- UNRETIRE (R333). A FACTORY write clears retired and moves RETIRED to STANDBY. -/
  | unretire (dt : Nat)
  /-- STORE_RESET (R326). device.store.reset restores the defaults of STORED objects except enrolment and retired. -/
  | storeReset (dt : Nat)
  /-- SESSION_CLOSE (R339). session.close closes the named session with reason 4. -/
  | sessionClose (dt : Nat) (id : Nat)
  /-- PRINCIPAL_SET (R337). session.principal_set writes or empties a principal slot and closes that principal's sessions. -/
  | principalSet (dt : Nat) (level : Nat) (b : List Nat)
  /-- QUORUM_SET (R338). session.quorum_set replaces the fleet-manager keys and k together. -/
  | quorumSet (dt : Nat) (b : List Nat)
  /-- MGMT_ADDRESS_WRITE (R340). A write to a management address field takes effect after its response and closes management sessions. -/
  | mgmtAddressWrite (dt : Nat) (sub v : Nat)
  /-- SECTOR_POWER_UP (R343). A steward powers its sector's domains up in order, each after the previous settles. -/
  | sectorPowerUp (dt : Nat) (sec : Fin 16) (phases : Nat)
  /-- RAIL_SETTLE_TIMEOUT (R343). A rail not settled within 10 ms fails the sector's power-up. -/
  | railSettleTimeout (dt : Nat) (sec : Fin 16)
  /-- SETPOINT_WRITE (R344). A VDDL or VDDM set-point write starts a ramp of at most 10 mV per 10 µs. -/
  | setpointWrite (dt : Nat) (sec : Fin 16) (domain : Fin 2) (mv : Nat)
  /-- SETPOINT_REACHED (R344). The ramp reaches the new set point, which is published. -/
  | setpointReached (dt : Nat) (sec : Fin 16) (domain : Fin 2)
  /-- PACE_LEVEL_CHANGE (R347). A steward broadcasts a new sector pace level and tiles apply it. -/
  | paceLevelChange (dt : Nat) (sec : Fin 16)
  /-- PANEL_POWER_SAMPLE (R349). Every 10 µs the hub samples input power and lowers or raises the common ceiling or hard-trips. -/
  | panelPowerSample (dt : Nat) (mv watts projected : Nat) (outputs : List Nat)
  /-- SECTOR_CURRENT_SAMPLE (R350). Every 10 µs a steward samples sector current and lowers or raises its level against its cap. -/
  | sectorCurrentSample (dt : Nat) (sec : Fin 16) (amps watts projected : Nat)
  /-- PACE_SHORTFALL (R348). In fixed mode a sector below the fixed level for 1 ms publishes pace_shortfall. -/
  | paceShortfall (dt : Nat) (sec : Fin 16)
  /-- DROOP_EVENT (R351). A droop event applies droop trim of two levels for 20 µs. -/
  | droopEvent (dt : Nat) (sec : Fin 16)
  /-- DROOP_TRIM_EXPIRE (R351). Droop trim ends 20 µs after the last droop event. -/
  | droopTrimExpire (dt : Nat) (sec : Fin 16)
  /-- BRICK_LOSS (R345). A brick drops off the bus and the effective cap is recomputed. -/
  | brickLoss (dt : Nat) (brick : Fin 13) (state : Nat)
  /-- BRICK_INSERT (R476). A working brick inserted restores the cap and publishes kind 2. -/
  | brickInsert (dt : Nat) (brick : Fin 13) (serial : Nat)
  /-- IDLE_ENTRY (R352). A tile with nothing to do for idle_entry_us enters deep idle. -/
  | idleEntry (dt : Nat) (tile : Nat)
  /-- IDLE_COMMAND (R352). A hub IDLE command puts tiles into deep idle. -/
  | idleCommand (dt : Nat) (tile : Nat)
  /-- WAKE_REQUEST (R354). A wake request is admitted whole or staged, with wake trim. -/
  | wakeRequest (dt : Nat) (tile : Nat) (recovery : Bool)
  /-- WAKE_STEP (R354). One column of a staged wake wakes once headroom covers its step. -/
  | wakeStep (dt : Nat) (sec : Fin 16)
  /-- WAKE_TRIM_EXPIRE (R354). Wake trim ends 100 µs after staging started. -/
  | wakeTrimExpire (dt : Nat) (sec : Fin 16)
  /-- SECTOR_LATCH (R355). Overcurrent or rail collapse latches a sector's controllers off and opens its input switch. -/
  | sectorLatch (dt : Nat) (sec : Fin 16)
  /-- SECTOR_SUPPLY_LOSS (R355). The hub's 10 µs poll finds a sector's input switch open and decides the sector lost. -/
  | sectorSupplyLoss (dt : Nat) (sec : Fin 16)
  /-- HOTSPOT_SAMPLE (R356). Every 100 µs a steward samples sensors and updates disputes and suspect marks. -/
  | hotspotSample (dt : Nat) (site : Fin 256) (spot : Fin 4) (a b est : Int)
  /-- DIE_TEMP_EVAL (R357). Every 1 ms a die's temperature sets its thermal ceiling or makes it critical. -/
  | dieTempEval (dt : Nat) (site : Fin 256)
  /-- CRITICAL_DIE_RETEST (R357). A die below 80 °C for 60 s gets a known-answer run and may rejoin as a spare. -/
  | criticalDieRetest (dt : Nat) (site : Fin 256) (bad : Nat) (passed : Bool)
  /-- THERMAL_RESISTANCE_SAMPLE (R359). Each second a steward computes effective thermal resistance, baseline, ratio and derate. -/
  | thermalResistanceSample (dt : Nat) (sec : Fin 16)
  /-- COOLING_WARNING (R358). A cooling condition held 10 s raises or clears the cooling warning. -/
  | coolingWarning (dt : Nat) (inletMc outletMc : Int) (flow : Nat)
  /-- MARGIN_READ (R364). Every 10 s firmware reads tile margins and ring oscillators. -/
  | marginRead (dt : Nat) (site : Fin 256) (margins : List Nat) (slowing : Nat)
  /-- EYE_MARGIN_READ (R367). Hourly lane eye margins are read and weak lanes marked. -/
  | eyeMarginRead (dt : Nat) (link : Nat) (lanes : List (Nat × Nat))
  /-- STACK_ECC_RATE_CHECK (R368). A stack's corrected rows above 1,000 per hour for 24 h publish a margin event. -/
  | stackEccRateCheck (dt : Nat) (site : Nat)
  /-- MARGIN_REPLAN (R369). A due margin re-plan gathers margins, computes trims and set points, applies them and stores history. -/
  | marginReplan (dt : Nat)
  /-- REPLAN_NOW (R373). ageing.panel.replan_now requests a re-plan when due, or is refused within the period. -/
  | replanNow (dt : Nat)
  /-- MODULE_LIFE_DAILY (R375). Daily the panel fits laser bias and publishes replacement warnings. -/
  | moduleLifeDaily (dt : Nat) (port : Fin 16)
  /-- DIE_HEARTBEAT_READ (R381). Every 10 µs a steward reads its dies' heartbeats; three still reads lose the die. -/
  | dieHeartbeatRead (dt : Nat) (site : Fin 256)
  /-- HUB_HEARTBEAT (R381). Each hub rings its peer every 5 µs; four missed rings lose the peer. -/
  | hubHeartbeat (dt : Nat) (hub : Fin 2) (rung : Bool)
  /-- OFFGRID_HEARTBEAT_POLL (R381). Every 10 µs the hub polls port dies and stewards; three stale reads lose one. -/
  | offgridHeartbeatPoll (dt : Nat) (fn : Fin 20) (fresh : Bool)
  /-- FAULT_CONTAINMENT (R382). On a fault decision the hub aborts the named lanes and stops sending to the lost part. -/
  | faultContainment (dt : Nat)
  /-- REPAIR (R383). The next serialised repair re-places, restores and issues replay for one fault. -/
  | repair (dt : Nat) (est cap bulk : Nat)
  /-- HUB_LOSS (R388). The surviving hub takes sessions, clock and mailboxes, aborts rebound lanes and sets cause bit 4. -/
  | hubLoss (dt : Nat) (hub : Fin 2)
  /-- STEWARD_LOSS (R390). A lost steward's sector is counted lost, evacuated at couch points and put into deep idle. -/
  | stewardLoss (dt : Nat) (sec : Fin 16)
  /-- VIOLATION_NOTICE (R391). A violation on a stream lane aborts and replays once; a repeat is a furnish fault. -/
  | violationNotice (dt : Nat)
  /-- STALL_ABORT (R393). fault.panel.stall_abort aborts and replays a stalled lane's epoch. -/
  | stallAbort (dt : Nat) (lane : Fin 256)
  /-- BG_ESCALATE (R394). A background class's waiting time crosses a threshold and escalates. -/
  | bgEscalate (dt : Nat) (cls : Fin 5)
  /-- BG_SLOT_HOLD (R395). An URGENT class holds other lanes' next passes at an epoch boundary for up to 200 µs. -/
  | bgSlotHold (dt : Nat) (cls : Fin 5) (us : Nat)
  /-- SCRUB_FORCED_PAUSE (R396). An overdue scrub admits only scrub requests for 1 ms each second. -/
  | scrubForcedPause (dt : Nat) (site : Nat)
  /-- RESUPPLY_TIMEOUT (R399). Bytes not resupplied within resupply_wait_s end the slot's streams STATE_LOST. -/
  | resupplyTimeout (dt : Nat) (slot : Fin 8)
  /-- FATAL_ENTRY (R458). The deciding hub closes admission, holds ports down, closes in-band sessions and takes the dump. -/
  | fatalEntry (dt : Nat) (which : Fin 5)
  /-- HUBS_LOST_IDLE (R401). Stewards seeing both hub heartbeats stop for 100 µs idle their tiles and hold rails. -/
  | hubsLostIdle (dt : Nat)
  /-- SEAM_LINK_UP (R404). A seam link trains, exchanges hellos, calibrates and takes its link state. -/
  | seamLinkUp (dt : Nat) (port : Fin 16) (serial cid digest panel peerPort minPs : Nat)
  /-- CASCADE_FORM (R408). The designated master declares the cascade FORMED when all members are ready and joined. -/
  | cascadeForm (dt : Nat)
  /-- MEMBER_HEARTBEAT (R409). A member heartbeat control packet arrives on a MEMBER link. -/
  | memberHeartbeat (dt : Nat) (port : Fin 16) (beat : Option Beat) (msgs : List SeamMsg)
  /-- MEMBER_LOSS (R426). A member heard on no link for 100 µs is lost and its streams handled. -/
  | memberLoss (dt : Nat) (panel : Fin 8)
  /-- DEPUTY_TAKEOVER (R409). The deputy takes the master role when a majority reports the master lost. -/
  | deputyTakeover (dt : Nat)
  /-- MASTER_ISOLATE (R409). A master hearing fewer than a majority for 100 µs gives up the role. -/
  | masterIsolate (dt : Nat)
  /-- TRANSFER_REISSUE (R406). A seam transfer unacknowledged in 10 ms or on a failed link is reissued on another link. -/
  | transferReissue (dt : Nat) (id : Nat)
  /-- CASCADE_LEVEL_CHANGE (R414). A cascade pace level change is applied on every member at its PTP time. -/
  | cascadeLevelChange (dt : Nat)
  /-- DEEPEN_COMMIT_RECORD (R412). A DEEPEN member receiving the commit record applies COMMIT and ROLLBACK to its windows. -/
  | deepenCommitRecord (dt : Nat) (port : Fin 16) (stream : Nat) (record : Row)
  /-- REAM_CONTRIBUTION (R416). A contribution copy arrives; a full ream starts its reduction. -/
  | reamContribution (dt : Nat) (slot : Fin 8) (red index : Nat) (copy : Fin 2) (word : BitVec 64) (values : List Nat)
  /-- REAM_DEADLINE (R416). At the ream deadline, B copies are taken and reduction starts if every contribution has a copy. -/
  | reamDeadline (dt : Nat) (slot : Fin 8) (red : Nat)
  /-- REAM_ABANDON (R416). A ream still missing a contribution at 4 × deadline abandons the cycle. -/
  | reamAbandon (dt : Nat) (slot : Fin 8) (red : Nat)
  /-- REAM_REDUCE (R418). Members exchange panel words, quantise, sum segments exactly and copy the FP32 results. -/
  | reamReduce (dt : Nat) (slot : Fin 8) (red : Nat)
  /-- COUCH_START (R420). A couch copies extents in a first round, then at the couch point the rest and the stream record. -/
  | couchStart (dt : Nat)
  /-- COUCH_SWITCH (R421). At switch token X releases change reels, with COUCH and END to a foreign panel. -/
  | couchSwitch (dt : Nat)
  /-- CASCADE_COUCH_CMD (R420). cascade.panel.couch starts a couch of one stream. -/
  | cascadeCouchCmd (dt : Nat) (b : List Nat)
  /-- MEMBER_REPORT (R423). Each second a member reports speed, shortfall and lateness; the master marks stragglers. -/
  | memberReport (dt : Nat) (panel : Fin 8) (speed late rate : Nat) (short : Bool)
  /-- CASCADE_REPLACE (R424). cascade.panel.replace admits a replacement member and sends it every slot image. -/
  | cascadeReplace (dt : Nat) (b : List Nat)
  /-- POWER_ON (R474). Input held in band for 1 s brings up always-on rails and the hub ROM self-tests. -/
  | powerOn (dt : Nat) (romA romB : Bool) (bricks : Nat)
  /-- IMAGE_VERIFY (R430). Each hub ROM verifies the firmware image, or serves only image recovery. -/
  | imageVerify (dt : Nat) (failA failB crc0 crc1 strap : Bool)
  /-- STANDBY_BUS_LOAD (R433). The hub loads a steward or port die over the standby bus, up to three times. -/
  | standbyBusLoad (dt : Nat) (fn : Fin 20) (ok : Bool)
  /-- BRINGUP_STEP (R432). Bring-up completes one step of the power-on sequence. -/
  | bringupStep (dt : Nat) (cal : List (Nat × Nat × Nat × Nat))
  /-- CLOCK_SOURCE_LOSS (R434). A die losing its clock source holds over and relocks to the lowest-count edge. -/
  | clockSourceLoss (dt : Nat) (die : Fin 276)
  /-- CLOCK_SWITCH (R435). boot.clock.switch hands the reference to the other hub. -/
  | clockSwitch (dt : Nat)
  /-- DISCOVER (R436). A die hearing DISCOVER takes its coordinate, answers and sends DISCOVER on. -/
  | discover (dt : Nat) (die : Fin 276) (edge : Fin 4) (x y kind dieId peers : Nat)
  /-- LINK_BER_CHECK (R438). Every link runs the T96 PRBS31 bit-error check and excludes bad lanes. -/
  | linkBerCheck (dt : Nat) (link bits : Nat) (outErr inErr : List (Nat × Nat)) (ctlBits : Nat) (ctlErr : Nat × Nat) (ctlPs : Nat)
  /-- FIRMWARE_BROADCAST (R439). The hub multicasts the preamble and chunks of a component to compute or base dies. -/
  | firmwareBroadcast (dt : Nat) (base : Bool)
  /-- CHUNK_RECEIVED (R440). A boot engine checks a chunk against the manifest and sets its bitmap bit. -/
  | chunkReceived (dt : Nat) (site : Fin 256) (chunk : Option Nat) (data : List Nat)
  /-- REPAIR_ROUND (R441). The hub resends missing chunks by multicast or unicast and reads bitmaps again. -/
  | repairRound (dt : Nat)
  /-- STACK_BRINGUP (R442). A stack is trained, tested with patterns and zero-filled outside the dump area. -/
  | stackBringup (dt : Nat) (stack : Fin 32) (trained tested : Bool) (repairs : Nat)
  /-- KNOWN_ANSWER_RUN (R444). Tiles run the known-answer suite at three supply points; failures read DEFECT or FAILED. -/
  | knownAnswerRun (dt : Nat) (site : Fin 256) (point : Fin 3) (bad : Nat) (raised : List (Nat × Nat × Bool)) (dieBad : Bool)
  /-- FLOOR_PLAN_ASSEMBLY (R445). States, reserve tiles, spares and generation 1 tables are set. -/
  | floorPlanAssembly (dt : Nat) (pairs : Nat)
  /-- READY_GATE (R446). The panel enters READY or returns to STANDBY with the first failed code. -/
  | readyGate (dt : Nat) (selfA selfB : Bool)
  /-- BRINGUP_TIMEOUT (R446). Bring-up not at READY 600 s after entry fails with 0x0107. -/
  | bringupTimeout (dt : Nat)
  /-- FW_BEGIN (R448). fw.update BEGIN starts an update with the image length. -/
  | fwBegin (dt : Nat) (len : Nat)
  /-- FW_IMAGE_WRITE (R448). Bytes land at the update cursor; header and chunks are checked as they complete. -/
  | fwImageWrite (dt : Nat) (b : List Nat)
  /-- FW_COMMIT (R448). COMMIT after every chunk passes writes the staged image to flash. -/
  | fwCommit (dt : Nat)
  /-- FLASH_WRITE_DONE (R448). The flash write of the new image completes. -/
  | flashWriteDone (dt : Nat) (ok : Bool)
  /-- FW_CANCEL (R448). CANCEL abandons an update in progress. -/
  | fwCancel (dt : Nat)
  /-- ACTIVATE (R448). ACTIVATE in STANDBY restarts both hubs through the ROM. -/
  | activate (dt : Nat)
  /-- COMMIT_VERSION (R449). COMMIT_VERSION fuses the running security_version into both hubs. -/
  | commitVersion (dt : Nat)
  /-- REVOKE (R430). REVOKE, at FACTORY, fuses a ROM key slot as revoked. -/
  | revoke (dt : Nat) (level slot : Nat)
  /-- IMAGE_RECOVERY_COMMIT (R450). After a recovery COMMIT the ROM reads back and verifies the image and boots. -/
  | imageRecoveryCommit (dt : Nat) (strap : Bool)
  /-- ATTEST_REQUEST (R455). A nonce written to sec.attest.request makes the hub build a signed report. -/
  | attestRequest (dt : Nat) (nonce : List Nat)
  /-- DUMP_TIME_LIMIT (R467). The dump ends 10 s after the decision with unfinished sections partial. -/
  | dumpTimeLimit (dt : Nat)
  /-- DUMP_CLEAR (R471). dump.clear sets dump.state NONE and dump.id 0. -/
  | dumpClear (dt : Nat)
  /-- INPUT_LOSS (R474). Input out of band opens the input switch and the module goes OFF. -/
  | inputLoss (dt : Nat)
  /-- EPO_OPEN (R480). An EPO loop open for 1 ms removes power as an input loss. -/
  | epoOpen (dt : Nat)
  /-- SEAM_LINK_LOSS_OF_SIGNAL (R424). Loss of signal on a cascade port, as when an optical switch moves a fibre, takes the seam link DOWN and reissues its transfers on the bundle. -/
  | seamLinkLossOfSignal (dt : Nat) (port : Fin 16)
  /-- PTP_MASTER_LOSS (R284). When PTP messages from the master stop while the PTP port stays up, the time base holds over on hub A's reference and rt.panel.ptp_state reads HOLDOVER. -/
  | ptpMasterLoss (dt : Nat)
  /-- CASCADE_FORMING_REPORT (R408). While the cascade is still forming, the master publishes cascade.panel.event every 10 s and names the first missing member. -/
  | cascadeFormingReport (dt : Nat)
  deriving DecidableEq, Repr

end Sys2Proof
end

