-- ==== Sys2Proof/Decode.lean ====
section
/-!
DEFINITION. The commands of the panel arrive as events and messages, not as words: no row of spec/opcode_table.json
gives an encoding, so no word spells a command.
-/
namespace Sys2Proof

/-- The command that a word spells by the opcode table's bits: none, since no row gives bits. -/
def decodeTableWord (_nbits _w : Nat) : Option Instr := none

end Sys2Proof
end

