-- ==== Sys2Proof/Machine/Bits.lean ====
section
/-!
DEFINITION. Bit fields, byte strings and serial-number comparison (R10, R488), and the operations of the sparse
tables of `Sys2Proof.SMap`.
-/
namespace Sys2Proof.Machine

/-- Bits [hi:lo] of a word (R10). -/
def bits (w hi lo : Nat) : Nat := (w >>> lo) % 2 ^ (hi + 1 - lo)

/-- Bit n of a word. -/
def bitOf (w n : Nat) : Bool := w.testBit n

/-- A word with bit n set. -/
def setBit (w n : Nat) : Nat := w ||| 2 ^ n

/-- A word with bit n cleared. -/
def clrBit (w n : Nat) : Nat := if w.testBit n then w - 2 ^ n else w

/-- The number of set bits among bits 0 to n − 1. -/
def popcount (w : Nat) : Nat → Nat
  | 0 => 0
  | n + 1 => popcount w n + (if w.testBit n then 1 else 0)

/-- The low n bits of w, read as two's complement. -/
def toSigned (n w : Nat) : Int :=
  let v := w % 2 ^ n
  if v < 2 ^ (n - 1) then (v : Int) else (v : Int) - (2 ^ n : Nat)

/-- An integer as an n-bit two's-complement word. -/
def ofSigned (n : Nat) (i : Int) : Nat := (i % ((2 ^ n : Nat) : Int)).toNat

/-- The n bytes of w, least significant first (R10). -/
def toLE : Nat → Nat → List Nat
  | 0, _ => []
  | n + 1, w => (w % 256) :: toLE n (w / 256)

/-- The word that a little-endian byte string spells (R10). -/
def ofLE : List Nat → Nat
  | [] => 0
  | b :: t => b % 256 + 256 * ofLE t

/-- n bytes of a byte string from an offset, as a little-endian word; bytes past the end read 0. -/
def leAt (b : List Nat) (off n : Nat) : Nat := ofLE ((b.drop off).take n)

/-- n bytes of a byte string from an offset. -/
def sliceAt (b : List Nat) (off n : Nat) : List Nat := (b.drop off).take n

/-- A byte string cut or zero-padded to n bytes. -/
def padTo (n : Nat) (b : List Nat) : List Nat := b.take n ++ List.replicate (n - b.length) 0

/-- A byte string written over another at an offset. -/
def overlay (b : List Nat) (off : Nat) (d : List Nat) : List Nat :=
  padTo off b ++ d ++ b.drop (off + d.length)

/-- Byte k of a row. -/
def rowByte (r : Row) (k : Nat) : Nat := (r.toNat >>> (8 * k)) % 256

/-- Bytes [hi:lo] of a row as a little-endian word. -/
def rowBytes (r : Row) (hi lo : Nat) : Nat := (r.toNat >>> (8 * lo)) % 2 ^ (8 * (hi + 1 - lo))

/-- The row that a byte string spells, zero-padded. -/
def rowOf (b : List Nat) : Row := BitVec.ofNat 512 (ofLE (b.take 64))

/-- The 64 bytes of a row. -/
def bytesOfRow (r : Row) : List Nat := toLE 64 r.toNat

/-- Division rounded up. -/
def ceilDiv (a b : Nat) : Nat := (a + b - 1) / b

/-- Serial-number arithmetic on n bits: b is newer than a (R488). -/
def newer (n a b : Nat) : Bool :=
  let d := (b + 2 ^ n - a % 2 ^ n) % 2 ^ n
  decide (1 ≤ d ∧ d < 2 ^ (n - 1))

/-- Serial-number order a ≤ b on n bits: equal, or b newer than a (R488). -/
def serLe (n a b : Nat) : Bool := a % 2 ^ n == b % 2 ^ n || newer n a b

/-- The newest of some 32-bit positions in serial-number order, 0 of none (R143, R488). -/
def serMax : List Nat → Nat
  | [] => 0
  | a :: t => t.foldl (fun m b => if newer 32 m b then b else m) a

/-- How far b lies ahead of a, on n bits. -/
def serDist (n a b : Nat) : Nat := (b + 2 ^ n - a % 2 ^ n) % 2 ^ n

/-- The entry at a key of a sparse table, if listed. -/
def mlook {α : Type} : SMap α → Nat → Option α
  | [], _ => none
  | (a, v) :: t, k => if a = k then some v else mlook t k

/-- The table with one entry put at a key, in key order. -/
def mins {α : Type} : SMap α → Nat → α → SMap α
  | [], k, v => [(k, v)]
  | (a, w) :: t, k, v =>
    if k < a then (k, v) :: (a, w) :: t else if k = a then (k, v) :: t else (a, w) :: mins t k v

/-- The table without the entry at a key. -/
def mdel {α : Type} (m : SMap α) (k : Nat) : SMap α := m.filter (fun p => p.1 != k)

/-- Read a table whose unlisted keys hold the value d. -/
def mget {α : Type} (d : α) (m : SMap α) (k : Nat) : α := (mlook m k).getD d

/-- Write a table whose unlisted keys hold the value d: writing d removes the entry. -/
def mset {α : Type} [DecidableEq α] (d : α) (m : SMap α) (k : Nat) (v : α) : SMap α :=
  if v = d then mdel m k else mins m k v

/-- Keys strictly rising. -/
def keysRise {α : Type} : SMap α → Bool
  | [] => true
  | [_] => true
  | (a, _) :: (b, w) :: t => decide (a < b) && keysRise ((b, w) :: t)

/-- The canonical form of a table whose unlisted keys hold d. -/
def mwf {α : Type} [DecidableEq α] (d : α) (m : SMap α) : Bool := keysRise m && m.all (fun p => p.2 ≠ d)

/-- Every entry with its key between lo and hi exclusive removed. -/
def mclear {α : Type} (m : SMap α) (lo hi : Nat) : SMap α := m.filter (fun p => !(decide (lo ≤ p.1) && decide (p.1 < hi)))

/-- The first index of a list at which a test holds. -/
def findIdx {α : Type} (p : α → Bool) : List α → Option Nat
  | [] => none
  | a :: t => if p a then some 0 else (findIdx p t).map (· + 1)

/-- A list with the element at an index replaced. -/
def setAt {α : Type} (l : List α) (i : Nat) (v : α) : List α := l.set i v

/-- A list without the first element that meets a test. -/
def dropFirst {α : Type} (p : α → Bool) : List α → List α
  | [] => []
  | a :: t => if p a then t else a :: dropFirst p t

/-- The last n elements of a list. -/
def lastN {α : Type} (n : Nat) (l : List α) : List α := if l.length ≤ n then l else l.drop (l.length - n)

/-- A list with an element put before the first one that ranks above it. -/
def insertBy {α : Type} (rank : α → Nat) (x : α) : List α → List α
  | [] => [x]
  | a :: t => if rank x < rank a then x :: a :: t else a :: insertBy rank x t

/-- A list sorted by a rank, equal ranks in their old order. -/
def sortBy {α : Type} (rank : α → Nat) (l : List α) : List α := l.foldl (fun s x => insertBy rank x s) []

/-- The sum of a list of numbers. -/
def sumN (l : List Nat) : Nat := l.foldl (· + ·) 0

/-- The largest of a list of numbers, 0 for none. -/
def maxN (l : List Nat) : Nat := l.foldl max 0

end Sys2Proof.Machine
end

