-- ==== Sys2Proof/Machine/Objects.lean ====
section
/-!
DEFINITION. The object directory (R318, R324, R327, R331), one row per object or field, from the object tables of the
spec's chapters; the addresses of every object (R315); and the numeric defaults (R326).
An object's address is its index × 256 + its subindex. In an object family the index is the base + the element.
-/
namespace Sys2Proof.Machine

/-- One directory row (R331), with the numeric default and the range that the owning table gives a written value. -/
structure DirRow where
  first : Nat
  last : Nat
  sub : Nat
  type : Nat
  access : Nat
  readLevel : Nat
  writeLevel : Nat
  persist : Nat
  flags : Nat
  size : Nat
  dflt : Nat
  lo : Nat
  hi : Nat
  deriving DecidableEq, Repr

/-- device.id, 0x10_0001.00. -/
abbrev oDeviceId : Nat := 0x100001 * 256 + 0x00
/-- device.id.manufacturer, 0x10_0001.01. -/
abbrev oDeviceIdManufacturer : Nat := 0x100001 * 256 + 0x01
/-- device.id.family, 0x10_0001.02. -/
abbrev oDeviceIdFamily : Nat := 0x100001 * 256 + 0x02
/-- device.id.part, 0x10_0001.03. -/
abbrev oDeviceIdPart : Nat := 0x100001 * 256 + 0x03
/-- device.id.od_format, 0x10_0001.04. -/
abbrev oDeviceIdOdFormat : Nat := 0x100001 * 256 + 0x04
/-- device.id.power_ons, 0x10_0001.05. -/
abbrev oDeviceIdPowerOns : Nat := 0x100001 * 256 + 0x05
/-- device.state, 0x10_0002.00. -/
abbrev oDeviceState : Nat := 0x100002 * 256 + 0x00
/-- device.state.state, 0x10_0002.01. -/
abbrev oDeviceStateState : Nat := 0x100002 * 256 + 0x01
/-- device.state.degraded, 0x10_0002.02. -/
abbrev oDeviceStateDegraded : Nat := 0x100002 * 256 + 0x02
/-- device.state.causes, 0x10_0002.03. -/
abbrev oDeviceStateCauses : Nat := 0x100002 * 256 + 0x03
/-- device.state.since, 0x10_0002.04. -/
abbrev oDeviceStateSince : Nat := 0x100002 * 256 + 0x04
/-- device.state.last_failure, 0x10_0002.05. -/
abbrev oDeviceStateLastFailure : Nat := 0x100002 * 256 + 0x05
/-- device.state.retired, 0x10_0002.06. -/
abbrev oDeviceStateRetired : Nat := 0x100002 * 256 + 0x06
/-- device.state.change, 0x10_0003.00. -/
abbrev oDeviceStateChange : Nat := 0x100003 * 256 + 0x00
/-- device.control.hold, 0x10_0004.00. -/
abbrev oDeviceControlHold : Nat := 0x100004 * 256 + 0x00
/-- device.control.power, 0x10_0005.00. -/
abbrev oDeviceControlPower : Nat := 0x100005 * 256 + 0x00
/-- device.control.auto_start, 0x10_0006.00. -/
abbrev oDeviceControlAutoStart : Nat := 0x100006 * 256 + 0x00
/-- device.control.unretire, 0x10_0007.00. -/
abbrev oDeviceControlUnretire : Nat := 0x100007 * 256 + 0x00
/-- device.time, 0x10_0008.00. -/
abbrev oDeviceTime : Nat := 0x100008 * 256 + 0x00
/-- device.time.now, 0x10_0008.01. -/
abbrev oDeviceTimeNow : Nat := 0x100008 * 256 + 0x01
/-- device.time.source, 0x10_0008.02. -/
abbrev oDeviceTimeSource : Nat := 0x100008 * 256 + 0x02
/-- device.time.standby_ns, 0x10_0008.03. -/
abbrev oDeviceTimeStandbyNs : Nat := 0x100008 * 256 + 0x03
/-- device.time.step, 0x10_0009.00. -/
abbrev oDeviceTimeStep : Nat := 0x100009 * 256 + 0x00
/-- device.mgmt, 0x10_0010.00. -/
abbrev oDeviceMgmt : Nat := 0x100010 * 256 + 0x00
/-- device.mgmt.link, 0x10_0010.01. -/
abbrev oDeviceMgmtLink : Nat := 0x100010 * 256 + 0x01
/-- device.mgmt.hub, 0x10_0010.02. -/
abbrev oDeviceMgmtHub : Nat := 0x100010 * 256 + 0x02
/-- device.mgmt.mac, 0x10_0010.03. -/
abbrev oDeviceMgmtMac : Nat := 0x100010 * 256 + 0x03
/-- device.mgmt.ipv4, 0x10_0010.04. -/
abbrev oDeviceMgmtIpv4 : Nat := 0x100010 * 256 + 0x04
/-- device.mgmt.ipv4_prefix, 0x10_0010.05. -/
abbrev oDeviceMgmtIpv4Prefix : Nat := 0x100010 * 256 + 0x05
/-- device.mgmt.gateway4, 0x10_0010.06. -/
abbrev oDeviceMgmtGateway4 : Nat := 0x100010 * 256 + 0x06
/-- device.mgmt.ipv6, 0x10_0010.07. -/
abbrev oDeviceMgmtIpv6 : Nat := 0x100010 * 256 + 0x07
/-- device.mgmt.ipv6_prefix, 0x10_0010.08. -/
abbrev oDeviceMgmtIpv6Prefix : Nat := 0x100010 * 256 + 0x08
/-- device.mgmt.gateway6, 0x10_0010.09. -/
abbrev oDeviceMgmtGateway6 : Nat := 0x100010 * 256 + 0x09
/-- device.mgmt.vlan, 0x10_0010.0A. -/
abbrev oDeviceMgmtVlan : Nat := 0x100010 * 256 + 0x0A
/-- device.store, 0x10_0011.00. -/
abbrev oDeviceStore : Nat := 0x100011 * 256 + 0x00
/-- device.store.generation, 0x10_0011.01. -/
abbrev oDeviceStoreGeneration : Nat := 0x100011 * 256 + 0x01
/-- device.store.last_commit, 0x10_0011.02. -/
abbrev oDeviceStoreLastCommit : Nat := 0x100011 * 256 + 0x02
/-- device.store.state, 0x10_0011.03. -/
abbrev oDeviceStoreState : Nat := 0x100011 * 256 + 0x03
/-- device.store.reset, 0x10_0012.00. -/
abbrev oDeviceStoreReset : Nat := 0x100012 * 256 + 0x00
/-- device.store.event, 0x10_0013.00. -/
abbrev oDeviceStoreEvent : Nat := 0x100013 * 256 + 0x00
/-- session.list, 0x11_0001.00. -/
abbrev oSessionList : Nat := 0x110001 * 256 + 0x00
/-- session.close, 0x11_0002.00. -/
abbrev oSessionClose : Nat := 0x110002 * 256 + 0x00
/-- session.quorum, 0x11_0003.00. -/
abbrev oSessionQuorum : Nat := 0x110003 * 256 + 0x00
/-- session.quorum.k, 0x11_0003.01. -/
abbrev oSessionQuorumK : Nat := 0x110003 * 256 + 0x01
/-- session.quorum.n, 0x11_0003.02. -/
abbrev oSessionQuorumN : Nat := 0x110003 * 256 + 0x02
/-- session.quorum_set, 0x11_0004.00. -/
abbrev oSessionQuorumSet : Nat := 0x110004 * 256 + 0x00
/-- session.quorum_taken, 0x11_0005.00. -/
abbrev oSessionQuorumTaken : Nat := 0x110005 * 256 + 0x00
/-- session.principal_set, 0x11_0006.00. -/
abbrev oSessionPrincipalSet : Nat := 0x110006 * 256 + 0x00
/-- session.principal, 0x11_0100 + element.00. -/
abbrev oSessionPrincipal (e : Nat) : Nat := (0x110100 + e) * 256 + 0x00
/-- session.principal.key_id, 0x11_0100 + element.01. -/
abbrev oSessionPrincipalKeyId (e : Nat) : Nat := (0x110100 + e) * 256 + 0x01
/-- session.principal.level, 0x11_0100 + element.02. -/
abbrev oSessionPrincipalLevel (e : Nat) : Nat := (0x110100 + e) * 256 + 0x02
/-- session.principal.ed25519, 0x11_0100 + element.03. -/
abbrev oSessionPrincipalEd25519 (e : Nat) : Nat := (0x110100 + e) * 256 + 0x03
/-- session.principal.mldsa, 0x11_0100 + element.04. -/
abbrev oSessionPrincipalMldsa (e : Nat) : Nat := (0x110100 + e) * 256 + 0x04
/-- session.principal.label, 0x11_0100 + element.05. -/
abbrev oSessionPrincipalLabel (e : Nat) : Nat := (0x110100 + e) * 256 + 0x05
/-- session.principal.enrolled_at, 0x11_0100 + element.06. -/
abbrev oSessionPrincipalEnrolledAt (e : Nat) : Nat := (0x110100 + e) * 256 + 0x06
/-- session.fleet, 0x11_0200 + element.00. -/
abbrev oSessionFleet (e : Nat) : Nat := (0x110200 + e) * 256 + 0x00
/-- session.fleet.key_id, 0x11_0200 + element.01. -/
abbrev oSessionFleetKeyId (e : Nat) : Nat := (0x110200 + e) * 256 + 0x01
/-- session.fleet.ed25519, 0x11_0200 + element.02. -/
abbrev oSessionFleetEd25519 (e : Nat) : Nat := (0x110200 + e) * 256 + 0x02
/-- session.fleet.mldsa, 0x11_0200 + element.03. -/
abbrev oSessionFleetMldsa (e : Nat) : Nat := (0x110200 + e) * 256 + 0x03
/-- session.fleet.label, 0x11_0200 + element.04. -/
abbrev oSessionFleetLabel (e : Nat) : Nat := (0x110200 + e) * 256 + 0x04
/-- session.fleet.enrolled_at, 0x11_0200 + element.05. -/
abbrev oSessionFleetEnrolledAt (e : Nat) : Nat := (0x110200 + e) * 256 + 0x05
/-- od.events, 0x12_0001.00. -/
abbrev oOdEvents : Nat := 0x120001 * 256 + 0x00
/-- od.events.next, 0x12_0001.01. -/
abbrev oOdEventsNext : Nat := 0x120001 * 256 + 0x01
/-- od.events.oldest, 0x12_0001.02. -/
abbrev oOdEventsOldest : Nat := 0x120001 * 256 + 0x02
/-- od.events.subscriptions, 0x12_0001.03. -/
abbrev oOdEventsSubscriptions : Nat := 0x120001 * 256 + 0x03
/-- od.log.protocol, 0x12_0002.00. -/
abbrev oOdLogProtocol : Nat := 0x120002 * 256 + 0x00
/-- od.log.protocol_count, 0x12_0003.00. -/
abbrev oOdLogProtocolCount : Nat := 0x120003 * 256 + 0x00
/-- od.counter.saturated, 0x12_0004.00. -/
abbrev oOdCounterSaturated : Nat := 0x120004 * 256 + 0x00
/-- od.counter.saturated_list, 0x12_0005.00. -/
abbrev oOdCounterSaturatedList : Nat := 0x120005 * 256 + 0x00
/-- od.counter.list_full, 0x12_0006.00. -/
abbrev oOdCounterListFull : Nat := 0x120006 * 256 + 0x00
/-- od.directory, 0x12_0010.00. -/
abbrev oOdDirectory : Nat := 0x120010 * 256 + 0x00
/-- od.directory_digest, 0x12_0011.00. -/
abbrev oOdDirectoryDigest : Nat := 0x120011 * 256 + 0x00
/-- floor.panel.variant, 0x20_0001.00. -/
abbrev oFloorPanelVariant : Nat := 0x200001 * 256 + 0x00
/-- floor.panel.serial, 0x20_0002.00. -/
abbrev oFloorPanelSerial : Nat := 0x200002 * 256 + 0x00
/-- floor.panel.stepping, 0x20_0003.00. -/
abbrev oFloorPanelStepping : Nat := 0x200003 * 256 + 0x00
/-- floor.panel.generation, 0x20_0004.00. -/
abbrev oFloorPanelGeneration : Nat := 0x200004 * 256 + 0x00
/-- floor.panel.changed_at, 0x20_0005.00. -/
abbrev oFloorPanelChangedAt : Nat := 0x200005 * 256 + 0x00
/-- floor.panel.site_map, 0x20_0006.00. -/
abbrev oFloorPanelSiteMap : Nat := 0x200006 * 256 + 0x00
/-- floor.panel.counts, 0x20_0007.00. -/
abbrev oFloorPanelCounts : Nat := 0x200007 * 256 + 0x00
/-- floor.panel.counts.compute_active, 0x20_0007.01. -/
abbrev oFloorPanelCountsComputeActive : Nat := 0x200007 * 256 + 0x01
/-- floor.panel.counts.compute_spare, 0x20_0007.02. -/
abbrev oFloorPanelCountsComputeSpare : Nat := 0x200007 * 256 + 0x02
/-- floor.panel.counts.compute_failed, 0x20_0007.03. -/
abbrev oFloorPanelCountsComputeFailed : Nat := 0x200007 * 256 + 0x03
/-- floor.panel.counts.compute_fused, 0x20_0007.04. -/
abbrev oFloorPanelCountsComputeFused : Nat := 0x200007 * 256 + 0x04
/-- floor.panel.counts.stacks_online, 0x20_0007.05. -/
abbrev oFloorPanelCountsStacksOnline : Nat := 0x200007 * 256 + 0x05
/-- floor.panel.counts.stacks_out, 0x20_0007.06. -/
abbrev oFloorPanelCountsStacksOut : Nat := 0x200007 * 256 + 0x06
/-- floor.panel.counts.tiles_placeable, 0x20_0007.07. -/
abbrev oFloorPanelCountsTilesPlaceable : Nat := 0x200007 * 256 + 0x07
/-- floor.panel.counts.ports_usable, 0x20_0007.08. -/
abbrev oFloorPanelCountsPortsUsable : Nat := 0x200007 * 256 + 0x08
/-- floor.panel.counts.hubs_good, 0x20_0007.09. -/
abbrev oFloorPanelCountsHubsGood : Nat := 0x200007 * 256 + 0x09
/-- floor.panel.stack_bytes, 0x20_0008.00. -/
abbrev oFloorPanelStackBytes : Nat := 0x200008 * 256 + 0x00
/-- floor.site, 0x21_0000 + element.00. -/
abbrev oFloorSite (e : Nat) : Nat := (0x210000 + e) * 256 + 0x00
/-- floor.site.kind, 0x21_0000 + element.01. -/
abbrev oFloorSiteKind (e : Nat) : Nat := (0x210000 + e) * 256 + 0x01
/-- floor.site.state, 0x21_0000 + element.02. -/
abbrev oFloorSiteState (e : Nat) : Nat := (0x210000 + e) * 256 + 0x02
/-- floor.site.node_id, 0x21_0000 + element.03. -/
abbrev oFloorSiteNodeId (e : Nat) : Nat := (0x210000 + e) * 256 + 0x03
/-- floor.site.x, 0x21_0000 + element.04. -/
abbrev oFloorSiteX (e : Nat) : Nat := (0x210000 + e) * 256 + 0x04
/-- floor.site.y, 0x21_0000 + element.05. -/
abbrev oFloorSiteY (e : Nat) : Nat := (0x210000 + e) * 256 + 0x05
/-- floor.site.die_id, 0x21_0000 + element.06. -/
abbrev oFloorSiteDieId (e : Nat) : Nat := (0x210000 + e) * 256 + 0x06
/-- floor.site.good_tiles, 0x21_0000 + element.07. -/
abbrev oFloorSiteGoodTiles (e : Nat) : Nat := (0x210000 + e) * 256 + 0x07
/-- floor.site.placed_mask, 0x21_0000 + element.08. -/
abbrev oFloorSitePlacedMask (e : Nat) : Nat := (0x210000 + e) * 256 + 0x08
/-- floor.site.reserve_mask, 0x21_0000 + element.09. -/
abbrev oFloorSiteReserveMask (e : Nat) : Nat := (0x210000 + e) * 256 + 0x09
/-- floor.site.bad_mask, 0x21_0000 + element.0A. -/
abbrev oFloorSiteBadMask (e : Nat) : Nat := (0x210000 + e) * 256 + 0x0A
/-- floor.site.cause, 0x21_0000 + element.0B. -/
abbrev oFloorSiteCause (e : Nat) : Nat := (0x210000 + e) * 256 + 0x0B
/-- floor.site.state_since, 0x21_0000 + element.0C. -/
abbrev oFloorSiteStateSince (e : Nat) : Nat := (0x210000 + e) * 256 + 0x0C
/-- floor.tile, 0x22_0000 + element.00. -/
abbrev oFloorTile (e : Nat) : Nat := (0x220000 + e) * 256 + 0x00
/-- floor.tile.state, 0x22_0000 + element.01. -/
abbrev oFloorTileState (e : Nat) : Nat := (0x220000 + e) * 256 + 0x01
/-- floor.tile.furnish, 0x22_0000 + element.02. -/
abbrev oFloorTileFurnish (e : Nat) : Nat := (0x220000 + e) * 256 + 0x02
/-- floor.tile.region, 0x22_0000 + element.03. -/
abbrev oFloorTileRegion (e : Nat) : Nat := (0x220000 + e) * 256 + 0x03
/-- floor.tile.logical_tile, 0x22_0000 + element.04. -/
abbrev oFloorTileLogicalTile (e : Nat) : Nat := (0x220000 + e) * 256 + 0x04
/-- floor.tile.added_hop_ns, 0x22_0000 + element.05. -/
abbrev oFloorTileAddedHopNs (e : Nat) : Nat := (0x220000 + e) * 256 + 0x05
/-- floor.offgrid, 0x23_0000 + element.00. -/
abbrev oFloorOffgrid (e : Nat) : Nat := (0x230000 + e) * 256 + 0x00
/-- floor.offgrid.kind, 0x23_0000 + element.01. -/
abbrev oFloorOffgridKind (e : Nat) : Nat := (0x230000 + e) * 256 + 0x01
/-- floor.offgrid.state, 0x23_0000 + element.02. -/
abbrev oFloorOffgridState (e : Nat) : Nat := (0x230000 + e) * 256 + 0x02
/-- floor.offgrid.node_id, 0x23_0000 + element.03. -/
abbrev oFloorOffgridNodeId (e : Nat) : Nat := (0x230000 + e) * 256 + 0x03
/-- floor.offgrid.attach, 0x23_0000 + element.04. -/
abbrev oFloorOffgridAttach (e : Nat) : Nat := (0x230000 + e) * 256 + 0x04
/-- floor.offgrid.die_id, 0x23_0000 + element.05. -/
abbrev oFloorOffgridDieId (e : Nat) : Nat := (0x230000 + e) * 256 + 0x05
/-- floor.offgrid.ports_usable, 0x23_0000 + element.06. -/
abbrev oFloorOffgridPortsUsable (e : Nat) : Nat := (0x230000 + e) * 256 + 0x06
/-- floor.offgrid.cause, 0x23_0000 + element.07. -/
abbrev oFloorOffgridCause (e : Nat) : Nat := (0x230000 + e) * 256 + 0x07
/-- tile.arith, 0x30_0000 + element.00. -/
abbrev oTileArith (e : Nat) : Nat := (0x300000 + e) * 256 + 0x00
/-- tile.arith.int_sat, 0x30_0000 + element.01. -/
abbrev oTileArithIntSat (e : Nat) : Nat := (0x300000 + e) * 256 + 0x01
/-- tile.arith.nan_to_int, 0x30_0000 + element.02. -/
abbrev oTileArithNanToInt (e : Nat) : Nat := (0x300000 + e) * 256 + 0x02
/-- tile.arith.fp8_sat, 0x30_0000 + element.03. -/
abbrev oTileArithFp8Sat (e : Nat) : Nat := (0x300000 + e) * 256 + 0x03
/-- tile.arith.fp8_special, 0x30_0000 + element.04. -/
abbrev oTileArithFp8Special (e : Nat) : Nat := (0x300000 + e) * 256 + 0x04
/-- tile.arith.nan_out, 0x30_0000 + element.05. -/
abbrev oTileArithNanOut (e : Nat) : Nat := (0x300000 + e) * 256 + 0x05
/-- tile.arith.window_exit, 0x30_0000 + element.06. -/
abbrev oTileArithWindowExit (e : Nat) : Nat := (0x300000 + e) * 256 + 0x06
/-- tile.arith.mx_nan_block, 0x30_0000 + element.07. -/
abbrev oTileArithMxNanBlock (e : Nat) : Nat := (0x300000 + e) * 256 + 0x07
/-- tile.engine.matrix_handshakes, 0x30_0000 + element.08. -/
abbrev oTileEngineMatrixHandshakes (e : Nat) : Nat := (0x300000 + e) * 256 + 0x08
/-- tile.engine.vector_ops, 0x30_0000 + element.09. -/
abbrev oTileEngineVectorOps (e : Nat) : Nat := (0x300000 + e) * 256 + 0x09
/-- tile.slots.configured, 0x30_0000 + element.0A. -/
abbrev oTileSlotsConfigured (e : Nat) : Nat := (0x300000 + e) * 256 + 0x0A
/-- tile.fault, 0x31_0000 + element.00. -/
abbrev oTileFault (e : Nat) : Nat := (0x310000 + e) * 256 + 0x00
/-- tile.fault.count, 0x31_0000 + element.01. -/
abbrev oTileFaultCount (e : Nat) : Nat := (0x310000 + e) * 256 + 0x01
/-- tile.fault.lost, 0x31_0000 + element.02. -/
abbrev oTileFaultLost (e : Nat) : Nat := (0x310000 + e) * 256 + 0x02
/-- tile.fault.entries, 0x31_0000 + element.03. -/
abbrev oTileFaultEntries (e : Nat) : Nat := (0x310000 + e) * 256 + 0x03
/-- tile.fault.clear, 0x31_0000 + element.04. -/
abbrev oTileFaultClear (e : Nat) : Nat := (0x310000 + e) * 256 + 0x04
/-- tile.panel.function_set, 0x32_0001.00. -/
abbrev oTilePanelFunctionSet : Nat := 0x320001 * 256 + 0x00
/-- tile.panel.descriptor_format, 0x32_0002.00. -/
abbrev oTilePanelDescriptorFormat : Nat := 0x320002 * 256 + 0x00
/-- tile.panel.violations, 0x32_0003.00. -/
abbrev oTilePanelViolations : Nat := 0x320003 * 256 + 0x00
/-- tile.panel.arith_totals, 0x32_0004.00. -/
abbrev oTilePanelArithTotals : Nat := 0x320004 * 256 + 0x00
/-- tile.panel.arith_totals.total1, 0x32_0004.01. -/
abbrev oTilePanelArithTotalsTotal1 : Nat := 0x320004 * 256 + 0x01
/-- tile.panel.arith_totals.total2, 0x32_0004.02. -/
abbrev oTilePanelArithTotalsTotal2 : Nat := 0x320004 * 256 + 0x02
/-- tile.panel.arith_totals.total3, 0x32_0004.03. -/
abbrev oTilePanelArithTotalsTotal3 : Nat := 0x320004 * 256 + 0x03
/-- tile.panel.arith_totals.total4, 0x32_0004.04. -/
abbrev oTilePanelArithTotalsTotal4 : Nat := 0x320004 * 256 + 0x04
/-- tile.panel.arith_totals.total5, 0x32_0004.05. -/
abbrev oTilePanelArithTotalsTotal5 : Nat := 0x320004 * 256 + 0x05
/-- tile.panel.arith_totals.total6, 0x32_0004.06. -/
abbrev oTilePanelArithTotalsTotal6 : Nat := 0x320004 * 256 + 0x06
/-- tile.panel.arith_totals.total7, 0x32_0004.07. -/
abbrev oTilePanelArithTotalsTotal7 : Nat := 0x320004 * 256 + 0x07
/-- dataflow.tile, 0x33_0000 + element.00. -/
abbrev oDataflowTile (e : Nat) : Nat := (0x330000 + e) * 256 + 0x00
/-- dataflow.tile.run_state, 0x33_0000 + element.01. -/
abbrev oDataflowTileRunState (e : Nat) : Nat := (0x330000 + e) * 256 + 0x01
/-- dataflow.tile.watermark, 0x33_0000 + element.02. -/
abbrev oDataflowTileWatermark (e : Nat) : Nat := (0x330000 + e) * 256 + 0x02
/-- dataflow.tile.slot_watermarks, 0x33_0000 + element.03. -/
abbrev oDataflowTileSlotWatermarks (e : Nat) : Nat := (0x330000 + e) * 256 + 0x03
/-- dataflow.tile.firings, 0x33_0000 + element.04. -/
abbrev oDataflowTileFirings (e : Nat) : Nat := (0x330000 + e) * 256 + 0x04
/-- dataflow.tile.store_in_use, 0x33_0000 + element.05. -/
abbrev oDataflowTileStoreInUse (e : Nat) : Nat := (0x330000 + e) * 256 + 0x05
/-- dataflow.tile.store_full_waits, 0x33_0000 + element.06. -/
abbrev oDataflowTileStoreFullWaits (e : Nat) : Nat := (0x330000 + e) * 256 + 0x06
/-- dataflow.tile.dead_dropped, 0x33_0000 + element.07. -/
abbrev oDataflowTileDeadDropped (e : Nat) : Nat := (0x330000 + e) * 256 + 0x07
/-- dataflow.tile.orphans, 0x33_0000 + element.08. -/
abbrev oDataflowTileOrphans (e : Nat) : Nat := (0x330000 + e) * 256 + 0x08
/-- dataflow.tile.reconfigs, 0x33_0000 + element.09. -/
abbrev oDataflowTileReconfigs (e : Nat) : Nat := (0x330000 + e) * 256 + 0x09
/-- dataflow.tile.stalls, 0x33_0000 + element.0A. -/
abbrev oDataflowTileStalls (e : Nat) : Nat := (0x330000 + e) * 256 + 0x0A
/-- dataflow.tile.stall_records, 0x33_0000 + element.0B. -/
abbrev oDataflowTileStallRecords (e : Nat) : Nat := (0x330000 + e) * 256 + 0x0B
/-- dataflow.tile.lane_life, 0x33_0000 + element.0C. -/
abbrev oDataflowTileLaneLife (e : Nat) : Nat := (0x330000 + e) * 256 + 0x0C
/-- dataflow.panel.stall_threshold_us, 0x33_F001.00. -/
abbrev oDataflowPanelStallThresholdUs : Nat := 0x33F001 * 256 + 0x00
/-- dataflow.panel.stall, 0x33_F002.00. -/
abbrev oDataflowPanelStall : Nat := 0x33F002 * 256 + 0x00
/-- dataflow.panel.scan_format, 0x33_F003.00. -/
abbrev oDataflowPanelScanFormat : Nat := 0x33F003 * 256 + 0x00
/-- dataflow.panel.stalls, 0x33_F004.00. -/
abbrev oDataflowPanelStalls : Nat := 0x33F004 * 256 + 0x00
/-- dataflow.panel.dead_dropped, 0x33_F005.00. -/
abbrev oDataflowPanelDeadDropped : Nat := 0x33F005 * 256 + 0x00
/-- dataflow.panel.orphans, 0x33_F006.00. -/
abbrev oDataflowPanelOrphans : Nat := 0x33F006 * 256 + 0x00
/-- dataflow.panel.fences, 0x33_F007.00. -/
abbrev oDataflowPanelFences : Nat := 0x33F007 * 256 + 0x00
/-- dataflow.panel.aborts, 0x33_F008.00. -/
abbrev oDataflowPanelAborts : Nat := 0x33F008 * 256 + 0x00
/-- scratchpad.tile, 0x34_0000 + element.00. -/
abbrev oScratchpadTile (e : Nat) : Nat := (0x340000 + e) * 256 + 0x00
/-- scratchpad.tile.regions, 0x34_0000 + element.01. -/
abbrev oScratchpadTileRegions (e : Nat) : Nat := (0x340000 + e) * 256 + 0x01
/-- scratchpad.tile.tags, 0x34_0000 + element.02. -/
abbrev oScratchpadTileTags (e : Nat) : Nat := (0x340000 + e) * 256 + 0x02
/-- scratchpad.tile.tag_waits, 0x34_0000 + element.03. -/
abbrev oScratchpadTileTagWaits (e : Nat) : Nat := (0x340000 + e) * 256 + 0x03
/-- scratchpad.tile.bank_contests, 0x34_0000 + element.04. -/
abbrev oScratchpadTileBankContests (e : Nat) : Nat := (0x340000 + e) * 256 + 0x04
/-- scratchpad.tile.hazards, 0x34_0000 + element.05. -/
abbrev oScratchpadTileHazards (e : Nat) : Nat := (0x340000 + e) * 256 + 0x05
/-- scratchpad.tile.commits, 0x34_0000 + element.06. -/
abbrev oScratchpadTileCommits (e : Nat) : Nat := (0x340000 + e) * 256 + 0x06
/-- scratchpad.tile.rollbacks, 0x34_0000 + element.07. -/
abbrev oScratchpadTileRollbacks (e : Nat) : Nat := (0x340000 + e) * 256 + 0x07
/-- scratchpad.tile.slid_entries, 0x34_0000 + element.08. -/
abbrev oScratchpadTileSlidEntries (e : Nat) : Nat := (0x340000 + e) * 256 + 0x08
/-- scratchpad.tile.swaps, 0x34_0000 + element.09. -/
abbrev oScratchpadTileSwaps (e : Nat) : Nat := (0x340000 + e) * 256 + 0x09
/-- scratchpad.tile.commands, 0x34_0000 + element.0A. -/
abbrev oScratchpadTileCommands (e : Nat) : Nat := (0x340000 + e) * 256 + 0x0A
/-- scratchpad.panel.hazard, 0x34_F001.00. -/
abbrev oScratchpadPanelHazard : Nat := 0x34F001 * 256 + 0x00
/-- scratchpad.panel.hazards, 0x34_F002.00. -/
abbrev oScratchpadPanelHazards : Nat := 0x34F002 * 256 + 0x00
/-- scratchpad.panel.hazard_interval_us, 0x34_F003.00. -/
abbrev oScratchpadPanelHazardIntervalUs : Nat := 0x34F003 * 256 + 0x00
/-- scratchpad.panel.save_format, 0x34_F004.00. -/
abbrev oScratchpadPanelSaveFormat : Nat := 0x34F004 * 256 + 0x00
/-- scratchpad.panel.placeable_bytes, 0x34_F005.00. -/
abbrev oScratchpadPanelPlaceableBytes : Nat := 0x34F005 * 256 + 0x00
/-- stack.unit, 0x35_0000 + element.00. -/
abbrev oStackUnit (e : Nat) : Nat := (0x350000 + e) * 256 + 0x00
/-- stack.unit.node_id, 0x35_0000 + element.01. -/
abbrev oStackUnitNodeId (e : Nat) : Nat := (0x350000 + e) * 256 + 0x01
/-- stack.unit.level, 0x35_0000 + element.02. -/
abbrev oStackUnitLevel (e : Nat) : Nat := (0x350000 + e) * 256 + 0x02
/-- stack.unit.temp_mc, 0x35_0000 + element.03. -/
abbrev oStackUnitTempMc (e : Nat) : Nat := (0x350000 + e) * 256 + 0x03
/-- stack.unit.base_temp_mc, 0x35_0000 + element.04. -/
abbrev oStackUnitBaseTempMc (e : Nat) : Nat := (0x350000 + e) * 256 + 0x04
/-- stack.unit.bytes_allocated, 0x35_0000 + element.05. -/
abbrev oStackUnitBytesAllocated (e : Nat) : Nat := (0x350000 + e) * 256 + 0x05
/-- stack.unit.groups, 0x35_0000 + element.06. -/
abbrev oStackUnitGroups (e : Nat) : Nat := (0x350000 + e) * 256 + 0x06
/-- stack.unit.ecc_corrected, 0x35_0000 + element.07. -/
abbrev oStackUnitEccCorrected (e : Nat) : Nat := (0x350000 + e) * 256 + 0x07
/-- stack.unit.ecc_uncorrected, 0x35_0000 + element.08. -/
abbrev oStackUnitEccUncorrected (e : Nat) : Nat := (0x350000 + e) * 256 + 0x08
/-- stack.unit.degraded_reads, 0x35_0000 + element.09. -/
abbrev oStackUnitDegradedReads (e : Nat) : Nat := (0x350000 + e) * 256 + 0x09
/-- stack.unit.parity_deltas, 0x35_0000 + element.0A. -/
abbrev oStackUnitParityDeltas (e : Nat) : Nat := (0x350000 + e) * 256 + 0x0A
/-- stack.unit.scrub_last, 0x35_0000 + element.0B. -/
abbrev oStackUnitScrubLast (e : Nat) : Nat := (0x350000 + e) * 256 + 0x0B
/-- stack.unit.scrub_lag_h, 0x35_0000 + element.0C. -/
abbrev oStackUnitScrubLagH (e : Nat) : Nat := (0x350000 + e) * 256 + 0x0C
/-- stack.unit.level_changes, 0x35_0000 + element.0D. -/
abbrev oStackUnitLevelChanges (e : Nat) : Nat := (0x350000 + e) * 256 + 0x0D
/-- stack.unit.lane_repairs, 0x35_0000 + element.0E. -/
abbrev oStackUnitLaneRepairs (e : Nat) : Nat := (0x350000 + e) * 256 + 0x0E
/-- stack.panel.scrub_period_h, 0x35_F001.00. -/
abbrev oStackPanelScrubPeriodH : Nat := 0x35F001 * 256 + 0x00
/-- stack.panel.rebuild_share_pct, 0x35_F002.00. -/
abbrev oStackPanelRebuildSharePct : Nat := 0x35F002 * 256 + 0x00
/-- stack.panel.dump_stacks, 0x35_F003.00. -/
abbrev oStackPanelDumpStacks : Nat := 0x35F003 * 256 + 0x00
/-- stack.panel.group_state, 0x35_F004.00. -/
abbrev oStackPanelGroupState : Nat := 0x35F004 * 256 + 0x00
/-- stack.panel.groups_degraded, 0x35_F005.00. -/
abbrev oStackPanelGroupsDegraded : Nat := 0x35F005 * 256 + 0x00
/-- stack.panel.single_copy_sections, 0x35_F006.00. -/
abbrev oStackPanelSingleCopySections : Nat := 0x35F006 * 256 + 0x00
/-- stack.panel.rebuilds, 0x35_F007.00. -/
abbrev oStackPanelRebuilds : Nat := 0x35F007 * 256 + 0x00
/-- stack.panel.group_event, 0x35_F008.00. -/
abbrev oStackPanelGroupEvent : Nat := 0x35F008 * 256 + 0x00
/-- stack.group, 0x35_F100 + element.00. -/
abbrev oStackGroup (e : Nat) : Nat := (0x35F100 + e) * 256 + 0x00
/-- stack.group.state, 0x35_F100 + element.01. -/
abbrev oStackGroupState (e : Nat) : Nat := (0x35F100 + e) * 256 + 0x01
/-- stack.group.members, 0x35_F100 + element.02. -/
abbrev oStackGroupMembers (e : Nat) : Nat := (0x35F100 + e) * 256 + 0x02
/-- stack.group.slab_rows, 0x35_F100 + element.03. -/
abbrev oStackGroupSlabRows (e : Nat) : Nat := (0x35F100 + e) * 256 + 0x03
/-- fabric.panel.active_bank, 0x36_0001.00. -/
abbrev oFabricPanelActiveBank : Nat := 0x360001 * 256 + 0x00
/-- fabric.panel.held_flit_limit_us, 0x36_0002.00. -/
abbrev oFabricPanelHeldFlitLimitUs : Nat := 0x360002 * 256 + 0x00
/-- fabric.panel.busy_backoff_ns, 0x36_0003.00. -/
abbrev oFabricPanelBusyBackoffNs : Nat := 0x360003 * 256 + 0x00
/-- fabric.panel.misrouted, 0x36_0004.00. -/
abbrev oFabricPanelMisrouted : Nat := 0x360004 * 256 + 0x00
/-- fabric.panel.error_responses, 0x36_0005.00. -/
abbrev oFabricPanelErrorResponses : Nat := 0x360005 * 256 + 0x00
/-- fabric.panel.error_lost, 0x36_0006.00. -/
abbrev oFabricPanelErrorLost : Nat := 0x360006 * 256 + 0x00
/-- fabric.panel.replayed_blocks, 0x36_0007.00. -/
abbrev oFabricPanelReplayedBlocks : Nat := 0x360007 * 256 + 0x00
/-- fabric.panel.retrains, 0x36_0008.00. -/
abbrev oFabricPanelRetrains : Nat := 0x360008 * 256 + 0x00
/-- fabric.panel.link_faults, 0x36_0009.00. -/
abbrev oFabricPanelLinkFaults : Nat := 0x360009 * 256 + 0x00
/-- fabric.panel.purges, 0x36_000A.00. -/
abbrev oFabricPanelPurges : Nat := 0x36000A * 256 + 0x00
/-- fabric.panel.fence_delays, 0x36_000B.00. -/
abbrev oFabricPanelFenceDelays : Nat := 0x36000B * 256 + 0x00
/-- fabric.panel.updown_pairs, 0x36_000C.00. -/
abbrev oFabricPanelUpdownPairs : Nat := 0x36000C * 256 + 0x00
/-- fabric.panel.mcast_groups_used, 0x36_000D.00. -/
abbrev oFabricPanelMcastGroupsUsed : Nat := 0x36000D * 256 + 0x00
/-- fabric.panel.mailbox_busy, 0x36_000E.00. -/
abbrev oFabricPanelMailboxBusy : Nat := 0x36000E * 256 + 0x00
/-- fabric.panel.notice_busy, 0x36_000F.00. -/
abbrev oFabricPanelNoticeBusy : Nat := 0x36000F * 256 + 0x00
/-- fabric.panel.link_event, 0x36_0010.00. -/
abbrev oFabricPanelLinkEvent : Nat := 0x360010 * 256 + 0x00
/-- fabric.doorbell.hub_a, 0x36_0020.00. -/
abbrev oFabricDoorbellHubA : Nat := 0x360020 * 256 + 0x00
/-- fabric.doorbell.hub_a.pending, 0x36_0020.01. -/
abbrev oFabricDoorbellHubAPending : Nat := 0x360020 * 256 + 0x01
/-- fabric.doorbell.hub_a.mask, 0x36_0020.02. -/
abbrev oFabricDoorbellHubAMask : Nat := 0x360020 * 256 + 0x02
/-- fabric.doorbell.hub_a.coalesced, 0x36_0020.03. -/
abbrev oFabricDoorbellHubACoalesced : Nat := 0x360020 * 256 + 0x03
/-- fabric.doorbell.hub_b, 0x36_0021.00. -/
abbrev oFabricDoorbellHubB : Nat := 0x360021 * 256 + 0x00
/-- fabric.doorbell.hub_b.pending, 0x36_0021.01. -/
abbrev oFabricDoorbellHubBPending : Nat := 0x360021 * 256 + 0x01
/-- fabric.doorbell.hub_b.mask, 0x36_0021.02. -/
abbrev oFabricDoorbellHubBMask : Nat := 0x360021 * 256 + 0x02
/-- fabric.doorbell.hub_b.coalesced, 0x36_0021.03. -/
abbrev oFabricDoorbellHubBCoalesced : Nat := 0x360021 * 256 + 0x03
/-- fabric.doorbell.steward, 0x36_0030 + element.00. -/
abbrev oFabricDoorbellSteward (e : Nat) : Nat := (0x360030 + e) * 256 + 0x00
/-- fabric.doorbell.steward.pending, 0x36_0030 + element.01. -/
abbrev oFabricDoorbellStewardPending (e : Nat) : Nat := (0x360030 + e) * 256 + 0x01
/-- fabric.doorbell.steward.mask, 0x36_0030 + element.02. -/
abbrev oFabricDoorbellStewardMask (e : Nat) : Nat := (0x360030 + e) * 256 + 0x02
/-- fabric.doorbell.steward.coalesced, 0x36_0030 + element.03. -/
abbrev oFabricDoorbellStewardCoalesced (e : Nat) : Nat := (0x360030 + e) * 256 + 0x03
/-- fabric.node.log, 0x36_0100 + element.00. -/
abbrev oFabricNodeLog (e : Nat) : Nat := (0x360100 + e) * 256 + 0x00
/-- fabric.offgrid.log, 0x36_0200 + element.00. -/
abbrev oFabricOffgridLog (e : Nat) : Nat := (0x360200 + e) * 256 + 0x00
/-- fabric.link, 0x37_0000 + element.00. -/
abbrev oFabricLink (e : Nat) : Nat := (0x370000 + e) * 256 + 0x00
/-- fabric.link.state, 0x37_0000 + element.01. -/
abbrev oFabricLinkState (e : Nat) : Nat := (0x370000 + e) * 256 + 0x01
/-- fabric.link.peer, 0x37_0000 + element.02. -/
abbrev oFabricLinkPeer (e : Nat) : Nat := (0x370000 + e) * 256 + 0x02
/-- fabric.link.lanes_good, 0x37_0000 + element.03. -/
abbrev oFabricLinkLanesGood (e : Nat) : Nat := (0x370000 + e) * 256 + 0x03
/-- fabric.link.latency_ps, 0x37_0000 + element.04. -/
abbrev oFabricLinkLatencyPs (e : Nat) : Nat := (0x370000 + e) * 256 + 0x04
/-- fabric.link.xoff_threshold, 0x37_0000 + element.05. -/
abbrev oFabricLinkXoffThreshold (e : Nat) : Nat := (0x370000 + e) * 256 + 0x05
/-- fabric.link.crc_errors, 0x37_0000 + element.06. -/
abbrev oFabricLinkCrcErrors (e : Nat) : Nat := (0x370000 + e) * 256 + 0x06
/-- fabric.link.replayed_blocks, 0x37_0000 + element.07. -/
abbrev oFabricLinkReplayedBlocks (e : Nat) : Nat := (0x370000 + e) * 256 + 0x07
/-- fabric.link.retrains, 0x37_0000 + element.08. -/
abbrev oFabricLinkRetrains (e : Nat) : Nat := (0x370000 + e) * 256 + 0x08
/-- fabric.link.purges, 0x37_0000 + element.09. -/
abbrev oFabricLinkPurges (e : Nat) : Nat := (0x370000 + e) * 256 + 0x09
/-- fabric.link.flits_sent, 0x37_0000 + element.0A. -/
abbrev oFabricLinkFlitsSent (e : Nat) : Nat := (0x370000 + e) * 256 + 0x0A
/-- fabric.link.ctl_state, 0x37_0000 + element.0B. -/
abbrev oFabricLinkCtlState (e : Nat) : Nat := (0x370000 + e) * 256 + 0x0B
/-- fabric.link.ctl_latency_ps, 0x37_0000 + element.0C. -/
abbrev oFabricLinkCtlLatencyPs (e : Nat) : Nat := (0x370000 + e) * 256 + 0x0C
/-- fabric.link.ctl_crc_errors, 0x37_0000 + element.0D. -/
abbrev oFabricLinkCtlCrcErrors (e : Nat) : Nat := (0x370000 + e) * 256 + 0x0D
/-- fabric.link.last_retrain, 0x37_0000 + element.0E. -/
abbrev oFabricLinkLastRetrain (e : Nat) : Nat := (0x370000 + e) * 256 + 0x0E
/-- fabric.link.retrain, 0x37_0000 + element.0F. -/
abbrev oFabricLinkRetrain (e : Nat) : Nat := (0x370000 + e) * 256 + 0x0F
/-- placement.panel.require_signed, 0x40_0001.00. -/
abbrev oPlacementPanelRequireSigned : Nat := 0x400001 * 256 + 0x00
/-- placement.panel.furnish_keys, 0x40_0002.00. -/
abbrev oPlacementPanelFurnishKeys : Nat := 0x400002 * 256 + 0x00
/-- placement.panel.replan_max_dies, 0x40_0003.00. -/
abbrev oPlacementPanelReplanMaxDies : Nat := 0x400003 * 256 + 0x00
/-- placement.panel.straggler_pct, 0x40_0004.00. -/
abbrev oPlacementPanelStragglerPct : Nat := 0x400004 * 256 + 0x00
/-- placement.panel.straggler_window_s, 0x40_0005.00. -/
abbrev oPlacementPanelStragglerWindowS : Nat := 0x400005 * 256 + 0x00
/-- placement.panel.slice_ms, 0x40_0006.00. -/
abbrev oPlacementPanelSliceMs : Nat := 0x400006 * 256 + 0x00
/-- placement.panel.plan_coverage, 0x40_0007.00. -/
abbrev oPlacementPanelPlanCoverage : Nat := 0x400007 * 256 + 0x00
/-- placement.panel.plan_coverage.tile_entries, 0x40_0007.01. -/
abbrev oPlacementPanelPlanCoverageTileEntries : Nat := 0x400007 * 256 + 0x01
/-- placement.panel.plan_coverage.die_entries, 0x40_0007.02. -/
abbrev oPlacementPanelPlanCoverageDieEntries : Nat := 0x400007 * 256 + 0x02
/-- placement.panel.plan_coverage.sector_entries, 0x40_0007.03. -/
abbrev oPlacementPanelPlanCoverageSectorEntries : Nat := 0x400007 * 256 + 0x03
/-- placement.panel.plan_coverage.generation, 0x40_0007.04. -/
abbrev oPlacementPanelPlanCoverageGeneration : Nat := 0x400007 * 256 + 0x04
/-- placement.panel.on_demand_plans, 0x40_0008.00. -/
abbrev oPlacementPanelOnDemandPlans : Nat := 0x400008 * 256 + 0x00
/-- placement.panel.replans, 0x40_0009.00. -/
abbrev oPlacementPanelReplans : Nat := 0x400009 * 256 + 0x00
/-- placement.panel.replan_event, 0x40_000A.00. -/
abbrev oPlacementPanelReplanEvent : Nat := 0x40000A * 256 + 0x00
/-- placement.panel.replan_force, 0x40_000B.00. -/
abbrev oPlacementPanelReplanForce : Nat := 0x40000B * 256 + 0x00
/-- placement.panel.tiles_free, 0x40_000C.00. -/
abbrev oPlacementPanelTilesFree : Nat := 0x40000C * 256 + 0x00
/-- placement.slot, 0x41_0000 + element.00. -/
abbrev oPlacementSlot (e : Nat) : Nat := (0x410000 + e) * 256 + 0x00
/-- placement.slot.state, 0x41_0000 + element.01. -/
abbrev oPlacementSlotState (e : Nat) : Nat := (0x410000 + e) * 256 + 0x01
/-- placement.slot.command, 0x41_0000 + element.02. -/
abbrev oPlacementSlotCommand (e : Nat) : Nat := (0x410000 + e) * 256 + 0x02
/-- placement.slot.image_length, 0x41_0000 + element.03. -/
abbrev oPlacementSlotImageLength (e : Nat) : Nat := (0x410000 + e) * 256 + 0x03
/-- placement.slot.cursor, 0x41_0000 + element.04. -/
abbrev oPlacementSlotCursor (e : Nat) : Nat := (0x410000 + e) * 256 + 0x04
/-- placement.slot.image, 0x41_0000 + element.05. -/
abbrev oPlacementSlotImage (e : Nat) : Nat := (0x410000 + e) * 256 + 0x05
/-- placement.slot.load_error, 0x41_0000 + element.06. -/
abbrev oPlacementSlotLoadError (e : Nat) : Nat := (0x410000 + e) * 256 + 0x06
/-- placement.slot.furnish_id, 0x41_0000 + element.07. -/
abbrev oPlacementSlotFurnishId (e : Nat) : Nat := (0x410000 + e) * 256 + 0x07
/-- placement.slot.signed, 0x41_0000 + element.08. -/
abbrev oPlacementSlotSigned (e : Nat) : Nat := (0x410000 + e) * 256 + 0x08
/-- placement.slot.key_id, 0x41_0000 + element.09. -/
abbrev oPlacementSlotKeyId (e : Nat) : Nat := (0x410000 + e) * 256 + 0x09
/-- placement.slot.fold_factor, 0x41_0000 + element.0A. -/
abbrev oPlacementSlotFoldFactor (e : Nat) : Nat := (0x410000 + e) * 256 + 0x0A
/-- placement.slot.placed_tiles, 0x41_0000 + element.0B. -/
abbrev oPlacementSlotPlacedTiles (e : Nat) : Nat := (0x410000 + e) * 256 + 0x0B
/-- placement.slot.hints, 0x41_0000 + element.0C. -/
abbrev oPlacementSlotHints (e : Nat) : Nat := (0x410000 + e) * 256 + 0x0C
/-- placement.slot.hints_honoured, 0x41_0000 + element.0D. -/
abbrev oPlacementSlotHintsHonoured (e : Nat) : Nat := (0x410000 + e) * 256 + 0x0D
/-- placement.slot.bottleneck, 0x41_0000 + element.0E. -/
abbrev oPlacementSlotBottleneck (e : Nat) : Nat := (0x410000 + e) * 256 + 0x0E
/-- placement.slot.est_pass_us, 0x41_0000 + element.0F. -/
abbrev oPlacementSlotEstPassUs (e : Nat) : Nat := (0x410000 + e) * 256 + 0x0F
/-- placement.slot.express_capacity, 0x41_0000 + element.10. -/
abbrev oPlacementSlotExpressCapacity (e : Nat) : Nat := (0x410000 + e) * 256 + 0x10
/-- placement.slot.bulk_rate, 0x41_0000 + element.11. -/
abbrev oPlacementSlotBulkRate (e : Nat) : Nat := (0x410000 + e) * 256 + 0x11
/-- placement.slot.pinned, 0x41_0000 + element.12. -/
abbrev oPlacementSlotPinned (e : Nat) : Nat := (0x410000 + e) * 256 + 0x12
/-- placement.slot.placed_at, 0x41_0000 + element.13. -/
abbrev oPlacementSlotPlacedAt (e : Nat) : Nat := (0x410000 + e) * 256 + 0x13
/-- placement.slot.resupply, 0x41_0000 + element.14. -/
abbrev oPlacementSlotResupply (e : Nat) : Nat := (0x410000 + e) * 256 + 0x14
/-- placement.site, 0x42_0000 + element.00. -/
abbrev oPlacementSite (e : Nat) : Nat := (0x420000 + e) * 256 + 0x00
/-- placement.site.partner, 0x42_0000 + element.01. -/
abbrev oPlacementSitePartner (e : Nat) : Nat := (0x420000 + e) * 256 + 0x01
/-- placement.site.die_target, 0x42_0000 + element.02. -/
abbrev oPlacementSiteDieTarget (e : Nat) : Nat := (0x420000 + e) * 256 + 0x02
/-- placement.site.sector_target, 0x42_0000 + element.03. -/
abbrev oPlacementSiteSectorTarget (e : Nat) : Nat := (0x420000 + e) * 256 + 0x03
/-- placement.site.speed_permille, 0x42_0000 + element.04. -/
abbrev oPlacementSiteSpeedPermille (e : Nat) : Nat := (0x420000 + e) * 256 + 0x04
/-- placement.site.straggler, 0x42_0000 + element.05. -/
abbrev oPlacementSiteStraggler (e : Nat) : Nat := (0x420000 + e) * 256 + 0x05
/-- placement.site.slot, 0x42_0000 + element.06. -/
abbrev oPlacementSiteSlot (e : Nat) : Nat := (0x420000 + e) * 256 + 0x06
/-- placement.region, 0x43_0000 + element.00. -/
abbrev oPlacementRegion (e : Nat) : Nat := (0x430000 + e) * 256 + 0x00
/-- placement.region.variant, 0x43_0000 + element.01. -/
abbrev oPlacementRegionVariant (e : Nat) : Nat := (0x430000 + e) * 256 + 0x01
/-- placement.region.width, 0x43_0000 + element.02. -/
abbrev oPlacementRegionWidth (e : Nat) : Nat := (0x430000 + e) * 256 + 0x02
/-- placement.region.first_site, 0x43_0000 + element.03. -/
abbrev oPlacementRegionFirstSite (e : Nat) : Nat := (0x430000 + e) * 256 + 0x03
/-- placement.region.position, 0x43_0000 + element.04. -/
abbrev oPlacementRegionPosition (e : Nat) : Nat := (0x430000 + e) * 256 + 0x04
/-- placement.region.kv_home, 0x43_0000 + element.05. -/
abbrev oPlacementRegionKvHome (e : Nat) : Nat := (0x430000 + e) * 256 + 0x05
/-- placement.region.added_hop_ns, 0x43_0000 + element.06. -/
abbrev oPlacementRegionAddedHopNs (e : Nat) : Nat := (0x430000 + e) * 256 + 0x06
/-- stream.panel.express_active, 0x44_0001.00. -/
abbrev oStreamPanelExpressActive : Nat := 0x440001 * 256 + 0x00
/-- stream.panel.bulk_active, 0x44_0002.00. -/
abbrev oStreamPanelBulkActive : Nat := 0x440002 * 256 + 0x00
/-- stream.panel.queued, 0x44_0003.00. -/
abbrev oStreamPanelQueued : Nat := 0x440003 * 256 + 0x00
/-- stream.panel.queue_max, 0x44_0004.00. -/
abbrev oStreamPanelQueueMax : Nat := 0x440004 * 256 + 0x00
/-- stream.panel.contract_ceiling_pct, 0x44_0005.00. -/
abbrev oStreamPanelContractCeilingPct : Nat := 0x440005 * 256 + 0x00
/-- stream.panel.accept_ref_milli, 0x44_0006.00. -/
abbrev oStreamPanelAcceptRefMilli : Nat := 0x440006 * 256 + 0x00
/-- stream.panel.cover_base_us, 0x44_0007.00. -/
abbrev oStreamPanelCoverBaseUs : Nat := 0x440007 * 256 + 0x00
/-- stream.panel.runahead_min, 0x44_0008.00. -/
abbrev oStreamPanelRunaheadMin : Nat := 0x440008 * 256 + 0x00
/-- stream.panel.terminal_keep_s, 0x44_0009.00. -/
abbrev oStreamPanelTerminalKeepS : Nat := 0x440009 * 256 + 0x00
/-- stream.panel.hist_bin_ns, 0x44_000A.00. -/
abbrev oStreamPanelHistBinNs : Nat := 0x44000A * 256 + 0x00
/-- stream.panel.late_tol_ns, 0x44_000B.00. -/
abbrev oStreamPanelLateTolNs : Nat := 0x44000B * 256 + 0x00
/-- stream.panel.ended, 0x44_000C.00. -/
abbrev oStreamPanelEnded : Nat := 0x44000C * 256 + 0x00
/-- stream.panel.underruns, 0x44_000D.00. -/
abbrev oStreamPanelUnderruns : Nat := 0x44000D * 256 + 0x00
/-- stream.panel.broke, 0x44_000E.00. -/
abbrev oStreamPanelBroke : Nat := 0x44000E * 256 + 0x00
/-- stream.panel.already_complete, 0x44_000F.00. -/
abbrev oStreamPanelAlreadyComplete : Nat := 0x44000F * 256 + 0x00
/-- stream.reel, 0x44_0010.00. -/
abbrev oStreamReel : Nat := 0x440010 * 256 + 0x00
/-- stream.reel.lead_us, 0x44_0010.01. -/
abbrev oStreamReelLeadUs : Nat := 0x440010 * 256 + 0x01
/-- stream.reel.lead_max_tokens, 0x44_0010.02. -/
abbrev oStreamReelLeadMaxTokens : Nat := 0x440010 * 256 + 0x02
/-- stream.panel.end, 0x44_0011.00. -/
abbrev oStreamPanelEnd : Nat := 0x440011 * 256 + 0x00
/-- stream.panel.contract_risk, 0x44_0012.00. -/
abbrev oStreamPanelContractRisk : Nat := 0x440012 * 256 + 0x00
/-- stream.lane, 0x45_0000 + element.00. -/
abbrev oStreamLane (e : Nat) : Nat := (0x450000 + e) * 256 + 0x00
/-- stream.lane.state, 0x45_0000 + element.01. -/
abbrev oStreamLaneState (e : Nat) : Nat := (0x450000 + e) * 256 + 0x01
/-- stream.lane.stream_id, 0x45_0000 + element.02. -/
abbrev oStreamLaneStreamId (e : Nat) : Nat := (0x450000 + e) * 256 + 0x02
/-- stream.lane.class, 0x45_0000 + element.03. -/
abbrev oStreamLaneClass (e : Nat) : Nat := (0x450000 + e) * 256 + 0x03
/-- stream.lane.slot, 0x45_0000 + element.04. -/
abbrev oStreamLaneSlot (e : Nat) : Nat := (0x450000 + e) * 256 + 0x04
/-- stream.lane.contract_tps, 0x45_0000 + element.05. -/
abbrev oStreamLaneContractTps (e : Nat) : Nat := (0x450000 + e) * 256 + 0x05
/-- stream.lane.lead_us, 0x45_0000 + element.06. -/
abbrev oStreamLaneLeadUs (e : Nat) : Nat := (0x450000 + e) * 256 + 0x06
/-- stream.lane.lead_tokens, 0x45_0000 + element.07. -/
abbrev oStreamLaneLeadTokens (e : Nat) : Nat := (0x450000 + e) * 256 + 0x07
/-- stream.lane.drafts, 0x45_0000 + element.08. -/
abbrev oStreamLaneDrafts (e : Nat) : Nat := (0x450000 + e) * 256 + 0x08
/-- stream.lane.covered, 0x45_0000 + element.09. -/
abbrev oStreamLaneCovered (e : Nat) : Nat := (0x450000 + e) * 256 + 0x09
/-- stream.lane.refilling, 0x45_0000 + element.0A. -/
abbrev oStreamLaneRefilling (e : Nat) : Nat := (0x450000 + e) * 256 + 0x0A
/-- stream.lane.position, 0x45_0000 + element.0B. -/
abbrev oStreamLanePosition (e : Nat) : Nat := (0x450000 + e) * 256 + 0x0B
/-- stream.lane.window_base, 0x45_0000 + element.0C. -/
abbrev oStreamLaneWindowBase (e : Nat) : Nat := (0x450000 + e) * 256 + 0x0C
/-- stream.lane.reel_base, 0x45_0000 + element.0D. -/
abbrev oStreamLaneReelBase (e : Nat) : Nat := (0x450000 + e) * 256 + 0x0D
/-- stream.lane.prompt_len, 0x45_0000 + element.0E. -/
abbrev oStreamLanePromptLen (e : Nat) : Nat := (0x450000 + e) * 256 + 0x0E
/-- stream.lane.last_released, 0x45_0000 + element.0F. -/
abbrev oStreamLaneLastReleased (e : Nat) : Nat := (0x450000 + e) * 256 + 0x0F
/-- stream.lane.fill, 0x45_0000 + element.10. -/
abbrev oStreamLaneFill (e : Nat) : Nat := (0x450000 + e) * 256 + 0x10
/-- stream.lane.submitted_at, 0x45_0000 + element.11. -/
abbrev oStreamLaneSubmittedAt (e : Nat) : Nat := (0x450000 + e) * 256 + 0x11
/-- stream.lane.primed_at, 0x45_0000 + element.12. -/
abbrev oStreamLanePrimedAt (e : Nat) : Nat := (0x450000 + e) * 256 + 0x12
/-- stream.lane.end_reason, 0x45_0000 + element.13. -/
abbrev oStreamLaneEndReason (e : Nat) : Nat := (0x450000 + e) * 256 + 0x13
/-- stream.tel, 0x46_0000 + element.00. -/
abbrev oStreamTel (e : Nat) : Nat := (0x460000 + e) * 256 + 0x00
/-- stream.tel.passes, 0x46_0000 + element.01. -/
abbrev oStreamTelPasses (e : Nat) : Nat := (0x460000 + e) * 256 + 0x01
/-- stream.tel.drafts_proposed, 0x46_0000 + element.02. -/
abbrev oStreamTelDraftsProposed (e : Nat) : Nat := (0x460000 + e) * 256 + 0x02
/-- stream.tel.drafts_accepted, 0x46_0000 + element.03. -/
abbrev oStreamTelDraftsAccepted (e : Nat) : Nat := (0x460000 + e) * 256 + 0x03
/-- stream.tel.broke, 0x46_0000 + element.04. -/
abbrev oStreamTelBroke (e : Nat) : Nat := (0x460000 + e) * 256 + 0x04
/-- stream.tel.runahead_right, 0x46_0000 + element.05. -/
abbrev oStreamTelRunaheadRight (e : Nat) : Nat := (0x460000 + e) * 256 + 0x05
/-- stream.tel.runahead_killed, 0x46_0000 + element.06. -/
abbrev oStreamTelRunaheadKilled (e : Nat) : Nat := (0x460000 + e) * 256 + 0x06
/-- stream.tel.replays, 0x46_0000 + element.07. -/
abbrev oStreamTelReplays (e : Nat) : Nat := (0x460000 + e) * 256 + 0x07
/-- stream.tel.underruns, 0x46_0000 + element.08. -/
abbrev oStreamTelUnderruns (e : Nat) : Nat := (0x460000 + e) * 256 + 0x08
/-- stream.tel.underrun_ns, 0x46_0000 + element.09. -/
abbrev oStreamTelUnderrunNs (e : Nat) : Nat := (0x460000 + e) * 256 + 0x09
/-- stream.tel.late, 0x46_0000 + element.0A. -/
abbrev oStreamTelLate (e : Nat) : Nat := (0x460000 + e) * 256 + 0x0A
/-- stream.tel.hist, 0x46_0000 + element.0B. -/
abbrev oStreamTelHist (e : Nat) : Nat := (0x460000 + e) * 256 + 0x0B
/-- stream.tel.p50_ns, 0x46_0000 + element.0C. -/
abbrev oStreamTelP50Ns (e : Nat) : Nat := (0x460000 + e) * 256 + 0x0C
/-- stream.tel.p99_ns, 0x46_0000 + element.0D. -/
abbrev oStreamTelP99Ns (e : Nat) : Nat := (0x460000 + e) * 256 + 0x0D
/-- stream.tel.p999_ns, 0x46_0000 + element.0E. -/
abbrev oStreamTelP999Ns (e : Nat) : Nat := (0x460000 + e) * 256 + 0x0E
/-- stream.tel.ttft_ns, 0x46_0000 + element.0F. -/
abbrev oStreamTelTtftNs (e : Nat) : Nat := (0x460000 + e) * 256 + 0x0F
/-- stream.draft, 0x47_0000 + element.00. -/
abbrev oStreamDraft (e : Nat) : Nat := (0x470000 + e) * 256 + 0x00
/-- stream.draft.adapt_enable, 0x47_0000 + element.01. -/
abbrev oStreamDraftAdaptEnable (e : Nat) : Nat := (0x470000 + e) * 256 + 0x01
/-- stream.draft.adapt_samples, 0x47_0000 + element.02. -/
abbrev oStreamDraftAdaptSamples (e : Nat) : Nat := (0x470000 + e) * 256 + 0x02
/-- stream.draft.cycles, 0x47_0000 + element.03. -/
abbrev oStreamDraftCycles (e : Nat) : Nat := (0x470000 + e) * 256 + 0x03
/-- stream.draft.generation, 0x47_0000 + element.04. -/
abbrev oStreamDraftGeneration (e : Nat) : Nat := (0x470000 + e) * 256 + 0x04
/-- stream.draft.state_digest, 0x47_0000 + element.05. -/
abbrev oStreamDraftStateDigest (e : Nat) : Nat := (0x470000 + e) * 256 + 0x05
/-- stream.draft.last_swap, 0x47_0000 + element.06. -/
abbrev oStreamDraftLastSwap (e : Nat) : Nat := (0x470000 + e) * 256 + 0x06
/-- stream.draft.accept_milli, 0x47_0000 + element.07. -/
abbrev oStreamDraftAcceptMilli (e : Nat) : Nat := (0x470000 + e) * 256 + 0x07
/-- stream.draft.swap, 0x47_0000 + element.08. -/
abbrev oStreamDraftSwap (e : Nat) : Nat := (0x470000 + e) * 256 + 0x08
/-- rt.port, 0x48_0000 + element.00. -/
abbrev oRtPort (e : Nat) : Nat := (0x480000 + e) * 256 + 0x00
/-- rt.port.role, 0x48_0000 + element.01. -/
abbrev oRtPortRole (e : Nat) : Nat := (0x480000 + e) * 256 + 0x01
/-- rt.port.state, 0x48_0000 + element.02. -/
abbrev oRtPortState (e : Nat) : Nat := (0x480000 + e) * 256 + 0x02
/-- rt.port.alternate, 0x48_0000 + element.03. -/
abbrev oRtPortAlternate (e : Nat) : Nat := (0x480000 + e) * 256 + 0x03
/-- rt.port.mac, 0x48_0000 + element.04. -/
abbrev oRtPortMac (e : Nat) : Nat := (0x480000 + e) * 256 + 0x04
/-- rt.port.ipv6, 0x48_0000 + element.05. -/
abbrev oRtPortIpv6 (e : Nat) : Nat := (0x480000 + e) * 256 + 0x05
/-- rt.port.ipv6_prefix, 0x48_0000 + element.06. -/
abbrev oRtPortIpv6Prefix (e : Nat) : Nat := (0x480000 + e) * 256 + 0x06
/-- rt.port.gateway6, 0x48_0000 + element.07. -/
abbrev oRtPortGateway6 (e : Nat) : Nat := (0x480000 + e) * 256 + 0x07
/-- rt.port.ipv4, 0x48_0000 + element.08. -/
abbrev oRtPortIpv4 (e : Nat) : Nat := (0x480000 + e) * 256 + 0x08
/-- rt.port.ipv4_prefix, 0x48_0000 + element.09. -/
abbrev oRtPortIpv4Prefix (e : Nat) : Nat := (0x480000 + e) * 256 + 0x09
/-- rt.port.gateway4, 0x48_0000 + element.0A. -/
abbrev oRtPortGateway4 (e : Nat) : Nat := (0x480000 + e) * 256 + 0x0A
/-- rt.port.vlan, 0x48_0000 + element.0B. -/
abbrev oRtPortVlan (e : Nat) : Nat := (0x480000 + e) * 256 + 0x0B
/-- rt.port.pcp, 0x48_0000 + element.0C. -/
abbrev oRtPortPcp (e : Nat) : Nat := (0x480000 + e) * 256 + 0x0C
/-- rt.port.pfc_mask, 0x48_0000 + element.0D. -/
abbrev oRtPortPfcMask (e : Nat) : Nat := (0x480000 + e) * 256 + 0x0D
/-- rt.port.mtu, 0x48_0000 + element.0E. -/
abbrev oRtPortMtu (e : Nat) : Nat := (0x480000 + e) * 256 + 0x0E
/-- rt.port.rt_udp, 0x48_0000 + element.0F. -/
abbrev oRtPortRtUdp (e : Nat) : Nat := (0x480000 + e) * 256 + 0x0F
/-- rt.port.eop_udp, 0x48_0000 + element.10. -/
abbrev oRtPortEopUdp (e : Nat) : Nat := (0x480000 + e) * 256 + 0x10
/-- rt.port.streams, 0x48_0000 + element.11. -/
abbrev oRtPortStreams (e : Nat) : Nat := (0x480000 + e) * 256 + 0x11
/-- rt.port.rx_datagrams, 0x48_0000 + element.12. -/
abbrev oRtPortRxDatagrams (e : Nat) : Nat := (0x480000 + e) * 256 + 0x12
/-- rt.port.tx_datagrams, 0x48_0000 + element.13. -/
abbrev oRtPortTxDatagrams (e : Nat) : Nat := (0x480000 + e) * 256 + 0x13
/-- rt.port.discarded, 0x48_0000 + element.14. -/
abbrev oRtPortDiscarded (e : Nat) : Nat := (0x480000 + e) * 256 + 0x14
/-- rt.port.pause_ns, 0x48_0000 + element.15. -/
abbrev oRtPortPauseNs (e : Nat) : Nat := (0x480000 + e) * 256 + 0x15
/-- rt.port.ce_received, 0x48_0000 + element.16. -/
abbrev oRtPortCeReceived (e : Nat) : Nat := (0x480000 + e) * 256 + 0x16
/-- rt.port.fec_corrected, 0x48_0000 + element.17. -/
abbrev oRtPortFecCorrected (e : Nat) : Nat := (0x480000 + e) * 256 + 0x17
/-- rt.port.fec_uncorrected, 0x48_0000 + element.18. -/
abbrev oRtPortFecUncorrected (e : Nat) : Nat := (0x480000 + e) * 256 + 0x18
/-- rt.port.link_downs, 0x48_0000 + element.19. -/
abbrev oRtPortLinkDowns (e : Nat) : Nat := (0x480000 + e) * 256 + 0x19
/-- rt.port.lldp_neighbor, 0x48_0000 + element.1A. -/
abbrev oRtPortLldpNeighbor (e : Nat) : Nat := (0x480000 + e) * 256 + 0x1A
/-- rt.lane, 0x49_0000 + element.00. -/
abbrev oRtLane (e : Nat) : Nat := (0x490000 + e) * 256 + 0x00
/-- rt.lane.port, 0x49_0000 + element.01. -/
abbrev oRtLanePort (e : Nat) : Nat := (0x490000 + e) * 256 + 0x01
/-- rt.lane.reply, 0x49_0000 + element.02. -/
abbrev oRtLaneReply (e : Nat) : Nat := (0x490000 + e) * 256 + 0x02
/-- rt.lane.alt_reply, 0x49_0000 + element.03. -/
abbrev oRtLaneAltReply (e : Nat) : Nat := (0x490000 + e) * 256 + 0x03
/-- rt.lane.credit_limit, 0x49_0000 + element.04. -/
abbrev oRtLaneCreditLimit (e : Nat) : Nat := (0x490000 + e) * 256 + 0x04
/-- rt.lane.acked, 0x49_0000 + element.05. -/
abbrev oRtLaneAcked (e : Nat) : Nat := (0x490000 + e) * 256 + 0x05
/-- rt.lane.unacked, 0x49_0000 + element.06. -/
abbrev oRtLaneUnacked (e : Nat) : Nat := (0x490000 + e) * 256 + 0x06
/-- rt.lane.retransmits, 0x49_0000 + element.07. -/
abbrev oRtLaneRetransmits (e : Nat) : Nat := (0x490000 + e) * 256 + 0x07
/-- rt.lane.credit_stalls, 0x49_0000 + element.08. -/
abbrev oRtLaneCreditStalls (e : Nat) : Nat := (0x490000 + e) * 256 + 0x08
/-- rt.lane.credit_stall_ns, 0x49_0000 + element.09. -/
abbrev oRtLaneCreditStallNs (e : Nat) : Nat := (0x490000 + e) * 256 + 0x09
/-- rt.lane.failovers, 0x49_0000 + element.0A. -/
abbrev oRtLaneFailovers (e : Nat) : Nat := (0x490000 + e) * 256 + 0x0A
/-- rt.module, 0x4A_0000 + element.00. -/
abbrev oRtModule (e : Nat) : Nat := (0x4A0000 + e) * 256 + 0x00
/-- rt.module.state, 0x4A_0000 + element.01. -/
abbrev oRtModuleState (e : Nat) : Nat := (0x4A0000 + e) * 256 + 0x01
/-- rt.module.vendor, 0x4A_0000 + element.02. -/
abbrev oRtModuleVendor (e : Nat) : Nat := (0x4A0000 + e) * 256 + 0x02
/-- rt.module.part, 0x4A_0000 + element.03. -/
abbrev oRtModulePart (e : Nat) : Nat := (0x4A0000 + e) * 256 + 0x03
/-- rt.module.serial, 0x4A_0000 + element.04. -/
abbrev oRtModuleSerial (e : Nat) : Nat := (0x4A0000 + e) * 256 + 0x04
/-- rt.module.revision, 0x4A_0000 + element.05. -/
abbrev oRtModuleRevision (e : Nat) : Nat := (0x4A0000 + e) * 256 + 0x05
/-- rt.module.cmis_rev, 0x4A_0000 + element.06. -/
abbrev oRtModuleCmisRev (e : Nat) : Nat := (0x4A0000 + e) * 256 + 0x06
/-- rt.module.temp_mc, 0x4A_0000 + element.07. -/
abbrev oRtModuleTempMc (e : Nat) : Nat := (0x4A0000 + e) * 256 + 0x07
/-- rt.module.inserted_at, 0x4A_0000 + element.08. -/
abbrev oRtModuleInsertedAt (e : Nat) : Nat := (0x4A0000 + e) * 256 + 0x08
/-- rt.module.refusal, 0x4A_0000 + element.09. -/
abbrev oRtModuleRefusal (e : Nat) : Nat := (0x4A0000 + e) * 256 + 0x09
/-- rt.panel.rto_us, 0x4B_0001.00. -/
abbrev oRtPanelRtoUs : Nat := 0x4B0001 * 256 + 0x00
/-- rt.panel.submit_timeout_ms, 0x4B_0002.00. -/
abbrev oRtPanelSubmitTimeoutMs : Nat := 0x4B0002 * 256 + 0x00
/-- rt.panel.submit_staging_mib, 0x4B_0003.00. -/
abbrev oRtPanelSubmitStagingMib : Nat := 0x4B0003 * 256 + 0x00
/-- rt.panel.host_silence_ms, 0x4B_0004.00. -/
abbrev oRtPanelHostSilenceMs : Nat := 0x4B0004 * 256 + 0x00
/-- rt.panel.link_down_us, 0x4B_0005.00. -/
abbrev oRtPanelLinkDownUs : Nat := 0x4B0005 * 256 + 0x00
/-- rt.panel.ce_gap_us, 0x4B_0006.00. -/
abbrev oRtPanelCeGapUs : Nat := 0x4B0006 * 256 + 0x00
/-- rt.panel.ptp_port, 0x4B_0007.00. -/
abbrev oRtPanelPtpPort : Nat := 0x4B0007 * 256 + 0x00
/-- rt.panel.ptp_domain, 0x4B_0008.00. -/
abbrev oRtPanelPtpDomain : Nat := 0x4B0008 * 256 + 0x00
/-- rt.panel.ptp_state, 0x4B_0009.00. -/
abbrev oRtPanelPtpState : Nat := 0x4B0009 * 256 + 0x00
/-- rt.panel.ptp_offset_ns, 0x4B_000A.00. -/
abbrev oRtPanelPtpOffsetNs : Nat := 0x4B000A * 256 + 0x00
/-- rt.panel.failovers, 0x4B_000B.00. -/
abbrev oRtPanelFailovers : Nat := 0x4B000B * 256 + 0x00
/-- rt.panel.failover, 0x4B_000C.00. -/
abbrev oRtPanelFailover : Nat := 0x4B000C * 256 + 0x00
/-- rt.panel.module_event, 0x4B_000D.00. -/
abbrev oRtPanelModuleEvent : Nat := 0x4B000D * 256 + 0x00
/-- power.panel.input_mv, 0x50_0001.00. -/
abbrev oPowerPanelInputMv : Nat := 0x500001 * 256 + 0x00
/-- power.panel.input_w, 0x50_0002.00. -/
abbrev oPowerPanelInputW : Nat := 0x500002 * 256 + 0x00
/-- power.panel.cap_w, 0x50_0003.00. -/
abbrev oPowerPanelCapW : Nat := 0x500003 * 256 + 0x00
/-- power.panel.window_us, 0x50_0004.00. -/
abbrev oPowerPanelWindowUs : Nat := 0x500004 * 256 + 0x00
/-- power.panel.hard_limit_w, 0x50_0005.00. -/
abbrev oPowerPanelHardLimitW : Nat := 0x500005 * 256 + 0x00
/-- power.panel.effective_cap_w, 0x50_0006.00. -/
abbrev oPowerPanelEffectiveCapW : Nat := 0x500006 * 256 + 0x00
/-- power.panel.ceiling, 0x50_0007.00. -/
abbrev oPowerPanelCeiling : Nat := 0x500007 * 256 + 0x00
/-- power.panel.pace_mode, 0x50_0008.00. -/
abbrev oPowerPanelPaceMode : Nat := 0x500008 * 256 + 0x00
/-- power.panel.fixed_level, 0x50_0009.00. -/
abbrev oPowerPanelFixedLevel : Nat := 0x500009 * 256 + 0x00
/-- power.panel.idle_entry_us, 0x50_000A.00. -/
abbrev oPowerPanelIdleEntryUs : Nat := 0x50000A * 256 + 0x00
/-- power.panel.cap_actions, 0x50_000B.00. -/
abbrev oPowerPanelCapActions : Nat := 0x50000B * 256 + 0x00
/-- power.panel.hard_trips, 0x50_000C.00. -/
abbrev oPowerPanelHardTrips : Nat := 0x50000C * 256 + 0x00
/-- power.panel.pace_shortfall, 0x50_000D.00. -/
abbrev oPowerPanelPaceShortfall : Nat := 0x50000D * 256 + 0x00
/-- power.panel.event, 0x50_000E.00. -/
abbrev oPowerPanelEvent : Nat := 0x50000E * 256 + 0x00
/-- power.sector, 0x51_0000 + element.00. -/
abbrev oPowerSector (e : Nat) : Nat := (0x510000 + e) * 256 + 0x00
/-- power.sector.level, 0x51_0000 + element.01. -/
abbrev oPowerSectorLevel (e : Nat) : Nat := (0x510000 + e) * 256 + 0x01
/-- power.sector.limiter, 0x51_0000 + element.02. -/
abbrev oPowerSectorLimiter (e : Nat) : Nat := (0x510000 + e) * 256 + 0x02
/-- power.sector.current_a, 0x51_0000 + element.03. -/
abbrev oPowerSectorCurrentA (e : Nat) : Nat := (0x510000 + e) * 256 + 0x03
/-- power.sector.power_w, 0x51_0000 + element.04. -/
abbrev oPowerSectorPowerW (e : Nat) : Nat := (0x510000 + e) * 256 + 0x04
/-- power.sector.cap_a, 0x51_0000 + element.05. -/
abbrev oPowerSectorCapA (e : Nat) : Nat := (0x510000 + e) * 256 + 0x05
/-- power.sector.vddl_mv, 0x51_0000 + element.06. -/
abbrev oPowerSectorVddlMv (e : Nat) : Nat := (0x510000 + e) * 256 + 0x06
/-- power.sector.vddm_mv, 0x51_0000 + element.07. -/
abbrev oPowerSectorVddmMv (e : Nat) : Nat := (0x510000 + e) * 256 + 0x07
/-- power.sector.rails_ok, 0x51_0000 + element.08. -/
abbrev oPowerSectorRailsOk (e : Nat) : Nat := (0x510000 + e) * 256 + 0x08
/-- power.sector.phases_good, 0x51_0000 + element.09. -/
abbrev oPowerSectorPhasesGood (e : Nat) : Nat := (0x510000 + e) * 256 + 0x09
/-- power.sector.latched, 0x51_0000 + element.0A. -/
abbrev oPowerSectorLatched (e : Nat) : Nat := (0x510000 + e) * 256 + 0x0A
/-- power.sector.wakes, 0x51_0000 + element.0B. -/
abbrev oPowerSectorWakes (e : Nat) : Nat := (0x510000 + e) * 256 + 0x0B
/-- power.sector.staged_wakes, 0x51_0000 + element.0C. -/
abbrev oPowerSectorStagedWakes (e : Nat) : Nat := (0x510000 + e) * 256 + 0x0C
/-- power.sector.slow_wakes, 0x51_0000 + element.0D. -/
abbrev oPowerSectorSlowWakes (e : Nat) : Nat := (0x510000 + e) * 256 + 0x0D
/-- power.sector.trims, 0x51_0000 + element.0E. -/
abbrev oPowerSectorTrims (e : Nat) : Nat := (0x510000 + e) * 256 + 0x0E
/-- power.sector.droops, 0x51_0000 + element.0F. -/
abbrev oPowerSectorDroops (e : Nat) : Nat := (0x510000 + e) * 256 + 0x0F
/-- power.brick, 0x52_0000 + element.00. -/
abbrev oPowerBrick (e : Nat) : Nat := (0x520000 + e) * 256 + 0x00
/-- power.brick.state, 0x52_0000 + element.01. -/
abbrev oPowerBrickState (e : Nat) : Nat := (0x520000 + e) * 256 + 0x01
/-- power.brick.output_w, 0x52_0000 + element.02. -/
abbrev oPowerBrickOutputW (e : Nat) : Nat := (0x520000 + e) * 256 + 0x02
/-- power.brick.temp_mc, 0x52_0000 + element.03. -/
abbrev oPowerBrickTempMc (e : Nat) : Nat := (0x520000 + e) * 256 + 0x03
/-- power.brick.serial, 0x52_0000 + element.04. -/
abbrev oPowerBrickSerial (e : Nat) : Nat := (0x520000 + e) * 256 + 0x04
/-- power.brick.faults, 0x52_0000 + element.05. -/
abbrev oPowerBrickFaults (e : Nat) : Nat := (0x520000 + e) * 256 + 0x05
/-- power.site, 0x53_0000 + element.00. -/
abbrev oPowerSite (e : Nat) : Nat := (0x530000 + e) * 256 + 0x00
/-- power.site.idle_mask, 0x53_0000 + element.01. -/
abbrev oPowerSiteIdleMask (e : Nat) : Nat := (0x530000 + e) * 256 + 0x01
/-- power.site.ceiling, 0x53_0000 + element.02. -/
abbrev oPowerSiteCeiling (e : Nat) : Nat := (0x530000 + e) * 256 + 0x02
/-- power.site.throttles, 0x53_0000 + element.03. -/
abbrev oPowerSiteThrottles (e : Nat) : Nat := (0x530000 + e) * 256 + 0x03
/-- thermal.panel.hottest_mc, 0x54_0001.00. -/
abbrev oThermalPanelHottestMc : Nat := 0x540001 * 256 + 0x00
/-- thermal.panel.dispute, 0x54_0002.00. -/
abbrev oThermalPanelDispute : Nat := 0x540002 * 256 + 0x00
/-- thermal.panel.cooling, 0x54_0003.00. -/
abbrev oThermalPanelCooling : Nat := 0x540003 * 256 + 0x00
/-- thermal.panel.disputes, 0x54_0004.00. -/
abbrev oThermalPanelDisputes : Nat := 0x540004 * 256 + 0x00
/-- thermal.panel.critical, 0x54_0005.00. -/
abbrev oThermalPanelCritical : Nat := 0x540005 * 256 + 0x00
/-- thermal.site, 0x55_0000 + element.00. -/
abbrev oThermalSite (e : Nat) : Nat := (0x550000 + e) * 256 + 0x00
/-- thermal.site.temp_mc, 0x55_0000 + element.01. -/
abbrev oThermalSiteTempMc (e : Nat) : Nat := (0x550000 + e) * 256 + 0x01
/-- thermal.site.hotspots, 0x55_0000 + element.02. -/
abbrev oThermalSiteHotspots (e : Nat) : Nat := (0x550000 + e) * 256 + 0x02
/-- thermal.site.level, 0x55_0000 + element.03. -/
abbrev oThermalSiteLevel (e : Nat) : Nat := (0x550000 + e) * 256 + 0x03
/-- thermal.site.suspects, 0x55_0000 + element.04. -/
abbrev oThermalSiteSuspects (e : Nat) : Nat := (0x550000 + e) * 256 + 0x04
/-- thermal.plate, 0x56_0001.00. -/
abbrev oThermalPlate : Nat := 0x560001 * 256 + 0x00
/-- thermal.plate.inlet_mc, 0x56_0001.01. -/
abbrev oThermalPlateInletMc : Nat := 0x560001 * 256 + 0x01
/-- thermal.plate.outlet_mc, 0x56_0001.02. -/
abbrev oThermalPlateOutletMc : Nat := 0x560001 * 256 + 0x02
/-- thermal.plate.flow_ml_min, 0x56_0001.03. -/
abbrev oThermalPlateFlowMlMin : Nat := 0x560001 * 256 + 0x03
/-- thermal.plate.coolant, 0x56_0002.00. -/
abbrev oThermalPlateCoolant : Nat := 0x560002 * 256 + 0x00
/-- thermal.sector, 0x57_0000 + element.00. -/
abbrev oThermalSector (e : Nat) : Nat := (0x570000 + e) * 256 + 0x00
/-- thermal.sector.r_mkw, 0x57_0000 + element.01. -/
abbrev oThermalSectorRMkw (e : Nat) : Nat := (0x570000 + e) * 256 + 0x01
/-- thermal.sector.baseline_mkw, 0x57_0000 + element.02. -/
abbrev oThermalSectorBaselineMkw (e : Nat) : Nat := (0x570000 + e) * 256 + 0x02
/-- thermal.sector.ratio_milli, 0x57_0000 + element.03. -/
abbrev oThermalSectorRatioMilli (e : Nat) : Nat := (0x570000 + e) * 256 + 0x03
/-- thermal.sector.state, 0x57_0000 + element.04. -/
abbrev oThermalSectorState (e : Nat) : Nat := (0x570000 + e) * 256 + 0x04
/-- thermal.sector.derate_level, 0x57_0000 + element.05. -/
abbrev oThermalSectorDerateLevel (e : Nat) : Nat := (0x570000 + e) * 256 + 0x05
/-- ageing.panel.powered_h, 0x58_0001.00. -/
abbrev oAgeingPanelPoweredH : Nat := 0x580001 * 256 + 0x00
/-- ageing.panel.period_h, 0x58_0002.00. -/
abbrev oAgeingPanelPeriodH : Nat := 0x580002 * 256 + 0x00
/-- ageing.panel.vddl_raise_max_mv, 0x58_0003.00. -/
abbrev oAgeingPanelVddlRaiseMaxMv : Nat := 0x580003 * 256 + 0x00
/-- ageing.panel.last_replan, 0x58_0004.00. -/
abbrev oAgeingPanelLastReplan : Nat := 0x580004 * 256 + 0x00
/-- ageing.panel.replan_now, 0x58_0005.00. -/
abbrev oAgeingPanelReplanNow : Nat := 0x580005 * 256 + 0x00
/-- ageing.panel.history, 0x58_0006.00. -/
abbrev oAgeingPanelHistory : Nat := 0x580006 * 256 + 0x00
/-- ageing.panel.replan, 0x58_0007.00. -/
abbrev oAgeingPanelReplan : Nat := 0x580007 * 256 + 0x00
/-- ageing.panel.margin_event, 0x58_0008.00. -/
abbrev oAgeingPanelMarginEvent : Nat := 0x580008 * 256 + 0x00
/-- ageing.link, 0x58_1000 + element.00. -/
abbrev oAgeingLink (e : Nat) : Nat := (0x581000 + e) * 256 + 0x00
/-- ageing.link.eye_h_mui, 0x58_1000 + element.01. -/
abbrev oAgeingLinkEyeHMui (e : Nat) : Nat := (0x581000 + e) * 256 + 0x01
/-- ageing.link.eye_v_mv, 0x58_1000 + element.02. -/
abbrev oAgeingLinkEyeVMv (e : Nat) : Nat := (0x581000 + e) * 256 + 0x02
/-- ageing.link.weak_lanes, 0x58_1000 + element.03. -/
abbrev oAgeingLinkWeakLanes (e : Nat) : Nat := (0x581000 + e) * 256 + 0x03
/-- ageing.link.measured_at, 0x58_1000 + element.04. -/
abbrev oAgeingLinkMeasuredAt (e : Nat) : Nat := (0x581000 + e) * 256 + 0x04
/-- ageing.site, 0x59_0000 + element.00. -/
abbrev oAgeingSite (e : Nat) : Nat := (0x590000 + e) * 256 + 0x00
/-- ageing.site.margins, 0x59_0000 + element.01. -/
abbrev oAgeingSiteMargins (e : Nat) : Nat := (0x590000 + e) * 256 + 0x01
/-- ageing.site.trims, 0x59_0000 + element.02. -/
abbrev oAgeingSiteTrims (e : Nat) : Nat := (0x590000 + e) * 256 + 0x02
/-- ageing.site.ro_slowing, 0x59_0000 + element.03. -/
abbrev oAgeingSiteRoSlowing (e : Nat) : Nat := (0x590000 + e) * 256 + 0x03
/-- ageing.site.floor_events, 0x59_0000 + element.04. -/
abbrev oAgeingSiteFloorEvents (e : Nat) : Nat := (0x590000 + e) * 256 + 0x04
/-- ageing.module, 0x5A_0000 + element.00. -/
abbrev oAgeingModule (e : Nat) : Nat := (0x5A0000 + e) * 256 + 0x00
/-- ageing.module.entry, 0x5A_0000 + element.01. -/
abbrev oAgeingModuleEntry (e : Nat) : Nat := (0x5A0000 + e) * 256 + 0x01
/-- ageing.module.bias_ua, 0x5A_0000 + element.02. -/
abbrev oAgeingModuleBiasUa (e : Nat) : Nat := (0x5A0000 + e) * 256 + 0x02
/-- ageing.module.eol_ua, 0x5A_0000 + element.03. -/
abbrev oAgeingModuleEolUa (e : Nat) : Nat := (0x5A0000 + e) * 256 + 0x03
/-- ageing.module.predicted_eol, 0x5A_0000 + element.04. -/
abbrev oAgeingModulePredictedEol (e : Nat) : Nat := (0x5A0000 + e) * 256 + 0x04
/-- ageing.module.days_left, 0x5A_0000 + element.05. -/
abbrev oAgeingModuleDaysLeft (e : Nat) : Nat := (0x5A0000 + e) * 256 + 0x05
/-- ageing.life, 0x5A_0100 + element.00. -/
abbrev oAgeingLife (e : Nat) : Nat := (0x5A0100 + e) * 256 + 0x00
/-- ageing.life.serial, 0x5A_0100 + element.01. -/
abbrev oAgeingLifeSerial (e : Nat) : Nat := (0x5A0100 + e) * 256 + 0x01
/-- ageing.life.part, 0x5A_0100 + element.02. -/
abbrev oAgeingLifePart (e : Nat) : Nat := (0x5A0100 + e) * 256 + 0x02
/-- ageing.life.on_hours, 0x5A_0100 + element.03. -/
abbrev oAgeingLifeOnHours (e : Nat) : Nat := (0x5A0100 + e) * 256 + 0x03
/-- ageing.life.insertions, 0x5A_0100 + element.04. -/
abbrev oAgeingLifeInsertions (e : Nat) : Nat := (0x5A0100 + e) * 256 + 0x04
/-- ageing.life.initial_bias_ua, 0x5A_0100 + element.05. -/
abbrev oAgeingLifeInitialBiasUa (e : Nat) : Nat := (0x5A0100 + e) * 256 + 0x05
/-- ageing.life.last_bias_ua, 0x5A_0100 + element.06. -/
abbrev oAgeingLifeLastBiasUa (e : Nat) : Nat := (0x5A0100 + e) * 256 + 0x06
/-- ageing.life.max_temp_mc, 0x5A_0100 + element.07. -/
abbrev oAgeingLifeMaxTempMc (e : Nat) : Nat := (0x5A0100 + e) * 256 + 0x07
/-- ageing.life.last_seen, 0x5A_0100 + element.08. -/
abbrev oAgeingLifeLastSeen (e : Nat) : Nat := (0x5A0100 + e) * 256 + 0x08
/-- ageing.module.warn_days, 0x5A_F001.00. -/
abbrev oAgeingModuleWarnDays : Nat := 0x5AF001 * 256 + 0x00
/-- ageing.module.urgent_days, 0x5A_F002.00. -/
abbrev oAgeingModuleUrgentDays : Nat := 0x5AF002 * 256 + 0x00
/-- ageing.module.replace, 0x5A_F003.00. -/
abbrev oAgeingModuleReplace : Nat := 0x5AF003 * 256 + 0x00
/-- fault.panel.recovering, 0x60_0001.00. -/
abbrev oFaultPanelRecovering : Nat := 0x600001 * 256 + 0x00
/-- fault.panel.recoveries, 0x60_0002.00. -/
abbrev oFaultPanelRecoveries : Nat := 0x600002 * 256 + 0x00
/-- fault.panel.double_faults, 0x60_0003.00. -/
abbrev oFaultPanelDoubleFaults : Nat := 0x600003 * 256 + 0x00
/-- fault.panel.event, 0x60_0004.00. -/
abbrev oFaultPanelEvent : Nat := 0x600004 * 256 + 0x00
/-- fault.panel.double_fault, 0x60_0005.00. -/
abbrev oFaultPanelDoubleFault : Nat := 0x600005 * 256 + 0x00
/-- fault.panel.furnish_fault, 0x60_0006.00. -/
abbrev oFaultPanelFurnishFault : Nat := 0x600006 * 256 + 0x00
/-- fault.panel.stall_abort, 0x60_0007.00. -/
abbrev oFaultPanelStallAbort : Nat := 0x600007 * 256 + 0x00
/-- fault.panel.resupply_wait_s, 0x60_0008.00. -/
abbrev oFaultPanelResupplyWaitS : Nat := 0x600008 * 256 + 0x00
/-- fault.panel.transient_limit, 0x60_0009.00. -/
abbrev oFaultPanelTransientLimit : Nat := 0x600009 * 256 + 0x00
/-- fault.panel.heartbeat_misses, 0x60_000A.00. -/
abbrev oFaultPanelHeartbeatMisses : Nat := 0x60000A * 256 + 0x00
/-- fault.panel.violation_replays, 0x60_000B.00. -/
abbrev oFaultPanelViolationReplays : Nat := 0x60000B * 256 + 0x00
/-- fault.panel.state_lost, 0x60_000C.00. -/
abbrev oFaultPanelStateLost : Nat := 0x60000C * 256 + 0x00
/-- fault.site, 0x61_0000 + element.00. -/
abbrev oFaultSite (e : Nat) : Nat := (0x610000 + e) * 256 + 0x00
/-- fault.site.transients, 0x61_0000 + element.01. -/
abbrev oFaultSiteTransients (e : Nat) : Nat := (0x610000 + e) * 256 + 0x01
/-- fault.site.corrected, 0x61_0000 + element.02. -/
abbrev oFaultSiteCorrected (e : Nat) : Nat := (0x610000 + e) * 256 + 0x02
/-- fault.site.mirror_state, 0x61_0000 + element.03. -/
abbrev oFaultSiteMirrorState (e : Nat) : Nat := (0x610000 + e) * 256 + 0x03
/-- fault.site.mirror_site, 0x61_0000 + element.04. -/
abbrev oFaultSiteMirrorSite (e : Nat) : Nat := (0x610000 + e) * 256 + 0x04
/-- fault.site.last_cause, 0x61_0000 + element.05. -/
abbrev oFaultSiteLastCause (e : Nat) : Nat := (0x610000 + e) * 256 + 0x05
/-- fault.site.last_fault, 0x61_0000 + element.06. -/
abbrev oFaultSiteLastFault (e : Nat) : Nat := (0x610000 + e) * 256 + 0x06
/-- fault.bg, 0x62_0000 + element.00. -/
abbrev oFaultBg (e : Nat) : Nat := (0x620000 + e) * 256 + 0x00
/-- fault.bg.state, 0x62_0000 + element.01. -/
abbrev oFaultBgState (e : Nat) : Nat := (0x620000 + e) * 256 + 0x01
/-- fault.bg.deadline_s, 0x62_0000 + element.02. -/
abbrev oFaultBgDeadlineS (e : Nat) : Nat := (0x620000 + e) * 256 + 0x02
/-- fault.bg.waiting_s, 0x62_0000 + element.03. -/
abbrev oFaultBgWaitingS (e : Nat) : Nat := (0x620000 + e) * 256 + 0x03
/-- fault.bg.escalations, 0x62_0000 + element.04. -/
abbrev oFaultBgEscalations (e : Nat) : Nat := (0x620000 + e) * 256 + 0x04
/-- fault.bg.slot_us, 0x62_0000 + element.05. -/
abbrev oFaultBgSlotUs (e : Nat) : Nat := (0x620000 + e) * 256 + 0x05
/-- fault.bg.forced_pauses, 0x62_0000 + element.06. -/
abbrev oFaultBgForcedPauses (e : Nat) : Nat := (0x620000 + e) * 256 + 0x06
/-- fault.bg.health, 0x62_F001.00. -/
abbrev oFaultBgHealth : Nat := 0x62F001 * 256 + 0x00
/-- fault.log, 0x63_0001.00. -/
abbrev oFaultLog : Nat := 0x630001 * 256 + 0x00
/-- cascade.config, 0x64_0001.00. -/
abbrev oCascadeConfig : Nat := 0x640001 * 256 + 0x00
/-- cascade.config.cascade_id, 0x64_0001.01. -/
abbrev oCascadeConfigCascadeId : Nat := 0x640001 * 256 + 0x01
/-- cascade.config.members, 0x64_0001.02. -/
abbrev oCascadeConfigMembers : Nat := 0x640001 * 256 + 0x02
/-- cascade.config.master, 0x64_0001.03. -/
abbrev oCascadeConfigMaster : Nat := 0x640001 * 256 + 0x03
/-- cascade.config.deputy, 0x64_0001.04. -/
abbrev oCascadeConfigDeputy : Nat := 0x640001 * 256 + 0x04
/-- cascade.config.pace_level, 0x64_0001.05. -/
abbrev oCascadeConfigPaceLevel : Nat := 0x640001 * 256 + 0x05
/-- cascade.config.ream_mib, 0x64_0001.06. -/
abbrev oCascadeConfigReamMib : Nat := 0x640001 * 256 + 0x06
/-- cascade.config.ream_deadline_us, 0x64_0001.07. -/
abbrev oCascadeConfigReamDeadlineUs : Nat := 0x640001 * 256 + 0x07
/-- cascade.config.backup_remote, 0x64_0001.08. -/
abbrev oCascadeConfigBackupRemote : Nat := 0x640001 * 256 + 0x08
/-- cascade.config.straggler_pct, 0x64_0001.09. -/
abbrev oCascadeConfigStragglerPct : Nat := 0x640001 * 256 + 0x09
/-- cascade.config.straggler_window_s, 0x64_0001.0A. -/
abbrev oCascadeConfigStragglerWindowS : Nat := 0x640001 * 256 + 0x0A
/-- cascade.panel.digest, 0x64_0002.00. -/
abbrev oCascadePanelDigest : Nat := 0x640002 * 256 + 0x00
/-- cascade.panel.strap, 0x64_0003.00. -/
abbrev oCascadePanelStrap : Nat := 0x640003 * 256 + 0x00
/-- cascade.panel.role, 0x64_0004.00. -/
abbrev oCascadePanelRole : Nat := 0x640004 * 256 + 0x00
/-- cascade.panel.state, 0x64_0005.00. -/
abbrev oCascadePanelState : Nat := 0x640005 * 256 + 0x00
/-- cascade.panel.number, 0x64_0006.00. -/
abbrev oCascadePanelNumber : Nat := 0x640006 * 256 + 0x00
/-- cascade.panel.level, 0x64_0007.00. -/
abbrev oCascadePanelLevel : Nat := 0x640007 * 256 + 0x00
/-- cascade.panel.accept_foreign, 0x64_0008.00. -/
abbrev oCascadePanelAcceptForeign : Nat := 0x640008 * 256 + 0x00
/-- cascade.panel.couch, 0x64_0009.00. -/
abbrev oCascadePanelCouch : Nat := 0x640009 * 256 + 0x00
/-- cascade.panel.replace, 0x64_000A.00. -/
abbrev oCascadePanelReplace : Nat := 0x64000A * 256 + 0x00
/-- cascade.panel.event, 0x64_000B.00. -/
abbrev oCascadePanelEvent : Nat := 0x64000B * 256 + 0x00
/-- cascade.panel.couch_event, 0x64_000C.00. -/
abbrev oCascadePanelCouchEvent : Nat := 0x64000C * 256 + 0x00
/-- cascade.panel.straggler, 0x64_000D.00. -/
abbrev oCascadePanelStraggler : Nat := 0x64000D * 256 + 0x00
/-- cascade.panel.couches, 0x64_000E.00. -/
abbrev oCascadePanelCouches : Nat := 0x64000E * 256 + 0x00
/-- cascade.panel.takeovers, 0x64_000F.00. -/
abbrev oCascadePanelTakeovers : Nat := 0x64000F * 256 + 0x00
/-- cascade.member, 0x65_0000 + element.00. -/
abbrev oCascadeMember (e : Nat) : Nat := (0x650000 + e) * 256 + 0x00
/-- cascade.member.serial, 0x65_0000 + element.01. -/
abbrev oCascadeMemberSerial (e : Nat) : Nat := (0x650000 + e) * 256 + 0x01
/-- cascade.member.state, 0x65_0000 + element.02. -/
abbrev oCascadeMemberState (e : Nat) : Nat := (0x650000 + e) * 256 + 0x02
/-- cascade.member.links, 0x65_0000 + element.03. -/
abbrev oCascadeMemberLinks (e : Nat) : Nat := (0x650000 + e) * 256 + 0x03
/-- cascade.member.speed_permille, 0x65_0000 + element.04. -/
abbrev oCascadeMemberSpeedPermille (e : Nat) : Nat := (0x650000 + e) * 256 + 0x04
/-- cascade.member.late_permille, 0x65_0000 + element.05. -/
abbrev oCascadeMemberLatePermille (e : Nat) : Nat := (0x650000 + e) * 256 + 0x05
/-- cascade.member.straggler, 0x65_0000 + element.06. -/
abbrev oCascadeMemberStraggler (e : Nat) : Nat := (0x650000 + e) * 256 + 0x06
/-- cascade.member.lanes, 0x65_0000 + element.07. -/
abbrev oCascadeMemberLanes (e : Nat) : Nat := (0x650000 + e) * 256 + 0x07
/-- cascade.member.last_heard, 0x65_0000 + element.08. -/
abbrev oCascadeMemberLastHeard (e : Nat) : Nat := (0x650000 + e) * 256 + 0x08
/-- cascade.link, 0x66_0000 + element.00. -/
abbrev oCascadeLink (e : Nat) : Nat := (0x660000 + e) * 256 + 0x00
/-- cascade.link.state, 0x66_0000 + element.01. -/
abbrev oCascadeLinkState (e : Nat) : Nat := (0x660000 + e) * 256 + 0x01
/-- cascade.link.peer_serial, 0x66_0000 + element.02. -/
abbrev oCascadeLinkPeerSerial (e : Nat) : Nat := (0x660000 + e) * 256 + 0x02
/-- cascade.link.peer_panel, 0x66_0000 + element.03. -/
abbrev oCascadeLinkPeerPanel (e : Nat) : Nat := (0x660000 + e) * 256 + 0x03
/-- cascade.link.peer_port, 0x66_0000 + element.04. -/
abbrev oCascadeLinkPeerPort (e : Nat) : Nat := (0x660000 + e) * 256 + 0x04
/-- cascade.link.latency_ps, 0x66_0000 + element.05. -/
abbrev oCascadeLinkLatencyPs (e : Nat) : Nat := (0x660000 + e) * 256 + 0x05
/-- cascade.link.xoff_threshold, 0x66_0000 + element.06. -/
abbrev oCascadeLinkXoffThreshold (e : Nat) : Nat := (0x660000 + e) * 256 + 0x06
/-- cascade.link.fec_corrected, 0x66_0000 + element.07. -/
abbrev oCascadeLinkFecCorrected (e : Nat) : Nat := (0x660000 + e) * 256 + 0x07
/-- cascade.link.fec_uncorrected, 0x66_0000 + element.08. -/
abbrev oCascadeLinkFecUncorrected (e : Nat) : Nat := (0x660000 + e) * 256 + 0x08
/-- cascade.link.crc_errors, 0x66_0000 + element.09. -/
abbrev oCascadeLinkCrcErrors (e : Nat) : Nat := (0x660000 + e) * 256 + 0x09
/-- cascade.link.replayed_blocks, 0x66_0000 + element.0A. -/
abbrev oCascadeLinkReplayedBlocks (e : Nat) : Nat := (0x660000 + e) * 256 + 0x0A
/-- cascade.link.retrains, 0x66_0000 + element.0B. -/
abbrev oCascadeLinkRetrains (e : Nat) : Nat := (0x660000 + e) * 256 + 0x0B
/-- cascade.link.retrain, 0x66_0000 + element.0C. -/
abbrev oCascadeLinkRetrain (e : Nat) : Nat := (0x660000 + e) * 256 + 0x0C
/-- cascade.ream.completed, 0x67_0001.00. -/
abbrev oCascadeReamCompleted : Nat := 0x670001 * 256 + 0x00
/-- cascade.ream.backups_taken, 0x67_0002.00. -/
abbrev oCascadeReamBackupsTaken : Nat := 0x670002 * 256 + 0x00
/-- cascade.ream.abandoned, 0x67_0003.00. -/
abbrev oCascadeReamAbandoned : Nat := 0x670003 * 256 + 0x00
/-- cascade.ream.last_us, 0x67_0004.00. -/
abbrev oCascadeReamLastUs : Nat := 0x670004 * 256 + 0x00
/-- cascade.slot, 0x67_0100 + element.00. -/
abbrev oCascadeSlot (e : Nat) : Nat := (0x670100 + e) * 256 + 0x00
/-- cascade.slot.mode, 0x67_0100 + element.01. -/
abbrev oCascadeSlotMode (e : Nat) : Nat := (0x670100 + e) * 256 + 0x01
/-- cascade.slot.members, 0x67_0100 + element.02. -/
abbrev oCascadeSlotMembers (e : Nat) : Nat := (0x670100 + e) * 256 + 0x02
/-- cascade.slot.cuts, 0x67_0100 + element.03. -/
abbrev oCascadeSlotCuts (e : Nat) : Nat := (0x670100 + e) * 256 + 0x03
/-- cascade.slot.est_pass_us, 0x67_0100 + element.04. -/
abbrev oCascadeSlotEstPassUs (e : Nat) : Nat := (0x670100 + e) * 256 + 0x04
/-- boot.progress, 0x70_0001.00. -/
abbrev oBootProgress : Nat := 0x700001 * 256 + 0x00
/-- boot.progress.step, 0x70_0001.01. -/
abbrev oBootProgressStep : Nat := 0x700001 * 256 + 0x01
/-- boot.progress.step_started, 0x70_0001.02. -/
abbrev oBootProgressStepStarted : Nat := 0x700001 * 256 + 0x02
/-- boot.progress.last_ready_ms, 0x70_0001.03. -/
abbrev oBootProgressLastReadyMs : Nat := 0x700001 * 256 + 0x03
/-- boot.progress.attempts, 0x70_0001.04. -/
abbrev oBootProgressAttempts : Nat := 0x700001 * 256 + 0x04
/-- boot.event, 0x70_0002.00. -/
abbrev oBootEvent : Nat := 0x700002 * 256 + 0x00
/-- boot.kat_margin_mv, 0x70_0003.00. -/
abbrev oBootKatMarginMv : Nat := 0x700003 * 256 + 0x00
/-- boot.clock, 0x70_0004.00. -/
abbrev oBootClock : Nat := 0x700004 * 256 + 0x00
/-- boot.clock.source, 0x70_0004.01. -/
abbrev oBootClockSource : Nat := 0x700004 * 256 + 0x01
/-- boot.clock.dies_locked, 0x70_0004.02. -/
abbrev oBootClockDiesLocked : Nat := 0x700004 * 256 + 0x02
/-- boot.clock.holdovers, 0x70_0004.03. -/
abbrev oBootClockHoldovers : Nat := 0x700004 * 256 + 0x03
/-- boot.clock.switchovers, 0x70_0004.04. -/
abbrev oBootClockSwitchovers : Nat := 0x700004 * 256 + 0x04
/-- boot.clock.switch, 0x70_0005.00. -/
abbrev oBootClockSwitch : Nat := 0x700005 * 256 + 0x00
/-- fw.running, 0x71_0001.00. -/
abbrev oFwRunning : Nat := 0x710001 * 256 + 0x00
/-- fw.running.release, 0x71_0001.01. -/
abbrev oFwRunningRelease : Nat := 0x710001 * 256 + 0x01
/-- fw.running.security_version, 0x71_0001.02. -/
abbrev oFwRunningSecurityVersion : Nat := 0x710001 * 256 + 0x02
/-- fw.running.measurement, 0x71_0001.03. -/
abbrev oFwRunningMeasurement : Nat := 0x710001 * 256 + 0x03
/-- fw.running.key_slot, 0x71_0001.04. -/
abbrev oFwRunningKeySlot : Nat := 0x710001 * 256 + 0x04
/-- fw.running.length, 0x71_0001.05. -/
abbrev oFwRunningLength : Nat := 0x710001 * 256 + 0x05
/-- fw.running.started, 0x71_0001.06. -/
abbrev oFwRunningStarted : Nat := 0x710001 * 256 + 0x06
/-- fw.fused_version, 0x71_0002.00. -/
abbrev oFwFusedVersion : Nat := 0x710002 * 256 + 0x00
/-- fw.keys, 0x71_0003.00. -/
abbrev oFwKeys : Nat := 0x710003 * 256 + 0x00
/-- fw.update.command, 0x71_0004.00. -/
abbrev oFwUpdateCommand : Nat := 0x710004 * 256 + 0x00
/-- fw.update.image, 0x71_0005.00. -/
abbrev oFwUpdateImage : Nat := 0x710005 * 256 + 0x00
/-- fw.update.cursor, 0x71_0006.00. -/
abbrev oFwUpdateCursor : Nat := 0x710006 * 256 + 0x00
/-- fw.update.state, 0x71_0007.00. -/
abbrev oFwUpdateState : Nat := 0x710007 * 256 + 0x00
/-- fw.update.error, 0x71_0008.00. -/
abbrev oFwUpdateError : Nat := 0x710008 * 256 + 0x00
/-- fw.broadcast, 0x71_0009.00. -/
abbrev oFwBroadcast : Nat := 0x710009 * 256 + 0x00
/-- fw.broadcast.rounds, 0x71_0009.01. -/
abbrev oFwBroadcastRounds : Nat := 0x710009 * 256 + 0x01
/-- fw.broadcast.multicast_resends, 0x71_0009.02. -/
abbrev oFwBroadcastMulticastResends : Nat := 0x710009 * 256 + 0x02
/-- fw.broadcast.unicast_resends, 0x71_0009.03. -/
abbrev oFwBroadcastUnicastResends : Nat := 0x710009 * 256 + 0x03
/-- fw.broadcast.dies_failed, 0x71_0009.04. -/
abbrev oFwBroadcastDiesFailed : Nat := 0x710009 * 256 + 0x04
/-- fw.broadcast.duration_us, 0x71_0009.05. -/
abbrev oFwBroadcastDurationUs : Nat := 0x710009 * 256 + 0x05
/-- fw.die, 0x71_0100 + element.00. -/
abbrev oFwDie (e : Nat) : Nat := (0x710100 + e) * 256 + 0x00
/-- fw.die.state, 0x71_0100 + element.01. -/
abbrev oFwDieState (e : Nat) : Nat := (0x710100 + e) * 256 + 0x01
/-- fw.die.missing, 0x71_0100 + element.02. -/
abbrev oFwDieMissing (e : Nat) : Nat := (0x710100 + e) * 256 + 0x02
/-- fw.die.hash_failures, 0x71_0100 + element.03. -/
abbrev oFwDieHashFailures (e : Nat) : Nat := (0x710100 + e) * 256 + 0x03
/-- fw.die.round, 0x71_0100 + element.04. -/
abbrev oFwDieRound (e : Nat) : Nat := (0x710100 + e) * 256 + 0x04
/-- ber.link, 0x72_0000 + element.00. -/
abbrev oBerLink (e : Nat) : Nat := (0x720000 + e) * 256 + 0x00
/-- ber.link.result, 0x72_0000 + element.01. -/
abbrev oBerLinkResult (e : Nat) : Nat := (0x720000 + e) * 256 + 0x01
/-- ber.link.bits, 0x72_0000 + element.02. -/
abbrev oBerLinkBits (e : Nat) : Nat := (0x720000 + e) * 256 + 0x02
/-- ber.link.errors, 0x72_0000 + element.03. -/
abbrev oBerLinkErrors (e : Nat) : Nat := (0x720000 + e) * 256 + 0x03
/-- ber.link.ctl_bits, 0x72_0000 + element.04. -/
abbrev oBerLinkCtlBits (e : Nat) : Nat := (0x720000 + e) * 256 + 0x04
/-- ber.link.ctl_errors, 0x72_0000 + element.05. -/
abbrev oBerLinkCtlErrors (e : Nat) : Nat := (0x720000 + e) * 256 + 0x05
/-- ber.link.excluded, 0x72_0000 + element.06. -/
abbrev oBerLinkExcluded (e : Nat) : Nat := (0x720000 + e) * 256 + 0x06
/-- ber.link.tested_at, 0x72_0000 + element.07. -/
abbrev oBerLinkTestedAt (e : Nat) : Nat := (0x720000 + e) * 256 + 0x07
/-- ber.panel, 0x72_F001.00. -/
abbrev oBerPanel : Nat := 0x72F001 * 256 + 0x00
/-- ber.panel.links_tested, 0x72_F001.01. -/
abbrev oBerPanelLinksTested : Nat := 0x72F001 * 256 + 0x01
/-- ber.panel.links_failed, 0x72_F001.02. -/
abbrev oBerPanelLinksFailed : Nat := 0x72F001 * 256 + 0x02
/-- ber.panel.lanes_excluded, 0x72_F001.03. -/
abbrev oBerPanelLanesExcluded : Nat := 0x72F001 * 256 + 0x03
/-- ber.panel.duration_ms, 0x72_F001.04. -/
abbrev oBerPanelDurationMs : Nat := 0x72F001 * 256 + 0x04
/-- sec.id.deviceid_key, 0x73_0001.00. -/
abbrev oSecIdDeviceidKey : Nat := 0x730001 * 256 + 0x00
/-- sec.id.deviceid_key.key_id, 0x73_0001.01. -/
abbrev oSecIdDeviceidKeyKeyId : Nat := 0x730001 * 256 + 0x01
/-- sec.id.deviceid_key.ed25519, 0x73_0001.02. -/
abbrev oSecIdDeviceidKeyEd25519 : Nat := 0x730001 * 256 + 0x02
/-- sec.id.deviceid_key.mldsa, 0x73_0001.03. -/
abbrev oSecIdDeviceidKeyMldsa : Nat := 0x730001 * 256 + 0x03
/-- sec.id.deviceid_certs, 0x73_0002.00. -/
abbrev oSecIdDeviceidCerts : Nat := 0x730002 * 256 + 0x00
/-- sec.id.deviceid_certs.ed25519_der, 0x73_0002.01. -/
abbrev oSecIdDeviceidCertsEd25519Der : Nat := 0x730002 * 256 + 0x01
/-- sec.id.deviceid_certs.mldsa_der, 0x73_0002.02. -/
abbrev oSecIdDeviceidCertsMldsaDer : Nat := 0x730002 * 256 + 0x02
/-- sec.id.alias_key, 0x73_0003.00. -/
abbrev oSecIdAliasKey : Nat := 0x730003 * 256 + 0x00
/-- sec.id.alias_key.key_id, 0x73_0003.01. -/
abbrev oSecIdAliasKeyKeyId : Nat := 0x730003 * 256 + 0x01
/-- sec.id.alias_key.ed25519, 0x73_0003.02. -/
abbrev oSecIdAliasKeyEd25519 : Nat := 0x730003 * 256 + 0x02
/-- sec.id.alias_key.mldsa, 0x73_0003.03. -/
abbrev oSecIdAliasKeyMldsa : Nat := 0x730003 * 256 + 0x03
/-- sec.id.alias_certs, 0x73_0004.00. -/
abbrev oSecIdAliasCerts : Nat := 0x730004 * 256 + 0x00
/-- sec.id.alias_certs.ed25519_der, 0x73_0004.01. -/
abbrev oSecIdAliasCertsEd25519Der : Nat := 0x730004 * 256 + 0x01
/-- sec.id.alias_certs.mldsa_der, 0x73_0004.02. -/
abbrev oSecIdAliasCertsMldsaDer : Nat := 0x730004 * 256 + 0x02
/-- sec.attest.request, 0x73_0005.00. -/
abbrev oSecAttestRequest : Nat := 0x730005 * 256 + 0x00
/-- sec.attest.report, 0x73_0006.00. -/
abbrev oSecAttestReport : Nat := 0x730006 * 256 + 0x00
/-- sec.attest.count, 0x73_0007.00. -/
abbrev oSecAttestCount : Nat := 0x730007 * 256 + 0x00
/-- dump.state, 0x74_0001.00. -/
abbrev oDumpState : Nat := 0x740001 * 256 + 0x00
/-- dump.id, 0x74_0002.00. -/
abbrev oDumpId : Nat := 0x740002 * 256 + 0x00
/-- dump.header, 0x74_0003.00. -/
abbrev oDumpHeader : Nat := 0x740003 * 256 + 0x00
/-- dump.area, 0x74_0004.00. -/
abbrev oDumpArea : Nat := 0x740004 * 256 + 0x00
/-- dump.clear, 0x74_0005.00. -/
abbrev oDumpClear : Nat := 0x740005 * 256 + 0x00
/-- dump.event, 0x74_0006.00. -/
abbrev oDumpEvent : Nat := 0x740006 * 256 + 0x00
/-- dump.progress, 0x74_0007.00. -/
abbrev oDumpProgress : Nat := 0x740007 * 256 + 0x00
/-- dump.progress.step, 0x74_0007.01. -/
abbrev oDumpProgressStep : Nat := 0x740007 * 256 + 0x01
/-- dump.progress.tiles_scanned, 0x74_0007.02. -/
abbrev oDumpProgressTilesScanned : Nat := 0x740007 * 256 + 0x02
/-- dump.progress.slots_written, 0x74_0007.03. -/
abbrev oDumpProgressSlotsWritten : Nat := 0x740007 * 256 + 0x03
/-- diag.fatal, 0x75_0001.00. -/
abbrev oDiagFatal : Nat := 0x750001 * 256 + 0x00
/-- diag.fatal.cause, 0x75_0001.01. -/
abbrev oDiagFatalCause : Nat := 0x750001 * 256 + 0x01
/-- diag.fatal.hub, 0x75_0001.02. -/
abbrev oDiagFatalHub : Nat := 0x750001 * 256 + 0x02
/-- diag.fatal.decided, 0x75_0001.03. -/
abbrev oDiagFatalDecided : Nat := 0x750001 * 256 + 0x03
/-- diag.fatal.later, 0x75_0001.04. -/
abbrev oDiagFatalLater : Nat := 0x750001 * 256 + 0x04
/-- diag.violations, 0x75_0002.00. -/
abbrev oDiagViolations : Nat := 0x750002 * 256 + 0x00
/-- diag.stalls, 0x75_0003.00. -/
abbrev oDiagStalls : Nat := 0x750003 * 256 + 0x00
/-- diag.violation_count, 0x75_0004.00. -/
abbrev oDiagViolationCount : Nat := 0x750004 * 256 + 0x00

/-- Directory rows of area 0x10. -/
def dirArea10 : List DirRow :=
  [⟨0x100001, 0x100001, 0x00, 12, 0, 0, 255, 0, 0, 0, 0, 0, 0⟩,
   ⟨0x100001, 0x100001, 0x01, 11, 0, 0, 255, 0, 0, 16, 0, 0, 0⟩,
   ⟨0x100001, 0x100001, 0x02, 11, 0, 0, 255, 0, 0, 16, 0, 0, 0⟩,
   ⟨0x100001, 0x100001, 0x03, 11, 0, 0, 255, 0, 0, 16, 0, 0, 0⟩,
   ⟨0x100001, 0x100001, 0x04, 3, 0, 0, 255, 0, 0, 2, 0, 0, 65535⟩,
   ⟨0x100001, 0x100001, 0x05, 5, 0, 0, 255, 2, 1, 8, 0, 0, 0⟩,
   ⟨0x100002, 0x100002, 0x00, 12, 0, 0, 255, 0, 0, 0, 0, 0, 0⟩,
   ⟨0x100002, 0x100002, 0x01, 2, 0, 0, 255, 0, 0, 1, 0, 0, 255⟩,
   ⟨0x100002, 0x100002, 0x02, 1, 0, 0, 255, 0, 0, 1, 0, 0, 1⟩,
   ⟨0x100002, 0x100002, 0x03, 4, 0, 0, 255, 0, 0, 4, 0, 0, 4294967295⟩,
   ⟨0x100002, 0x100002, 0x04, 9, 0, 0, 255, 0, 0, 8, 0, 0, 18446744073709551615⟩,
   ⟨0x100002, 0x100002, 0x05, 3, 0, 0, 255, 1, 0, 2, 0, 0, 65535⟩,
   ⟨0x100002, 0x100002, 0x06, 1, 0, 0, 255, 2, 0, 1, 0, 0, 1⟩,
   ⟨0x100003, 0x100003, 0x00, 10, 4, 0, 255, 0, 0, 24, 0, 0, 0⟩,
   ⟨0x100004, 0x100004, 0x00, 2, 3, 0, 1, 0, 0, 1, 0, 0, 255⟩,
   ⟨0x100005, 0x100005, 0x00, 2, 3, 0, 2, 0, 0, 1, 0, 0, 255⟩,
   ⟨0x100006, 0x100006, 0x00, 1, 1, 0, 2, 2, 0, 1, 1, 0, 1⟩,
   ⟨0x100007, 0x100007, 0x00, 2, 3, 3, 3, 0, 0, 1, 0, 0, 255⟩,
   ⟨0x100008, 0x100008, 0x00, 12, 0, 0, 255, 0, 0, 0, 0, 0, 0⟩,
   ⟨0x100008, 0x100008, 0x01, 9, 0, 0, 255, 0, 0, 8, 0, 0, 18446744073709551615⟩,
   ⟨0x100008, 0x100008, 0x02, 2, 0, 0, 255, 0, 0, 1, 0, 0, 255⟩,
   ⟨0x100008, 0x100008, 0x03, 5, 0, 0, 255, 0, 0, 8, 0, 0, 18446744073709551615⟩,
   ⟨0x100009, 0x100009, 0x00, 10, 4, 0, 255, 0, 0, 24, 0, 0, 0⟩,
   ⟨0x100010, 0x100010, 0x00, 12, 1, 0, 2, 2, 0, 0, 0, 0, 0⟩,
   ⟨0x100010, 0x100010, 0x01, 2, 0, 0, 255, 0, 0, 1, 0, 0, 255⟩,
   ⟨0x100010, 0x100010, 0x02, 2, 0, 0, 255, 0, 0, 1, 0, 0, 255⟩,
   ⟨0x100010, 0x100010, 0x03, 10, 0, 0, 255, 3, 0, 6, 0, 0, 0⟩,
   ⟨0x100010, 0x100010, 0x04, 10, 1, 0, 2, 2, 0, 4, 0, 0, 0⟩,
   ⟨0x100010, 0x100010, 0x05, 2, 1, 0, 2, 2, 0, 1, 24, 1, 32⟩,
   ⟨0x100010, 0x100010, 0x06, 10, 1, 0, 2, 2, 0, 4, 0, 0, 0⟩,
   ⟨0x100010, 0x100010, 0x07, 10, 1, 0, 2, 2, 0, 16, 0, 0, 0⟩,
   ⟨0x100010, 0x100010, 0x08, 2, 1, 0, 2, 2, 0, 1, 64, 1, 128⟩,
   ⟨0x100010, 0x100010, 0x09, 10, 1, 0, 2, 2, 0, 16, 0, 0, 0⟩,
   ⟨0x100010, 0x100010, 0x0A, 3, 1, 0, 2, 2, 0, 2, 0, 0, 4094⟩,
   ⟨0x100011, 0x100011, 0x00, 12, 0, 0, 255, 0, 0, 0, 0, 0, 0⟩,
   ⟨0x100011, 0x100011, 0x01, 5, 0, 0, 255, 0, 1, 8, 0, 0, 0⟩,
   ⟨0x100011, 0x100011, 0x02, 9, 0, 0, 255, 0, 0, 8, 0, 0, 18446744073709551615⟩,
   ⟨0x100011, 0x100011, 0x03, 2, 0, 0, 255, 0, 0, 1, 0, 0, 255⟩,
   ⟨0x100012, 0x100012, 0x00, 2, 3, 0, 2, 0, 0, 1, 0, 0, 255⟩,
   ⟨0x100013, 0x100013, 0x00, 10, 4, 0, 255, 0, 0, 24, 0, 0, 0⟩]

/-- Directory rows of area 0x11. -/
def dirArea11 : List DirRow :=
  [⟨0x110001, 0x110001, 0x00, 13, 0, 2, 255, 0, 0, 0, 0, 0, 0⟩,
   ⟨0x110002, 0x110002, 0x00, 4, 3, 2, 2, 0, 0, 4, 0, 0, 4294967295⟩,
   ⟨0x110003, 0x110003, 0x00, 12, 0, 0, 255, 2, 0, 0, 0, 0, 0⟩,
   ⟨0x110003, 0x110003, 0x01, 2, 0, 0, 255, 2, 0, 1, 3, 0, 255⟩,
   ⟨0x110003, 0x110003, 0x02, 2, 0, 0, 255, 2, 0, 1, 0, 0, 255⟩,
   ⟨0x110004, 0x110004, 0x00, 10, 2, 255, 2, 0, 0, 18220, 0, 0, 0⟩,
   ⟨0x110005, 0x110005, 0x00, 13, 0, 0, 255, 0, 0, 0, 0, 0, 0⟩,
   ⟨0x110006, 0x110006, 0x00, 10, 2, 255, 2, 0, 0, 2028, 0, 0, 0⟩,
   ⟨0x110100, 0x11010F, 0x00, 12, 0, 0, 255, 2, 0, 0, 0, 0, 0⟩,
   ⟨0x110100, 0x11010F, 0x01, 10, 0, 0, 255, 2, 0, 8, 0, 0, 0⟩,
   ⟨0x110100, 0x11010F, 0x02, 2, 0, 0, 255, 2, 0, 1, 0, 0, 255⟩,
   ⟨0x110100, 0x11010F, 0x03, 10, 0, 0, 255, 2, 0, 32, 0, 0, 0⟩,
   ⟨0x110100, 0x11010F, 0x04, 10, 0, 0, 255, 2, 0, 1952, 0, 0, 0⟩,
   ⟨0x110100, 0x11010F, 0x05, 11, 0, 0, 255, 2, 0, 32, 0, 0, 0⟩,
   ⟨0x110100, 0x11010F, 0x06, 9, 0, 0, 255, 2, 0, 8, 0, 0, 18446744073709551615⟩,
   ⟨0x110200, 0x110208, 0x00, 12, 0, 0, 255, 2, 0, 0, 0, 0, 0⟩,
   ⟨0x110200, 0x110208, 0x01, 10, 0, 0, 255, 2, 0, 8, 0, 0, 0⟩,
   ⟨0x110200, 0x110208, 0x02, 10, 0, 0, 255, 2, 0, 32, 0, 0, 0⟩,
   ⟨0x110200, 0x110208, 0x03, 10, 0, 0, 255, 2, 0, 1952, 0, 0, 0⟩,
   ⟨0x110200, 0x110208, 0x04, 11, 0, 0, 255, 2, 0, 32, 0, 0, 0⟩,
   ⟨0x110200, 0x110208, 0x05, 9, 0, 0, 255, 2, 0, 8, 0, 0, 18446744073709551615⟩]

/-- Directory rows of area 0x12. -/
def dirArea12 : List DirRow :=
  [⟨0x120001, 0x120001, 0x00, 12, 0, 0, 255, 1, 0, 0, 0, 0, 0⟩,
   ⟨0x120001, 0x120001, 0x01, 5, 0, 0, 255, 1, 0, 8, 0, 0, 18446744073709551615⟩,
   ⟨0x120001, 0x120001, 0x02, 5, 0, 0, 255, 1, 0, 8, 0, 0, 18446744073709551615⟩,
   ⟨0x120001, 0x120001, 0x03, 2, 0, 0, 255, 1, 0, 1, 0, 0, 255⟩,
   ⟨0x120002, 0x120002, 0x00, 13, 0, 2, 255, 1, 0, 0, 0, 0, 0⟩,
   ⟨0x120003, 0x120003, 0x00, 5, 1, 0, 1, 0, 1, 8, 0, 0, 0⟩,
   ⟨0x120004, 0x120004, 0x00, 10, 4, 0, 255, 0, 0, 24, 0, 0, 0⟩,
   ⟨0x120005, 0x120005, 0x00, 13, 0, 0, 255, 0, 0, 0, 0, 0, 0⟩,
   ⟨0x120006, 0x120006, 0x00, 1, 1, 0, 1, 0, 0, 1, 0, 0, 0⟩,
   ⟨0x120010, 0x120010, 0x00, 13, 0, 0, 255, 0, 0, 0, 0, 0, 0⟩,
   ⟨0x120011, 0x120011, 0x00, 10, 0, 0, 255, 0, 0, 48, 0, 0, 0⟩]

/-- Directory rows of area 0x20. -/
def dirArea20 : List DirRow :=
  [⟨0x200001, 0x200001, 0x00, 2, 0, 0, 255, 3, 0, 1, 0, 0, 255⟩,
   ⟨0x200002, 0x200002, 0x00, 11, 0, 0, 255, 3, 0, 16, 0, 0, 0⟩,
   ⟨0x200003, 0x200003, 0x00, 3, 0, 0, 255, 3, 0, 2, 0, 0, 65535⟩,
   ⟨0x200004, 0x200004, 0x00, 5, 0, 0, 255, 0, 1, 8, 0, 0, 0⟩,
   ⟨0x200005, 0x200005, 0x00, 9, 0, 0, 255, 0, 0, 8, 0, 0, 18446744073709551615⟩,
   ⟨0x200006, 0x200006, 0x00, 10, 0, 0, 255, 0, 0, 256, 0, 0, 0⟩,
   ⟨0x200007, 0x200007, 0x00, 12, 0, 0, 255, 0, 0, 0, 0, 0, 0⟩,
   ⟨0x200007, 0x200007, 0x01, 3, 0, 0, 255, 0, 0, 2, 0, 0, 65535⟩,
   ⟨0x200007, 0x200007, 0x02, 3, 0, 0, 255, 0, 0, 2, 0, 0, 65535⟩,
   ⟨0x200007, 0x200007, 0x03, 3, 0, 0, 255, 0, 0, 2, 0, 0, 65535⟩,
   ⟨0x200007, 0x200007, 0x04, 3, 0, 0, 255, 0, 0, 2, 0, 0, 65535⟩,
   ⟨0x200007, 0x200007, 0x05, 2, 0, 0, 255, 0, 0, 1, 0, 0, 255⟩,
   ⟨0x200007, 0x200007, 0x06, 2, 0, 0, 255, 0, 0, 1, 0, 0, 255⟩,
   ⟨0x200007, 0x200007, 0x07, 4, 0, 0, 255, 0, 0, 4, 0, 0, 4294967295⟩,
   ⟨0x200007, 0x200007, 0x08, 2, 0, 0, 255, 0, 0, 1, 0, 0, 255⟩,
   ⟨0x200007, 0x200007, 0x09, 2, 0, 0, 255, 0, 0, 1, 0, 0, 255⟩,
   ⟨0x200008, 0x200008, 0x00, 5, 0, 0, 255, 3, 0, 8, 0, 0, 18446744073709551615⟩]

/-- Directory rows of area 0x21. -/
def dirArea21 : List DirRow :=
  [⟨0x210000, 0x2100FF, 0x00, 12, 0, 0, 255, 0, 0, 0, 0, 0, 0⟩,
   ⟨0x210000, 0x2100FF, 0x01, 2, 0, 0, 255, 0, 0, 1, 0, 0, 255⟩,
   ⟨0x210000, 0x2100FF, 0x02, 2, 0, 0, 255, 0, 0, 1, 0, 0, 255⟩,
   ⟨0x210000, 0x2100FF, 0x03, 3, 0, 0, 255, 0, 0, 2, 0, 0, 65535⟩,
   ⟨0x210000, 0x2100FF, 0x04, 2, 0, 0, 255, 0, 0, 1, 0, 0, 255⟩,
   ⟨0x210000, 0x2100FF, 0x05, 2, 0, 0, 255, 0, 0, 1, 0, 0, 255⟩,
   ⟨0x210000, 0x2100FF, 0x06, 10, 0, 0, 255, 0, 0, 8, 0, 0, 0⟩,
   ⟨0x210000, 0x2100FF, 0x07, 2, 0, 0, 255, 0, 0, 1, 0, 0, 255⟩,
   ⟨0x210000, 0x2100FF, 0x08, 5, 0, 0, 255, 0, 0, 8, 0, 0, 18446744073709551615⟩,
   ⟨0x210000, 0x2100FF, 0x09, 5, 0, 0, 255, 0, 0, 8, 0, 0, 18446744073709551615⟩,
   ⟨0x210000, 0x2100FF, 0x0A, 5, 0, 0, 255, 0, 0, 8, 0, 0, 18446744073709551615⟩,
   ⟨0x210000, 0x2100FF, 0x0B, 3, 0, 0, 255, 0, 0, 2, 0, 0, 65535⟩,
   ⟨0x210000, 0x2100FF, 0x0C, 9, 0, 0, 255, 0, 0, 8, 0, 0, 18446744073709551615⟩]

/-- Directory rows of area 0x22. -/
def dirArea22 : List DirRow :=
  [⟨0x220000, 0x223FFF, 0x00, 12, 0, 0, 255, 0, 2, 0, 0, 0, 0⟩,
   ⟨0x220000, 0x223FFF, 0x01, 2, 0, 0, 255, 0, 2, 1, 0, 0, 255⟩,
   ⟨0x220000, 0x223FFF, 0x02, 3, 0, 0, 255, 0, 2, 2, 65535, 0, 65535⟩,
   ⟨0x220000, 0x223FFF, 0x03, 4, 0, 0, 255, 0, 2, 4, 4294967295, 0, 4294967295⟩,
   ⟨0x220000, 0x223FFF, 0x04, 4, 0, 0, 255, 0, 2, 4, 4294967295, 0, 4294967295⟩,
   ⟨0x220000, 0x223FFF, 0x05, 4, 0, 0, 255, 0, 2, 4, 0, 0, 4294967295⟩]

/-- Directory rows of area 0x23. -/
def dirArea23 : List DirRow :=
  [⟨0x230000, 0x230013, 0x00, 12, 0, 0, 255, 0, 0, 0, 0, 0, 0⟩,
   ⟨0x230000, 0x230013, 0x01, 2, 0, 0, 255, 0, 0, 1, 0, 0, 255⟩,
   ⟨0x230000, 0x230013, 0x02, 2, 0, 0, 255, 0, 0, 1, 0, 0, 255⟩,
   ⟨0x230000, 0x230013, 0x03, 3, 0, 0, 255, 0, 0, 2, 0, 0, 65535⟩,
   ⟨0x230000, 0x230013, 0x04, 10, 0, 0, 255, 0, 0, 4, 0, 0, 0⟩,
   ⟨0x230000, 0x230013, 0x05, 10, 0, 0, 255, 0, 0, 8, 0, 0, 0⟩,
   ⟨0x230000, 0x230013, 0x06, 2, 0, 0, 255, 3, 0, 1, 0, 0, 255⟩,
   ⟨0x230000, 0x230013, 0x07, 3, 0, 0, 255, 0, 0, 2, 0, 0, 65535⟩]

/-- Directory rows of area 0x30. -/
def dirArea30 : List DirRow :=
  [⟨0x300000, 0x303FFF, 0x00, 12, 1, 0, 1, 0, 2, 0, 0, 0, 0⟩,
   ⟨0x300000, 0x303FFF, 0x01, 5, 1, 0, 1, 0, 3, 8, 0, 0, 0⟩,
   ⟨0x300000, 0x303FFF, 0x02, 5, 1, 0, 1, 0, 3, 8, 0, 0, 0⟩,
   ⟨0x300000, 0x303FFF, 0x03, 5, 1, 0, 1, 0, 3, 8, 0, 0, 0⟩,
   ⟨0x300000, 0x303FFF, 0x04, 5, 1, 0, 1, 0, 3, 8, 0, 0, 0⟩,
   ⟨0x300000, 0x303FFF, 0x05, 5, 1, 0, 1, 0, 3, 8, 0, 0, 0⟩,
   ⟨0x300000, 0x303FFF, 0x06, 5, 1, 0, 1, 0, 3, 8, 0, 0, 0⟩,
   ⟨0x300000, 0x303FFF, 0x07, 5, 1, 0, 1, 0, 3, 8, 0, 0, 0⟩,
   ⟨0x300000, 0x303FFF, 0x08, 5, 1, 0, 1, 0, 3, 8, 0, 0, 0⟩,
   ⟨0x300000, 0x303FFF, 0x09, 5, 1, 0, 1, 0, 3, 8, 0, 0, 0⟩,
   ⟨0x300000, 0x303FFF, 0x0A, 3, 0, 0, 255, 0, 2, 2, 0, 0, 65535⟩]

/-- Directory rows of area 0x31. -/
def dirArea31 : List DirRow :=
  [⟨0x310000, 0x313FFF, 0x00, 12, 1, 0, 2, 2, 2, 0, 0, 0, 0⟩,
   ⟨0x310000, 0x313FFF, 0x01, 5, 1, 0, 1, 0, 3, 8, 0, 0, 0⟩,
   ⟨0x310000, 0x313FFF, 0x02, 5, 1, 0, 1, 0, 3, 8, 0, 0, 0⟩,
   ⟨0x310000, 0x313FFF, 0x03, 13, 0, 0, 255, 0, 2, 0, 0, 0, 0⟩,
   ⟨0x310000, 0x313FFF, 0x04, 2, 3, 2, 2, 0, 2, 1, 0, 0, 255⟩]

/-- Directory rows of area 0x32. -/
def dirArea32 : List DirRow :=
  [⟨0x320001, 0x320001, 0x00, 4, 0, 0, 255, 0, 0, 4, 1, 0, 4294967295⟩,
   ⟨0x320002, 0x320002, 0x00, 3, 0, 0, 255, 0, 0, 2, 1, 0, 65535⟩,
   ⟨0x320003, 0x320003, 0x00, 5, 1, 0, 1, 0, 1, 8, 0, 0, 0⟩,
   ⟨0x320004, 0x320004, 0x00, 12, 0, 0, 255, 0, 0, 0, 0, 0, 0⟩,
   ⟨0x320004, 0x320004, 0x01, 5, 0, 0, 255, 0, 1, 8, 0, 0, 0⟩,
   ⟨0x320004, 0x320004, 0x02, 5, 0, 0, 255, 0, 1, 8, 0, 0, 0⟩,
   ⟨0x320004, 0x320004, 0x03, 5, 0, 0, 255, 0, 1, 8, 0, 0, 0⟩,
   ⟨0x320004, 0x320004, 0x04, 5, 0, 0, 255, 0, 1, 8, 0, 0, 0⟩,
   ⟨0x320004, 0x320004, 0x05, 5, 0, 0, 255, 0, 1, 8, 0, 0, 0⟩,
   ⟨0x320004, 0x320004, 0x06, 5, 0, 0, 255, 0, 1, 8, 0, 0, 0⟩,
   ⟨0x320004, 0x320004, 0x07, 5, 0, 0, 255, 0, 1, 8, 0, 0, 0⟩]

/-- Directory rows of area 0x33. -/
def dirArea33 : List DirRow :=
  [⟨0x330000, 0x333FFF, 0x00, 12, 1, 0, 1, 0, 2, 0, 0, 0, 0⟩,
   ⟨0x330000, 0x333FFF, 0x01, 2, 0, 0, 255, 0, 2, 1, 0, 0, 255⟩,
   ⟨0x330000, 0x333FFF, 0x02, 2, 0, 0, 255, 0, 2, 1, 0, 0, 255⟩,
   ⟨0x330000, 0x333FFF, 0x03, 4, 0, 0, 255, 0, 2, 4, 0, 0, 4294967295⟩,
   ⟨0x330000, 0x333FFF, 0x04, 5, 1, 0, 1, 0, 3, 8, 0, 0, 0⟩,
   ⟨0x330000, 0x333FFF, 0x05, 2, 0, 0, 255, 0, 2, 1, 0, 0, 255⟩,
   ⟨0x330000, 0x333FFF, 0x06, 5, 1, 0, 1, 0, 3, 8, 0, 0, 0⟩,
   ⟨0x330000, 0x333FFF, 0x07, 5, 1, 0, 1, 0, 3, 8, 0, 0, 0⟩,
   ⟨0x330000, 0x333FFF, 0x08, 5, 1, 0, 1, 0, 3, 8, 0, 0, 0⟩,
   ⟨0x330000, 0x333FFF, 0x09, 5, 1, 0, 1, 0, 3, 8, 0, 0, 0⟩,
   ⟨0x330000, 0x333FFF, 0x0A, 5, 1, 0, 1, 0, 3, 8, 0, 0, 0⟩,
   ⟨0x330000, 0x333FFF, 0x0B, 13, 0, 0, 255, 0, 2, 0, 0, 0, 0⟩,
   ⟨0x330000, 0x333FFF, 0x0C, 10, 0, 0, 255, 0, 2, 256, 0, 0, 0⟩,
   ⟨0x33F001, 0x33F001, 0x00, 4, 1, 0, 1, 0, 0, 4, 1000, 100, 1000000⟩,
   ⟨0x33F002, 0x33F002, 0x00, 10, 4, 0, 255, 0, 0, 24, 0, 0, 0⟩,
   ⟨0x33F003, 0x33F003, 0x00, 3, 0, 0, 255, 0, 0, 2, 1, 0, 65535⟩,
   ⟨0x33F004, 0x33F004, 0x00, 5, 1, 0, 1, 0, 1, 8, 0, 0, 0⟩,
   ⟨0x33F005, 0x33F005, 0x00, 5, 1, 0, 1, 0, 1, 8, 0, 0, 0⟩,
   ⟨0x33F006, 0x33F006, 0x00, 5, 1, 0, 1, 0, 1, 8, 0, 0, 0⟩,
   ⟨0x33F007, 0x33F007, 0x00, 5, 1, 0, 1, 0, 1, 8, 0, 0, 0⟩,
   ⟨0x33F008, 0x33F008, 0x00, 5, 1, 0, 1, 0, 1, 8, 0, 0, 0⟩]

/-- Directory rows of area 0x34. -/
def dirArea34 : List DirRow :=
  [⟨0x340000, 0x343FFF, 0x00, 12, 1, 0, 1, 0, 2, 0, 0, 0, 0⟩,
   ⟨0x340000, 0x343FFF, 0x01, 13, 0, 0, 255, 0, 2, 0, 0, 0, 0⟩,
   ⟨0x340000, 0x343FFF, 0x02, 10, 0, 0, 255, 0, 2, 8192, 0, 0, 0⟩,
   ⟨0x340000, 0x343FFF, 0x03, 5, 1, 0, 1, 0, 3, 8, 0, 0, 0⟩,
   ⟨0x340000, 0x343FFF, 0x04, 5, 1, 0, 1, 0, 3, 8, 0, 0, 0⟩,
   ⟨0x340000, 0x343FFF, 0x05, 5, 1, 0, 1, 0, 3, 8, 0, 0, 0⟩,
   ⟨0x340000, 0x343FFF, 0x06, 5, 1, 0, 1, 0, 3, 8, 0, 0, 0⟩,
   ⟨0x340000, 0x343FFF, 0x07, 5, 1, 0, 1, 0, 3, 8, 0, 0, 0⟩,
   ⟨0x340000, 0x343FFF, 0x08, 5, 1, 0, 1, 0, 3, 8, 0, 0, 0⟩,
   ⟨0x340000, 0x343FFF, 0x09, 5, 1, 0, 1, 0, 3, 8, 0, 0, 0⟩,
   ⟨0x340000, 0x343FFF, 0x0A, 5, 1, 0, 1, 0, 3, 8, 0, 0, 0⟩,
   ⟨0x34F001, 0x34F001, 0x00, 10, 4, 0, 255, 0, 0, 24, 0, 0, 0⟩,
   ⟨0x34F002, 0x34F002, 0x00, 5, 1, 0, 1, 0, 1, 8, 0, 0, 0⟩,
   ⟨0x34F003, 0x34F003, 0x00, 4, 1, 0, 1, 0, 0, 4, 1000, 100, 1000000⟩,
   ⟨0x34F004, 0x34F004, 0x00, 3, 0, 0, 255, 0, 0, 2, 1, 0, 65535⟩,
   ⟨0x34F005, 0x34F005, 0x00, 5, 0, 0, 255, 3, 0, 8, 0, 0, 18446744073709551615⟩]

/-- Directory rows of area 0x35. -/
def dirArea35 : List DirRow :=
  [⟨0x350000, 0x35001F, 0x00, 12, 1, 0, 1, 0, 0, 0, 0, 0, 0⟩,
   ⟨0x350000, 0x35001F, 0x01, 3, 0, 0, 255, 0, 0, 2, 0, 0, 65535⟩,
   ⟨0x350000, 0x35001F, 0x02, 2, 0, 0, 255, 0, 0, 1, 0, 0, 255⟩,
   ⟨0x350000, 0x35001F, 0x03, 6, 0, 0, 255, 0, 0, 4, 0, 0, 0⟩,
   ⟨0x350000, 0x35001F, 0x04, 6, 0, 0, 255, 0, 0, 4, 0, 0, 0⟩,
   ⟨0x350000, 0x35001F, 0x05, 5, 0, 0, 255, 0, 0, 8, 0, 0, 18446744073709551615⟩,
   ⟨0x350000, 0x35001F, 0x06, 2, 0, 0, 255, 0, 0, 1, 0, 0, 255⟩,
   ⟨0x350000, 0x35001F, 0x07, 5, 1, 0, 1, 0, 1, 8, 0, 0, 0⟩,
   ⟨0x350000, 0x35001F, 0x08, 5, 1, 0, 1, 0, 1, 8, 0, 0, 0⟩,
   ⟨0x350000, 0x35001F, 0x09, 5, 1, 0, 1, 0, 1, 8, 0, 0, 0⟩,
   ⟨0x350000, 0x35001F, 0x0A, 5, 1, 0, 1, 0, 1, 8, 0, 0, 0⟩,
   ⟨0x350000, 0x35001F, 0x0B, 9, 0, 0, 255, 0, 0, 8, 0, 0, 18446744073709551615⟩,
   ⟨0x350000, 0x35001F, 0x0C, 4, 0, 0, 255, 0, 0, 4, 0, 0, 4294967295⟩,
   ⟨0x350000, 0x35001F, 0x0D, 5, 1, 0, 1, 0, 1, 8, 0, 0, 0⟩,
   ⟨0x350000, 0x35001F, 0x0E, 2, 0, 0, 255, 0, 0, 1, 0, 0, 255⟩,
   ⟨0x35F001, 0x35F001, 0x00, 3, 1, 0, 2, 2, 0, 2, 24, 1, 168⟩,
   ⟨0x35F002, 0x35F002, 0x00, 2, 1, 0, 2, 2, 0, 1, 10, 5, 50⟩,
   ⟨0x35F003, 0x35F003, 0x00, 10, 0, 0, 255, 0, 0, 4, 0, 0, 0⟩,
   ⟨0x35F004, 0x35F004, 0x00, 10, 0, 0, 255, 0, 0, 512, 0, 0, 0⟩,
   ⟨0x35F005, 0x35F005, 0x00, 3, 0, 0, 255, 0, 0, 2, 0, 0, 65535⟩,
   ⟨0x35F006, 0x35F006, 0x00, 4, 0, 0, 255, 0, 0, 4, 0, 0, 4294967295⟩,
   ⟨0x35F007, 0x35F007, 0x00, 5, 1, 0, 1, 0, 1, 8, 0, 0, 0⟩,
   ⟨0x35F008, 0x35F008, 0x00, 10, 4, 0, 255, 0, 0, 24, 0, 0, 0⟩,
   ⟨0x35F100, 0x35F1FF, 0x00, 12, 0, 0, 255, 0, 0, 0, 0, 0, 0⟩,
   ⟨0x35F100, 0x35F1FF, 0x01, 2, 0, 0, 255, 0, 0, 1, 0, 0, 255⟩,
   ⟨0x35F100, 0x35F1FF, 0x02, 10, 0, 0, 255, 0, 0, 24, 0, 0, 0⟩,
   ⟨0x35F100, 0x35F1FF, 0x03, 4, 0, 0, 255, 0, 0, 4, 0, 0, 4294967295⟩]

/-- Directory rows of area 0x36. -/
def dirArea36 : List DirRow :=
  [⟨0x360001, 0x360001, 0x00, 2, 0, 0, 255, 0, 0, 1, 0, 0, 255⟩,
   ⟨0x360002, 0x360002, 0x00, 4, 1, 0, 2, 2, 0, 4, 400, 100, 500⟩,
   ⟨0x360003, 0x360003, 0x00, 4, 1, 0, 2, 2, 0, 4, 500, 100, 100000⟩,
   ⟨0x360004, 0x360004, 0x00, 5, 1, 0, 1, 0, 1, 8, 0, 0, 0⟩,
   ⟨0x360005, 0x360005, 0x00, 5, 1, 0, 1, 0, 1, 8, 0, 0, 0⟩,
   ⟨0x360006, 0x360006, 0x00, 5, 1, 0, 1, 0, 1, 8, 0, 0, 0⟩,
   ⟨0x360007, 0x360007, 0x00, 5, 1, 0, 1, 0, 1, 8, 0, 0, 0⟩,
   ⟨0x360008, 0x360008, 0x00, 5, 1, 0, 1, 0, 1, 8, 0, 0, 0⟩,
   ⟨0x360009, 0x360009, 0x00, 5, 1, 0, 1, 0, 1, 8, 0, 0, 0⟩,
   ⟨0x36000A, 0x36000A, 0x00, 5, 1, 0, 1, 0, 1, 8, 0, 0, 0⟩,
   ⟨0x36000B, 0x36000B, 0x00, 5, 1, 0, 1, 0, 1, 8, 0, 0, 0⟩,
   ⟨0x36000C, 0x36000C, 0x00, 4, 0, 0, 255, 0, 0, 4, 0, 0, 4294967295⟩,
   ⟨0x36000D, 0x36000D, 0x00, 3, 0, 0, 255, 0, 0, 2, 0, 0, 65535⟩,
   ⟨0x36000E, 0x36000E, 0x00, 5, 1, 0, 1, 0, 1, 8, 0, 0, 0⟩,
   ⟨0x36000F, 0x36000F, 0x00, 5, 1, 0, 1, 0, 1, 8, 0, 0, 0⟩,
   ⟨0x360010, 0x360010, 0x00, 10, 4, 0, 255, 0, 0, 24, 0, 0, 0⟩,
   ⟨0x360020, 0x360020, 0x00, 12, 0, 0, 255, 0, 0, 0, 0, 0, 0⟩,
   ⟨0x360020, 0x360020, 0x01, 4, 0, 0, 255, 0, 0, 4, 0, 0, 4294967295⟩,
   ⟨0x360020, 0x360020, 0x02, 4, 0, 0, 255, 0, 0, 4, 0, 0, 4294967295⟩,
   ⟨0x360020, 0x360020, 0x03, 5, 0, 0, 255, 0, 0, 8, 0, 0, 18446744073709551615⟩,
   ⟨0x360021, 0x360021, 0x00, 12, 0, 0, 255, 0, 0, 0, 0, 0, 0⟩,
   ⟨0x360021, 0x360021, 0x01, 4, 0, 0, 255, 0, 0, 4, 0, 0, 4294967295⟩,
   ⟨0x360021, 0x360021, 0x02, 4, 0, 0, 255, 0, 0, 4, 0, 0, 4294967295⟩,
   ⟨0x360021, 0x360021, 0x03, 5, 0, 0, 255, 0, 0, 8, 0, 0, 18446744073709551615⟩,
   ⟨0x360030, 0x36003F, 0x00, 12, 0, 0, 255, 0, 0, 0, 0, 0, 0⟩,
   ⟨0x360030, 0x36003F, 0x01, 4, 0, 0, 255, 0, 0, 4, 0, 0, 4294967295⟩,
   ⟨0x360030, 0x36003F, 0x02, 4, 0, 0, 255, 0, 0, 4, 0, 0, 4294967295⟩,
   ⟨0x360030, 0x36003F, 0x03, 5, 0, 0, 255, 0, 0, 8, 0, 0, 18446744073709551615⟩,
   ⟨0x360100, 0x3601FF, 0x00, 13, 0, 0, 255, 0, 0, 0, 0, 0, 0⟩,
   ⟨0x360200, 0x360213, 0x00, 13, 0, 0, 255, 0, 0, 0, 0, 0, 0⟩]

/-- Directory rows of area 0x37. -/
def dirArea37 : List DirRow :=
  [⟨0x370000, 0x3703FF, 0x00, 12, 1, 0, 2, 2, 0, 0, 0, 0, 0⟩,
   ⟨0x370000, 0x3703FF, 0x01, 2, 0, 0, 255, 0, 0, 1, 0, 0, 255⟩,
   ⟨0x370000, 0x3703FF, 0x02, 3, 0, 0, 255, 0, 0, 2, 65535, 0, 65535⟩,
   ⟨0x370000, 0x3703FF, 0x03, 2, 0, 0, 255, 0, 0, 1, 0, 0, 255⟩,
   ⟨0x370000, 0x3703FF, 0x04, 4, 0, 0, 255, 0, 0, 4, 0, 0, 4294967295⟩,
   ⟨0x370000, 0x3703FF, 0x05, 2, 0, 0, 255, 0, 0, 1, 0, 0, 255⟩,
   ⟨0x370000, 0x3703FF, 0x06, 5, 1, 0, 1, 0, 1, 8, 0, 0, 0⟩,
   ⟨0x370000, 0x3703FF, 0x07, 5, 1, 0, 1, 0, 1, 8, 0, 0, 0⟩,
   ⟨0x370000, 0x3703FF, 0x08, 5, 1, 0, 1, 0, 1, 8, 0, 0, 0⟩,
   ⟨0x370000, 0x3703FF, 0x09, 5, 1, 0, 1, 0, 1, 8, 0, 0, 0⟩,
   ⟨0x370000, 0x3703FF, 0x0A, 5, 1, 0, 1, 0, 1, 8, 0, 0, 0⟩,
   ⟨0x370000, 0x3703FF, 0x0B, 2, 0, 0, 255, 0, 0, 1, 0, 0, 255⟩,
   ⟨0x370000, 0x3703FF, 0x0C, 4, 0, 0, 255, 0, 0, 4, 0, 0, 4294967295⟩,
   ⟨0x370000, 0x3703FF, 0x0D, 5, 1, 0, 1, 0, 1, 8, 0, 0, 0⟩,
   ⟨0x370000, 0x3703FF, 0x0E, 9, 0, 0, 255, 0, 0, 8, 0, 0, 18446744073709551615⟩,
   ⟨0x370000, 0x3703FF, 0x0F, 2, 3, 2, 2, 0, 0, 1, 0, 0, 255⟩]

/-- Directory rows of area 0x40. -/
def dirArea40 : List DirRow :=
  [⟨0x400001, 0x400001, 0x00, 1, 1, 0, 2, 2, 0, 1, 0, 0, 1⟩,
   ⟨0x400002, 0x400002, 0x00, 13, 1, 0, 2, 2, 0, 0, 0, 0, 0⟩,
   ⟨0x400003, 0x400003, 0x00, 2, 1, 0, 2, 2, 0, 1, 4, 1, 16⟩,
   ⟨0x400004, 0x400004, 0x00, 2, 1, 0, 2, 2, 0, 1, 8, 3, 50⟩,
   ⟨0x400005, 0x400005, 0x00, 3, 1, 0, 2, 2, 0, 2, 10, 1, 3600⟩,
   ⟨0x400006, 0x400006, 0x00, 3, 1, 0, 1, 0, 0, 2, 100, 20, 10000⟩,
   ⟨0x400007, 0x400007, 0x00, 12, 0, 0, 255, 0, 0, 0, 0, 0, 0⟩,
   ⟨0x400007, 0x400007, 0x01, 4, 0, 0, 255, 0, 0, 4, 0, 0, 4294967295⟩,
   ⟨0x400007, 0x400007, 0x02, 3, 0, 0, 255, 0, 0, 2, 0, 0, 65535⟩,
   ⟨0x400007, 0x400007, 0x03, 2, 0, 0, 255, 0, 0, 1, 0, 0, 255⟩,
   ⟨0x400007, 0x400007, 0x04, 5, 0, 0, 255, 0, 1, 8, 0, 0, 0⟩,
   ⟨0x400008, 0x400008, 0x00, 5, 1, 0, 1, 0, 1, 8, 0, 0, 0⟩,
   ⟨0x400009, 0x400009, 0x00, 5, 1, 0, 1, 0, 1, 8, 0, 0, 0⟩,
   ⟨0x40000A, 0x40000A, 0x00, 10, 4, 0, 255, 0, 0, 24, 0, 0, 0⟩,
   ⟨0x40000B, 0x40000B, 0x00, 2, 3, 2, 2, 0, 0, 1, 0, 0, 255⟩,
   ⟨0x40000C, 0x40000C, 0x00, 4, 0, 0, 255, 0, 0, 4, 0, 0, 4294967295⟩]

/-- Directory rows of area 0x41. -/
def dirArea41 : List DirRow :=
  [⟨0x410000, 0x410007, 0x00, 12, 1, 0, 1, 0, 0, 0, 0, 0, 0⟩,
   ⟨0x410000, 0x410007, 0x01, 2, 0, 0, 255, 0, 0, 1, 0, 0, 255⟩,
   ⟨0x410000, 0x410007, 0x02, 2, 3, 0, 1, 0, 0, 1, 0, 0, 255⟩,
   ⟨0x410000, 0x410007, 0x03, 5, 1, 0, 1, 0, 0, 8, 0, 0, 18446744073709551615⟩,
   ⟨0x410000, 0x410007, 0x04, 5, 1, 0, 1, 0, 0, 8, 0, 0, 18446744073709551615⟩,
   ⟨0x410000, 0x410007, 0x05, 10, 2, 255, 1, 0, 0, 1024, 0, 0, 0⟩,
   ⟨0x410000, 0x410007, 0x06, 10, 0, 0, 255, 0, 0, 16, 0, 0, 0⟩,
   ⟨0x410000, 0x410007, 0x07, 10, 0, 0, 255, 0, 0, 16, 0, 0, 0⟩,
   ⟨0x410000, 0x410007, 0x08, 2, 0, 0, 255, 0, 0, 1, 0, 0, 255⟩,
   ⟨0x410000, 0x410007, 0x09, 10, 0, 0, 255, 0, 0, 8, 0, 0, 0⟩,
   ⟨0x410000, 0x410007, 0x0A, 2, 0, 0, 255, 0, 0, 1, 0, 0, 255⟩,
   ⟨0x410000, 0x410007, 0x0B, 4, 0, 0, 255, 0, 0, 4, 0, 0, 4294967295⟩,
   ⟨0x410000, 0x410007, 0x0C, 12, 1, 0, 1, 0, 0, 0, 0, 0, 0⟩,
   ⟨0x410000, 0x410007, 0x0D, 2, 0, 0, 255, 0, 0, 1, 0, 0, 255⟩,
   ⟨0x410000, 0x410007, 0x0E, 4, 0, 0, 255, 0, 0, 4, 0, 0, 4294967295⟩,
   ⟨0x410000, 0x410007, 0x0F, 4, 0, 0, 255, 0, 0, 4, 0, 0, 4294967295⟩,
   ⟨0x410000, 0x410007, 0x10, 3, 0, 0, 255, 0, 0, 2, 0, 0, 65535⟩,
   ⟨0x410000, 0x410007, 0x11, 4, 0, 0, 255, 0, 0, 4, 0, 0, 4294967295⟩,
   ⟨0x410000, 0x410007, 0x12, 1, 0, 0, 255, 0, 0, 1, 0, 0, 1⟩,
   ⟨0x410000, 0x410007, 0x13, 9, 0, 0, 255, 0, 0, 8, 0, 0, 18446744073709551615⟩,
   ⟨0x410000, 0x410007, 0x14, 10, 4, 0, 255, 0, 0, 24, 0, 0, 0⟩]

/-- Directory rows of area 0x42. -/
def dirArea42 : List DirRow :=
  [⟨0x420000, 0x4200FF, 0x00, 12, 0, 0, 255, 0, 2, 0, 0, 0, 0⟩,
   ⟨0x420000, 0x4200FF, 0x01, 2, 0, 0, 255, 0, 2, 1, 255, 0, 255⟩,
   ⟨0x420000, 0x4200FF, 0x02, 2, 0, 0, 255, 0, 2, 1, 255, 0, 255⟩,
   ⟨0x420000, 0x4200FF, 0x03, 2, 0, 0, 255, 0, 2, 1, 255, 0, 255⟩,
   ⟨0x420000, 0x4200FF, 0x04, 3, 0, 0, 255, 0, 2, 2, 1000, 0, 65535⟩,
   ⟨0x420000, 0x4200FF, 0x05, 1, 0, 0, 255, 0, 2, 1, 0, 0, 1⟩,
   ⟨0x420000, 0x4200FF, 0x06, 2, 0, 0, 255, 0, 2, 1, 255, 0, 255⟩]

/-- Directory rows of area 0x43. -/
def dirArea43 : List DirRow :=
  [⟨0x430000, 0x437FFF, 0x00, 12, 0, 0, 255, 0, 0, 0, 0, 0, 0⟩,
   ⟨0x430000, 0x437FFF, 0x01, 2, 0, 0, 255, 0, 0, 1, 0, 0, 255⟩,
   ⟨0x430000, 0x437FFF, 0x02, 3, 0, 0, 255, 0, 0, 2, 0, 0, 65535⟩,
   ⟨0x430000, 0x437FFF, 0x03, 2, 0, 0, 255, 0, 0, 1, 0, 0, 255⟩,
   ⟨0x430000, 0x437FFF, 0x04, 3, 0, 0, 255, 0, 0, 2, 0, 0, 65535⟩,
   ⟨0x430000, 0x437FFF, 0x05, 3, 0, 0, 255, 0, 0, 2, 65535, 0, 65535⟩,
   ⟨0x430000, 0x437FFF, 0x06, 4, 0, 0, 255, 0, 0, 4, 0, 0, 4294967295⟩]

/-- Directory rows of area 0x44. -/
def dirArea44 : List DirRow :=
  [⟨0x440001, 0x440001, 0x00, 2, 0, 0, 255, 0, 0, 1, 0, 0, 255⟩,
   ⟨0x440002, 0x440002, 0x00, 3, 0, 0, 255, 0, 0, 2, 0, 0, 65535⟩,
   ⟨0x440003, 0x440003, 0x00, 3, 0, 0, 255, 0, 0, 2, 0, 0, 65535⟩,
   ⟨0x440004, 0x440004, 0x00, 3, 1, 0, 1, 0, 0, 2, 1024, 16, 4096⟩,
   ⟨0x440005, 0x440005, 0x00, 2, 1, 0, 1, 0, 0, 1, 80, 10, 80⟩,
   ⟨0x440006, 0x440006, 0x00, 3, 1, 0, 1, 0, 0, 2, 2000, 1000, 8000⟩,
   ⟨0x440007, 0x440007, 0x00, 4, 1, 0, 2, 2, 0, 4, 2000, 500, 50000⟩,
   ⟨0x440008, 0x440008, 0x00, 2, 1, 0, 1, 0, 0, 1, 4, 0, 64⟩,
   ⟨0x440009, 0x440009, 0x00, 3, 1, 0, 1, 0, 0, 2, 10, 1, 3600⟩,
   ⟨0x44000A, 0x44000A, 0x00, 4, 1, 0, 1, 0, 0, 4, 1000, 100, 100000⟩,
   ⟨0x44000B, 0x44000B, 0x00, 4, 1, 0, 1, 0, 0, 4, 10000, 0, 10000000⟩,
   ⟨0x44000C, 0x44000C, 0x00, 5, 1, 0, 1, 0, 1, 8, 0, 0, 0⟩,
   ⟨0x44000D, 0x44000D, 0x00, 5, 1, 0, 1, 0, 1, 8, 0, 0, 0⟩,
   ⟨0x44000E, 0x44000E, 0x00, 5, 1, 0, 1, 0, 1, 8, 0, 0, 0⟩,
   ⟨0x44000F, 0x44000F, 0x00, 5, 1, 0, 1, 0, 1, 8, 0, 0, 0⟩,
   ⟨0x440010, 0x440010, 0x00, 12, 1, 0, 1, 0, 0, 0, 0, 0, 0⟩,
   ⟨0x440010, 0x440010, 0x01, 4, 1, 0, 1, 0, 0, 4, 4000, 0, 100000⟩,
   ⟨0x440010, 0x440010, 0x02, 3, 0, 0, 255, 0, 0, 2, 1008, 0, 65535⟩,
   ⟨0x440011, 0x440011, 0x00, 10, 4, 0, 255, 0, 0, 64, 0, 0, 0⟩,
   ⟨0x440012, 0x440012, 0x00, 10, 4, 0, 255, 0, 0, 24, 0, 0, 0⟩]

/-- Directory rows of area 0x45. -/
def dirArea45 : List DirRow :=
  [⟨0x450000, 0x4500FF, 0x00, 12, 0, 0, 255, 0, 0, 0, 0, 0, 0⟩,
   ⟨0x450000, 0x4500FF, 0x01, 2, 0, 0, 255, 0, 0, 1, 0, 0, 255⟩,
   ⟨0x450000, 0x4500FF, 0x02, 4, 0, 0, 255, 0, 0, 4, 0, 0, 4294967295⟩,
   ⟨0x450000, 0x4500FF, 0x03, 2, 0, 0, 255, 0, 0, 1, 255, 0, 255⟩,
   ⟨0x450000, 0x4500FF, 0x04, 2, 0, 0, 255, 0, 0, 1, 255, 0, 255⟩,
   ⟨0x450000, 0x4500FF, 0x05, 4, 0, 0, 255, 0, 0, 4, 0, 0, 4294967295⟩,
   ⟨0x450000, 0x4500FF, 0x06, 4, 0, 0, 255, 0, 0, 4, 0, 0, 4294967295⟩,
   ⟨0x450000, 0x4500FF, 0x07, 3, 0, 0, 255, 0, 0, 2, 0, 0, 65535⟩,
   ⟨0x450000, 0x4500FF, 0x08, 2, 0, 0, 255, 0, 0, 1, 0, 0, 255⟩,
   ⟨0x450000, 0x4500FF, 0x09, 1, 0, 0, 255, 0, 0, 1, 0, 0, 1⟩,
   ⟨0x450000, 0x4500FF, 0x0A, 1, 0, 0, 255, 0, 0, 1, 0, 0, 1⟩,
   ⟨0x450000, 0x4500FF, 0x0B, 4, 0, 0, 255, 0, 0, 4, 0, 0, 4294967295⟩,
   ⟨0x450000, 0x4500FF, 0x0C, 4, 0, 0, 255, 0, 0, 4, 0, 0, 4294967295⟩,
   ⟨0x450000, 0x4500FF, 0x0D, 4, 0, 0, 255, 0, 0, 4, 0, 0, 4294967295⟩,
   ⟨0x450000, 0x4500FF, 0x0E, 4, 0, 0, 255, 0, 0, 4, 0, 0, 4294967295⟩,
   ⟨0x450000, 0x4500FF, 0x0F, 4, 0, 0, 255, 0, 0, 4, 0, 0, 4294967295⟩,
   ⟨0x450000, 0x4500FF, 0x10, 3, 0, 0, 255, 0, 0, 2, 0, 0, 65535⟩,
   ⟨0x450000, 0x4500FF, 0x11, 9, 0, 0, 255, 0, 0, 8, 0, 0, 18446744073709551615⟩,
   ⟨0x450000, 0x4500FF, 0x12, 9, 0, 0, 255, 0, 0, 8, 0, 0, 18446744073709551615⟩,
   ⟨0x450000, 0x4500FF, 0x13, 2, 0, 0, 255, 0, 0, 1, 255, 0, 255⟩]

/-- Directory rows of area 0x46. -/
def dirArea46 : List DirRow :=
  [⟨0x460000, 0x4600FF, 0x00, 12, 0, 0, 255, 0, 0, 0, 0, 0, 0⟩,
   ⟨0x460000, 0x4600FF, 0x01, 5, 0, 0, 255, 0, 1, 8, 0, 0, 0⟩,
   ⟨0x460000, 0x4600FF, 0x02, 5, 0, 0, 255, 0, 1, 8, 0, 0, 0⟩,
   ⟨0x460000, 0x4600FF, 0x03, 5, 0, 0, 255, 0, 1, 8, 0, 0, 0⟩,
   ⟨0x460000, 0x4600FF, 0x04, 5, 0, 0, 255, 0, 1, 8, 0, 0, 0⟩,
   ⟨0x460000, 0x4600FF, 0x05, 5, 0, 0, 255, 0, 1, 8, 0, 0, 0⟩,
   ⟨0x460000, 0x4600FF, 0x06, 5, 0, 0, 255, 0, 1, 8, 0, 0, 0⟩,
   ⟨0x460000, 0x4600FF, 0x07, 5, 0, 0, 255, 0, 1, 8, 0, 0, 0⟩,
   ⟨0x460000, 0x4600FF, 0x08, 5, 0, 0, 255, 0, 1, 8, 0, 0, 0⟩,
   ⟨0x460000, 0x4600FF, 0x09, 5, 0, 0, 255, 0, 1, 8, 0, 0, 0⟩,
   ⟨0x460000, 0x4600FF, 0x0A, 5, 0, 0, 255, 0, 1, 8, 0, 0, 0⟩,
   ⟨0x460000, 0x4600FF, 0x0B, 13, 0, 0, 255, 0, 0, 0, 0, 0, 0⟩,
   ⟨0x460000, 0x4600FF, 0x0C, 4, 0, 0, 255, 0, 0, 4, 0, 0, 4294967295⟩,
   ⟨0x460000, 0x4600FF, 0x0D, 4, 0, 0, 255, 0, 0, 4, 0, 0, 4294967295⟩,
   ⟨0x460000, 0x4600FF, 0x0E, 4, 0, 0, 255, 0, 0, 4, 0, 0, 4294967295⟩,
   ⟨0x460000, 0x4600FF, 0x0F, 5, 0, 0, 255, 0, 0, 8, 0, 0, 18446744073709551615⟩]

/-- Directory rows of area 0x47. -/
def dirArea47 : List DirRow :=
  [⟨0x470000, 0x470007, 0x00, 12, 1, 0, 1, 0, 0, 0, 0, 0, 0⟩,
   ⟨0x470000, 0x470007, 0x01, 1, 1, 0, 1, 0, 0, 1, 1, 0, 1⟩,
   ⟨0x470000, 0x470007, 0x02, 4, 1, 0, 1, 0, 0, 4, 65536, 1024, 16777216⟩,
   ⟨0x470000, 0x470007, 0x03, 5, 0, 0, 255, 0, 1, 8, 0, 0, 0⟩,
   ⟨0x470000, 0x470007, 0x04, 5, 0, 0, 255, 0, 1, 8, 0, 0, 0⟩,
   ⟨0x470000, 0x470007, 0x05, 10, 0, 0, 255, 0, 0, 48, 0, 0, 0⟩,
   ⟨0x470000, 0x470007, 0x06, 9, 0, 0, 255, 0, 0, 8, 0, 0, 18446744073709551615⟩,
   ⟨0x470000, 0x470007, 0x07, 3, 0, 0, 255, 0, 0, 2, 0, 0, 65535⟩,
   ⟨0x470000, 0x470007, 0x08, 10, 4, 0, 255, 0, 0, 24, 0, 0, 0⟩]

/-- Directory rows of area 0x48. -/
def dirArea48 : List DirRow :=
  [⟨0x480000, 0x48000F, 0x00, 12, 1, 0, 2, 2, 0, 0, 0, 0, 0⟩,
   ⟨0x480000, 0x48000F, 0x01, 2, 1, 0, 2, 2, 0, 1, 0, 0, 2⟩,
   ⟨0x480000, 0x48000F, 0x02, 2, 0, 0, 255, 0, 0, 1, 0, 0, 255⟩,
   ⟨0x480000, 0x48000F, 0x03, 2, 1, 0, 2, 2, 0, 1, 0, 0, 255⟩,
   ⟨0x480000, 0x48000F, 0x04, 10, 0, 0, 255, 3, 0, 6, 0, 0, 0⟩,
   ⟨0x480000, 0x48000F, 0x05, 10, 1, 0, 2, 2, 0, 16, 0, 0, 0⟩,
   ⟨0x480000, 0x48000F, 0x06, 2, 1, 0, 2, 2, 0, 1, 64, 1, 128⟩,
   ⟨0x480000, 0x48000F, 0x07, 10, 1, 0, 2, 2, 0, 16, 0, 0, 0⟩,
   ⟨0x480000, 0x48000F, 0x08, 10, 1, 0, 2, 2, 0, 4, 0, 0, 0⟩,
   ⟨0x480000, 0x48000F, 0x09, 2, 1, 0, 2, 2, 0, 1, 24, 1, 32⟩,
   ⟨0x480000, 0x48000F, 0x0A, 10, 1, 0, 2, 2, 0, 4, 0, 0, 0⟩,
   ⟨0x480000, 0x48000F, 0x0B, 3, 1, 0, 2, 2, 0, 2, 0, 0, 4094⟩,
   ⟨0x480000, 0x48000F, 0x0C, 2, 1, 0, 2, 2, 0, 1, 3, 0, 7⟩,
   ⟨0x480000, 0x48000F, 0x0D, 2, 1, 0, 2, 2, 0, 1, 0, 0, 255⟩,
   ⟨0x480000, 0x48000F, 0x0E, 3, 1, 0, 2, 2, 0, 2, 9000, 1500, 9000⟩,
   ⟨0x480000, 0x48000F, 0x0F, 3, 1, 0, 2, 2, 0, 2, 49300, 0, 65535⟩,
   ⟨0x480000, 0x48000F, 0x10, 3, 1, 0, 2, 2, 0, 2, 49301, 0, 65535⟩,
   ⟨0x480000, 0x48000F, 0x11, 3, 0, 0, 255, 0, 0, 2, 0, 0, 65535⟩,
   ⟨0x480000, 0x48000F, 0x12, 5, 1, 0, 1, 0, 1, 8, 0, 0, 0⟩,
   ⟨0x480000, 0x48000F, 0x13, 5, 1, 0, 1, 0, 1, 8, 0, 0, 0⟩,
   ⟨0x480000, 0x48000F, 0x14, 5, 1, 0, 1, 0, 1, 8, 0, 0, 0⟩,
   ⟨0x480000, 0x48000F, 0x15, 5, 1, 0, 1, 0, 1, 8, 0, 0, 0⟩,
   ⟨0x480000, 0x48000F, 0x16, 5, 1, 0, 1, 0, 1, 8, 0, 0, 0⟩,
   ⟨0x480000, 0x48000F, 0x17, 5, 1, 0, 1, 0, 1, 8, 0, 0, 0⟩,
   ⟨0x480000, 0x48000F, 0x18, 5, 1, 0, 1, 0, 1, 8, 0, 0, 0⟩,
   ⟨0x480000, 0x48000F, 0x19, 5, 1, 0, 1, 0, 1, 8, 0, 0, 0⟩,
   ⟨0x480000, 0x48000F, 0x1A, 10, 0, 0, 255, 0, 0, 64, 0, 0, 0⟩]

/-- Directory rows of area 0x49. -/
def dirArea49 : List DirRow :=
  [⟨0x490000, 0x4900FF, 0x00, 12, 0, 0, 255, 0, 0, 0, 0, 0, 0⟩,
   ⟨0x490000, 0x4900FF, 0x01, 2, 0, 0, 255, 0, 0, 1, 255, 0, 255⟩,
   ⟨0x490000, 0x4900FF, 0x02, 10, 0, 0, 255, 0, 0, 20, 0, 0, 0⟩,
   ⟨0x490000, 0x4900FF, 0x03, 10, 0, 0, 255, 0, 0, 20, 0, 0, 0⟩,
   ⟨0x490000, 0x4900FF, 0x04, 4, 0, 0, 255, 0, 0, 4, 0, 0, 4294967295⟩,
   ⟨0x490000, 0x4900FF, 0x05, 4, 0, 0, 255, 0, 0, 4, 0, 0, 4294967295⟩,
   ⟨0x490000, 0x4900FF, 0x06, 3, 0, 0, 255, 0, 0, 2, 0, 0, 65535⟩,
   ⟨0x490000, 0x4900FF, 0x07, 5, 0, 0, 255, 0, 1, 8, 0, 0, 0⟩,
   ⟨0x490000, 0x4900FF, 0x08, 5, 0, 0, 255, 0, 1, 8, 0, 0, 0⟩,
   ⟨0x490000, 0x4900FF, 0x09, 5, 0, 0, 255, 0, 1, 8, 0, 0, 0⟩,
   ⟨0x490000, 0x4900FF, 0x0A, 5, 0, 0, 255, 0, 1, 8, 0, 0, 0⟩]

/-- Directory rows of area 0x4A. -/
def dirArea4A : List DirRow :=
  [⟨0x4A0000, 0x4A000F, 0x00, 12, 0, 0, 255, 0, 0, 0, 0, 0, 0⟩,
   ⟨0x4A0000, 0x4A000F, 0x01, 2, 0, 0, 255, 0, 0, 1, 0, 0, 255⟩,
   ⟨0x4A0000, 0x4A000F, 0x02, 11, 0, 0, 255, 0, 0, 16, 0, 0, 0⟩,
   ⟨0x4A0000, 0x4A000F, 0x03, 11, 0, 0, 255, 0, 0, 16, 0, 0, 0⟩,
   ⟨0x4A0000, 0x4A000F, 0x04, 11, 0, 0, 255, 0, 0, 16, 0, 0, 0⟩,
   ⟨0x4A0000, 0x4A000F, 0x05, 11, 0, 0, 255, 0, 0, 4, 0, 0, 0⟩,
   ⟨0x4A0000, 0x4A000F, 0x06, 2, 0, 0, 255, 0, 0, 1, 0, 0, 255⟩,
   ⟨0x4A0000, 0x4A000F, 0x07, 6, 0, 0, 255, 0, 0, 4, 0, 0, 0⟩,
   ⟨0x4A0000, 0x4A000F, 0x08, 9, 0, 0, 255, 0, 0, 8, 0, 0, 18446744073709551615⟩,
   ⟨0x4A0000, 0x4A000F, 0x09, 2, 0, 0, 255, 0, 0, 1, 0, 0, 255⟩]

/-- Directory rows of area 0x4B. -/
def dirArea4B : List DirRow :=
  [⟨0x4B0001, 0x4B0001, 0x00, 4, 1, 0, 1, 0, 0, 4, 200, 50, 10000⟩,
   ⟨0x4B0002, 0x4B0002, 0x00, 3, 1, 0, 1, 0, 0, 2, 100, 10, 10000⟩,
   ⟨0x4B0003, 0x4B0003, 0x00, 3, 1, 0, 2, 2, 0, 2, 256, 16, 4096⟩,
   ⟨0x4B0004, 0x4B0004, 0x00, 4, 1, 0, 1, 0, 0, 4, 2000, 100, 600000⟩,
   ⟨0x4B0005, 0x4B0005, 0x00, 3, 1, 0, 2, 2, 0, 2, 20, 5, 1000⟩,
   ⟨0x4B0006, 0x4B0006, 0x00, 3, 1, 0, 1, 0, 0, 2, 10, 1, 1000⟩,
   ⟨0x4B0007, 0x4B0007, 0x00, 2, 1, 0, 2, 2, 0, 1, 255, 0, 255⟩,
   ⟨0x4B0008, 0x4B0008, 0x00, 2, 1, 0, 2, 2, 0, 1, 0, 0, 255⟩,
   ⟨0x4B0009, 0x4B0009, 0x00, 2, 0, 0, 255, 0, 0, 1, 0, 0, 255⟩,
   ⟨0x4B000A, 0x4B000A, 0x00, 7, 0, 0, 255, 0, 0, 8, 0, 0, 0⟩,
   ⟨0x4B000B, 0x4B000B, 0x00, 5, 1, 0, 1, 0, 1, 8, 0, 0, 0⟩,
   ⟨0x4B000C, 0x4B000C, 0x00, 10, 4, 0, 255, 0, 0, 24, 0, 0, 0⟩,
   ⟨0x4B000D, 0x4B000D, 0x00, 10, 4, 0, 255, 0, 0, 24, 0, 0, 0⟩]

/-- Directory rows of area 0x50. -/
def dirArea50 : List DirRow :=
  [⟨0x500001, 0x500001, 0x00, 4, 0, 0, 255, 0, 0, 4, 0, 0, 4294967295⟩,
   ⟨0x500002, 0x500002, 0x00, 4, 0, 0, 255, 0, 0, 4, 0, 0, 4294967295⟩,
   ⟨0x500003, 0x500003, 0x00, 4, 1, 0, 2, 2, 0, 4, 0, 8000, 32000⟩,
   ⟨0x500004, 0x500004, 0x00, 4, 1, 0, 2, 2, 0, 4, 1000, 500, 10000⟩,
   ⟨0x500005, 0x500005, 0x00, 4, 0, 0, 255, 3, 0, 4, 0, 0, 4294967295⟩,
   ⟨0x500006, 0x500006, 0x00, 4, 0, 0, 255, 0, 0, 4, 0, 0, 4294967295⟩,
   ⟨0x500007, 0x500007, 0x00, 2, 0, 0, 255, 0, 0, 1, 63, 0, 255⟩,
   ⟨0x500008, 0x500008, 0x00, 2, 1, 0, 2, 2, 0, 1, 0, 0, 1⟩,
   ⟨0x500009, 0x500009, 0x00, 2, 1, 0, 2, 2, 0, 1, 55, 0, 62⟩,
   ⟨0x50000A, 0x50000A, 0x00, 4, 1, 0, 1, 0, 0, 4, 2000, 100, 1000000⟩,
   ⟨0x50000B, 0x50000B, 0x00, 5, 1, 0, 1, 0, 1, 8, 0, 0, 0⟩,
   ⟨0x50000C, 0x50000C, 0x00, 5, 1, 0, 1, 0, 1, 8, 0, 0, 0⟩,
   ⟨0x50000D, 0x50000D, 0x00, 10, 4, 0, 255, 0, 0, 24, 0, 0, 0⟩,
   ⟨0x50000E, 0x50000E, 0x00, 10, 4, 0, 255, 0, 0, 24, 0, 0, 0⟩]

/-- Directory rows of area 0x51. -/
def dirArea51 : List DirRow :=
  [⟨0x510000, 0x51000F, 0x00, 12, 1, 0, 2, 2, 0, 0, 0, 0, 0⟩,
   ⟨0x510000, 0x51000F, 0x01, 2, 0, 0, 255, 0, 0, 1, 63, 0, 255⟩,
   ⟨0x510000, 0x51000F, 0x02, 2, 0, 0, 255, 0, 0, 1, 0, 0, 255⟩,
   ⟨0x510000, 0x51000F, 0x03, 4, 0, 0, 255, 0, 0, 4, 0, 0, 4294967295⟩,
   ⟨0x510000, 0x51000F, 0x04, 4, 0, 0, 255, 0, 0, 4, 0, 0, 4294967295⟩,
   ⟨0x510000, 0x51000F, 0x05, 3, 1, 0, 2, 2, 0, 2, 2400, 600, 2600⟩,
   ⟨0x510000, 0x51000F, 0x06, 3, 1, 0, 2, 2, 0, 2, 700, 550, 850⟩,
   ⟨0x510000, 0x51000F, 0x07, 3, 1, 0, 2, 2, 0, 2, 750, 700, 800⟩,
   ⟨0x510000, 0x51000F, 0x08, 2, 0, 0, 255, 0, 0, 1, 0, 0, 255⟩,
   ⟨0x510000, 0x51000F, 0x09, 2, 0, 0, 255, 0, 0, 1, 0, 0, 255⟩,
   ⟨0x510000, 0x51000F, 0x0A, 1, 0, 0, 255, 0, 0, 1, 0, 0, 1⟩,
   ⟨0x510000, 0x51000F, 0x0B, 5, 1, 0, 1, 0, 1, 8, 0, 0, 0⟩,
   ⟨0x510000, 0x51000F, 0x0C, 5, 1, 0, 1, 0, 1, 8, 0, 0, 0⟩,
   ⟨0x510000, 0x51000F, 0x0D, 5, 1, 0, 1, 0, 1, 8, 0, 0, 0⟩,
   ⟨0x510000, 0x51000F, 0x0E, 5, 1, 0, 1, 0, 1, 8, 0, 0, 0⟩,
   ⟨0x510000, 0x51000F, 0x0F, 5, 1, 0, 1, 0, 1, 8, 0, 0, 0⟩]

/-- Directory rows of area 0x52. -/
def dirArea52 : List DirRow :=
  [⟨0x520000, 0x52000C, 0x00, 12, 1, 0, 1, 0, 0, 0, 0, 0, 0⟩,
   ⟨0x520000, 0x52000C, 0x01, 2, 0, 0, 255, 0, 0, 1, 0, 0, 255⟩,
   ⟨0x520000, 0x52000C, 0x02, 4, 0, 0, 255, 0, 0, 4, 0, 0, 4294967295⟩,
   ⟨0x520000, 0x52000C, 0x03, 6, 0, 0, 255, 0, 0, 4, 0, 0, 0⟩,
   ⟨0x520000, 0x52000C, 0x04, 11, 0, 0, 255, 0, 0, 16, 0, 0, 0⟩,
   ⟨0x520000, 0x52000C, 0x05, 5, 1, 0, 1, 0, 1, 8, 0, 0, 0⟩]

/-- Directory rows of area 0x53. -/
def dirArea53 : List DirRow :=
  [⟨0x530000, 0x5300FF, 0x00, 12, 1, 0, 1, 0, 2, 0, 0, 0, 0⟩,
   ⟨0x530000, 0x5300FF, 0x01, 5, 0, 0, 255, 0, 2, 8, 0, 0, 18446744073709551615⟩,
   ⟨0x530000, 0x5300FF, 0x02, 2, 0, 0, 255, 0, 2, 1, 63, 0, 255⟩,
   ⟨0x530000, 0x5300FF, 0x03, 5, 1, 0, 1, 0, 3, 8, 0, 0, 0⟩]

/-- Directory rows of area 0x54. -/
def dirArea54 : List DirRow :=
  [⟨0x540001, 0x540001, 0x00, 6, 0, 0, 255, 0, 0, 4, 0, 0, 0⟩,
   ⟨0x540002, 0x540002, 0x00, 10, 4, 0, 255, 0, 0, 24, 0, 0, 0⟩,
   ⟨0x540003, 0x540003, 0x00, 10, 4, 0, 255, 0, 0, 24, 0, 0, 0⟩,
   ⟨0x540004, 0x540004, 0x00, 5, 1, 0, 1, 0, 1, 8, 0, 0, 0⟩,
   ⟨0x540005, 0x540005, 0x00, 5, 1, 0, 1, 0, 1, 8, 0, 0, 0⟩]

/-- Directory rows of area 0x55. -/
def dirArea55 : List DirRow :=
  [⟨0x550000, 0x5500FF, 0x00, 12, 1, 0, 1, 0, 2, 0, 0, 0, 0⟩,
   ⟨0x550000, 0x5500FF, 0x01, 6, 0, 0, 255, 0, 2, 4, 0, 0, 0⟩,
   ⟨0x550000, 0x5500FF, 0x02, 13, 0, 0, 255, 0, 2, 0, 0, 0, 0⟩,
   ⟨0x550000, 0x5500FF, 0x03, 2, 0, 0, 255, 0, 2, 1, 0, 0, 255⟩,
   ⟨0x550000, 0x5500FF, 0x04, 5, 1, 0, 1, 0, 3, 8, 0, 0, 0⟩]

/-- Directory rows of area 0x56. -/
def dirArea56 : List DirRow :=
  [⟨0x560001, 0x560001, 0x00, 12, 0, 0, 255, 0, 0, 0, 0, 0, 0⟩,
   ⟨0x560001, 0x560001, 0x01, 6, 0, 0, 255, 0, 0, 4, 0, 0, 0⟩,
   ⟨0x560001, 0x560001, 0x02, 6, 0, 0, 255, 0, 0, 4, 0, 0, 0⟩,
   ⟨0x560001, 0x560001, 0x03, 4, 0, 0, 255, 0, 0, 4, 0, 0, 4294967295⟩,
   ⟨0x560002, 0x560002, 0x00, 2, 1, 0, 2, 2, 0, 1, 0, 0, 1⟩]

/-- Directory rows of area 0x57. -/
def dirArea57 : List DirRow :=
  [⟨0x570000, 0x57000F, 0x00, 12, 1, 0, 2, 2, 0, 0, 0, 0, 0⟩,
   ⟨0x570000, 0x57000F, 0x01, 4, 0, 0, 255, 0, 0, 4, 0, 0, 4294967295⟩,
   ⟨0x570000, 0x57000F, 0x02, 4, 1, 0, 2, 2, 0, 4, 0, 0, 0⟩,
   ⟨0x570000, 0x57000F, 0x03, 3, 0, 0, 255, 0, 0, 2, 0, 0, 65535⟩,
   ⟨0x570000, 0x57000F, 0x04, 2, 0, 0, 255, 0, 0, 1, 0, 0, 255⟩,
   ⟨0x570000, 0x57000F, 0x05, 2, 0, 0, 255, 0, 0, 1, 63, 0, 255⟩]

/-- Directory rows of area 0x58. -/
def dirArea58 : List DirRow :=
  [⟨0x580001, 0x580001, 0x00, 5, 0, 0, 255, 2, 1, 8, 0, 0, 0⟩,
   ⟨0x580002, 0x580002, 0x00, 3, 1, 0, 2, 2, 0, 2, 24, 24, 720⟩,
   ⟨0x580003, 0x580003, 0x00, 2, 1, 0, 2, 2, 0, 1, 10, 0, 20⟩,
   ⟨0x580004, 0x580004, 0x00, 9, 0, 0, 255, 2, 0, 8, 0, 0, 18446744073709551615⟩,
   ⟨0x580005, 0x580005, 0x00, 2, 3, 2, 2, 0, 0, 1, 0, 0, 255⟩,
   ⟨0x580006, 0x580006, 0x00, 13, 0, 0, 255, 2, 0, 0, 0, 0, 0⟩,
   ⟨0x580007, 0x580007, 0x00, 10, 4, 0, 255, 0, 0, 24, 0, 0, 0⟩,
   ⟨0x580008, 0x580008, 0x00, 10, 4, 0, 255, 0, 0, 24, 0, 0, 0⟩,
   ⟨0x581000, 0x5813FF, 0x00, 12, 0, 0, 255, 0, 0, 0, 0, 0, 0⟩,
   ⟨0x581000, 0x5813FF, 0x01, 3, 0, 0, 255, 0, 0, 2, 0, 0, 65535⟩,
   ⟨0x581000, 0x5813FF, 0x02, 3, 0, 0, 255, 0, 0, 2, 0, 0, 65535⟩,
   ⟨0x581000, 0x5813FF, 0x03, 2, 0, 0, 255, 0, 0, 1, 0, 0, 255⟩,
   ⟨0x581000, 0x5813FF, 0x04, 9, 0, 0, 255, 0, 0, 8, 0, 0, 18446744073709551615⟩]

/-- Directory rows of area 0x59. -/
def dirArea59 : List DirRow :=
  [⟨0x590000, 0x5900FF, 0x00, 12, 1, 0, 1, 0, 2, 0, 0, 0, 0⟩,
   ⟨0x590000, 0x5900FF, 0x01, 10, 0, 0, 255, 0, 2, 64, 0, 0, 0⟩,
   ⟨0x590000, 0x5900FF, 0x02, 10, 0, 0, 255, 2, 2, 64, 0, 0, 0⟩,
   ⟨0x590000, 0x5900FF, 0x03, 3, 0, 0, 255, 0, 2, 2, 0, 0, 65535⟩,
   ⟨0x590000, 0x5900FF, 0x04, 5, 1, 0, 1, 0, 3, 8, 0, 0, 0⟩]

/-- Directory rows of area 0x5A. -/
def dirArea5A : List DirRow :=
  [⟨0x5A0000, 0x5A000F, 0x00, 12, 0, 0, 255, 0, 0, 0, 0, 0, 0⟩,
   ⟨0x5A0000, 0x5A000F, 0x01, 2, 0, 0, 255, 0, 0, 1, 255, 0, 255⟩,
   ⟨0x5A0000, 0x5A000F, 0x02, 4, 0, 0, 255, 0, 0, 4, 0, 0, 4294967295⟩,
   ⟨0x5A0000, 0x5A000F, 0x03, 4, 0, 0, 255, 0, 0, 4, 0, 0, 4294967295⟩,
   ⟨0x5A0000, 0x5A000F, 0x04, 9, 0, 0, 255, 0, 0, 8, 0, 0, 18446744073709551615⟩,
   ⟨0x5A0000, 0x5A000F, 0x05, 3, 0, 0, 255, 0, 0, 2, 65535, 0, 65535⟩,
   ⟨0x5A0100, 0x5A013F, 0x00, 12, 0, 0, 255, 2, 0, 0, 0, 0, 0⟩,
   ⟨0x5A0100, 0x5A013F, 0x01, 11, 0, 0, 255, 2, 0, 16, 0, 0, 0⟩,
   ⟨0x5A0100, 0x5A013F, 0x02, 11, 0, 0, 255, 2, 0, 16, 0, 0, 0⟩,
   ⟨0x5A0100, 0x5A013F, 0x03, 5, 0, 0, 255, 2, 1, 8, 0, 0, 0⟩,
   ⟨0x5A0100, 0x5A013F, 0x04, 5, 0, 0, 255, 2, 1, 8, 0, 0, 0⟩,
   ⟨0x5A0100, 0x5A013F, 0x05, 4, 0, 0, 255, 2, 0, 4, 0, 0, 4294967295⟩,
   ⟨0x5A0100, 0x5A013F, 0x06, 4, 0, 0, 255, 2, 0, 4, 0, 0, 4294967295⟩,
   ⟨0x5A0100, 0x5A013F, 0x07, 6, 0, 0, 255, 2, 0, 4, 0, 0, 0⟩,
   ⟨0x5A0100, 0x5A013F, 0x08, 9, 0, 0, 255, 2, 0, 8, 0, 0, 18446744073709551615⟩,
   ⟨0x5AF001, 0x5AF001, 0x00, 3, 1, 0, 2, 2, 0, 2, 60, 14, 365⟩,
   ⟨0x5AF002, 0x5AF002, 0x00, 3, 1, 0, 2, 2, 0, 2, 14, 1, 60⟩,
   ⟨0x5AF003, 0x5AF003, 0x00, 10, 4, 0, 255, 0, 0, 24, 0, 0, 0⟩]

/-- Directory rows of area 0x60. -/
def dirArea60 : List DirRow :=
  [⟨0x600001, 0x600001, 0x00, 1, 0, 0, 255, 0, 0, 1, 0, 0, 1⟩,
   ⟨0x600002, 0x600002, 0x00, 5, 1, 0, 1, 0, 1, 8, 0, 0, 0⟩,
   ⟨0x600003, 0x600003, 0x00, 5, 1, 0, 1, 0, 1, 8, 0, 0, 0⟩,
   ⟨0x600004, 0x600004, 0x00, 10, 4, 0, 255, 0, 0, 24, 0, 0, 0⟩,
   ⟨0x600005, 0x600005, 0x00, 10, 4, 0, 255, 0, 0, 24, 0, 0, 0⟩,
   ⟨0x600006, 0x600006, 0x00, 10, 4, 0, 255, 0, 0, 24, 0, 0, 0⟩,
   ⟨0x600007, 0x600007, 0x00, 3, 3, 0, 1, 0, 0, 2, 0, 0, 65535⟩,
   ⟨0x600008, 0x600008, 0x00, 4, 1, 0, 2, 2, 0, 4, 30, 5, 3600⟩,
   ⟨0x600009, 0x600009, 0x00, 2, 1, 0, 2, 2, 0, 1, 8, 2, 255⟩,
   ⟨0x60000A, 0x60000A, 0x00, 5, 1, 0, 1, 0, 1, 8, 0, 0, 0⟩,
   ⟨0x60000B, 0x60000B, 0x00, 5, 1, 0, 1, 0, 1, 8, 0, 0, 0⟩,
   ⟨0x60000C, 0x60000C, 0x00, 5, 1, 0, 1, 0, 1, 8, 0, 0, 0⟩]

/-- Directory rows of area 0x61. -/
def dirArea61 : List DirRow :=
  [⟨0x610000, 0x6100FF, 0x00, 12, 1, 0, 1, 0, 2, 0, 0, 0, 0⟩,
   ⟨0x610000, 0x6100FF, 0x01, 5, 1, 0, 1, 0, 3, 8, 0, 0, 0⟩,
   ⟨0x610000, 0x6100FF, 0x02, 5, 1, 0, 1, 0, 3, 8, 0, 0, 0⟩,
   ⟨0x610000, 0x6100FF, 0x03, 2, 0, 0, 255, 0, 2, 1, 0, 0, 255⟩,
   ⟨0x610000, 0x6100FF, 0x04, 2, 0, 0, 255, 0, 2, 1, 255, 0, 255⟩,
   ⟨0x610000, 0x6100FF, 0x05, 3, 0, 0, 255, 0, 2, 2, 0, 0, 65535⟩,
   ⟨0x610000, 0x6100FF, 0x06, 9, 0, 0, 255, 0, 2, 8, 0, 0, 18446744073709551615⟩]

/-- Directory rows of area 0x62. -/
def dirArea62 : List DirRow :=
  [⟨0x620000, 0x620004, 0x00, 12, 1, 0, 2, 2, 0, 0, 0, 0, 0⟩,
   ⟨0x620000, 0x620004, 0x01, 2, 0, 0, 255, 0, 0, 1, 0, 0, 255⟩,
   ⟨0x620000, 0x620004, 0x02, 4, 1, 0, 2, 2, 0, 4, 0, 10, 604800⟩,
   ⟨0x620000, 0x620004, 0x03, 4, 0, 0, 255, 0, 0, 4, 0, 0, 4294967295⟩,
   ⟨0x620000, 0x620004, 0x04, 5, 1, 0, 1, 0, 1, 8, 0, 0, 0⟩,
   ⟨0x620000, 0x620004, 0x05, 5, 1, 0, 1, 0, 1, 8, 0, 0, 0⟩,
   ⟨0x620000, 0x620004, 0x06, 5, 1, 0, 1, 0, 1, 8, 0, 0, 0⟩,
   ⟨0x62F001, 0x62F001, 0x00, 10, 4, 0, 255, 0, 0, 24, 0, 0, 0⟩]

/-- Directory rows of area 0x63. -/
def dirArea63 : List DirRow :=
  [⟨0x630001, 0x630001, 0x00, 13, 0, 0, 255, 1, 0, 0, 0, 0, 0⟩]

/-- Directory rows of area 0x64. -/
def dirArea64 : List DirRow :=
  [⟨0x640001, 0x640001, 0x00, 12, 1, 0, 2, 2, 0, 0, 0, 0, 0⟩,
   ⟨0x640001, 0x640001, 0x01, 4, 1, 0, 2, 2, 0, 4, 0, 0, 4294967295⟩,
   ⟨0x640001, 0x640001, 0x02, 10, 1, 0, 2, 2, 0, 128, 0, 0, 0⟩,
   ⟨0x640001, 0x640001, 0x03, 2, 1, 0, 2, 2, 0, 1, 0, 0, 7⟩,
   ⟨0x640001, 0x640001, 0x04, 2, 1, 0, 2, 2, 0, 1, 1, 0, 7⟩,
   ⟨0x640001, 0x640001, 0x05, 2, 1, 0, 2, 2, 0, 1, 55, 0, 62⟩,
   ⟨0x640001, 0x640001, 0x06, 2, 1, 0, 2, 2, 0, 1, 4, 1, 64⟩,
   ⟨0x640001, 0x640001, 0x07, 4, 1, 0, 2, 2, 0, 4, 2000, 100, 1000000⟩,
   ⟨0x640001, 0x640001, 0x08, 1, 1, 0, 2, 2, 0, 1, 0, 0, 1⟩,
   ⟨0x640001, 0x640001, 0x09, 2, 1, 0, 2, 2, 0, 1, 10, 3, 50⟩,
   ⟨0x640001, 0x640001, 0x0A, 3, 1, 0, 2, 2, 0, 2, 10, 1, 3600⟩,
   ⟨0x640002, 0x640002, 0x00, 10, 0, 0, 255, 0, 0, 48, 0, 0, 0⟩,
   ⟨0x640003, 0x640003, 0x00, 1, 0, 0, 255, 3, 0, 1, 0, 0, 1⟩,
   ⟨0x640004, 0x640004, 0x00, 2, 0, 0, 255, 0, 0, 1, 0, 0, 255⟩,
   ⟨0x640005, 0x640005, 0x00, 2, 0, 0, 255, 0, 0, 1, 0, 0, 255⟩,
   ⟨0x640006, 0x640006, 0x00, 2, 0, 0, 255, 0, 0, 1, 255, 0, 255⟩,
   ⟨0x640007, 0x640007, 0x00, 2, 0, 0, 255, 0, 0, 1, 63, 0, 255⟩,
   ⟨0x640008, 0x640008, 0x00, 1, 1, 0, 2, 2, 0, 1, 0, 0, 1⟩,
   ⟨0x640009, 0x640009, 0x00, 10, 3, 0, 1, 0, 0, 24, 0, 0, 0⟩,
   ⟨0x64000A, 0x64000A, 0x00, 10, 3, 2, 2, 0, 0, 20, 0, 0, 0⟩,
   ⟨0x64000B, 0x64000B, 0x00, 10, 4, 0, 255, 0, 0, 24, 0, 0, 0⟩,
   ⟨0x64000C, 0x64000C, 0x00, 10, 4, 0, 255, 0, 0, 24, 0, 0, 0⟩,
   ⟨0x64000D, 0x64000D, 0x00, 10, 4, 0, 255, 0, 0, 24, 0, 0, 0⟩,
   ⟨0x64000E, 0x64000E, 0x00, 5, 1, 0, 1, 0, 1, 8, 0, 0, 0⟩,
   ⟨0x64000F, 0x64000F, 0x00, 5, 1, 0, 1, 0, 1, 8, 0, 0, 0⟩]

/-- Directory rows of area 0x65. -/
def dirArea65 : List DirRow :=
  [⟨0x650000, 0x650007, 0x00, 12, 0, 0, 255, 0, 0, 0, 0, 0, 0⟩,
   ⟨0x650000, 0x650007, 0x01, 11, 0, 0, 255, 0, 0, 16, 0, 0, 0⟩,
   ⟨0x650000, 0x650007, 0x02, 2, 0, 0, 255, 0, 0, 1, 0, 0, 255⟩,
   ⟨0x650000, 0x650007, 0x03, 2, 0, 0, 255, 0, 0, 1, 0, 0, 255⟩,
   ⟨0x650000, 0x650007, 0x04, 3, 0, 0, 255, 0, 0, 2, 1000, 0, 65535⟩,
   ⟨0x650000, 0x650007, 0x05, 3, 0, 0, 255, 0, 0, 2, 0, 0, 65535⟩,
   ⟨0x650000, 0x650007, 0x06, 1, 0, 0, 255, 0, 0, 1, 0, 0, 1⟩,
   ⟨0x650000, 0x650007, 0x07, 3, 0, 0, 255, 0, 0, 2, 0, 0, 65535⟩,
   ⟨0x650000, 0x650007, 0x08, 9, 0, 0, 255, 0, 0, 8, 0, 0, 18446744073709551615⟩]

/-- Directory rows of area 0x66. -/
def dirArea66 : List DirRow :=
  [⟨0x660000, 0x66000F, 0x00, 12, 1, 0, 2, 2, 0, 0, 0, 0, 0⟩,
   ⟨0x660000, 0x66000F, 0x01, 2, 0, 0, 255, 0, 0, 1, 0, 0, 255⟩,
   ⟨0x660000, 0x66000F, 0x02, 11, 0, 0, 255, 0, 0, 16, 0, 0, 0⟩,
   ⟨0x660000, 0x66000F, 0x03, 2, 0, 0, 255, 0, 0, 1, 255, 0, 255⟩,
   ⟨0x660000, 0x66000F, 0x04, 2, 0, 0, 255, 0, 0, 1, 255, 0, 255⟩,
   ⟨0x660000, 0x66000F, 0x05, 4, 0, 0, 255, 0, 0, 4, 0, 0, 4294967295⟩,
   ⟨0x660000, 0x66000F, 0x06, 3, 0, 0, 255, 0, 0, 2, 0, 0, 65535⟩,
   ⟨0x660000, 0x66000F, 0x07, 5, 1, 0, 1, 0, 1, 8, 0, 0, 0⟩,
   ⟨0x660000, 0x66000F, 0x08, 5, 1, 0, 1, 0, 1, 8, 0, 0, 0⟩,
   ⟨0x660000, 0x66000F, 0x09, 5, 1, 0, 1, 0, 1, 8, 0, 0, 0⟩,
   ⟨0x660000, 0x66000F, 0x0A, 5, 1, 0, 1, 0, 1, 8, 0, 0, 0⟩,
   ⟨0x660000, 0x66000F, 0x0B, 5, 1, 0, 1, 0, 1, 8, 0, 0, 0⟩,
   ⟨0x660000, 0x66000F, 0x0C, 2, 3, 2, 2, 0, 0, 1, 0, 0, 255⟩]

/-- Directory rows of area 0x67. -/
def dirArea67 : List DirRow :=
  [⟨0x670001, 0x670001, 0x00, 5, 1, 0, 1, 0, 1, 8, 0, 0, 0⟩,
   ⟨0x670002, 0x670002, 0x00, 5, 1, 0, 1, 0, 1, 8, 0, 0, 0⟩,
   ⟨0x670003, 0x670003, 0x00, 5, 1, 0, 1, 0, 1, 8, 0, 0, 0⟩,
   ⟨0x670004, 0x670004, 0x00, 4, 0, 0, 255, 0, 0, 4, 0, 0, 4294967295⟩,
   ⟨0x670100, 0x670107, 0x00, 12, 1, 0, 1, 0, 0, 0, 0, 0, 0⟩,
   ⟨0x670100, 0x670107, 0x01, 2, 1, 0, 1, 0, 0, 1, 0, 0, 3⟩,
   ⟨0x670100, 0x670107, 0x02, 2, 0, 0, 255, 0, 0, 1, 0, 0, 255⟩,
   ⟨0x670100, 0x670107, 0x03, 10, 0, 0, 255, 0, 0, 16, 0, 0, 0⟩,
   ⟨0x670100, 0x670107, 0x04, 4, 0, 0, 255, 0, 0, 4, 0, 0, 4294967295⟩]

/-- Directory rows of area 0x70. -/
def dirArea70 : List DirRow :=
  [⟨0x700001, 0x700001, 0x00, 12, 0, 0, 255, 0, 0, 0, 0, 0, 0⟩,
   ⟨0x700001, 0x700001, 0x01, 2, 0, 0, 255, 0, 0, 1, 0, 0, 255⟩,
   ⟨0x700001, 0x700001, 0x02, 9, 0, 0, 255, 0, 0, 8, 0, 0, 18446744073709551615⟩,
   ⟨0x700001, 0x700001, 0x03, 4, 0, 0, 255, 0, 0, 4, 0, 0, 4294967295⟩,
   ⟨0x700001, 0x700001, 0x04, 5, 0, 0, 255, 1, 1, 8, 0, 0, 0⟩,
   ⟨0x700002, 0x700002, 0x00, 10, 4, 0, 255, 0, 0, 24, 0, 0, 0⟩,
   ⟨0x700003, 0x700003, 0x00, 2, 1, 0, 2, 2, 0, 1, 25, 0, 50⟩,
   ⟨0x700004, 0x700004, 0x00, 12, 0, 0, 255, 0, 0, 0, 0, 0, 0⟩,
   ⟨0x700004, 0x700004, 0x01, 2, 0, 0, 255, 0, 0, 1, 0, 0, 255⟩,
   ⟨0x700004, 0x700004, 0x02, 3, 0, 0, 255, 0, 0, 2, 0, 0, 65535⟩,
   ⟨0x700004, 0x700004, 0x03, 5, 0, 0, 255, 0, 1, 8, 0, 0, 0⟩,
   ⟨0x700004, 0x700004, 0x04, 5, 0, 0, 255, 0, 1, 8, 0, 0, 0⟩,
   ⟨0x700005, 0x700005, 0x00, 2, 3, 0, 2, 0, 0, 1, 0, 0, 255⟩]

/-- Directory rows of area 0x71. -/
def dirArea71 : List DirRow :=
  [⟨0x710001, 0x710001, 0x00, 12, 0, 0, 255, 0, 0, 0, 0, 0, 0⟩,
   ⟨0x710001, 0x710001, 0x01, 4, 0, 0, 255, 0, 0, 4, 0, 0, 4294967295⟩,
   ⟨0x710001, 0x710001, 0x02, 4, 0, 0, 255, 0, 0, 4, 0, 0, 4294967295⟩,
   ⟨0x710001, 0x710001, 0x03, 10, 0, 0, 255, 0, 0, 48, 0, 0, 0⟩,
   ⟨0x710001, 0x710001, 0x04, 2, 0, 0, 255, 0, 0, 1, 0, 0, 255⟩,
   ⟨0x710001, 0x710001, 0x05, 5, 0, 0, 255, 0, 0, 8, 0, 0, 18446744073709551615⟩,
   ⟨0x710001, 0x710001, 0x06, 9, 0, 0, 255, 0, 0, 8, 0, 0, 18446744073709551615⟩,
   ⟨0x710002, 0x710002, 0x00, 4, 0, 0, 255, 3, 0, 4, 0, 0, 4294967295⟩,
   ⟨0x710003, 0x710003, 0x00, 2, 0, 0, 255, 3, 0, 1, 0, 0, 255⟩,
   ⟨0x710004, 0x710004, 0x00, 10, 3, 0, 2, 0, 0, 16, 0, 0, 0⟩,
   ⟨0x710005, 0x710005, 0x00, 10, 3, 0, 2, 0, 0, 1024, 0, 0, 0⟩,
   ⟨0x710006, 0x710006, 0x00, 5, 0, 0, 255, 0, 0, 8, 0, 0, 18446744073709551615⟩,
   ⟨0x710007, 0x710007, 0x00, 2, 0, 0, 255, 0, 0, 1, 0, 0, 255⟩,
   ⟨0x710008, 0x710008, 0x00, 3, 0, 0, 255, 0, 0, 2, 0, 0, 65535⟩,
   ⟨0x710009, 0x710009, 0x00, 12, 0, 0, 255, 0, 0, 0, 0, 0, 0⟩,
   ⟨0x710009, 0x710009, 0x01, 2, 0, 0, 255, 0, 0, 1, 0, 0, 255⟩,
   ⟨0x710009, 0x710009, 0x02, 4, 0, 0, 255, 0, 0, 4, 0, 0, 4294967295⟩,
   ⟨0x710009, 0x710009, 0x03, 4, 0, 0, 255, 0, 0, 4, 0, 0, 4294967295⟩,
   ⟨0x710009, 0x710009, 0x04, 3, 0, 0, 255, 0, 0, 2, 0, 0, 65535⟩,
   ⟨0x710009, 0x710009, 0x05, 4, 0, 0, 255, 0, 0, 4, 0, 0, 4294967295⟩,
   ⟨0x710100, 0x710213, 0x00, 12, 1, 0, 1, 0, 0, 0, 0, 0, 0⟩,
   ⟨0x710100, 0x710213, 0x01, 2, 0, 0, 255, 0, 0, 1, 0, 0, 255⟩,
   ⟨0x710100, 0x710213, 0x02, 3, 0, 0, 255, 0, 0, 2, 0, 0, 65535⟩,
   ⟨0x710100, 0x710213, 0x03, 5, 1, 0, 1, 0, 1, 8, 0, 0, 0⟩,
   ⟨0x710100, 0x710213, 0x04, 2, 0, 0, 255, 0, 0, 1, 0, 0, 255⟩]

/-- Directory rows of area 0x72. -/
def dirArea72 : List DirRow :=
  [⟨0x720000, 0x7203FF, 0x00, 12, 0, 0, 255, 0, 0, 0, 0, 0, 0⟩,
   ⟨0x720000, 0x7203FF, 0x01, 2, 0, 0, 255, 0, 0, 1, 0, 0, 255⟩,
   ⟨0x720000, 0x7203FF, 0x02, 5, 0, 0, 255, 0, 0, 8, 0, 0, 18446744073709551615⟩,
   ⟨0x720000, 0x7203FF, 0x03, 5, 0, 0, 255, 0, 0, 8, 0, 0, 18446744073709551615⟩,
   ⟨0x720000, 0x7203FF, 0x04, 5, 0, 0, 255, 0, 0, 8, 0, 0, 18446744073709551615⟩,
   ⟨0x720000, 0x7203FF, 0x05, 5, 0, 0, 255, 0, 0, 8, 0, 0, 18446744073709551615⟩,
   ⟨0x720000, 0x7203FF, 0x06, 5, 0, 0, 255, 0, 0, 8, 0, 0, 18446744073709551615⟩,
   ⟨0x720000, 0x7203FF, 0x07, 9, 0, 0, 255, 0, 0, 8, 0, 0, 18446744073709551615⟩,
   ⟨0x72F001, 0x72F001, 0x00, 12, 0, 0, 255, 0, 0, 0, 0, 0, 0⟩,
   ⟨0x72F001, 0x72F001, 0x01, 3, 0, 0, 255, 0, 0, 2, 0, 0, 65535⟩,
   ⟨0x72F001, 0x72F001, 0x02, 3, 0, 0, 255, 0, 0, 2, 0, 0, 65535⟩,
   ⟨0x72F001, 0x72F001, 0x03, 3, 0, 0, 255, 0, 0, 2, 0, 0, 65535⟩,
   ⟨0x72F001, 0x72F001, 0x04, 4, 0, 0, 255, 0, 0, 4, 0, 0, 4294967295⟩]

/-- Directory rows of area 0x73. -/
def dirArea73 : List DirRow :=
  [⟨0x730001, 0x730001, 0x00, 12, 0, 0, 255, 3, 0, 0, 0, 0, 0⟩,
   ⟨0x730001, 0x730001, 0x01, 10, 0, 0, 255, 3, 0, 8, 0, 0, 0⟩,
   ⟨0x730001, 0x730001, 0x02, 10, 0, 0, 255, 3, 0, 32, 0, 0, 0⟩,
   ⟨0x730001, 0x730001, 0x03, 10, 0, 0, 255, 3, 0, 1952, 0, 0, 0⟩,
   ⟨0x730002, 0x730002, 0x00, 12, 0, 0, 255, 3, 0, 0, 0, 0, 0⟩,
   ⟨0x730002, 0x730002, 0x01, 10, 0, 0, 255, 3, 0, 1024, 0, 0, 0⟩,
   ⟨0x730002, 0x730002, 0x02, 10, 0, 0, 255, 3, 0, 8192, 0, 0, 0⟩,
   ⟨0x730003, 0x730003, 0x00, 12, 0, 0, 255, 0, 0, 0, 0, 0, 0⟩,
   ⟨0x730003, 0x730003, 0x01, 10, 0, 0, 255, 0, 0, 8, 0, 0, 0⟩,
   ⟨0x730003, 0x730003, 0x02, 10, 0, 0, 255, 0, 0, 32, 0, 0, 0⟩,
   ⟨0x730003, 0x730003, 0x03, 10, 0, 0, 255, 0, 0, 1952, 0, 0, 0⟩,
   ⟨0x730004, 0x730004, 0x00, 12, 0, 0, 255, 0, 0, 0, 0, 0, 0⟩,
   ⟨0x730004, 0x730004, 0x01, 10, 0, 0, 255, 0, 0, 1024, 0, 0, 0⟩,
   ⟨0x730004, 0x730004, 0x02, 10, 0, 0, 255, 0, 0, 8192, 0, 0, 0⟩,
   ⟨0x730005, 0x730005, 0x00, 10, 3, 0, 1, 0, 0, 48, 0, 0, 0⟩,
   ⟨0x730006, 0x730006, 0x00, 10, 0, 0, 255, 0, 0, 4277, 0, 0, 0⟩,
   ⟨0x730007, 0x730007, 0x00, 5, 1, 0, 1, 0, 1, 8, 0, 0, 0⟩]

/-- Directory rows of area 0x74. -/
def dirArea74 : List DirRow :=
  [⟨0x740001, 0x740001, 0x00, 2, 0, 0, 255, 0, 0, 1, 0, 0, 255⟩,
   ⟨0x740002, 0x740002, 0x00, 5, 0, 0, 255, 1, 0, 8, 0, 0, 18446744073709551615⟩,
   ⟨0x740003, 0x740003, 0x00, 10, 0, 0, 255, 0, 0, 4096, 0, 0, 0⟩,
   ⟨0x740004, 0x740004, 0x00, 10, 0, 2, 255, 0, 0, 8589934592, 0, 0, 0⟩,
   ⟨0x740005, 0x740005, 0x00, 2, 3, 0, 2, 0, 0, 1, 0, 0, 255⟩,
   ⟨0x740006, 0x740006, 0x00, 10, 4, 0, 255, 0, 0, 24, 0, 0, 0⟩,
   ⟨0x740007, 0x740007, 0x00, 12, 0, 0, 255, 0, 0, 0, 0, 0, 0⟩,
   ⟨0x740007, 0x740007, 0x01, 2, 0, 0, 255, 0, 0, 1, 0, 0, 255⟩,
   ⟨0x740007, 0x740007, 0x02, 3, 0, 0, 255, 0, 0, 2, 0, 0, 65535⟩,
   ⟨0x740007, 0x740007, 0x03, 3, 0, 0, 255, 0, 0, 2, 0, 0, 65535⟩]

/-- Directory rows of area 0x75. -/
def dirArea75 : List DirRow :=
  [⟨0x750001, 0x750001, 0x00, 12, 0, 0, 255, 0, 0, 0, 0, 0, 0⟩,
   ⟨0x750001, 0x750001, 0x01, 3, 0, 0, 255, 0, 0, 2, 0, 0, 65535⟩,
   ⟨0x750001, 0x750001, 0x02, 2, 0, 0, 255, 0, 0, 1, 0, 0, 255⟩,
   ⟨0x750001, 0x750001, 0x03, 9, 0, 0, 255, 0, 0, 8, 0, 0, 18446744073709551615⟩,
   ⟨0x750001, 0x750001, 0x04, 3, 0, 0, 255, 0, 0, 2, 0, 0, 65535⟩,
   ⟨0x750002, 0x750002, 0x00, 13, 0, 0, 255, 1, 0, 0, 0, 0, 0⟩,
   ⟨0x750003, 0x750003, 0x00, 13, 0, 0, 255, 1, 0, 0, 0, 0, 0⟩,
   ⟨0x750004, 0x750004, 0x00, 5, 1, 0, 1, 0, 1, 8, 0, 0, 0⟩]

/-- Directory rows, part 0. -/
def dirPart0 : List DirRow := dirArea10 ++ dirArea11 ++ dirArea12 ++ dirArea20 ++ dirArea21 ++ dirArea22 ++ dirArea23 ++ dirArea30 ++ dirArea31 ++ dirArea32 ++ dirArea33 ++ dirArea34

/-- Directory rows, part 1. -/
def dirPart1 : List DirRow := dirArea35 ++ dirArea36 ++ dirArea37 ++ dirArea40 ++ dirArea41 ++ dirArea42 ++ dirArea43 ++ dirArea44 ++ dirArea45 ++ dirArea46 ++ dirArea47 ++ dirArea48

/-- Directory rows, part 2. -/
def dirPart2 : List DirRow := dirArea49 ++ dirArea4A ++ dirArea4B ++ dirArea50 ++ dirArea51 ++ dirArea52 ++ dirArea53 ++ dirArea54 ++ dirArea55 ++ dirArea56 ++ dirArea57 ++ dirArea58

/-- Directory rows, part 3. -/
def dirPart3 : List DirRow := dirArea59 ++ dirArea5A ++ dirArea60 ++ dirArea61 ++ dirArea62 ++ dirArea63 ++ dirArea64 ++ dirArea65 ++ dirArea66 ++ dirArea67 ++ dirArea70 ++ dirArea71

/-- Directory rows, part 4. -/
def dirPart4 : List DirRow := dirArea72 ++ dirArea73 ++ dirArea74 ++ dirArea75

/-- Every object of the panel, by first index and subindex (R331). -/
def directory : List DirRow := dirPart0 ++ dirPart1 ++ dirPart2 ++ dirPart3 ++ dirPart4

/-- The objects whose default is a nonzero number (R326): first index, last index, subindex, default. -/
def dirDefaults : List (Nat × Nat × Nat × Nat) :=
  [(0x100006, 0x100006, 0x00, 1),
   (0x100010, 0x100010, 0x05, 24),
   (0x100010, 0x100010, 0x08, 64),
   (0x110003, 0x110003, 0x01, 3),
   (0x220000, 0x223FFF, 0x02, 65535),
   (0x220000, 0x223FFF, 0x03, 4294967295),
   (0x220000, 0x223FFF, 0x04, 4294967295),
   (0x320001, 0x320001, 0x00, 1),
   (0x320002, 0x320002, 0x00, 1),
   (0x33F001, 0x33F001, 0x00, 1000),
   (0x33F003, 0x33F003, 0x00, 1),
   (0x34F003, 0x34F003, 0x00, 1000),
   (0x34F004, 0x34F004, 0x00, 1),
   (0x35F001, 0x35F001, 0x00, 24),
   (0x35F002, 0x35F002, 0x00, 10),
   (0x360002, 0x360002, 0x00, 400),
   (0x360003, 0x360003, 0x00, 500),
   (0x370000, 0x3703FF, 0x02, 65535),
   (0x400003, 0x400003, 0x00, 4),
   (0x400004, 0x400004, 0x00, 8),
   (0x400005, 0x400005, 0x00, 10),
   (0x400006, 0x400006, 0x00, 100),
   (0x420000, 0x4200FF, 0x01, 255),
   (0x420000, 0x4200FF, 0x02, 255),
   (0x420000, 0x4200FF, 0x03, 255),
   (0x420000, 0x4200FF, 0x04, 1000),
   (0x420000, 0x4200FF, 0x06, 255),
   (0x430000, 0x437FFF, 0x05, 65535),
   (0x440004, 0x440004, 0x00, 1024),
   (0x440005, 0x440005, 0x00, 80),
   (0x440006, 0x440006, 0x00, 2000),
   (0x440007, 0x440007, 0x00, 2000),
   (0x440008, 0x440008, 0x00, 4),
   (0x440009, 0x440009, 0x00, 10),
   (0x44000A, 0x44000A, 0x00, 1000),
   (0x44000B, 0x44000B, 0x00, 10000),
   (0x440010, 0x440010, 0x01, 4000),
   (0x440010, 0x440010, 0x02, 1008),
   (0x450000, 0x4500FF, 0x03, 255),
   (0x450000, 0x4500FF, 0x04, 255)]
  ++ [(0x450000, 0x4500FF, 0x13, 255),
   (0x470000, 0x470007, 0x01, 1),
   (0x470000, 0x470007, 0x02, 65536),
   (0x480000, 0x48000F, 0x06, 64),
   (0x480000, 0x48000F, 0x09, 24),
   (0x480000, 0x48000F, 0x0C, 3),
   (0x480000, 0x48000F, 0x0E, 9000),
   (0x480000, 0x48000F, 0x0F, 49300),
   (0x480000, 0x48000F, 0x10, 49301),
   (0x490000, 0x4900FF, 0x01, 255),
   (0x4B0001, 0x4B0001, 0x00, 200),
   (0x4B0002, 0x4B0002, 0x00, 100),
   (0x4B0003, 0x4B0003, 0x00, 256),
   (0x4B0004, 0x4B0004, 0x00, 2000),
   (0x4B0005, 0x4B0005, 0x00, 20),
   (0x4B0006, 0x4B0006, 0x00, 10),
   (0x4B0007, 0x4B0007, 0x00, 255),
   (0x500004, 0x500004, 0x00, 1000),
   (0x500007, 0x500007, 0x00, 63),
   (0x500009, 0x500009, 0x00, 55),
   (0x50000A, 0x50000A, 0x00, 2000),
   (0x510000, 0x51000F, 0x01, 63),
   (0x510000, 0x51000F, 0x05, 2400),
   (0x510000, 0x51000F, 0x06, 700),
   (0x510000, 0x51000F, 0x07, 750),
   (0x530000, 0x5300FF, 0x02, 63),
   (0x570000, 0x57000F, 0x05, 63),
   (0x580002, 0x580002, 0x00, 24),
   (0x580003, 0x580003, 0x00, 10),
   (0x5A0000, 0x5A000F, 0x01, 255),
   (0x5A0000, 0x5A000F, 0x05, 65535),
   (0x5AF001, 0x5AF001, 0x00, 60),
   (0x5AF002, 0x5AF002, 0x00, 14),
   (0x600008, 0x600008, 0x00, 30),
   (0x600009, 0x600009, 0x00, 8),
   (0x610000, 0x6100FF, 0x04, 255),
   (0x640001, 0x640001, 0x04, 1),
   (0x640001, 0x640001, 0x05, 55),
   (0x640001, 0x640001, 0x06, 4),
   (0x640001, 0x640001, 0x07, 2000),
   (0x640001, 0x640001, 0x09, 10),
   (0x640001, 0x640001, 0x0A, 10),
   (0x640006, 0x640006, 0x00, 255),
   (0x640007, 0x640007, 0x00, 63),
   (0x650000, 0x650007, 0x04, 1000),
   (0x660000, 0x66000F, 0x03, 255),
   (0x660000, 0x66000F, 0x04, 255),
   (0x700003, 0x700003, 0x00, 25)]

end Sys2Proof.Machine
end

