-- ==== Sys2Proof/Config.lean ====
section
/-!
DEFINITION. What the spec leaves open. Every constant here is opaque: it has no body, so no proof can see a value of
it, and a claim that mentions one holds whatever the value is. The assumption log names each (notes/assumptions).
-/
namespace Sys2Proof.Config

/-- DESIGN CHOICE, log entry 6. The lane value of a vector op whose result the spec does not state for these
operands: op code, first operand, second operand (R76, R77). -/
opaque freeLane : Nat → Nat → Nat → Nat

/-- DESIGN CHOICE, log entry 7. A fresh value that the panel draws at random or that no rule states, taken from a
counter of the state: session identifiers, nonces, dump identifiers (R295, R459). -/
opaque freeValue : Nat → Nat → Nat

/-- PRESUMED, log entry 8. Ed25519 signature verification of a cited standard: key, message, signature. -/
opaque ed25519Verify : List Nat → List Nat → List Nat → Bool

/-- PRESUMED, log entry 8. ML-DSA verification: parameter set (65 or 87), key, message, signature. -/
opaque mldsaVerify : Nat → List Nat → List Nat → List Nat → Bool

/-- PRESUMED, log entry 8. Whether a byte string decodes as a public key of its algorithm (R337): 0 Ed25519, 1 ML-DSA-65. -/
opaque keyDecodes : Nat → List Nat → Bool

/-- PRESUMED, log entry 8. Ed25519 signing by a key held in the panel: key handle, message. -/
opaque ed25519Sign : Nat → List Nat → List Nat

/-- PRESUMED, log entry 8. ML-DSA signing: parameter set (65 or 87), key handle, message. -/
opaque mldsaSign : Nat → Nat → List Nat → List Nat

/-- PRESUMED, log entry 8. The key handle that a derivation gives: parent secret and measurement (R454). -/
opaque deriveKey : Nat → List Nat → Nat

/-- PRESUMED, log entry 8. The public key of a key handle: 0 Ed25519, 65 ML-DSA-65, 87 ML-DSA-87. -/
opaque publicKey : Nat → Nat → List Nat

/-- PRESUMED, log entry 8. X25519 and ML-KEM shared secret of a session: the panel's fresh key handle, the client's
two public values. -/
opaque sharedSecret : Nat → List Nat → List Nat → List Nat

/-- PRESUMED, log entry 8. The panel's X25519 public value and ML-KEM ciphertext for a client's HELLO. -/
opaque kemAnswer : Nat → List Nat → List Nat

/-- PRESUMED, log entry 8. AES-256-GCM tag check: key, nonce, associated data, ciphertext and tag; the plaintext
when it verifies. -/
opaque gcmOpen : List Nat → List Nat → List Nat → List Nat → Option (List Nat)

/-- PRESUMED, log entry 8. AES-256-GCM sealing: key, nonce, associated data, plaintext. -/
opaque gcmSeal : List Nat → List Nat → List Nat → List Nat → List Nat

/-- DESIGN CHOICE, log entry 60. What the factory wrote into the flash's image area (R428). -/
opaque deliveredImage : List Nat

/-- DESIGN CHOICE, log entry 60. The enrolment at delivery, by object address: the principals of slots 0 and 1 and the
fleet-manager keys named on the purchase order (R337, R338). -/
opaque delivered : Nat → Nat

/-- PRESUMED, log entry 60. The digest that mask ROM holds for a key slot (R430). -/
opaque romKeyDigest : Nat → List Nat

/-- PRESUMED, log entry 94. A brick's serial belongs to an Ihleth brick part (R476). -/
opaque brickPart : Nat → Bool

/-- PRESUMED, log entry 60. A certificate: algorithm (0 Ed25519, 65 ML-DSA-65), subject key handle, measurement and
security version (R452). -/
opaque certificate : Nat → Nat → Nat → Nat → List Nat

/-- DESIGN CHOICE, log entry 62. Firmware working memory as a dump holds it, which only Ihleth decodes (R463): the die's
node and the time of the decision. -/
opaque workingMemory : Nat → Nat → List Nat

end Sys2Proof.Config
end

