-- ==== Sys2Proof/Machine/Numeric.lean ====
section
/-!
DEFINITION. Number formats and exact arithmetic (chapter 02): the twelve formats of R36, rounding (R48), stochastic
rounding (R49), conversions (R38 to R42, R47), the exact accumulator (R50 to R53), MX quantisation (R44), T5 packing
(R46) and the vector engine's single operations (R54).
-/
namespace Sys2Proof.Machine

/-- A value of a number format: NaN, an infinity, or (−1)^neg × m × 2^e exactly. A zero keeps its sign (R39). -/
inductive Num where
  | nan
  | inf (neg : Bool)
  | fin (neg : Bool) (m : Nat) (e : Int)
  deriving DecidableEq, Repr

/-- The rounding modes of R48; SR carries its 32 random bits (R49). -/
inductive Rmode where
  | rne
  | rtz
  | sr (r : Nat)
  deriving DecidableEq, Repr

/-- Layout of a floating-point format (R36): exponent bits, mantissa bits, bias, largest finite magnitude code, and
whether it has infinities and NaN. -/
structure FloatFmt where
  ebits : Nat
  mbits : Nat
  bias : Nat
  maxCode : Nat
  hasInf : Bool
  hasNan : Bool
  nanCode : Nat
  deriving DecidableEq, Repr

/-- FP32. -/
def fp32 : FloatFmt := ⟨8, 23, 127, 0x7F7FFFFF, true, true, 0x7FC00000⟩
/-- FP16. -/
def fp16 : FloatFmt := ⟨5, 10, 15, 0x7BFF, true, true, 0x7E00⟩
/-- BF16. -/
def bf16 : FloatFmt := ⟨8, 7, 127, 0x7F7F, true, true, 0x7FC0⟩
/-- FP8 E4M3 (R40). -/
def e4m3 : FloatFmt := ⟨4, 3, 7, 0x7E, false, true, 0x7F⟩
/-- FP8 E5M2 (R40). -/
def e5m2 : FloatFmt := ⟨5, 2, 15, 0x7B, true, true, 0x7E⟩
/-- FP6 E3M2. -/
def e3m2 : FloatFmt := ⟨3, 2, 3, 0x1F, false, false, 0⟩
/-- FP6 E2M3. -/
def e2m3 : FloatFmt := ⟨2, 3, 1, 0x1F, false, false, 0⟩
/-- FP4 E2M1. -/
def e2m1 : FloatFmt := ⟨2, 1, 1, 0x7, false, false, 0⟩

/-- The floating-point layout of a format code of R36, if it is one. -/
def floatFmt : Nat → Option FloatFmt
  | 0 => some fp32 | 1 => some fp16 | 2 => some bf16 | 3 => some e4m3 | 4 => some e5m2
  | 5 => some e3m2 | 6 => some e2m3 | 7 => some e2m1 | _ => none

/-- Elements that one 64-byte token holds in a format (R74). -/
def fmtElems : Nat → Nat
  | 0 => 16 | 1 => 32 | 2 => 32 | 3 => 64 | 4 => 64 | 5 => 80 | 6 => 80 | 7 => 128
  | 8 => 64 | 9 => 128 | 10 => 320 | 11 => 16 | _ => 0

/-- Bits of one packed element (R36, R37); TERN is packed five to the byte and answers 0. -/
def fmtBits : Nat → Nat
  | 0 => 32 | 1 => 16 | 2 => 16 | 3 => 8 | 4 => 8 | 5 => 6 | 6 => 6 | 7 => 4 | 8 => 8 | 9 => 4 | 11 => 32 | _ => 0

/-- An MX element format (R43). -/
def isMx (f : Nat) : Bool := decide (3 ≤ f ∧ f ≤ 7)

/-- A row-scaled format (R45). -/
def isRowScaled (f : Nat) : Bool := decide (8 ≤ f ∧ f ≤ 10)

/-- The sign bit's weight of a layout. -/
def FloatFmt.signBit (f : FloatFmt) : Nat := 2 ^ (f.ebits + f.mbits)

/-- The exponent of a layout's smallest subnormal step. -/
def FloatFmt.emin (f : FloatFmt) : Int := 1 - (f.bias : Int) - (f.mbits : Int)

/-- The value of a floating-point code (R36, R38, R40, R42). -/
def decodeFloat (f : FloatFmt) (code : Nat) : Num :=
  let neg := code.testBit (f.ebits + f.mbits)
  let mag := code % f.signBit
  let E := mag / 2 ^ f.mbits
  let M := mag % 2 ^ f.mbits
  if f.maxCode < mag ∧ f.hasNan then
    if f.hasInf ∧ M = 0 then .inf neg else .nan
  else if E = 0 then .fin neg M f.emin
  else .fin neg (2 ^ f.mbits + M) (f.emin + (E : Int) - 1)

/-- A magnitude m × 2^e, with `sticky` for a nonzero remainder below it, rounded to a whole multiple of 2^q in a mode. -/
def roundAt (mode : Rmode) (m : Nat) (e : Int) (sticky : Bool) (q : Int) : Nat :=
  if e ≥ q then m <<< (e - q).toNat
  else
    let sh := (q - e).toNat
    let hi := m >>> sh
    let rem := m % 2 ^ sh
    match mode with
    | .rtz => hi
    | .rne =>
      let twice := 2 * rem
      let one := 2 ^ sh
      if twice > one ∨ (twice = one ∧ (sticky ∨ hi % 2 = 1)) then hi + 1 else hi
    | .sr r =>
      let F := if sh ≥ 32 then rem >>> (sh - 32) else rem <<< (32 - sh)
      if F + r % 2 ^ 32 ≥ 2 ^ 32 then hi + 1 else hi

/-- The magnitude code, unbounded in its exponent, of m × 2^e rounded into a layout. -/
def magCode (f : FloatFmt) (mode : Rmode) (m : Nat) (e : Int) (sticky : Bool) : Nat :=
  if m = 0 ∧ !sticky then 0
  else
    let top : Int := (Nat.log2 m : Int) + e
    let q : Int := max f.emin (top - f.mbits)
    let hi := roundAt mode m e sticky q
    if hi < 2 ^ f.mbits then hi
    else ((q - f.emin).toNat + 1) * 2 ^ f.mbits + (hi - 2 ^ f.mbits)

/-- What a conversion met, for the arithmetic counters of R89. -/
structure ConvNote where
  sat : Bool := false
  special : Bool := false
  nan : Bool := false
  deriving DecidableEq, Repr

/-- Whether a layout is one of FP8, FP6 or FP4, whose overflow is counted. -/
def FloatFmt.narrow (f : FloatFmt) : Bool := decide (f.ebits + f.mbits < 8)

/-- The code of a magnitude with a sign in a layout. -/
def signed (f : FloatFmt) (neg : Bool) (mag : Nat) : Nat := mag + (if neg then f.signBit else 0)

/-- A finite magnitude that a conversion to FP8 turns into a signed zero in every mode: below half the smallest
subnormal (R41). -/
def FloatFmt.vanishes (f : FloatFmt) (m : Nat) (e : Int) : Bool :=
  f.narrow && f.hasNan && decide ((Nat.log2 m : Int) + e < f.emin - 1)

/-- Conversion of an exact value (with sticky remainder) into a floating-point layout, saturating or not (R41, R42, R48).
The spec states no result for NaN in a format that has none (log entry 6). -/
def encodeFloat (f : FloatFmt) (mode : Rmode) (satur : Bool) (v : Num) (sticky : Bool := false) : Nat × ConvNote :=
  let sat := satur || !f.hasNan
  let overflow (neg : Bool) : Nat × ConvNote :=
    if f.narrow then
      if sat then (signed f neg f.maxCode, { sat := true })
      else if f.hasInf then (signed f neg (f.maxCode + 1), { special := true })
      else (f.nanCode, { special := true, nan := true })
    else (signed f neg (f.maxCode + 1), {})
  match v with
  | .nan => if f.hasNan then (f.nanCode, { nan := true }) else (Config.freeLane 2 f.maxCode 0 % (2 * f.signBit), {})
  | .inf neg => if f.narrow then overflow neg else (signed f neg (f.maxCode + 1), {})
  | .fin neg m e =>
    let c := if f.vanishes m e then 0 else magCode f mode m e sticky
    if c > f.maxCode then
      if mode = .rtz then (signed f neg f.maxCode, {}) else overflow neg
    else (signed f neg c, {})

/-- The smallest and largest integer of an integer format (R48). -/
def intRange : Nat → Int × Int
  | 8 => (-128, 127) | 9 => (-8, 7) | 10 => (-1, 1) | _ => (-(2 ^ 31), 2 ^ 31 - 1)

/-- Conversion to INT8, INT4 or TERN: the named mode, then saturation (R48). -/
def toIntFmt (fmt : Nat) (mode : Rmode) (v : Num) : Int × ConvNote :=
  let (lo, hi) := intRange fmt
  match v with
  | .nan => (0, { nan := true })
  | .inf neg => (if neg then lo else hi, { sat := true })
  | .fin neg m e =>
    let i : Int := if neg then -(roundAt mode m e false 0 : Int) else (roundAt mode m e false 0 : Int)
    if i < lo then (lo, { sat := true }) else if i > hi then (hi, { sat := true }) else (i, {})

/-- An integer as an exact value. -/
def numOfInt (i : Int) : Num := .fin (decide (i < 0)) i.natAbs 0

/-- A fixed-point integer in units of 2^e. -/
def numOfFix (i : Int) (e : Int) : Num := .fin (decide (i < 0)) i.natAbs e

/-- The exact negation. -/
def Num.neg : Num → Num
  | .nan => .nan
  | .inf n => .inf (!n)
  | .fin n m e => .fin (!n) m e

/-- The signed integer of a finite value in units of 2^q, for q at most its exponent. -/
def fixAt (n : Bool) (m : Nat) (e q : Int) : Int :=
  let v : Int := ((m <<< (e - q).toNat : Nat) : Int)
  if n then -v else v

/-- The exact sum; an exact zero is −0 only where both terms are −0 (R39, IEEE 754). -/
def Num.add : Num → Num → Num
  | .nan, _ => .nan
  | _, .nan => .nan
  | .inf a, .inf b => if a = b then .inf a else .nan
  | .inf a, _ => .inf a
  | _, .inf b => .inf b
  | .fin a ma ea, .fin b mb eb =>
    if ma = 0 ∧ mb = 0 then .fin (a && b) 0 0
    else if ma = 0 then .fin b mb eb
    else if mb = 0 then .fin a ma ea
    else
      let q := min ea eb
      let s := fixAt a ma ea q + fixAt b mb eb q
      if s = 0 then .fin false 0 0 else numOfFix s q

/-- The exact product (IEEE 754). -/
def Num.mul : Num → Num → Num
  | .nan, _ => .nan
  | _, .nan => .nan
  | .inf a, .inf b => .inf (a != b)
  | .inf a, .fin b m _ => if m = 0 then .nan else .inf (a != b)
  | .fin a m _, .inf b => if m = 0 then .nan else .inf (a != b)
  | .fin a ma ea, .fin b mb eb => .fin (a != b) (ma * mb) (ea + eb)

/-- Whether a value is zero. -/
def Num.isZero : Num → Bool
  | .fin _ m _ => m == 0
  | _ => false

/-- Whether a value is finite. -/
def Num.isFin : Num → Bool
  | .fin .. => true
  | _ => false

/-- Numeric order of two values that are not NaN: −1, 0 or 1. Both zeros are equal. -/
def Num.cmp : Num → Num → Int
  | .fin a ma ea, .fin b mb eb =>
    let q := min ea eb
    let d := fixAt a ma ea q - fixAt b mb eb q
    if d < 0 then -1 else if d > 0 then 1 else 0
  | .inf a, .inf b => if a = b then 0 else if a then -1 else 1
  | .inf a, _ => if a then -1 else 1
  | _, .inf b => if b then 1 else -1
  | _, _ => 0

/-- floor(log2) of a nonzero magnitude m × 2^e. -/
def floorLog2 (m : Nat) (e : Int) : Int := (Nat.log2 m : Int) + e

/-- The smallest integer k with m × 2^e ≤ 2^k (R47, R50). -/
def ceilLog2 (m : Nat) (e : Int) : Int :=
  let k := Nat.log2 m
  if m = 2 ^ k then (k : Int) + e else (k : Int) + e + 1

-- ------------------------------------------------------------------ Philox-4×32-10 (R49)

/-- One round of Philox-4×32. -/
def philoxRound (c : Nat × Nat × Nat × Nat) (k0 k1 : Nat) : Nat × Nat × Nat × Nat :=
  let (c0, c1, c2, c3) := c
  let p0 := 0xD2511F53 * c0
  let p1 := 0xCD9E8D57 * c2
  (((p1 / 2 ^ 32) ^^^ c1) ^^^ k0, p1 % 2 ^ 32, ((p0 / 2 ^ 32) ^^^ c3) ^^^ k1, p0 % 2 ^ 32)

/-- n rounds of Philox-4×32, the key bumped between rounds. -/
def philoxRounds : Nat → Nat × Nat × Nat × Nat → Nat → Nat → Nat × Nat × Nat × Nat
  | 0, c, _, _ => c
  | n + 1, c, k0, k1 =>
    philoxRounds n (philoxRound c k0 k1) ((k0 + 0x9E3779B9) % 2 ^ 32) ((k1 + 0xBB67AE85) % 2 ^ 32)

/-- What names a random draw: seed, logical tile coordinate, stream lane, iteration tag, unit slot, output port (R49). -/
structure SrCtx where
  seed : Nat
  ltile : Nat
  lane : Nat
  tag : Nat
  slot : Nat
  port : Nat
  deriving DecidableEq, Repr

/-- The 32-bit random value of an output element (R49). -/
def srRandom (x : SrCtx) (elem : Nat) : Nat :=
  let (w0, w1, w2, w3) := philoxRounds 10
    (x.ltile % 2 ^ 32, (x.lane * 65536 + x.tag) % 2 ^ 32, (elem / 4) % 2 ^ 32, (x.slot * 2 ^ 24 + x.port * 65536) % 2 ^ 32)
    (x.seed % 2 ^ 32) (x.seed / 2 ^ 32 % 2 ^ 32)
  match elem % 4 with
  | 0 => w0 | 1 => w1 | 2 => w2 | _ => w3

/-- The rounding of one element under a 2-bit mode code (R48). Code 3 is reserved and never reaches a unit (R11, R64). -/
def modeOf (code : Nat) (x : SrCtx) (elem : Nat) : Rmode :=
  match code with
  | 1 => .rtz
  | 2 => .sr (srRandom x elem)
  | _ => .rne

-- ------------------------------------------------------------------ packing (R37, R46)

/-- Trit i of a T5 byte, as 0, 1 or 2 (R46). -/
def t5Digit (b i : Nat) : Nat := b / 3 ^ i % 3

/-- The value of element k of a packed row in a format (R37, R46): floating-point, integer or trit. -/
def elemAt (fmt : Nat) (w : Nat) (k : Nat) : Num :=
  match floatFmt fmt with
  | some f => decodeFloat f ((w >>> (fmtBits fmt * k)) % 2 ^ fmtBits fmt)
  | none =>
    if fmt = 10 then numOfInt ((t5Digit ((w >>> (8 * (k / 5))) % 256) (k % 5) : Int) - 1)
    else numOfInt (toSigned (fmtBits fmt) ((w >>> (fmtBits fmt * k)) % 2 ^ fmtBits fmt))

/-- A packed word from element codes, element 0 lowest (R37). -/
def packCodes (nb : Nat) : List Nat → Nat
  | [] => 0
  | c :: t => c % 2 ^ nb + 2 ^ nb * packCodes nb t

/-- Five trits as one byte (R46); missing trits are 0. -/
def t5Byte (t : List Int) : Nat :=
  let d (i : Nat) : Nat := ((t.getD i 0) + 1).toNat
  d 0 + 3 * d 1 + 9 * d 2 + 27 * d 3 + 81 * d 4

-- ------------------------------------------------------------------ FP32 single operations (R54, R76)

/-- The value of an FP32 lane. -/
def f32 (w : Nat) : Num := decodeFloat fp32 (w % 2 ^ 32)

/-- An exact value rounded once to FP32 (R54). -/
def toF32 (mode : Rmode) (v : Num) (sticky : Bool := false) : Nat := (encodeFloat fp32 mode false v sticky).1

/-- The canonical FP32 NaN (R38). -/
def nan32 : Nat := 0x7FC00000

/-- Whether an FP32 lane is NaN. -/
def isNan32 (w : Nat) : Bool := f32 w == .nan

def f32Add (mode : Rmode) (a b : Nat) : Nat := toF32 mode ((f32 a).add (f32 b))
def f32Sub (mode : Rmode) (a b : Nat) : Nat := toF32 mode ((f32 a).add (f32 b).neg)
def f32Mul (mode : Rmode) (a b : Nat) : Nat := toF32 mode ((f32 a).mul (f32 b))
def f32Fma (mode : Rmode) (a b c : Nat) : Nat := toF32 mode (((f32 a).mul (f32 b)).add (f32 c))

/-- IEEE 754-2019 minimum; −0 is below +0 (R76). -/
def f32Min (a b : Nat) : Nat :=
  let x := f32 a
  let y := f32 b
  if x = .nan ∨ y = .nan then nan32
  else
    let c := x.cmp y
    if c < 0 then a % 2 ^ 32 else if c > 0 then b % 2 ^ 32
    else if a.testBit 31 then a % 2 ^ 32 else b % 2 ^ 32

/-- IEEE 754-2019 maximum; −0 is below +0 (R76). -/
def f32Max (a b : Nat) : Nat :=
  let x := f32 a
  let y := f32 b
  if x = .nan ∨ y = .nan then nan32
  else
    let c := x.cmp y
    if c > 0 then a % 2 ^ 32 else if c < 0 then b % 2 ^ 32
    else if a.testBit 31 then b % 2 ^ 32 else a % 2 ^ 32

/-- ABS, exact; a NaN becomes canonical (R38). -/
def f32Abs (a : Nat) : Nat := if isNan32 a then nan32 else a % 2 ^ 31

/-- NEG, exact; a NaN becomes canonical (R38). -/
def f32Neg (a : Nat) : Nat := if isNan32 a then nan32 else (a % 2 ^ 32) ^^^ (2 ^ 31)

/-- The integer that an FP32 lane holds, if it is one. -/
def f32Int (a : Nat) : Option Int :=
  match f32 a with
  | .fin n m e =>
    if e ≥ 0 then some (fixAt n m e 0)
    else if m % 2 ^ (-e).toNat = 0 then some (if n then -((m / 2 ^ (-e).toNat : Nat) : Int) else ((m / 2 ^ (-e).toNat : Nat) : Int))
    else none
  | _ => none

/-- LDEXP: a × 2^n with n the integer value of b; the spec states no result where b holds no integer (log entry 6).
The scale is limited to ±2,000, past which every result is the same. -/
def f32Ldexp (mode : Rmode) (a b : Nat) : Nat :=
  match f32Int b with
  | some n =>
    let k := max (-2000) (min 2000 n)
    match f32 a with
    | .fin neg m e => toF32 mode (.fin neg m (e + k))
    | v => toF32 mode v
  | none => Config.freeLane 0x18 a b % 2 ^ 32

/-- CMP: all ones or zero (R76). -/
def f32Cmp (aux a b : Nat) : Nat :=
  let x := f32 a
  let y := f32 b
  let un := x == .nan || y == .nan
  let c := x.cmp y
  let r := match aux with
    | 0 => !un && c == 0
    | 1 => !un && decide (c < 0)
    | 2 => !un && decide (c ≤ 0)
    | 3 => un
    | _ => false
  if r then 2 ^ 32 - 1 else 0

/-- Left-to-right FP32 sum in the CHAIN order (R55). -/
def f32Chain (mode : Rmode) : List Nat → Nat
  | [] => 0
  | p :: t => t.foldl (f32Add mode) p

/-- One pass of the canonical pairwise tree (R55). -/
def pairPass (add : Nat → Nat → Nat) : List Nat → List Nat
  | a :: b :: t => add a b :: pairPass add t
  | l => l

/-- The canonical pairwise tree, one pass per unit of fuel (R55). -/
def pairTree (add : Nat → Nat → Nat) : Nat → List Nat → Nat
  | 0, l => l.headD 0
  | _ + 1, [] => 0
  | _ + 1, [x] => x
  | k + 1, l => pairTree add k (pairPass add l)

-- ------------------------------------------------------------------ MX quantisation (R44)

/-- The largest exponent of an MX element format (R44 step 4). -/
def eElem : Nat → Int
  | 3 => 8 | 4 => 15 | 5 => 4 | 6 => 2 | _ => 2

/-- The largest finite magnitude of a list, if some value is nonzero: as mantissa and exponent. -/
def maxMag (l : List Num) : Num :=
  l.foldl (fun a x => match x with
    | .fin _ m e => if (Num.fin false m e).cmp a > 0 then .fin false m e else a
    | _ => a) (.fin false 0 0)

/-- No finite value of a list is other than zero (R44 step 3). -/
def mxZero (l : List Num) : Bool := (maxMag l).isZero

/-- The E8M0 scale code of 32 values (R44 steps 1 to 4). -/
def mxScale (fmt : Nat) (l : List Num) : Nat :=
  if l.any (fun v => !v.isFin) then 0xFF
  else match maxMag l with
    | .fin _ m e =>
      if m = 0 then 0x7F
      else (max (-127) (min 127 (floorLog2 m e - eElem fmt)) + 127).toNat
    | _ => 0x7F

-- ------------------------------------------------------------------ the exact accumulator (R50 to R53)

/-- The exponent u of a format's smallest step (R50). -/
def expU : Nat → Int
  | 3 => -9 | 4 => -16 | 5 => -4 | 6 => -3 | 7 => -1 | _ => 0

/-- The exponent t of a format's largest magnitude (R50). -/
def expT : Nat → Int
  | 3 => 9 | 4 => 16 | 5 => 5 | 6 => 3 | 7 => 3 | 8 => 7 | 9 => 3 | _ => 0

/-- The exact window of R51 for the combined scale exponent c. -/
def inWindow (wf af : Nat) (c : Int) : Bool :=
  decide (-32 - (expU wf + expU af) ≤ c) && decide (c ≤ 38 - (expT wf + expT af))

/-- A dot product under way (R51, R52, R66): the exact accumulator in units of 2^-32 or, once a block has left the
window, the running FP32 value; and the special values met. -/
structure Acc where
  exact : Bool := true
  acc : Int := 0
  run : Nat := 0
  nan : Bool := false
  posInf : Bool := false
  negInf : Bool := false
  deriving DecidableEq, Repr

/-- The exact sum of a list of products in units of 2^q, for finite products with exponents at least q. -/
def fixSum (q : Int) (l : List Num) : Int :=
  l.foldl (fun s v => match v with | .fin n m e => s + fixAt n m e q | _ => s) 0

/-- The least exponent of the nonzero finite products of a list, at most q. -/
def minExp (q : Int) (l : List Num) : Int :=
  l.foldl (fun s v => match v with | .fin _ m e => if m = 0 then s else min s e | _ => s) q

/-- The special values a list of products holds, noted (R52). -/
def Acc.note (x : Acc) (l : List Num) : Acc :=
  { x with
    nan := x.nan || l.any (· == .nan)
    posInf := x.posInf || l.any (· == .inf false)
    negInf := x.negInf || l.any (· == .inf true) }

/-- One MX block pair's products, already multiplied by nothing, with combined scale exponent c (R51). -/
def Acc.mxBlock (x : Acc) (inWin : Bool) (c : Int) (ps : List Num) : Acc :=
  let x := x.note ps
  let ps := ps.filter Num.isFin
  if x.exact ∧ inWin then
    { x with acc := x.acc + fixSum (-32) (ps.map (fun v => v.mul (.fin false 1 c))) }
  else
    let run := if x.exact then toF32 .rne (numOfFix x.acc (-32)) else x.run
    let q := minExp 0 ps
    let blk := toF32 .rne (numOfFix (fixSum q ps) (q + c))
    { x with exact := false, run := f32Add .rne run blk }

/-- One block of 32 products of mode H16 (R66). -/
def Acc.h16Block (x : Acc) (ps : List Num) : Acc :=
  let x := x.note ps
  let ps := ps.filter Num.isFin
  let ok := ps.all (fun v => match v with
    | .fin _ m e => m == 0 || (decide (ceilLog2 m e ≤ 38) && (decide (e ≥ -32) || m % 2 ^ (-32 - e).toNat == 0))
    | _ => true)
  let fix (v : Num) : Num := match v with
    | .fin n m e => if e ≥ -32 then .fin n m e else .fin n (m >>> (-32 - e).toNat) (-32)
    | v => v
  if x.exact ∧ ok then { x with acc := x.acc + fixSum (-32) (ps.map fix) }
  else
    let run := if x.exact then toF32 .rne (numOfFix x.acc (-32)) else x.run
    { x with exact := false, run := ps.foldl (fun r v => f32Add .rne r (toF32 .rne v)) run }

/-- Row-scaled products, whole integers (R50). -/
def Acc.intBlock (x : Acc) (ps : List Int) : Acc :=
  { x with acc := x.acc + ps.foldl (· + ·) 0 * 2 ^ 32 }

/-- The value of a dot product before its last rounding: special values by R52; else the exact accumulator times the
scales that still apply, where a zero sum is +0 (R39, R53), or the running FP32 value. -/
def Acc.value (x : Acc) (scale : Num) : Num :=
  if x.nan ∨ (x.posInf ∧ x.negInf) then .nan
  else if x.posInf then .inf false
  else if x.negInf then .inf true
  else if x.exact then
    if x.acc = 0 then .fin false 0 0 else (numOfFix x.acc (-32)).mul scale
  else f32 x.run

-- ------------------------------------------------------------------ SI32 (R47)

/-- E = e_max − 30 for a largest magnitude m (R47). -/
def siExp (m : Num) : Int :=
  match m with
  | .fin _ k e => if k = 0 then -30 else ceilLog2 k e - 30
  | _ => -30

/-- A finite value as an SI32 integer with exponent E, by RNE (R47). -/
def siQuant (v : Num) (E : Int) : Int :=
  match v with
  | .fin n m e => let k : Int := (roundAt .rne m (e - E) false 0 : Nat); if n then -k else k
  | _ => 0

end Sys2Proof.Machine
end

