-- ==== Sys2Proof/Machine/State.lean ====
section
/-!
DEFINITION. The state of the panel, as plain data. Numeric objects of the object dictionary (settings, counters,
status fields) have one home, the table `od`, keyed by object address (index × 256 + subindex) and holding only the
values that differ from the directory's defaults; everything else the spec gives the machine stands beside it.
INVENTORY.md lists every piece with its rule.
-/
namespace Sys2Proof.Machine

/-- Why a command stops the panel with a fault. The spec lets no command stop the panel (R2, R38), so there is none. -/
inductive Fault where
  deriving DecidableEq, Repr

/-- Why a command is refused. -/
inductive Refusal where
  /-- Raised by Dispatch.lean alone, for a command whose meaning is not written yet. Safe: nothing is claimed of it. -/
  | notModelled (mnemonic : String)
  deriving DecidableEq, Repr

/-- An event of the event ring (R309). -/
structure EvRec where
  num : Nat
  time : Nat
  addr : Nat
  val : List Nat
  deriving DecidableEq, Repr
-- ------------------------------------------------------------------ tiles (chapters 03, 04, 05)

/-- A tile's run state (R122). -/
inductive RunState where
  | run | hold | scanOut | scanIn
  deriving DecidableEq, Repr

/-- A memory firing that waits for the fabric: a DMA transfer or a page gather (R79). -/
structure MemBusy where
  trig : TokRec
  firstRow : Nat
  rows : Nat
  txn : Nat
  /-- 0 a DMA into the scratchpad, 1 a DMA out of it, 2 a page gather. -/
  what : Nat
  region : Nat
  deriving DecidableEq, Repr

/-- A stall record's content (R106, R107). -/
structure StallRec where
  reason : Nat
  lane : Nat
  life : Nat
  wm : Nat
  tag : Nat
  queue : Nat
  since : Nat
  deriving DecidableEq, Repr

/-- A scratchpad read firing that has rows still to emit (R79, R101): the tokens, the region entry and the rows that it
read. -/
structure ReadBusy where
  toks : List TokRec
  region : Nat
  first : Nat
  rows : Nat
  deriving DecidableEq, Repr

/-- A matrix unit's progress through a group (R70, R124). -/
structure MatProg where
  group : TokRec
  /-- Column block under way; chunks of it that the partial store holds, none while the engine does not serve this unit;
  result tokens of it already emitted. -/
  nc : Nat := 0
  kc : Nat := 0
  emitted : Nat := 0
  /-- The wait of this block for its rows has been counted (R136). -/
  waited : Bool := false
  deriving DecidableEq, Repr

/-- One unit slot of a tile (R60, R101, R108). -/
structure Slot where
  wm : Fin 4 := 0
  cur : Desc := {}
  shadow : Option Desc := none
  firings : Nat := 0
  tagCtr : Nat := 0
  emit0 : List TokRec := []
  emit1 : List TokRec := []
  /-- When the slot began to hold a token without firing (R106). -/
  waitSince : Option Nat := none
  /-- How much of that wait the tile spent in HOLD or scan. -/
  waitHeld : Nat := 0
  stall : Option StallRec := none
  /-- Rows written since the last completion token of a scratchpad write unit, and the first of them (R79); of a
  POSITION region, the position that the last of them went to and the rows that it has of the run (R134). -/
  wrRows : Nat := 0
  wrFirst : Nat := 0
  wrKey : Nat × Nat := (0, 0)
  wrPos : Nat := 0
  wrPart : Nat := 0
  busy : Option MemBusy := none
  reading : Option ReadBusy := none
  mat : Option MatProg := none
  /-- An outbound mailbox unit's token held against BUSY, and the earliest time of the next write (R83, R180). -/
  held : Option TokRec := none
  retryAt : Nat := 0
  /-- Arrival order of the trigger whose wait for rows has been counted (R136). -/
  waited : Option Nat := none
  deriving DecidableEq, Repr

/-- One input queue (R97, R98). Tokens oldest first; end-of-configuration tokens take their place among them. -/
structure Queue where
  wq : Fin 4 := 0
  toks : List TokRec := []
  /-- Arrival order of the visible token whose wait for the matching store blocks the queue (R102, R124). -/
  stuck : Option Nat := none
  deriving DecidableEq, Repr

/-- A matching-store entry (R103). -/
structure StoreEnt where
  item : TokRec
  slot : Nat
  input : Nat
  deriving DecidableEq, Repr

/-- A scratchpad region entry: G0 and G1 as written, and the pointers hardware keeps (R131). For FLAT and RING, head
and tail are the write and read pointers; for POSITION they are head_pos and tail_pos; live is the copy that reads see. -/
structure Region where
  g0 : BitVec 64 := 0
  g1 : BitVec 64 := 0
  head : Nat := 0
  tail : Nat := 0
  commit : Nat := 0
  live : Bool := false
  deriving DecidableEq, Repr

/-- One tile (R59): slots by number, queues by number, the matching store, tables, engine state, regions and the tile
sequencer's own state. -/
structure Tile where
  run : RunState := .run
  /-- The tile watermark (R109), and the configuration ID last seen on it (R111). -/
  wm : Fin 4 := 0
  confId : Nat := 0
  slots : SMap Slot := []
  queues : SMap Queue := []
  store : List StoreEnt := []
  nextOrder : Nat := 1
  routes : SMap (Option Route) := []
  buffers : SMap (Option Buffer) := []
  prog : SMap (BitVec 32) := []
  regs : SMap Row := []
  pstore : SMap Acc := []
  /-- The 64 lane columns' accumulators (R50, R59), and the slot that the matrix engine served last (R72). -/
  accs : SMap Acc := []
  matTurn : Nat := 15
  lives : SMap (Fin 8) := []
  regions : SMap Region := []
  log : List FaultEntry := []
  drained : Nat := 0
  faultFlag : Bool := false
  stallFlag : Bool := false
  ackDue : List Nat := []
  /-- ROLLBACK entries that wait for a memory firing on a dead key (R146). -/
  pendRollback : List Nat := []
  rreqs : List Pkt := []
  bankRot : SMap Nat := []
  lastHazard : Option Nat := none
  cmdFlag : Option Bool := none
  heartbeat : Nat := 0
  /-- Issue credits of the matrix and the vector engine, and when they were last brought up to date (R346). -/
  creditM : Nat := 256
  creditV : Nat := 256
  creditAt : Nat := 0
  creditRem : Nat := 0
  /-- The pace level the tile applies (R347). -/
  level : Nat := 63
  idle : Bool := false
  idleSince : Nat := 0
  /-- When the tile entered HOLD or scan (R106), and the run state in which it was scanned (R122). -/
  heldAt : Nat := 0
  scanBack : RunState := .hold
  deriving DecidableEq, Repr
-- ------------------------------------------------------------------ fabric and control network (chapter 06)

/-- One routing-table bank: the passable dies and links its tables were computed from (R161, R162), its multicast
trees, and the time until which it drains after a flip (R163). Links are numbered as in area 0x37. -/
structure Bank where
  /-- The tables have been computed; before that every entry is unreachable (R161). -/
  built : Bool := false
  generation : Nat := 0
  /-- The sites and links that the control network's own tables avoid (R177). -/
  ctlSites : List Nat := []
  ctlLinks : List Nat := []
  blockedSites : List Nat := []
  blockedLinks : List Nat := []
  mcast : SMap (Nat × Nat × Nat) := []
  drainUntil : Option Nat := none
  deriving DecidableEq, Repr

/-- One end of a serial link's retry state (R159, R172, R173). -/
structure LinkEnd where
  sent : List Block := []
  nextSeq : BitVec 16 := 0
  expected : BitVec 16 := 0
  naking : Bool := false
  peerXoff : Nat := 0
  failedReplays : Nat := 0
  failedRetrains : Nat := 0
  oldestAt : Option Nat := none
  retraining : Bool := false
  /-- The receive buffers (R159), by sub-channel × 4 + virtual channel, and the XOFF bits that this end sends. -/
  rx : SMap (List Flit) := []
  xoffOut : Nat := 0
  deriving DecidableEq, Repr

/-- A fault notice in a hub's queue: the node that sent it and the entry (R178). -/
structure Notice where
  src : Nat
  entry : FaultEntry
  deriving DecidableEq, Repr

/-- A sender that waits to write again after BUSY (R180, R178). -/
structure Backoff where
  dest : Nat
  src : Nat
  mbox : Nat
  word : Nat
  readyAt : Nat
  deriving DecidableEq, Repr

/-- The COMMIT positions and ROLLBACK entries that a fence carries to one tile (R115, R146). -/
structure TileFence where
  tile : Nat
  commits : List (Nat × Nat) := []
  rollbacks : List Nat := []
  deriving DecidableEq, Repr

/-- A life fence of a lane (R115): the advance, the tiles that have not yet applied it, those that have not yet
acknowledged it, and what it carries. -/
structure Fence where
  advance : Nat
  /-- Its start has waited for the held-flit limit, and has been counted (R175). -/
  delayed : Bool := false
  toApply : List Nat := []
  waiting : List Nat := []
  started : Nat := 0
  cmds : List TileFence := []
  deriving DecidableEq, Repr
-- ------------------------------------------------------------------ memory stacks (chapter 07)

/-- One KV directory entry (R193). -/
structure KvEnt where
  valid : Bool := false
  base : Nat := 0
  entryBytes : Nat := 0
  pages : Nat := 0
  group : Nat := 0
  deriving DecidableEq, Repr

/-- A parity delta that a member keeps until it is acknowledged, or that a reconstructor holds (R199, R200). -/
structure Delta where
  group : Nat
  member : Nat
  row : Nat
  seq : BitVec 16
  delta : Row
  deriving DecidableEq, Repr

/-- A member's entry for one erasure group (R196, R199). -/
structure GroupEnt where
  valid : Bool := false
  role : Nat := 0
  slabRows : Nat := 0
  slabBase : Nat := 0
  members : List Nat := []
  seq : BitVec 16 := 0
  applied : SMap (BitVec 16) := []
  openRows : List Nat := []
  heldDeltas : List Delta := []
  /-- GROUP_READs held while their row is open (R200). -/
  heldReads : List Pkt := []
  deriving DecidableEq, Repr

/-- A rebuild under way (R202). -/
structure Rebuild where
  lost : Nat
  target : Nat
  base : Nat
  /-- The WRITE_ACK that a REBUILD command gets at completion (R192). -/
  answer : Option Pkt := none
  deriving DecidableEq, Repr

/-- The hub's record of an erasure group, as stack.group publishes it (R196): twelve members, 0xFFFF one lost. -/
structure PGroup where
  members : List Nat := []
  original : List Nat := []
  bases : List Nat := []
  slabRows : Nat := 0
  /-- What is allocated in the slabs: member, offset in the slab, bytes, owner key. -/
  used : List (Nat × Nat × Nat × Nat) := []
  rebuild : List Rebuild := []
  /-- The floor-plan generation at which a hub turn last tried to rebuild it (R202). -/
  tried : Nat := 0
  deriving DecidableEq, Repr

/-- A WRITE whose acknowledgement waits for the parity of its rows (R187): source, transaction, slot, group rows. -/
structure PendAck where
  dst : Nat
  txn : Nat
  slot : Nat
  rows : List (Nat × Nat)
  /-- The stack that answers: this one, or the source of a COPY (R192). -/
  by' : Nat
  deriving DecidableEq, Repr

/-- A range of stack space that the placer has allocated, and its owner (R191, R223). -/
structure Alloc where
  stack : Nat
  off : Nat
  len : Nat
  owner : Nat
  deriving DecidableEq, Repr

/-- A stack's temperature state (R205, R206), its requests and its scrub. -/
structure StackUnit where
  dramMc : Int := 0
  baseMc : Int := 0
  suspect : Bool := false
  offFrom : Option Nat := none
  backFrom : Option Nat := none
  offline : Bool := false
  coolFrom : Option Nat := none
  acks : List PendAck := []
  /-- READs and WRITEs that the main function holds until a code row closes (R188, R200). -/
  reads : List Pkt := []
  writes : List Pkt := []
  scrubStart : Nat := 0
  /-- When the last forced scrub pause ends (R396). -/
  pauseUntil : Nat := 0
  deriving DecidableEq, Repr

/-- A fault that the hub has decided and whose repair waits (R382, R383): kind 1 tile, 2 die, 3 sector, 4 stack,
5 link, 6 hub, 7 port die, 8 steward; what was lost; when. -/
structure FaultJob where
  kind : Nat
  ident : Nat
  at' : Nat
  /-- The cause code (R380), the TIME64 of the decision, the lanes aborted, and the flags of its record. -/
  cause : Nat := 0
  time : Nat := 0
  lanes : List Nat := []
  second : Bool := false
  noMirror : Bool := false
  lapsed : Bool := false
  contained : Bool := false
  deriving DecidableEq, Repr
-- ------------------------------------------------------------------ placement (chapter 08)

/-- A window's mirror (R385, R386): the window's tile and region entry, the mirror's tile and first row, the position up
to which it is recorded. -/
structure Mirror where
  tile : Nat
  entry : Nat
  mTile : Nat
  mRow : Nat
  upTo : Nat := 0
  deriving DecidableEq, Repr

/-- Where a slot's furnish stands (R223, R227 to R229): the variant of each region, the physical tile of each logical
tile, KV homes (layer, stack, directory key), weight copies (section; stack and offset of each copy, the primary first),
state sections (section, stack, offset), mirrors, and the images of a parked furnish (logical tile, stack, offset). -/
structure Placed where
  variants : List (Nat × Nat) := []
  tiles : List (Nat × Nat) := []
  kvHome : List (Nat × Nat × Nat) := []
  copies : List (Nat × List (Nat × Nat)) := []
  states : List (Nat × Nat × Nat) := []
  fold : Nat := 1
  mirrors : List Mirror := []
  saved : List (Nat × Nat × Nat) := []
  groups : List (Nat × Nat) := []
  /-- Die crossings of each logical tile's routes and buffers at the last full placement (floor.tile.added_hop_ns). -/
  paths : List (Nat × List Nat) := []
  deriving DecidableEq, Repr

/-- A furnish slot (R220 to R222, R262). Its numeric objects stand in the object table. -/
structure PSlot where
  image : List Nat := []
  furn : Option Furnish := none
  digests : List (Nat × List Nat) := []
  placed : Option Placed := none
  /-- The resupply requests outstanding: section, and when each was first published (R222, R399). -/
  resupply : List (Nat × Nat) := []
  /-- Samples of the draft's sample ring: lane position, committed tokens, drafts accepted (R262). -/
  samples : List (Nat × List Nat × Nat) := []
  adapting : Bool := false
  /-- The lap under way, and the lap completions still to be read (R233). -/
  lap : Nat := 0
  lapLeft : Nat := 0
  adaptStart : Nat := 0
  digest : List Nat := []
  /-- In a deepened slot, the region range that this panel holds (R412). -/
  part : Option (Nat × Nat) := none
  /-- The STATE sections as they were loaded (R398). -/
  initial : List (Nat × List Nat) := []
  /-- Positions committed by verify passes, with their times, over the last 10 s. -/
  recent : List (Nat × Nat) := []
  /-- The adaptation cycle's pass has been aborted and is to be issued again (R119). -/
  adaptReplay : Bool := false
  /-- The watermark of the slot's last configuration, which its start tokens carry (R109, R233). -/
  wm : Fin 4 := 0
  /-- The context and the least fold factor that its placement was decided for (R224). -/
  decidedFor : Nat × Nat := (0, 0)
  deriving DecidableEq, Repr

-- ------------------------------------------------------------------ streams and Reel Transport (chapters 09, 10)

/-- A stream in the admission queue (R258). -/
structure QueueEnt where
  sub : Submit
  port : Nat
  src : Endpoint
  arrived : Nat
  clkAt : Nat
  ctlIn : Nat := 1
  limit : Nat := 0
  deriving DecidableEq, Repr

/-- A terminal record kept by stream ID after its END (R260, R261). -/
structure TermRec where
  stream : Nat
  reason : Nat
  detail : Nat
  lastIndex : Option Nat
  count : Nat
  endSeq : Nat
  /-- The ABORT_RESP last sent: its control sequence and body (R261). -/
  abortAnswer : Option (Nat × List Nat) := none
  alt : Endpoint := {}
  port : Nat
  reply : Endpoint
  ctlIn : Nat
  ctlOut : Nat
  ctlSent : List CtlSent := []
  sent : List TokSent := []
  at' : Nat
  lane : Option Nat := none
  deriving DecidableEq, Repr

/-- SUBMIT fragments of one stream in staging (R276). -/
structure StageEnt where
  stream : Nat
  port : Nat
  src : Endpoint
  firstAt : Nat
  arrived : Nat
  frags : SMap (List Nat) := []
  deriving DecidableEq, Repr

/-- What a host's endpoint has seen of congestion (R282): a CE mark to echo in the next SACK to it, the time until which
sends to it are spaced, and the last spaced send. -/
structure CeRec where
  dst : Endpoint
  echo : Bool := false
  till : Nat := 0
  last : Option Nat := none
  deriving DecidableEq, Repr

/-- An optical module in its cage (R288, R374, R375): its CMIS high warning for laser bias, the samples of the day under
way (sum and count), the daily means of the last 30 days, the days counted, and the replacement kinds published. -/
structure Cage where
  warnUa : Nat := 0
  sum : Nat := 0
  count : Nat := 0
  days : List (Nat × Nat) := []
  day : Nat := 0
  told : List Nat := []
  deriving DecidableEq, Repr

/-- A host port's own state (R283, R284): paused since, Announce messages received, and what the pause holds. -/
structure HostPort where
  pausedAt : Option Nat := none
  announce : Bool := false
  heldTx : List Emit := []
  deriving DecidableEq, Repr
-- ------------------------------------------------------------------ Ezesque Object Protocol (chapters 11, 12)

/-- Fragments of an EOP message that is not complete (R293). -/
structure EopPart where
  src : Endpoint
  port : Nat
  session : Nat
  seq : Nat
  frags : Nat
  firstAt : Nat
  parts : SMap (List Nat) := []
  deriving DecidableEq, Repr

/-- The four keys of a session (R296): client to panel key and IV base, panel to client key and IV base. -/
structure SessKeys where
  rxKey : List Nat := []
  rxIv : List Nat := []
  txKey : List Nat := []
  txIv : List Nat := []
  deriving DecidableEq, Repr

/-- A half-open session (R295): the HELLO that made it, its CHALLENGE, keys, transcript hash, and a PROOF received. -/
structure HalfOpen where
  id : Nat
  port : Nat
  src : Endpoint
  at' : Nat
  hello : List Nat
  challenge : List Nat
  keys : SessKeys
  transcript : List Nat
  /-- Its sequence number and its plaintext. -/
  proof : Option (Nat × List Nat) := none
  deriving DecidableEq, Repr

/-- An EVENT message not yet acknowledged: its entries by event number, when it was last sent, and how often (R309). -/
structure EvMsg where
  entries : List (Nat × List Nat)
  lastTx : Nat
  tries : Nat := 0
  deriving DecidableEq, Repr

/-- A subscription (R308, R309). -/
structure Sub where
  num : Nat
  filters : List (Nat × Nat)
  nxt : Nat
  sent : List EvMsg := []
  deriving DecidableEq, Repr

/-- An open session (R297 to R301). Ports: 0 to 15 host ports, 16 the management port. -/
structure Session where
  id : Nat
  port : Nat
  src : Endpoint
  level : Nat
  keyId : Nat
  keys : SessKeys := {}
  openedAt : Nat := 0
  lastMsg : Nat := 0
  startClk : Nat := 0
  lastClk : Nat := 0
  rxHigh : Nat := 1
  rxSeen : List Nat := [1]
  txSeq : Nat := 0
  /-- Request IDs and their responses, newest last; none while the request is outstanding (R301). -/
  cache : List (Nat × Option (List Nat)) := []
  /-- Requests taken and not yet served. -/
  inbox : List (List Nat) := []
  /-- Responses that wait for a store commit (R325). -/
  held : List (Nat × List Nat) := []
  subs : List Sub := []
  deriving DecidableEq, Repr

/-- A quorum command accepted (R313): its body, its decision, and how far its execution has come. -/
structure QCmd where
  cmd : Nat
  id : List Nat
  subject : Nat
  stream : Nat
  notAfter : Nat
  decidedAt : Nat
  session : Nat := 0
  request : Nat := 0
  status : Nat := 0x10
  phase : Nat := 0
  startClk : Nat := 0
  deriving DecidableEq, Repr

/-- A copy of the configuration area (R325): generation, the STORED values, and whether its CRC is good. -/
structure StoreCopy where
  gen : Nat := 0
  good : Bool := true
  vals : SMap Nat := []
  history : List (List Nat) := []
  deriving DecidableEq, Repr

-- ------------------------------------------------------------------ power and thermal (chapter 13)

/-- A wake request at a steward (R353, R354): the tiles to wake, the tiles of the region that the wake trim spares, and,
once it is staged, the column that is next and when the last one started. -/
structure WakeReq where
  tiles : List Nat
  own : List Nat
  recovery : Bool
  column : Option Nat := none
  lastAt : Nat := 0
  deriving DecidableEq, Repr

/-- A steward's own state (R343 to R354, R359): power-up step done, sector-cap limiter, trims, current samples, wakes,
and the samples of thermal resistance. -/
structure SectorPwr where
  upStep : Nat := 0
  capLevel : Nat := 63
  capOkFrom : Option Nat := none
  droopUntil : Option Nat := none
  trimFrom : Option Nat := none
  belowFrom : Option Nat := none
  shortfallAt : Option Nat := none
  /-- The last ten current samples in A, newest last. -/
  amps : List Nat := []
  /-- Inrush admitted since: until when, and A. Tiles woken since the last sample. -/
  inrush : List (Nat × Nat) := []
  woken : Nat := 0
  wakes : List WakeReq := []
  rSamples : List Nat := []
  baseSum : Nat := 0
  baseCount : Nat := 0
  deriving DecidableEq, Repr

/-- A hotspot's sensors and estimate in m°C, and its marks and their timers (R356). -/
structure HotSpot where
  a : Int := 0
  b : Int := 0
  est : Int := 0
  suspA : Bool := false
  suspB : Bool := false
  disp : Bool := false
  dispFrom : Option Nat := none
  timerA : Option Nat := none
  timerB : Option Nat := none
  deriving DecidableEq, Repr

/-- What the steward keeps of a die's temperature (R357): the last value, since when it is below 80 °C. -/
structure DieTherm where
  last : Int := 0
  coolFrom : Option Nat := none
  deriving DecidableEq, Repr

-- ------------------------------------------------------------------ ageing (chapter 14)

/-- A margin re-plan under way (R369): the trims still to be applied to tiles with work, by die, and the tiles already
trimmed. -/
structure MarginPlan where
  trims : List (Nat × Nat)
  done : Nat
  least : Nat
  median : Nat
  /-- The codes at which the period's margins of the re-trimmed tiles were read. -/
  codes : SMap Nat := []
  deriving DecidableEq, Repr

/-- A stack's rate of corrected rows (R368): the count and the time at which the hour under way began, and hours above
the limit in a row. -/
structure EccRate where
  count : Nat := 0
  since : Nat := 0
  hours : Nat := 0
  deriving DecidableEq, Repr


-- ------------------------------------------------------------------ cascade (chapter 16)

/-- What a seam hello said (R404): serial, cascade ID, digest, panel number, port. -/
structure Hello where
  serial : Nat := 0
  cid : Nat := 0
  digest : Nat := 0
  panel : Nat := 0xFF
  port : Nat := 0xFF
  deriving DecidableEq, Repr

/-- A transfer on a bundle that is not acknowledged (R406): ID, panel, kind, body, port and when it was issued. -/
structure Xfer where
  id : Nat
  panel : Nat
  kind : Nat
  body : List Nat
  port : Nat
  sentAt : Nat
  deriving DecidableEq, Repr

/-- A stream that the master carries for other panels (R411, R413): the panels that run it, the switch token of a couch and
the panels that run it from there on, and the drain reads outstanding by panel. -/
structure Remote where
  panels : List Nat := []
  /-- In a deepened slot, the panel that has the reel. -/
  reel : List Nat := []
  switch : Option (Nat × List Nat) := none
  reads : List Nat := []
  deriving DecidableEq, Repr

/-- A couch out of this panel (R420, R421). Phases: 0 to start, 1 first round done, 2 at the couch point, 3 ready there.
The receiving panel, 0xFF foreign, and its serial; positions copied; the lane and when it was held. -/
structure Couch where
  stream : Nat
  panel : Nat
  serial : Nat
  phase : Nat := 0
  upTo : Nat := 0
  x : Nat := 0
  heldAt : Nat := 0
  quorum : Bool := false
  deriving DecidableEq, Repr

/-- A ream under way (R415 to R418): its number, the copies present by contribution × 2 + copy, when the first came; once it
has started, the members and their panel words, partial sums of the own segment by panel, and the finished segments; and
panel words that have come for the ream after it. -/
structure Ream where
  num : Nat := 0
  copies : SMap (List Nat) := []
  firstAt : Nat := 0
  started : Option Nat := none
  taken : List (List Nat) := []
  members : List Nat := []
  words : SMap Nat := []
  partials : SMap (List Nat) := []
  segs : SMap (List Nat) := []
  summed : Bool := false
  early : SMap Nat := []
  deriving DecidableEq, Repr

/-- The panel's own state in a cascade. -/
structure CasState where
  /-- The last hello on each port (R404). -/
  hellos : SMap Hello := []
  /-- When each member was last heard, and what its last heartbeat said (R409). -/
  memberHeard : SMap Nat := []
  memberBeats : SMap Beat := []
  /-- Pass rates that members reported last (R423). -/
  memberRates : SMap Nat := []
  /-- The master and the deputy in force, 0xFF none (R409). -/
  actMaster : Nat := 0xFF
  actDeputy : Nat := 0xFF
  /-- When this panel last sent heartbeats, and mirrored acknowledgements to the deputy (R409, R411). -/
  beatAt : Nat := 0
  mirrorAt : Nat := 0
  /-- Transfers outstanding and the next ID; READ_DATA of the last 64 drain reads by transfer (R406). -/
  xfers : List Xfer := []
  nextXfer : Nat := 0
  drainStore : List (Nat × Nat × Nat × Nat) := []
  /-- Streams of the cascade on the master, by lane key 256 and up (R411); on the deputy, what is mirrored, by stream. -/
  remote : SMap Remote := []
  mirrored : SMap (LaneRec × List Nat) := []
  couches : List Couch := []
  /-- Extents of a couch on their way in: stream, layer, first position, bytes (R420). -/
  couchIn : List (Nat × Nat × Nat × List Nat) := []
  /-- Reams by slot × 2^16 + reduction, and the next number of each (R415). -/
  reams : SMap Ream := []
  reamNext : SMap Nat := []
  /-- Contributions and those whose copy A missed the deadline, in the second under way (R423). -/
  lateA : Nat := 0
  seenA : Nat := 0
  /-- A level change under way; the last level change or shortfall; members that had a shortfall last second (R414). -/
  levelDue : Option (Nat × Nat) := none
  levelAt : Nat := 0
  shortMembers : List Nat := []
  /-- Since when a member has met a straggler condition: cause × 8 + panel (R423). -/
  lagSince : SMap Nat := []
  /-- Panels that are being expelled: no admission to them (R425). -/
  expelling : List Nat := []
  /-- When the cascade began to form, or last reported (R408). -/
  formAt : Nat := 0
  deriving DecidableEq, Repr
-- ------------------------------------------------------------------ bring-up and dump (chapters 17, 18)

/-- What discovery learned of a die (R436): its coordinate, the edge of its parent, its factory identity. -/
structure Found where
  site : Nat
  parent : Nat
  dieId : Nat
  deriving DecidableEq, Repr

/-- Bring-up, firmware and the flash (chapter 17). -/
structure BootState where
  /-- The image area of the flash (R428), and the sites that are fused off at the factory (R30). -/
  image : List Nat := []
  fused : List Nat := []
  /-- The update under way (R448): its bytes so far, the length that BEGIN carried, the chunks that have passed. -/
  staged : List Nat := []
  updLen : Nat := 0
  chunksGood : Nat := 0
  /-- PTP has locked since power-on (R319). -/
  firstLock : Bool := false
  /-- When STANDBY, BRINGUP and the present start (power-on or START) began. -/
  standbyAt : Nat := 0
  bringupAt : Nat := 0
  startedAt : Nat := 0
  /-- The input left its operating band during this bring-up (R446, R474). -/
  dip : Bool := false
  /-- Hubs whose ROM failed its self-test or refused the image (R430, R435). -/
  badHubs : List Nat := []
  /-- Whether the feed is on and the strap as sampled (R474, R479). -/
  fed : Bool := false
  /-- Complete loads over the standby bus, by function at node 0x24C0 (R433). -/
  loads : SMap Nat := []
  /-- Dies found, by physical site, 256 and up the off-grid functions (R436). -/
  found : SMap Found := []
  /-- Clock locks, by site, 256 and up the off-grid functions: the source edge, 4 a hub's own oscillator (R434). -/
  clock : SMap Nat := []
  /-- Links that the BER check has passed or failed (R438). -/
  berDone : List Nat := []
  /-- Sites whose boot engine has the preamble and accepts it (R440), and whether the broadcast has gone out. -/
  preambles : List Nat := []
  sent : List Nat := []
  round : Nat := 0
  broadcastAt : Nat := 0
  /-- Stacks brought up (R442). -/
  stacksDone : List Nat := []
  /-- Bad tiles of a die as the known-answer runs found them, and the supply points that it has had (R443, R444). -/
  katBad : SMap Nat := []
  katDone : SMap (List Nat) := []
  assembled : Bool := false
  /-- The nonce of an attestation report to be built, and the report held (R455). -/
  nonce : Option (List Nat) := none
  report : List Nat := []
  deriving DecidableEq, Repr

/-- The fatal dump and the diagnostics (chapter 18). -/
structure DumpState where
  /-- When FATAL was decided, and by which hub (R458). -/
  decidedAt : Nat := 0
  hub : Nat := 0
  /-- Device state, causes and generation at the decision (R462). -/
  devWas : Nat := 0
  causes : Nat := 0
  generation : Nat := 0
  /-- The stacks of half 0 and half 1 (R460): node IDs, 0xFFFF none. -/
  half0 : Nat := 0xFFFF
  half1 : Nat := 0xFFFF
  /-- Tiles still to be scanned, and tiles whose scratchpad is still to be saved, in order (R465, R466). -/
  scans : List Nat := []
  saves : List Nat := []
  omitted : Nat := 0
  /-- Tile status by node index, as far as it is known (R464). -/
  status : SMap Nat := []
  /-- The slot index (R461). -/
  slots : List Nat := []
  /-- Directory entries written, by section kind: status, bytes and CRC-32 (R462). -/
  sections : SMap (Nat × Nat × Nat) := []
  /-- The images of dies as held at the decision, by section kind × 32 + number (R463). -/
  images : SMap (List Nat) := []
  /-- diag.violations and diag.stalls (R471). -/
  violations : List (List Nat) := []
  stalls : List (List Nat) := []
  deriving DecidableEq, Repr

/-- The panel. -/
structure State where
  clk : Nat := 0
  tbOn : Bool := false
  tbBase : Int := 0
  freeCtr : Nat := 0
  pending : List Instr := []
  out : List Emit := []
  mem : List Host.Cell := []
  tags : SMap Bool := []
  od : SMap Nat := []
  events : List EvRec := []
  nextEvent : Nat := 1
  lastEvent : SMap (List Nat) := []
  satSet : List Nat := []
  satList : List Nat := []
  tiles : SMap Tile := []
  bank0 : Bank := {}
  bank1 : Bank := {}
  links : SMap LinkEnd := []
  mboxes : SMap (BitVec 64) := []
  scanRows : SMap Row := []
  /-- Firmware chunk bitmaps of dies, by site (R440). -/
  chunks : SMap Nat := []
  /-- Floor-plan fields that change at the next generation (R33), by object address. -/
  floorDue : SMap Nat := []
  noticesA : List Notice := []
  noticesB : List Notice := []
  /-- Notices that a node keeps until they are answered: the entry, when to send it again after BUSY, its transaction (R178). -/
  noticesOut : SMap (List (FaultEntry × Nat × Nat)) := []
  backoffs : List Backoff := []
  fences : SMap Fence := []
  fenceQueue : SMap (List Fence) := []
  laneLife : SMap (Fin 8) := []
  abortDue : List Nat := []
  heldLanes : List Nat := []
  pslots : SMap PSlot := []
  lanes : SMap LaneRec := []
  queue : List QueueEnt := []
  terms : List TermRec := []
  staging : List StageEnt := []
  hostPorts : SMap HostPort := []
  ceRecs : List CeRec := []
  cages : SMap Cage := []
  /-- The host port that runs PTP, 0xFF none (R284). -/
  ptpCur : Nat := 0xFF
  fenceHist : SMap (List Nat) := []
  nodeLogs : SMap (List FaultEntry) := []
  nextTxn : Nat := 0
  kv : SMap KvEnt := []
  groupEnts : SMap GroupEnt := []
  pgroups : SMap PGroup := []
  allocs : List Alloc := []
  faults : List FaultJob := []
  /-- Dies to be vacated by REBALANCE, and the cause that each then reads, 0 none (R371, R390, R392). -/
  evac : SMap Nat := []
  rebalDue : Bool := false
  /-- A FULL re-plan is due after a LOAD or UNLOAD (R236). -/
  fullDue : Bool := false
  /-- Dies whose tile plans wait to be computed again (R231). -/
  staleDies : List Nat := []
  /-- Spares have been designated since READY (R225). -/
  sparesChosen : Bool := false
  /-- When a die's speed factor fell below the straggler limit (R239). -/
  slowSince : SMap Nat := []
  wakeWaiting : List Nat := []
  eopParts : List EopPart := []
  halfOpen : List HalfOpen := []
  sessions : List Session := []
  /-- When a REFUSE SESSION last went to a source address (R299). -/
  refusedAt : List (Endpoint × Nat) := []
  /-- Silent discards (R307). -/
  eopDiscards : Nat := 0
  /-- od.log.protocol: the last 256 entries (R307). -/
  protoLog : List (List Nat) := []
  /-- Sessions to be closed with reason 4 once the response under way has gone (R339, R340). -/
  closeDue : List Nat := []
  /-- Writes to the management addresses that take effect once their responses have gone (R340). -/
  mgmtDue : List (Nat × Nat) := []
  quorumTaken : List QCmd := []
  quorumQueue : List QCmd := []
  /-- Last entry to READY (R312). -/
  readyAt : Nat := 0
  store0 : StoreCopy := {}
  store1 : StoreCopy := {}
  /-- A STORED value has changed since the last commit (R325). -/
  storeDirty : Bool := false
  /-- No image verifies: the hub ROM serves the restricted EOP and the panel has no device state (R332, R450). -/
  recovery : Bool := false
  sectors : SMap SectorPwr := []
  spots : SMap HotSpot := []
  dieTherm : SMap DieTherm := []
  /-- Set points on their way (R344), by object address: target, from, and when the ramp began. -/
  ramps : SMap (Nat × Nat × Nat) := []
  /-- Critical dies that rejoin at the next re-plan, with their bad tiles (R357). -/
  rejoin : SMap Nat := []
  /-- Input power samples of the last 10 ms in W, newest last; when the ceiling last changed; a hard trip in force. -/
  watts : List Nat := []
  ceilingAt : Nat := 0
  tripped : Bool := false
  /-- The cooling warning, and since when a condition has stood against it (R358). -/
  coolWarn : Bool := false
  coolFrom : Option Nat := none
  /-- Least margin of a tile over the period, in permille (R364). -/
  margins : SMap Nat := []
  /-- Tiles taken out below the floor: whether a trim has brought the margin to target, and the least margin since (R366). -/
  lowTiles : SMap (Bool × Nat) := []
  /-- Trim codes as set at the factory (R370). -/
  factoryTrims : SMap Nat := []
  floorTaken : Nat := 0
  weakLanes : SMap Nat := []
  eccRates : SMap EccRate := []
  marginPlan : Option MarginPlan := none
  ageHistory : List (List Nat) := []
  /-- When powered hours were last added up (R372). -/
  poweredFrom : Nat := 0
  /-- Heartbeats of a die as its steward read them last, and still reads in a row (R381). -/
  beats : SMap (List Nat × Nat) := []
  /-- Rings of its peer that a hub has missed in a row, and stale reads of off-grid dies (R381). -/
  hubMiss : SMap Nat := []
  offMiss : SMap Nat := []
  /-- Transients of a die within the last hour: their times (R392). -/
  transientAt : SMap (List Nat) := []
  /-- Tiles whose refused configuration has been sent once more (R391). -/
  resent : List Nat := []
  /-- The last violation of an adaptation pass at a tile: cause, logical unit, tag (R391). -/
  bgViol : SMap (List Nat) := []
  /-- Since when a background class has been due (R394). -/
  bgFrom : SMap Nat := []
  /-- A reserved slot holds other lanes' passes until then; holds of the last 100 ms: start, length in µs (R395). -/
  bgHoldUntil : Nat := 0
  bgHolds : List (Nat × Nat) := []
  /-- fault.log: the last 64 recovery records (R402). -/
  faultLog : List (List Nat) := []
  /-- Both hubs are lost (R401). -/
  hubsLost : Bool := false
  stackRecs : SMap StackUnit := []
  cas : CasState := {}
  boot : BootState := {}
  dump : DumpState := {}
  deriving DecidableEq, Repr

/-- After reset: the panel without power (OFF), as it was delivered. Its flash holds the image that the factory wrote. -/
def State.reset : State := { boot := { image := Config.deliveredImage } }

end Sys2Proof.Machine
end

