-- ==== Sys2Proof/Machine/Ops.lean ====
section
/-!
DEFINITION. The operations that the meanings share: time, objects and counters, events, the panel's geometry and node
numbering (chapter 01), memory over the global fabric address space, tags, messages and the fault logs.
-/
namespace Sys2Proof.Machine

-- ------------------------------------------------------------------ time (R319)

/-- The state dt ns later. -/
def State.tick (s : State) (dt : Nat) : State := { s with clk := s.clk + dt }

/-- TIME64 on the panel's time base; 0 before the first entry to STANDBY (R319). -/
def State.now (s : State) : Nat := if s.tbOn then ((s.clk : Int) + s.tbBase).toNat else 0

/-- A fresh free value (log entry 7) of a kind; the step reads the counter and advances it with `burn`. -/
def State.fresh (s : State) (kind : Nat) : Nat := Config.freeValue kind s.freeCtr

/-- The state after a free value has been taken. -/
def State.burn (s : State) : State := { s with freeCtr := s.freeCtr + 1 }

-- ------------------------------------------------------------------ geometry and nodes (R16 to R26)

/-- Global x of a site (R16). -/
def siteX (g : Nat) : Nat := g / 16 % 4 * 4 + g % 4

/-- Global y of a site (R16). -/
def siteY (g : Nat) : Nat := g / 64 * 4 + g % 16 / 4

/-- The site at a coordinate (R16). -/
def siteAt (x y : Nat) : Nat := (y / 4 * 4 + x / 4) * 16 + (y % 4) * 4 + x % 4

/-- The sector of a site. -/
def sectorOf (g : Nat) : Nat := g / 16

/-- The kind of die at a site: 0 compute die, 1 stack, 2 hub A, 3 hub B (R17). -/
def siteKind (g : Nat) : Nat :=
  if g % 16 = 5 ∨ g % 16 = 10 then 1
  else if g = 95 ∨ g = 147 then 2
  else if g = 108 ∨ g = 160 then 3
  else 0

/-- A site that holds a compute die (R17). -/
def isCompute (g : Nat) : Bool := decide (g < 256) && siteKind g == 0

/-- A tile number: global site × 64 + tile, at a compute site (R18, R23). -/
def isTile (k : Nat) : Bool := isCompute (k / 64)

/-- A site that holds a stack. -/
def isStackSite (g : Nat) : Bool := decide (g < 256) && siteKind g == 1

/-- The compute sites in ascending order. -/
def computeSites : List Nat := (List.range 256).filter isCompute

/-- The number of a stack: sector × 2 + k (R208). -/
def stackIdx (g : Nat) : Nat := g / 16 * 2 + (if g % 16 = 10 then 1 else 0)

/-- The site of a stack. -/
def stackSite (i : Nat) : Nat := i / 2 * 16 + (if i % 2 = 1 then 10 else 5)

/-- The node ID of tile 0 or function 0 of a site's die (R23). -/
def siteNode (g : Nat) : Nat :=
  match siteKind g with
  | 2 => 0x17C0
  | 3 => 0x1B00
  | _ => g * 64

/-- The node of a hub: 0 hub A, 1 hub B. -/
def hubNode (h : Nat) : Nat := if h = 0 then 0x17C0 else 0x1B00

/-- What a unicast node ID names (R23, R24). -/
inductive NodeKind where
  | tile (k : Nat)
  | stack (i : Nat) (fn : Nat)
  | hub (h : Nat) (fn : Nat)
  | steward (sec : Nat)
  | portDie (p : Nat)
  | nothing
  deriving DecidableEq, Repr

/-- The endpoint of a node ID (R23, R24). -/
def nodeKind (n : Nat) : NodeKind :=
  if n ≥ 0x4000 then .nothing
  else
    let g := n / 64
    let f := n % 64
    if g = 147 then (if f < 16 then .steward f else if f < 20 then .portDie (f - 16) else .nothing)
    else match siteKind g with
      | 0 => .tile n
      | 1 => if f < 3 then .stack (stackIdx g) f else .nothing
      | 2 => if g = 95 then .hub 0 f else .nothing
      | _ => if g = 108 then .hub 1 f else .nothing

/-- The four attach sites of a port die: 0 north, 1 east, 2 south, 3 west (R20). -/
def portAttach (p : Nat) : List Nat :=
  match p with
  | 0 => [18, 19, 32, 33]
  | 1 => [123, 127, 179, 183]
  | 2 => [222, 223, 236, 237]
  | _ => [72, 76, 128, 132]

/-- The site beyond an edge of a site (0 north, 1 east, 2 south, 3 west), if the panel has one. -/
def neighbour (g e : Nat) : Option Nat :=
  let x := siteX g
  let y := siteY g
  match e with
  | 0 => if y = 0 then none else some (siteAt x (y - 1))
  | 1 => if x = 15 then none else some (siteAt (x + 1) y)
  | 2 => if y = 15 then none else some (siteAt x (y + 1))
  | _ => if x = 0 then none else some (siteAt (x - 1) y)

/-- The port die an edge of a site faces, if one (R20): its number. -/
def edgePortDie (g e : Nat) : Option Nat :=
  if neighbour g e ≠ none then none
  else if (portAttach e).contains g then some e else none

/-- The two sites of one hub die, whose shared edge is an internal seam (R153). -/
def hubSeam (g h : Nat) : Bool := siteKind g ≥ 2 && siteKind g == siteKind h

/-- Whether a link exists at an edge of a site: link number site × 4 + edge (R153, R184). -/
def linkExists (l : Nat) : Bool :=
  decide (l < 1024) &&
  (match neighbour (l / 4) (l % 4) with
   | some h => !hubSeam (l / 4) h
   | none => (edgePortDie (l / 4) (l % 4)).isSome)

/-- The node at the far end of a link (fabric.link.peer), 0xFFFF none. -/
def linkPeer (l : Nat) : Nat :=
  if !linkExists l then 0xFFFF
  else match neighbour (l / 4) (l % 4) with
    | some h => siteNode h
    | none => match edgePortDie (l / 4) (l % 4) with
      | some p => 0x24D0 + p
      | none => 0xFFFF

/-- The other end of a link between two sites. -/
def linkOther (l : Nat) : Option Nat :=
  (neighbour (l / 4) (l % 4)).map (fun h => h * 4 + (l % 4 + 2) % 4)

/-- Bytes of stack space on a variant: 0 T220-X, 1 T220-M, 2 T220-S (R26, R190). -/
def stackBytesOf (variant : Nat) : Nat := if variant = 1 then 0x600000000 else 0xC00000000

-- ------------------------------------------------------------------ objects and counters (R315, R327 to R330)

/-- The largest value of a counter (R328). -/
def maxCount : Nat := 2 ^ 64 - 1

/-- The defaults that depend on the element or the variant (R326): port roles and alternates, caps, deadlines. -/
def odSpecial (variant ix sub : Nat) : Option Nat :=
  if 0x480000 ≤ ix ∧ ix < 0x480010 then
    let p := ix - 0x480000
    if sub = 1 then
      some (if variant = 2 ∧ [3, 6, 7, 11, 14, 15].contains p then 3 else if p = 0 ∨ p = 8 then 1 else 2)
    else if sub = 3 then some (if p = 0 then 8 else if p = 8 then 0 else 0xFF)
    else none
  else if ix = 0x500003 ∧ sub = 0 then some (if variant = 2 then 24000 else 30000)
  else if ix = 0x500005 ∧ sub = 0 then some (if variant = 2 then 26000 else if variant = 1 then 31000 else 32000)
  else if ix = 0x200008 ∧ sub = 0 then some (stackBytesOf variant)
  else if 0x620000 ≤ ix ∧ ix < 0x620005 ∧ sub = 2 then
    some ([60, 60, 86400, 600, 86400].getD (ix - 0x620000) 0)
  else if 0x230010 ≤ ix ∧ ix < 0x230014 ∧ sub = 6 then
    some (if variant = 2 then (if ix % 2 = 0 then 7 else 3) else 15)
  else if ix = 0x110100 ∨ ix = 0x110101 ∨ (0x110200 ≤ ix ∧ ix < 0x110209) ∨ (ix = 0x110003 ∧ sub = 2) then
    some (Config.delivered (ix * 256 + sub))
  else none

/-- The default in the table of numeric defaults, 0 where none is listed. -/
def odListed : List (Nat × Nat × Nat × Nat) → Nat → Nat → Nat
  | [], _, _ => 0
  | (a, b, c, d) :: t, ix, sub => if a ≤ ix ∧ ix ≤ b ∧ c = sub then d else odListed t ix sub

/-- The default of a numeric object (R326). -/
def odDefault (variant a : Nat) : Nat :=
  match odSpecial variant (a / 256) (a % 256) with
  | some d => d
  | none => odListed dirDefaults (a / 256) (a % 256)

/-- The panel's variant (R4), fixed at the factory. -/
def State.variant (s : State) : Nat := (mlook s.od oFloorPanelVariant).getD 0

/-- The value of a numeric object. -/
def State.odGet (s : State) (a : Nat) : Nat := (mlook s.od a).getD (odDefault s.variant a)

/-- The state with a numeric object set. -/
def State.odSet (s : State) (a v : Nat) : State :=
  { s with od := if v = odDefault s.variant a then mdel s.od a else mins s.od a v }

/-- A floor-plan field as the hub knows it: what the next generation will publish, else what is published (R33). -/
def State.floorNow (s : State) (a : Nat) : Nat := (mlook s.floorDue a).getD (s.odGet a)

/-- A floor-plan field that changes at the next generation (R28, R33). -/
def State.stageFloor (s : State) (a v : Nat) : State := { s with floorDue := mins s.floorDue a v }

/-- An event record: up to 16 bytes, padded, and the time in bytes 16 to 23. -/
def State.evBytes (s : State) (b : List Nat) : List Nat := padTo 16 b ++ toLE 8 s.now

/-- An event published into the ring of 4,096 and kept as the object's last record (R309, R320). -/
def State.publish (s : State) (a : Nat) (val : List Nat) : State :=
  { s with
    events := lastN 4096 (s.events ++ [⟨s.nextEvent, s.now, a, val⟩])
    nextEvent := s.nextEvent + 1
    lastEvent := mins s.lastEvent a val }

/-- A 24-byte event from its first bytes. -/
def State.publish24 (s : State) (a : Nat) (b : List Nat) : State := s.publish a (s.evBytes b)

/-- A counter reaches its maximum: the saturated bit, the list of 1,024 and the event (R328, R329). -/
def State.saturate (s : State) (a : Nat) : State :=
  let s1 := s.publish24 oOdCounterSaturated (toLE 3 (a / 256) ++ [a % 256])
  let s2 := { s1 with satSet := s1.satSet ++ [a] }
  if s2.satList.length < 1024 then { s2 with satList := s2.satList ++ [a] } else s2.odSet oOdCounterListFull 1

/-- A counter counts n events; at its maximum it sticks (R328). -/
def State.bumpN (s : State) (a n : Nat) : State :=
  let v := s.odGet a
  let s' := s.odSet a (min (v + n) maxCount)
  if v < maxCount ∧ maxCount ≤ v + n then s'.saturate a else s'

/-- A counter counts one event. -/
def State.bump (s : State) (a : Nat) : State := s.bumpN a 1

/-- A counter cleared: with it its saturated bit and its place in the list (R328). -/
def State.clearCounter (s : State) (a : Nat) : State :=
  { s.odSet a 0 with satSet := s.satSet.filter (· != a), satList := s.satList.filter (· != a) }

/-- The device state (R332). -/
def State.dev (s : State) : Nat := s.odGet oDeviceStateState

/-- Powered hours since delivery (R372). -/
def State.poweredH (s : State) : Nat := s.odGet oAgeingPanelPoweredH + (s.clk - s.poweredFrom) / (3600 * 10 ^ 9)

/-- The powered hours added up to now. -/
def State.addHours (s : State) : State :=
  let n := (s.clk - s.poweredFrom) / (3600 * 10 ^ 9)
  ({ s with poweredFrom := s.poweredFrom + n * (3600 * 10 ^ 9) } : State).bumpN oAgeingPanelPoweredH n

-- ------------------------------------------------------------------ messages

/-- A packet carries the bank that is active at its source when it is injected (R163). -/
def State.stamp (s : State) : Emit → Emit
  | .pkt p => .pkt { p with gen := s.odGet oFabricPanelActiveBank }
  | e => e

/-- A message sent: it joins what is in flight. -/
def State.send (s : State) (e : Emit) : State := { s with out := s.out ++ [s.stamp e] }

/-- Several messages sent in order. -/
def State.sendAll (s : State) (l : List Emit) : State := { s with out := s.out ++ l.map s.stamp }

/-- A message taken at its receiver, if it was in flight. -/
def State.take (s : State) (e : Emit) : State := { s with out := dropFirst (· == e) s.out }

/-- A packet taken at its receiver: what is in flight is the same packet, up to the die crossings that it has made. -/
def State.takePkt (s : State) (p : Pkt) : State :=
  { s with out := dropFirst (fun e => match e with | .pkt q => { q with hops := p.hops } == p | _ => false) s.out }

/-- The next transaction number (R155). -/
def State.bumpTxn (s : State) : State := { s with nextTxn := (s.nextTxn + 1) % 65536 }

/-- The hub that acts: hub A unless it is lost or not in service, else hub B (R28, R388). -/
def State.actingHub (s : State) : Nat :=
  if s.floorNow (oFloorSiteState 95) = 4 ∧ s.floorNow (oFloorSiteState 108) ≠ 4 then 1 else 0

/-- The class of a control operation (R177): C1 carries scan data, bitmaps and agents. -/
def ctlClass (op : Nat) : Nat := if 0x10 ≤ op then 1 else 0

/-- A control packet to a destination from a source: operation, transaction, payload words (R177). -/
def ctlMsg (dest src op txn : Nat) (words : List Nat) : Emit :=
  .ctl { dest := dest, src := src, op := op, txn := txn, words := words, cls := ctlClass op }

/-- A control packet from a node to the acting hub. -/
def State.toHub (s : State) (src op : Nat) (words : List Nat) : State := s.send (ctlMsg (hubNode s.actingHub) src op 0 words)

-- ------------------------------------------------------------------ doorbells (R183)

/-- The object of a node's doorbells (0x36_0020 and up), if it has any. -/
def bellObj (node : Nat) : Option Nat :=
  match nodeKind node with
  | .hub 0 _ => some oFabricDoorbellHubA
  | .hub _ _ => some oFabricDoorbellHubB
  | .steward i => some (oFabricDoorbellSteward i)
  | _ => none

/-- A doorbell bit rung: set, or counted as coalesced where it is set already. -/
def State.ring (s : State) (node bit : Nat) : State :=
  match bellObj node with
  | none => s
  | some o =>
    let p := s.odGet (o + 1)
    if p.testBit bit then s.bump (o + 3) else s.odSet (o + 1) (setBit p bit)

-- ------------------------------------------------------------------ memory (R26, R127, R187)

/-- The byte at a global fabric address; a byte nothing has written reads 0 (log entry 4). -/
def memByte (m : List Host.Cell) (a : Nat) : BitVec 8 := mget (0 : BitVec 8) m a

/-- The memory with one byte written. -/
def memSet (m : List Host.Cell) (a : Nat) (b : BitVec 8) : List Host.Cell := mset (0 : BitVec 8) m a b

/-- The canonical form of the memory. -/
abbrev Memory.wf (m : List Host.Cell) : Bool := mwf (0 : BitVec 8) m

/-- The memory with a byte string written from an address. -/
def memWrite (m : List Host.Cell) (a : Nat) : List Nat → List Host.Cell
  | [] => m
  | b :: t => memWrite (memSet m a (BitVec.ofNat 8 b)) (a + 1) t

/-- n bytes from an address. -/
def memRead (m : List Host.Cell) (a : Nat) : Nat → List Nat
  | 0 => []
  | n + 1 => (memByte m a).toNat :: memRead m (a + 1) n

/-- The memory with every byte of a range zero. -/
def memZero (m : List Host.Cell) (a n : Nat) : List Host.Cell := mclear m a (a + n)

/-- A global fabric address (R26). -/
def gaddr (node off : Nat) : Nat := node * 2 ^ 48 + off

/-- A 64-byte row of a node's memory. -/
def State.rowAt (s : State) (node off : Nat) : Row := rowOf (memRead s.mem (gaddr node off) 64)

/-- The state with a 64-byte row of a node's memory written. -/
def State.putRow (s : State) (node off : Nat) (r : Row) : State :=
  { s with mem := memWrite s.mem (gaddr node off) (bytesOfRow r) }

/-- Consecutive rows of a node's memory. -/
def State.rowsAt (s : State) (node off n : Nat) : List Row := (List.range n).map (fun i => s.rowAt node (off + 64 * i))

/-- The state with consecutive rows written. -/
def State.putRows (s : State) (node off : Nat) : List Row → State
  | [] => s
  | r :: t => (s.putRow node off r).putRows node (off + 64) t

/-- The bytes of a node's memory. -/
def State.bytesAt (s : State) (node off n : Nat) : List Nat := memRead s.mem (gaddr node off) n

/-- The state with a byte string written to a node's memory. -/
def State.putBytes (s : State) (node off : Nat) (b : List Nat) : State :=
  { s with mem := memWrite s.mem (gaddr node off) b }

/-- The tag of a scratchpad row: true FULL (R128). -/
def State.tagAt (s : State) (tile row : Nat) : Bool := mget false s.tags (tile * 65536 + row)

/-- The state with a row's tag set (R128). -/
def State.setTag (s : State) (tile row : Nat) (full : Bool) : State :=
  { s with tags := mset false s.tags (tile * 65536 + row) full }

/-- The state with the tags of consecutive rows set. -/
def State.setTags (s : State) (tile row : Nat) (full : Bool) : Nat → State
  | 0 => s
  | n + 1 => (s.setTag tile row full).setTags tile (row + 1) full n

/-- Whether a node has a byte range among its valid offsets (R26). -/
def State.validRange (s : State) (node off n : Nat) : Bool :=
  match nodeKind node with
  | .tile _ => decide (off + n ≤ 0x400000)
  | .stack _ 0 => decide (off + n ≤ stackBytesOf s.variant)
  | _ => false

-- ------------------------------------------------------------------ tiles

/-- A tile's record. -/
def State.tile (s : State) (k : Nat) : Tile := mget {} s.tiles k

/-- The state with a tile's record replaced. -/
def State.setTile (s : State) (k : Nat) (t : Tile) : State := { s with tiles := mset {} s.tiles k t }

/-- A slot of a tile. -/
def Tile.slot (t : Tile) (i : Nat) : Slot := mget {} t.slots i

/-- The tile with a slot replaced. -/
def Tile.setSlot (t : Tile) (i : Nat) (x : Slot) : Tile := { t with slots := mset {} t.slots i x }

/-- A queue of a tile. -/
def Tile.queue (t : Tile) (q : Nat) : Queue := mget {} t.queues q

/-- The tile with a queue replaced. -/
def Tile.setQueue (t : Tile) (q : Nat) (x : Queue) : Tile := { t with queues := mset {} t.queues q x }

/-- A lane's life on a tile (R114). -/
def Tile.life (t : Tile) (lane : Nat) : Fin 8 := mget 0 t.lives lane

/-- A region entry of a tile (R131). -/
def Tile.region (t : Tile) (e : Nat) : Region := mget {} t.regions e

/-- The tile with a region entry replaced. -/
def Tile.setRegion (t : Tile) (e : Nat) (r : Region) : Tile := { t with regions := mset {} t.regions e r }

/-- A route-table entry of a tile (R62). -/
def Tile.route (t : Tile) (h : Nat) : Option Route := mget none t.routes h

/-- A buffer-table entry of a tile (R62). -/
def Tile.buffer (t : Tile) (h : Nat) : Option Buffer := mget none t.buffers h

/-- A tile's life window holds a life: {L, L + 1} (R114). -/
def Tile.alive (t : Tile) (lane : Nat) (life : Fin 8) : Bool := life == t.life lane || life == t.life lane + 1

-- ------------------------------------------------------------------ fault logs (R85, R87, R168)

/-- The 32 bytes of a fault-log entry (R87). -/
def entryBytes (e : FaultEntry) : List Nat :=
  toLE 8 e.address ++ toLE 2 e.cause ++ [e.slot, e.queue] ++ toLE 2 e.tag ++ [e.lane, e.wmCur * 4 + e.wmSeen] ++
  toLE 2 e.producer ++ toLE 2 e.logicalUnit ++ toLE 8 e.time ++ toLE 4 e.detail

/-- The entry that 32 bytes spell (R87). -/
def entryOf (b : List Nat) : FaultEntry :=
  { address := leAt b 0 8, cause := leAt b 8 2, slot := leAt b 10 1, queue := leAt b 11 1, tag := leAt b 12 2,
    lane := leAt b 14 1, wmCur := leAt b 15 1 / 4 % 4, wmSeen := leAt b 15 1 % 4, producer := leAt b 16 2,
    logicalUnit := leAt b 18 2, time := leAt b 20 8, detail := leAt b 28 4 }

/-- TIME64 at logging, to 1 µs (R87). -/
def State.logTime (s : State) : Nat := s.now / 1000 * 1000

/-- A tile logs an entry: ring of 32, its counters, its fault flag (R85, R87). Causes 0x0001 to 0x0009 are violations. -/
def State.logTile (s : State) (k : Nat) (e : FaultEntry) : State :=
  let e := { e with time := s.logTime }
  let t := s.tile k
  let full := decide (t.log.length ≥ 32)
  let lost := full && decide (t.drained = 0)
  let t' := { t with
    log := lastN 32 (t.log ++ [e])
    drained := if full then t.drained - 1 else t.drained
    faultFlag := true }
  let s1 := (s.setTile k t').bump (oTileFaultCount k)
  let s2 := if lost then s1.bump (oTileFaultLost k) else s1
  if 1 ≤ e.cause ∧ e.cause ≤ 9 then s2.bump oTilePanelViolations else s2

/-- The key of a node's log: its global site, or 0x100 + its function at the off-grid directory (R184). -/
def nodeLogKey (n : Nat) : Nat := if n / 64 = 147 ∧ n % 64 < 20 then 0x100 + n % 64 else n / 64

/-- A node that is not a tile logs an entry in its node log of 32 (R168, R184). -/
def State.logNodeAt (s : State) (key : Nat) (e : FaultEntry) : State :=
  { s with nodeLogs := mins s.nodeLogs key (lastN 32 (mget [] s.nodeLogs key ++ [{ e with time := s.logTime }])) }

/-- A node logs an entry: a tile in its fault log, every other node in its node log (R168). -/
def State.logAt (s : State) (node : Nat) (e : FaultEntry) : State :=
  match nodeKind node with
  | .tile k => s.logTile k e
  -- A reserved code names no die that could log.
  | _ => if node < 0x4000 then s.logNodeAt (nodeLogKey node) e else s

/-- The tag word of a token (R91). -/
def tokWord (t : Token) : Nat :=
  t.tag.toNat * 65536 + t.lane.val * 256 + t.wm.val * 64 + t.kind.val * 8 + t.life.val

/-- The token of a payload and a tag word (R91). -/
def tokenOf (payload : Row) (w : Nat) : Token :=
  { payload := payload, tag := BitVec.ofNat 16 (w / 65536), lane := Fin.ofNat 256 (w / 256), wm := Fin.ofNat 4 (w / 64),
    kind := Fin.ofNat 8 (w / 8), life := Fin.ofNat 8 w }

/-- The tokens of a packet's payload flits. -/
def pktTokens (p : Pkt) : List Token := p.body.map (fun f => tokenOf f.row f.side.toNat)

/-- The ERROR packet of R168: flit 0 the entry, then the tag words of dropped tokens. -/
def errorPkt (node dst : Nat) (txn srcSlot : Nat) (e : FaultEntry) (tags : List Nat) : Pkt :=
  let words : List Row := (List.range ((tags.length + 15) / 16)).map (fun i => rowOf ((((tags.drop (16 * i)).take 16).map (toLE 4)).flatten))
  { dest := dst, src := node, ptype := 6, vc := 1, txn := txn, srcSlot := srcSlot,
    body := { row := rowOf (entryBytes e) } :: words.map (fun r => { row := r }) }

/-- An ERROR packet goes to a source. -/
def State.sendError (s : State) (node dst txn srcSlot : Nat) (e : FaultEntry) (tags : List Nat) : State :=
  (s.send (.pkt (errorPkt node dst txn srcSlot { e with time := s.logTime } tags))).bump oFabricPanelErrorResponses

/-- The node that detects a misrouted or out-of-range packet drops it, logs it and sends ERROR to its source; an ERROR
is never answered with an ERROR (R168). -/
def State.dropPkt (s : State) (node : Nat) (p : Pkt) (cause addr : Nat) : State :=
  let e : FaultEntry := { address := addr, cause := cause, slot := 0xF, queue := 0x3F, producer := p.src }
  let s1 := s.logAt node e
  let s2 := if cause = 3 then s1.bump oFabricPanelMisrouted else s1
  let tags := if p.ptype = 1 ∨ p.ptype = 7 then p.body.map (fun f => f.side.toNat) else []
  if p.ptype = 6 then s2.bump oFabricPanelErrorLost else s2.sendError node p.src p.txn p.srcSlot e tags

-- ------------------------------------------------------------------ outcomes

/-- The next state of a tile command: at a number that names no tile only the time passes (R17, R59; log entry 80). -/
def onTile (k : Nat) (idle s : State) : Host.Outcome State Fault Refusal := .next (if isTile k then s else idle)

/-- The next state of a command on a site's stack: where the site holds none only the time passes (log entry 80). -/
def onStack (g : Nat) (idle s : State) : Host.Outcome State Fault Refusal := .next (if isStackSite g then s else idle)

/-- The next state of a command on a compute die: where the site holds none only the time passes (log entry 80). -/
def onDie (g : Nat) (idle s : State) : Host.Outcome State Fault Refusal := .next (if isCompute g then s else idle)

/-- The next state of a command on a link: where the edge has none only the time passes (R153; log entry 80). -/
def onLink (l : Nat) (idle s : State) : Host.Outcome State Fault Refusal := .next (if linkExists l then s else idle)

end Sys2Proof.Machine
end

