-- ==== Sys2Proof/Machine/Operands.lean ====
section
/-!
DEFINITION. Operand forms: the fields of unit descriptors and op words (R60, R61, R76), the checks of the descriptor
field maps (R64, R65, R71, R78 to R83), and how memory units address their regions (R131, R133, R134, R144, R145).
-/
namespace Sys2Proof.Machine

-- ------------------------------------------------------------------ descriptor fields (R61)

/-- Word n of a descriptor. -/
def dword (d : Desc) (n : Nat) : Nat :=
  match n with
  | 0 => d.d0.toNat | 1 => d.d1.toNat | 2 => d.d2.toNat | 3 => d.d3.toNat
  | 4 => d.d4.toNat | 5 => d.d5.toNat | 6 => d.d6.toNat | _ => d.d7.toNat

/-- The descriptor that a configuration token's payload holds (R61). -/
def descOfRow (r : Row) : Desc :=
  let w (k : Nat) : BitVec 64 := BitVec.ofNat 64 (r.toNat >>> (64 * k))
  ⟨w 0, w 1, w 2, w 3, w 4, w 5, w 6, w 7⟩

/-- The 64 bytes of a descriptor as a row (R61). -/
def rowOfDesc (d : Desc) : Row :=
  BitVec.ofNat 512 (ofLE ((List.range 8).map (fun k => toLE 8 (dword d k))).flatten)

def dKind (d : Desc) : Nat := bits (dword d 0) 3 0
def dSlot (d : Desc) : Nat := bits (dword d 0) 7 4
def dWm (d : Desc) : Fin 4 := Fin.ofNat 4 (bits (dword d 0) 9 8)
def dKeep (d : Desc) : Bool := bitOf (dword d 0) 10
def dBase (d : Desc) : Nat := bits (dword d 0) 31 16
def dLimit (d : Desc) : Nat := bits (dword d 0) 47 32
def dUnit (d : Desc) : Nat := bits (dword d 0) 63 48
/-- The queue field of input i of D1. -/
def dIn (d : Desc) (i : Nat) : Nat := bits (dword d 1) (6 * i + 5) (6 * i)
/-- The route handle of output o of D1. -/
def dOut (d : Desc) (o : Nat) : Nat := bits (dword d 1) (39 + 8 * o) (32 + 8 * o)
/-- Input i is bound: the queue field is not 0x3F. -/
def inBound (d : Desc) (i : Nat) : Bool := dIn d i != 0x3F
/-- Output o is bound: the handle is not 0xFF. -/
def outBound (d : Desc) (o : Nat) : Bool := dOut d o != 0xFF
/-- The bound inputs. -/
def boundIns (d : Desc) : List Nat := if dKind d = 0 then [] else (List.range 4).filter (inBound d)

def mMode (d : Desc) : Nat := bits (dword d 2) 3 0
def mAfmt (d : Desc) : Nat := bits (dword d 2) 7 4
def mWfmt (d : Desc) : Nat := bits (dword d 2) 11 8
def mOutFmt (d : Desc) : Nat := bits (dword d 2) 15 12
def mRound (d : Desc) : Nat := bits (dword d 2) 17 16
def mSat (d : Desc) : Bool := bitOf (dword d 2) 18
def mOutKind (d : Desc) : Nat := bits (dword d 2) 19 19
def mAscaled (d : Desc) : Bool := bitOf (dword d 2) 20
def mWscaled (d : Desc) : Bool := bitOf (dword d 2) 21
def mKlen (d : Desc) : Nat := bits (dword d 2) 55 32 + 1
def mNlen (d : Desc) : Nat := bits (dword d 3) 15 0 + 1
def mWbase (d : Desc) : Nat := bits (dword d 3) 31 16
def mWscaleBase (d : Desc) : Nat := bits (dword d 3) 47 32
def mAstride (d : Desc) : Nat := bits (dword d 4) 15 0

def vProgBase (d : Desc) : Nat := bits (dword d 2) 9 0
def vProgLen (d : Desc) : Nat := bits (dword d 2) 15 10 + 1
def vRegBase (d : Desc) : Nat := bits (dword d 2) 22 16
def vRegCount (d : Desc) : Nat := bits (dword d 2) 27 23 + 1
def vConstBase (d : Desc) : Nat := bits (dword d 2) 47 32
def vConstCount (d : Desc) : Nat := bits (dword d 2) 55 48
def vInFmt (d : Desc) (i : Nat) : Nat := bits (dword d 3) (4 * i + 3) (4 * i)
def vOutFmt (d : Desc) (o : Nat) : Nat := bits (dword d 3) (19 + 4 * o) (16 + 4 * o)
def vOutRound (d : Desc) (o : Nat) : Nat := bits (dword d 3) (25 + 2 * o) (24 + 2 * o)
def vOutSat (d : Desc) (o : Nat) : Bool := bitOf (dword d 3) (28 + o)
def vArith (d : Desc) : Nat := bits (dword d 3) 31 30

def uRegion (d : Desc) : Nat := bits (dword d 2) 4 0
def uRows (d : Desc) : Nat := bits (dword d 2) 11 5 + 1
def uAddrMode (d : Desc) : Nat := bits (dword d 2) 18 18
def uDir (d : Desc) : Nat := bits (dword d 2) 19 19
def uBuffer (d : Desc) : Nat := bits (dword d 2) 23 20

def sBit (d : Desc) : Nat := bits (dword d 2) 2 0
def sByte (d : Desc) : Nat := bits (dword d 2) 8 3
def sInvert (d : Desc) : Bool := bitOf (dword d 2) 9

def bOutbound (d : Desc) : Bool := bitOf (dword d 2) 0
def bMbox (d : Desc) : Nat := bits (dword d 2) 1 1
def bRoute (d : Desc) : Nat := bits (dword d 2) 15 8
def bLane (d : Desc) : Nat := bits (dword d 2) 23 16

/-- The fields an op word holds (R76). -/
structure OpWord where
  op : Nat
  d : Nat
  a : Nat
  b : Nat
  c : Nat
  aux : Nat
  deriving DecidableEq, Repr

/-- The fields of an op word (R76). -/
def opWord (w : BitVec 32) : OpWord :=
  let n := w.toNat
  ⟨bits n 31 24, bits n 23 19, bits n 18 14, bits n 13 9, bits n 8 4, bits n 3 0⟩

-- ------------------------------------------------------------------ the field-map checks (R64)

/-- Inputs a kind has (R60). A mailbox unit's in0 belongs to the outbound unit only. -/
def kindIns (d : Desc) : List Nat :=
  match dKind d with
  | 1 | 3 | 4 | 5 | 6 | 10 => [0]
  | 2 | 11 => [0, 1, 2, 3]
  | 7 | 9 => [0, 1]
  | 8 => [0, 1, 2]
  | 12 => if bOutbound d then [0] else []
  | _ => []

/-- Outputs a kind has (R60). A page gather unit's out1 names the node and directory key of R194 (log entry 12). -/
def kindOuts (d : Desc) : List Nat :=
  match dKind d with
  | 1 | 3 | 4 | 5 | 8 | 9 | 11 => [0]
  | 2 | 6 | 7 | 10 => [0, 1]
  | 12 => if bOutbound d then [] else [0]
  | _ => []

/-- The reserved bits of word n for a kind (R61, R11), as a list of [hi:lo] fields. -/
def reservedFields (kind n : Nat) : List (Nat × Nat) :=
  match n with
  | 0 => [(15, 11)]
  | 1 => [(63, 48), (31, 24)]
  | 2 => match kind with
    | 1 => [(63, 56), (31, 22)]
    | 2 => [(63, 56), (31, 28)]
    | 3 | 4 | 5 | 6 => [(63, 24), (17, 12)]
    | 7 | 8 | 9 => [(63, 10)]
    | 12 => [(63, 24), (7, 2)]
    | _ => [(63, 0)]
  | 3 => match kind with
    | 1 => [(63, 48)]
    | 2 => [(63, 32)]
    | _ => [(63, 0)]
  | 4 => match kind with
    | 1 => [(63, 16)]
    | _ => [(63, 0)]
  | _ => [(63, 0)]

/-- The first reserved field that is not 0: word × 256 + its low bit (R87 detail). -/
def reservedBroken (d : Desc) : Option Nat :=
  (List.range 8).findSome? (fun n =>
    (reservedFields (dKind d) n).findSome? (fun f => if bits (dword d n) f.1 f.2 = 0 then none else some (n * 256 + f.2)))

/-- Reduction elements per handshake of a matrix mode (R65). -/
def modeElems : Nat → Nat
  | 0 => 64 | 1 => 128 | 2 => 128 | 3 => 256 | 4 => 32 | _ => 0

/-- A pairing that the table of R65 lists for a mode: activation and weight format. -/
def pairingOk (mode a w : Nat) : Bool :=
  let mx8 (f : Nat) : Bool := decide (3 ≤ f ∧ f ≤ 6)
  match mode with
  | 0 => (mx8 a && mx8 w) || (a == 8 && w == 8)
  | 1 => (mx8 a && w == 7) || (a == 8 && w == 9)
  | 2 => (a == 7 && w == 7) || (a == 9 && w == 9)
  | 3 => a == 8 && w == 10
  | 4 => (a == 1 || a == 2) && w == a
  | _ => false

/-- Bytes of one token row of activations (R67, R37). -/
def actBytes (d : Desc) : Nat := ceilDiv (mKlen d * fmtBits (mAfmt d)) 8

/-- Matrix words (R65, R68, R71, R72): the first rule a descriptor breaks, as word × 256 + bit. -/
def matrixBroken (d : Desc) : Option Nat :=
  let row := isRowScaled (mAfmt d)
  if !pairingOk (mMode d) (mAfmt d) (mWfmt d) then some 0x200
  else if row && !(mWscaled d && mAscaled d) then some 0x214
  else if mMode d = 4 ∧ (mWscaled d || mAscaled d) then some 0x214
  else if mMode d ≠ 4 ∧ !row ∧ mKlen d % 32 ≠ 0 then some 0x220
  else if mRound d = 3 then some 0x210
  else if mOutKind d = 1 ∧ !row then some 0x213
  else if mOutFmt d > 0xB ∨ (mOutKind d = 0 ∧ mOutFmt d > 4) then some 0x20C
  else if mAstride d < ceilDiv (actBytes d) 64 then some 0x400
  else none

/-- Vector words (R36, R48, R73, R78): the first rule a descriptor breaks. -/
def vectorBroken (d : Desc) : Option Nat :=
  if (List.range 4).any (fun i => decide (vInFmt d i > 0xB)) then some 0x300
  else if (List.range 2).any (fun o => decide (vOutFmt d o > 0xB)) then some 0x310
  else if (List.range 2).any (fun o => decide (vOutRound d o = 3)) then some 0x318
  else if vArith d > 1 then some 0x31E
  else if vConstCount d > 16 then some 0x230
  else if vConstCount d > 0 ∧ (vConstBase d < dBase d ∨ vConstBase d + vConstCount d > dLimit d + 1) then some 0x220
  else if vRegBase d + vRegCount d > 128 then some 0x210
  else none

/-- Memory words (R79, R80, R134): the first rule a descriptor breaks. -/
def memoryBroken (d : Desc) : Option Nat :=
  let k := dKind d
  if uRows d > 64 then some 0x205
  else if k ≠ 5 ∧ uBuffer d ≠ 0 then some 0x214
  else if k ≠ 5 ∧ uDir d ≠ 0 then some 0x213
  else if (k = 5 ∨ k = 6) ∧ uAddrMode d ≠ 0 then some 0x212
  else none

/-- The first field-map rule that a descriptor breaks, as word × 256 + bit (R64), or none. -/
def descBroken (d : Desc) : Option Nat :=
  let k := dKind d
  if k > 12 then some 0
  else match reservedBroken d with
    | some x => some x
    | none =>
      if (List.range 4).any (fun i => inBound d i && (!(kindIns d).contains i || decide (dIn d i > 47))) then some 0x100
      else if (List.range 2).any (fun o => outBound d o && (!(kindOuts d).contains o || decide (dOut d o > 0x3F))) then some 0x120
      else match k with
        | 1 => matrixBroken d
        | 2 => vectorBroken d
        | 3 | 4 | 5 | 6 => memoryBroken d
        | 10 | 11 => none
        | 12 => if bOutbound d ∧ bRoute d > 0x3F then some 0x208 else none
        | _ => none

-- ------------------------------------------------------------------ regions (R131, R134, R144, R145)

def rKind (r : Region) : Nat := bits r.g0.toNat 2 0
def rTwo (r : Region) : Bool := bitOf r.g0.toNat 5
def rTagged (r : Region) : Bool := bitOf r.g0.toNat 6
def rReleaseEn (r : Region) : Bool := bitOf r.g0.toNat 7
def rReleaseSlot (r : Region) : Nat := bits r.g0.toNat 11 8
def rBase (r : Region) : Nat := bits r.g0.toNat 31 16
def rLimit (r : Region) : Nat := bits r.g0.toNat 47 32
def rResident (r : Region) : Nat := bits r.g0.toNat 63 48
def rEntryRows (r : Region) : Nat := bits r.g1.toNat 5 0 + 1
def rConsume (r : Region) : Bool := bitOf r.g1.toNat 7
def rLane (r : Region) : Nat := bits r.g1.toNat 15 8
/-- Rows of a region. -/
def rRows (r : Region) : Nat := rLimit r + 1 - rBase r
/-- Positions a POSITION region holds (R132). -/
def rCap (r : Region) : Nat := rRows r / rEntryRows r
/-- A region whose rows' tags the panel honours (R128). -/
def rHonoured (r : Region) : Bool := (rKind r == 1 && rTagged r) || rKind r == 2
/-- A row lies in a region that is in use. -/
def rHas (r : Region) (row : Nat) : Bool := rKind r != 0 && decide (rBase r ≤ row) && decide (row ≤ rLimit r)

/-- The G2 word of a region, by its kind (R131). -/
def rG2 (r : Region) : Nat :=
  match rKind r with
  | 1 | 2 => r.head % 65536 * 65536 + r.tail % 65536
  | 3 => if r.live then 1 else 0
  | 4 => r.head % 2 ^ 32 * 2 ^ 32 + r.tail % 2 ^ 32
  | _ => 0

/-- The G3 word of a region. -/
def rG3 (r : Region) : Nat := if rKind r = 4 then r.commit % 2 ^ 32 else 0

/-- The region that four words spell (R131). -/
def regionOf (g0 g1 : BitVec 64) (g2 g3 : Nat) : Region :=
  let r : Region := { g0 := g0, g1 := g1 }
  match rKind r with
  | 1 | 2 => { r with head := bits g2 31 16, tail := bits g2 15 0 }
  | 3 => { r with live := bitOf g2 0 }
  | 4 => { r with head := bits g2 63 32, tail := bits g2 31 0, commit := bits g3 31 0 }
  | _ => r

/-- A resident region at W + 1 that carries on the one at W: same identity, rows and copies (R140). -/
def carries (a b : Region) : Bool :=
  rKind a == 3 && rKind b == 3 && rResident a == rResident b && rBase a == rBase b && rLimit a == rLimit b && rTwo a == rTwo b

/-- G0 and G1 meet the field map of R131: reserved fields and the fields of other kinds are 0, the tag bit fits. -/
def regionWordsOk (g0 g1 : BitVec 64) : Bool :=
  let r : Region := { g0 := g0, g1 := g1 }
  let k := rKind r
  decide (k ≤ 4) && decide (bits g0.toNat 15 12 = 0) && decide (bits g0.toNat 4 3 = 0) &&
  decide (bits g1.toNat 63 16 = 0) && decide (bits g1.toNat 6 6 = 0) &&
  (k == 3 || (decide (rResident r = 0) && !rTwo r)) &&
  ((k == 1 && rTagged r) || (decide (rReleaseSlot r = 0) && !rReleaseEn r)) &&
  (k == 4 || decide (bits g1.toNat 15 0 = 0)) &&
  (k != 2 || rTagged r) && ((k != 3 && k != 4) || !rTagged r)

/-- The token position whose low 16 bits a trigger gives, nearest commit_pos (R134). -/
def positionOf (commit low : Nat) : Nat :=
  let d := (low + 65536 - commit % 65536) % 65536
  if d < 32768 then (commit + d) % 2 ^ 32 else (commit + 2 ^ 32 - (65536 - d)) % 2 ^ 32

/-- What an access of a memory unit resolves to: the rows, a violation, or a wait (R133, R134, R136). -/
inductive Access where
  | rows (first : Nat) (q : Nat)
  /-- The row at fault, and the detail of the fault-log entry (R87). -/
  | violation (row : Nat) (detail : Nat)
  | wait
  deriving DecidableEq, Repr

/-- All of a run of rows lies within a unit's deckle (R133). -/
def inDeckle (d : Desc) (first n : Nat) : Bool := decide (dBase d ≤ first) && decide (first + n ≤ dLimit d + 1)

/-- All of a run of rows lies within a region (R133). -/
def inRegion (r : Region) (first n : Nat) : Bool := decide (rBase r ≤ first) && decide (first + n ≤ rLimit r + 1)

/-- The first row of a run, from `first` on, that is outside a unit's deckle or its region: the row at fault (R87). -/
def rowAtFault (d : Desc) (r : Region) (first : Nat) : Nat :=
  if inDeckle d first 1 && inRegion r first 1 then min (dLimit d) (rLimit r) + 1 else first

/-- Where a read or write firing of n rows addresses its region: first row and, for POSITION, the position
(R134, R144, R145). `off` is the trigger's low 16 bits. -/
def resolve (d : Desc) (r : Region) (write : Bool) (off n : Nat) : Access :=
  let at' (first q : Nat) : Access :=
    if inDeckle d first n && inRegion r first n then .rows first q else .violation (rowAtFault d r first) 0
  match rKind r with
  | 1 => if uAddrMode d = 1 then at' (rBase r + off) 0
         else at' (rBase r + (if write then r.head else r.tail)) 0
  | 2 => at' (rBase r + (if write then r.head else r.tail)) 0
  | 3 =>
    if rTwo r then
      let half := rRows r / 2
      if off + n > half then .violation (rBase r + max off half) 0
      else
        let second := if write then !r.live else r.live
        at' (rBase r + (if second then half else 0) + off) 0
    else at' (rBase r + off) 0
  | 4 =>
    let q := positionOf r.commit off
    let first := rBase r + (q % rCap r) * rEntryRows r
    if write then
      if !serLe 32 r.commit q then .violation first q
      else if serDist 32 r.tail q ≥ rCap r then
        if rConsume r then .wait
        else
          let tail' := (q + 2 ^ 32 + 1 - rCap r) % 2 ^ 32
          if serLe 32 tail' r.commit then at' first q else .violation first q
      else at' first q
    -- Only the drain reads a consume region (R145): a unit's read of one is not accepted.
    else if rConsume r then .violation first q
    else if serLe 32 r.tail q && newer 32 q r.head then at' first q
    else .violation first q
  | _ => .violation (rBase r) 0

/-- The pointer moved by n rows, back to 0 at the region's end (R134). -/
def advance (r : Region) (p n : Nat) : Nat := if p + n ≥ rRows r then 0 else p + n

/-- A region after a write of n rows at position q (R134, R144): the region and the entries its tail passed. -/
def afterWrite (d : Desc) (r : Region) (n q : Nat) : Region × Nat :=
  match rKind r with
  | 1 => if uAddrMode d = 1 then (r, 0) else ({ r with head := advance r r.head n }, 0)
  | 2 => ({ r with head := advance r r.head n }, 0)
  | 4 =>
    let head' := if newer 32 r.head (q + 1) then (q + 1) % 2 ^ 32 else r.head
    if serDist 32 r.tail q ≥ rCap r ∧ !rConsume r then
      let tail' := (q + 2 ^ 32 + 1 - rCap r) % 2 ^ 32
      ({ r with head := head', tail := tail' }, serDist 32 r.tail tail')
    else ({ r with head := head' }, 0)
  | _ => (r, 0)

/-- A region after a read of n rows (R134). -/
def afterRead (d : Desc) (r : Region) (n : Nat) : Region :=
  match rKind r with
  | 1 => if uAddrMode d = 1 then r else { r with tail := advance r r.tail n }
  | 2 => { r with tail := advance r r.tail n }
  | _ => r

/-- Every row of a run whose tag the region honours has the wanted tag (R129, R136). -/
def State.rowsReady (s : State) (tile : Nat) (r : Region) (first n : Nat) (full : Bool) : Bool :=
  !rHonoured r || (List.range n).all (fun i => s.tagAt tile (first + i) == full)

/-- The region that a row lies in, if one. -/
def Tile.regionOfRow (t : Tile) (row : Nat) : Option (Nat × Region) :=
  (t.regions.find? (fun p => rHas p.2 row)).map (fun p => (p.1, p.2))

/-- A POSITION region holds a position at the entry of a row: one from tail_pos to head_pos (R145). -/
def rHolds (r : Region) (row : Nat) : Bool :=
  let back := (r.head % rCap r + rCap r - 1 - (row - rBase r) / rEntryRows r % rCap r) % rCap r
  decide (back < serDist 32 r.tail r.head)

/-- A row that a matrix unit or LDK reads by the deckle alone is ready: FULL where its region honours tags, within the
pointer limits in a POSITION region (R133, R136). -/
def State.rowReady (s : State) (k row : Nat) : Bool :=
  match (s.tile k).regionOfRow row with
  | some (_, r) => (!rHonoured r || s.tagAt k row) && (rKind r != 4 || rHolds r row)
  | none => true

/-- The row that a read of a row by the deckle alone sees: in a resident region with two copies, the live copy's (R133,
R134). -/
def Tile.liveRow (t : Tile) (row : Nat) : Nat :=
  match t.regionOfRow row with
  | some (_, r) => if rKind r = 3 ∧ rTwo r ∧ r.live ∧ row < rBase r + rRows r / 2 then row + rRows r / 2 else row
  | none => row

/-- A row that the rules of its region's kind do not let a matrix unit or LDK name: one of a resident region's second
half (R133, R134). -/
def Tile.rowBarred (t : Tile) (row : Nat) : Bool :=
  match t.regionOfRow row with
  | some (_, r) => rKind r == 3 && rTwo r && decide (rBase r + rRows r / 2 ≤ row)
  | none => false

/-- The byte address, in the tile, of a byte that a matrix unit or LDK names. -/
def Tile.liveAddr (t : Tile) (a : Nat) : Nat := 64 * t.liveRow (a / 64) + a % 64

/-- A byte of the scratchpad as a matrix unit or LDK reads it. -/
def State.unitByte (s : State) (k a : Nat) : Nat := (memByte s.mem (gaddr k ((s.tile k).liveAddr a))).toNat

/-- Bytes of the scratchpad as a matrix unit or LDK reads them. -/
def State.unitBytes (s : State) (k a n : Nat) : List Nat := (List.range n).map (fun i => s.unitByte k (a + i))

/-- A row of the scratchpad as a matrix unit or LDK reads it. -/
def State.unitRow (s : State) (k row : Nat) : Row := s.rowAt k (64 * (s.tile k).liveRow row)

end Sys2Proof.Machine
end

