-- ==== Sys2Proof/Machine/Tiles.lean ====
section
/-!
DEFINITION. What a tile's units share (chapters 03 and 04): queues, visibility and the firing rule (R97 to R104), emit
buffers (R101), issue credits (R346), violations and error tokens (R85, R86), and dead tokens (R114).
-/
namespace Sys2Proof.Machine

/-- Fault causes of R88. -/
def causeDeckle : Nat := 1
def causeWatermark : Nat := 2
def causeMisrouted : Nat := 3
def causeT5 : Nat := 4
def causeRowScale : Nat := 5
def causeMalformed : Nat := 6
def causeDescriptor : Nat := 7
def causeBuffer : Nat := 8
def causeFirmwareOnly : Nat := 9
def causeErrorToken : Nat := 10

/-- A key of the firing rule (R100): lane, life, tag. -/
abbrev Key := Nat × Nat × Nat

/-- The key of a token. -/
def keyOf (t : Token) : Key := (t.lane.val, t.life.val, t.tag.toNat)

/-- The unit and input bound to a queue under a watermark, by a current or an installed shadow descriptor (R96, R98). -/
def Tile.boundAt (t : Tile) (q : Nat) (w : Fin 4) : Option (Nat × Nat) :=
  let input (i : Nat) (d : Desc) : Option (Nat × Nat) := ((boundIns d).find? (fun n => dIn d n == q)).map (fun n => (i, n))
  (List.range 16).findSome? (fun i =>
    let x := t.slot i
    if x.wm = w then input i x.cur
    else if x.wm + 1 = w then x.shadow.bind (input i) else none)

/-- The token of a watermark that a queue shows: its oldest of that watermark (R99). -/
def Queue.visible (q : Queue) (w : Fin 4) : Option TokRec :=
  q.toks.find? (fun r => r.tok.wm == w && r.tok.kind != 3)

/-- The end-of-configuration token of a queue, once every older-watermark token ahead of it has been consumed (R110). -/
def Queue.visibleEoc (q : Queue) : Option TokRec :=
  match q.toks.find? (fun r => r.tok.kind == 3) with
  | some e => if q.toks.any (fun r => r.tok.wm == q.wq && decide (r.order < e.order)) then none else some e
  | none => none

/-- The tokens that an input of a slot offers to the firing rule, earliest first (R100). -/
def Tile.offers (t : Tile) (i n : Nat) : List TokRec :=
  let x := t.slot i
  let stored := (t.store.filter (fun e => e.slot == i && e.input == n)).map (·.item)
  let vis := match (t.queue (dIn x.cur n)).visible x.wm with
    | some r => [r]
    | none => []
  sortBy (·.order) (stored ++ vis)

/-- The earliest token with a key among an input's offers. -/
def Tile.offerAt (t : Tile) (i n : Nat) (k : Key) : Option TokRec := (t.offers i n).find? (fun r => keyOf r.tok == k)

/-- A complete set for a key over given inputs: the token of each input, in input order. -/
def Tile.setFor (t : Tile) (i : Nat) (ins : List Nat) (k : Key) : Option (List (Nat × TokRec)) :=
  ins.mapM (fun n => (t.offerAt i n k).map (fun r => (n, r)))

/-- The arrival order of the last token of a set. -/
def lastOrder (l : List (Nat × TokRec)) : Nat := maxN (l.map (fun p => p.2.order))

/-- Of several complete sets, the one whose last needed token arrived first (R103). -/
def firstReady (l : List (List (Nat × TokRec))) : Option (List (Nat × TokRec)) :=
  l.foldl (fun a x => match a with
    | none => some x
    | some y => if lastOrder x < lastOrder y then some x else some y) none

/-- The inputs of a slot's firing set, but for a merge (R100, R104): a switch and a gate need both of theirs. -/
def firingSet (d : Desc) : List Nat := if dKind d = 7 ∨ dKind d = 9 then [0, 1] else boundIns d

/-- The decision of a steering unit on a control token (R81). -/
def decision (d : Desc) (c : Token) : Bool := bitOf (rowByte c.payload (sByte d)) (sBit d) != sInvert d

/-- The complete sets of a slot, by its kind's firing set (R100, R104). For a merge the earliest control token of a key
chooses the data input, an error token by the same bit (R81, R86, R105). -/
def Tile.readySets (t : Tile) (i : Nat) : List (List (Nat × TokRec)) :=
  let d := (t.slot i).cur
  if dKind d = 8 then
    (t.offers i 2).filterMap (fun c =>
      let k := keyOf c.tok
      let n := if decision d c.tok then 1 else 0
      if t.offerAt i 2 k = some c then (t.offerAt i n k).map (fun r => [(2, c), (n, r)]) else none)
  else
    match firingSet d with
    | [] => []
    | n :: rest => (t.offers i n).filterMap (fun r => t.setFor i (n :: rest) (keyOf r.tok))

/-- The set a slot fires on next (R100, R103). -/
def Tile.ready (t : Tile) (i : Nat) : Option (List (Nat × TokRec)) := firstReady (t.readySets i)

/-- The queue without a token, by its arrival order. -/
def Queue.drop (q : Queue) (order : Nat) : Queue :=
  { q with toks := dropFirst (fun r => r.order == order) q.toks, stuck := if q.stuck = some order then none else q.stuck }

/-- A queue is blocked behind its visible token, which waits for the matching store (R102). -/
def Queue.blocked (q : Queue) (w : Fin 4) : Bool := ((q.visible w).map (fun r => q.stuck == some r.order)).getD false

/-- The tile without one token of an input of a slot, wherever it waits. -/
def Tile.takeTok (t : Tile) (i n : Nat) (r : TokRec) : Tile :=
  if t.store.any (fun e => e.slot == i && e.input == n && e.item.order == r.order) then
    { t with store := dropFirst (fun e => e.slot == i && e.input == n && e.item.order == r.order) t.store }
  else
    let q := dIn (t.slot i).cur n
    t.setQueue q ((t.queue q).drop r.order)

/-- The tile without the tokens of a set. -/
def Tile.consume (t : Tile) (i : Nat) (l : List (Nat × TokRec)) : Tile := l.foldl (fun t p => t.takeTok i p.1 p.2) t

/-- A slot holds a token of its current watermark, in a queue or in the store (R106). -/
def Tile.holdsToken (t : Tile) (i : Nat) : Bool :=
  let x := t.slot i
  t.store.any (fun e => e.slot == i) ||
  (boundIns x.cur).any (fun n => ((t.queue (dIn x.cur n)).visible x.wm).isSome) ||
  x.held.isSome

/-- The slots whose wait has begun or ended, brought up to date (R106). -/
def Tile.refresh (t : Tile) (clk : Nat) : Tile :=
  (List.range 16).foldl (fun t i =>
    let x := t.slot i
    if dKind x.cur = 0 then t
    else if t.holdsToken i then (if x.waitSince.isSome then t else t.setSlot i { x with waitSince := some clk, waitHeld := 0 })
    else if x.waitSince.isSome then t.setSlot i { x with waitSince := none } else t) t

/-- The op words of a unit's program (R76). -/
def Tile.program (t : Tile) (d : Desc) : List OpWord :=
  (List.range (vProgLen d)).map (fun i => opWord (mget 0 t.prog ((vProgBase d + i) % 1024)))

/-- Tokens that a program emits on an output. -/
def emits (l : List OpWord) (o : Nat) : Nat := (l.filter (fun w => w.op == 4 && w.b % 2 == o)).length

/-- The emit buffer of an output. -/
def Slot.emit (x : Slot) (o : Nat) : List TokRec := if o = 0 then x.emit0 else x.emit1

/-- An output has room for n tokens, or is not bound (R101). The completion of a memory firing that waits for the
fabric keeps its entry (R122). -/
def Slot.room (x : Slot) (o n : Nat) : Bool :=
  !outBound x.cur o || decide ((x.emit o).length + (if x.busy.isSome then 1 else 0) + n ≤ 8)

/-- A token put into an output's emit buffer; an unbound output discards it. -/
def Slot.push (x : Slot) (o : Nat) (r : TokRec) : Slot :=
  if !outBound x.cur o then x
  else if o = 0 then { x with emit0 := x.emit0 ++ [r] } else { x with emit1 := x.emit1 ++ [r] }

/-- An output token of a slot: the watermark of the slot, the key of the tokens it fired on (R93). -/
def Slot.out (x : Slot) (node : Nat) (k : Token) (kind : Fin 8) (payload : Row) : TokRec :=
  { tok := { payload := payload, tag := k.tag, lane := k.lane, wm := x.wm, kind := kind, life := k.life }, producer := node }

/-- Whether the tile's issue credits, brought up to date, and the remaining fraction (R346). -/
def Tile.refill (t : Tile) (clk : Nat) : Tile :=
  if t.level ≥ 63 then { t with creditM := 256, creditV := 256, creditAt := clk, creditRem := 0 }
  else
    let g := (t.level + 1) * 25 * (clk - t.creditAt) + t.creditRem
    { t with creditM := min 256 (t.creditM + g / 1000), creditV := min 256 (t.creditV + g / 1000),
             creditAt := clk, creditRem := g % 1000 }

/-- n credits of the matrix bucket spent; a run of handshakes longer than the bucket drains it (log entry 13). -/
def Tile.spendM (t : Tile) (n : Nat) : Tile := if t.level ≥ 63 then t else { t with creditM := t.creditM - n }

/-- n credits of the issue bucket spent. -/
def Tile.spendV (t : Tile) (n : Nat) : Tile := if t.level ≥ 63 then t else { t with creditV := t.creditV - n }

/-- A firing has happened: the slot's count, its wait and any stall episode end (R106, R107). -/
def Tile.fired (t : Tile) (i clk : Nat) : Tile :=
  let x := t.slot i
  let t1 := t.setSlot i { x with firings := x.firings + 1, waitSince := none, stall := none, waited := none }
  ({ t1 with idleSince := clk }).refresh clk

/-- The payload of an error token (R87). -/
def errPayload (e : FaultEntry) : Row := rowOf (entryBytes e)

/-- Error tokens with a key on each bound output of a slot (R85, R86). -/
def Slot.pushErrors (x : Slot) (node : Nat) (k : Token) (e : FaultEntry) : Slot :=
  [0, 1].foldl (fun x o => x.push o (x.out node k 4 (errPayload e))) x

/-- A fault-log entry about a token of a slot (R87). -/
def Tile.entryFor (t : Tile) (i : Nat) (queue : Nat) (k : Token) (producer cause address detail : Nat) : FaultEntry :=
  let x := t.slot i
  { address := address, cause := cause, slot := i, queue := queue, tag := k.tag.toNat, lane := k.lane.val,
    wmCur := x.wm.val, wmSeen := k.wm.val, producer := producer, logicalUnit := dUnit x.cur, detail := detail }

/-- What a violation sends and writes (R85): an error token to the token's producer, error tokens on each bound output,
and the tile's fault-log entry with its fault flag. -/
def State.violateTok (s : State) (k i q : Nat) (r : TokRec) (cause address detail : Nat) : State :=
  let t := s.tile k
  let e := { t.entryFor i q r.tok r.producer cause address detail with time := s.logTime }
  let s1 := s.setTile k (t.setSlot i ((t.slot i).pushErrors k r.tok e))
  (s1.sendError k r.producer 0 0xF e []).logTile k e

/-- A violation of a unit that fires on a set (R85), with the violating token and its input: the tokens are consumed and
the operation is not performed. -/
def State.violateAt (s : State) (k i : Nat) (l : List (Nat × TokRec)) (n : Nat) (r : TokRec) (cause address detail : Nat) :
    State :=
  let t := s.tile k
  let s1 := (s.setTile k ((t.consume i l).fired i s.clk)).bump (oDataflowTileFirings k)
  s1.violateTok k i (dIn (t.slot i).cur n) r cause address detail

/-- A violation whose token is the first of the set. -/
def State.violate (s : State) (k i : Nat) (l : List (Nat × TokRec)) (cause address detail : Nat) : State :=
  match l with
  | [] => s
  | (n, r) :: _ => s.violateAt k i l n r cause address detail

/-- The error token of a set, if one. -/
def errorIn (l : List (Nat × TokRec)) : Option TokRec := (l.find? (fun p => p.2.tok.kind == 4)).map (·.2)

/-- A firing on an error token (R86): the matching tokens are consumed and error tokens with that key go out. -/
def State.errorFire (s : State) (k i : Nat) (l : List (Nat × TokRec)) (err : TokRec) : State :=
  let t := s.tile k
  let t1 := t.consume i l
  let x := t1.slot i
  let x1 := [0, 1].foldl (fun x o => x.push o (x.out k err.tok 4 err.tok.payload)) x
  (s.setTile k ((t1.setSlot i x1).fired i s.clk)).bump (oDataflowTileFirings k)

/-- Whether a slot may start a firing at all: the tile runs, is awake, and the unit is not mid-firing (R122, R352). -/
def Tile.mayFire (t : Tile) (i : Nat) : Bool :=
  t.run == .run && !t.idle && (t.slot i).busy.isNone && (t.slot i).held.isNone && (t.slot i).reading.isNone

/-- Every bound output has one free entry (R101). -/
def Tile.outRoom (t : Tile) (i : Nat) : Bool := (t.slot i).room 0 1 && (t.slot i).room 1 1

/-- The outputs have space for a firing of a slot (R101): a vector unit's for every token that its program emits (R75),
any other's for one. -/
def Tile.space (t : Tile) (i : Nat) : Bool :=
  let x := t.slot i
  if dKind x.cur = 2 then
    let p := t.program x.cur
    x.room 0 (emits p 0) && x.room 1 (emits p 1) && t.outRoom i
  else t.outRoom i

/-- A firing of a slot has its issue credit (R101, R346): a matrix unit's from the matrix bucket. -/
def Tile.hasCredit (t : Tile) (i : Nat) : Bool :=
  if dKind (t.slot i).cur = 1 then decide (t.creditM ≥ 1) else decide (t.creditV ≥ 1)

/-- One credit of a slot's bucket spent. -/
def Tile.spend (t : Tile) (i : Nat) : Tile := if dKind (t.slot i).cur = 1 then t.spendM 1 else t.spendV 1

/-- A tile with the credits that a firing on another reading of it has brought up to date, one of them spent. -/
def Tile.charge (t u : Tile) : Tile :=
  { t with creditM := u.creditM, creditV := (u.spendV 1).creditV, creditAt := u.creditAt, creditRem := u.creditRem }

/-- The common start of a memory, steering or mailbox firing of the given kinds (R100, R101, R346): the tile with its
credits brought up to date, and the set it fires on. -/
def State.startFire (s : State) (k i : Nat) (kinds : List Nat) : Option (Tile × List (Nat × TokRec)) :=
  let t := (s.tile k).refill s.clk
  if kinds.contains (dKind (t.slot i).cur) && t.mayFire i && t.outRoom i && decide (t.creditV ≥ 1) then
    (t.ready i).map (fun l => (t, l))
  else none

-- ------------------------------------------------------------------ arrival (R97, R98)

/-- The rows of a scratchpad read firing enter its emit buffer as the entries free (R79, R101). -/
def Slot.pump (x : Slot) : Slot :=
  match x.reading with
  | none => x
  | some b =>
    let n := if outBound x.cur 0 then 8 - x.emit0.length else b.toks.length
    { (b.toks.take n).foldl (fun x r => x.push 0 r) x with reading := some { b with toks := b.toks.drop n } }

/-- A token that stands in an emit buffer of its tile behind another: it does not leave before it (R96). -/
def Tile.behind (t : Tile) (tok : Token) : Bool :=
  let inside (l : List TokRec) : Bool := l.any (fun r => r.tok == tok)
  let first (l : List TokRec) : Bool := ((l.head?).map (fun r => r.tok == tok)).getD false
  (List.range 16).any (fun i => inside (t.slot i).emit0 || inside (t.slot i).emit1) &&
  !(List.range 16).any (fun i => first (t.slot i).emit0 || first (t.slot i).emit1)

/-- The token's copy in its producer's emit buffer leaves it: an arrival frees the buffer entry (log entry 14). -/
def Tile.release (t : Tile) (tok : Token) : Tile :=
  let first (l : List TokRec) : Bool := ((l.head?).map (fun r => r.tok == tok)).getD false
  match (List.range 16).findSome? (fun i =>
      let x := t.slot i
      if first x.emit0 then some (i, 0) else if first x.emit1 then some (i, 1) else none) with
  | some (i, 0) => t.setSlot i { t.slot i with emit0 := (t.slot i).emit0.tail }
  | some (i, _) => t.setSlot i { t.slot i with emit1 := (t.slot i).emit1.tail }
  | none => t

/-- Whether a read by a slot empties rows of a region: the release slot of a tagged FLAT, or a RING's reader (R129). -/
def releases (r : Region) (i : Nat) : Bool :=
  (rKind r == 1 && rTagged r && rReleaseEn r && rReleaseSlot r == i) || rKind r == 2

/-- Rows emptied by the release slot's read (R135). -/
def State.emptyRows (s : State) (k : Nat) (r : Region) (i first n : Nat) : State :=
  if rHonoured r && releases r i then s.setTags k first false n else s

/-- A read firing of a slot goes on: rows enter the emit buffer, and when the last has, the release slot's rows are
emptied (R135). -/
def State.pumpRead (s : State) (k i : Nat) : State :=
  let t := s.tile k
  let x := (t.slot i).pump
  match x.reading with
  | none => s
  | some b =>
    if b.toks = [] then (s.setTile k (t.setSlot i { x with reading := none })).emptyRows k (t.region b.region) i b.first b.rows
    else s.setTile k (t.setSlot i x)

/-- Every read firing of a tile goes on as its emit buffers allow. -/
def State.pumpReads (s : State) (k : Nat) : State := (List.range 16).foldl (fun s i => s.pumpRead k i) s

/-- The state after a token has left its producing tile. -/
def State.releaseAt (s : State) (src : Nat) (tok : Token) : State :=
  if isTile src then (s.setTile src ((s.tile src).release tok)).pumpReads src else s

/-- A dead token discarded on a tile (R97, R114). -/
def State.countDead (s : State) (k n : Nat) : State :=
  (s.bumpN (oDataflowTileDeadDropped k) n).bumpN oDataflowPanelDeadDropped n

/-- The slot whose current descriptor binds a queue under the queue's watermark. -/
def Tile.unitAt (t : Tile) (q : Nat) : Option Nat :=
  match t.boundAt q (t.queue q).wq with
  | some (i, _) => if (t.slot i).wm = (t.queue q).wq then some i else none
  | none => none

/-- A violation on arrival (R85, R98): the token is not queued, its producer gets an error token, error tokens go out on
the bound unit's outputs, the tile logs. -/
def State.arrivalViolation (s : State) (k q : Nat) (tok : Token) (src cause : Nat) : State :=
  let t := s.tile k
  let wq := (t.queue q).wq
  let e : FaultEntry :=
    { address := 0, cause := cause, slot := (t.unitAt q).getD 0xF,
      queue := q, tag := tok.tag.toNat, lane := tok.lane.val, wmCur := wq.val, wmSeen := tok.wm.val, producer := src,
      logicalUnit := ((t.unitAt q).map (fun i => dUnit (t.slot i).cur)).getD 0, time := s.logTime }
  let s1 := match t.unitAt q with
    | some i => s.setTile k (t.setSlot i ((t.slot i).pushErrors k tok e))
    | none => s
  (s1.sendError k src 0 0xF e [tokWord tok]).logTile k e

/-- A token put at the end of a queue (R97). -/
def State.enqueue (s : State) (k q : Nat) (tok : Token) (src : Nat) : State :=
  let t := s.tile k
  let x := t.queue q
  let t1 := { t.setQueue q { x with toks := x.toks ++ [{ tok := tok, order := t.nextOrder, producer := src }] } with
    nextOrder := t.nextOrder + 1 }
  s.setTile k (({ t1 with idleSince := s.clk }).refresh s.clk)

/-- What an arriving token meets (R97, R98, R110, R122, R352). -/
inductive Arrival where
  | wait
  | dead
  | bad (cause : Nat)
  | accept
  deriving DecidableEq, Repr

/-- The treatment of a token that arrives at a queue. An end-of-configuration token takes a queue entry, but none of the
four of next-watermark tokens (log entry 102). A violation waits for room for its error tokens (R85, R101). -/
def Tile.arrival (t : Tile) (q : Nat) (tok : Token) : Arrival :=
  let x := t.queue q
  let ahead : Fin 4 := tok.wm - x.wq
  let bad (cause : Nat) : Arrival := match t.unitAt q with
    | some i => if t.outRoom i then .bad cause else .wait
    | none => .bad cause
  if t.run = .scanIn ∨ t.idle then .wait
  else if tok.kind.val > 4 then bad causeMisrouted
  else if tok.kind = 3 then
    if tok.payload.toNat ≥ 2 ^ 64 then bad causeMalformed
    else if ahead = 1 then
      if x.toks.any (fun r => r.tok.kind == 3) then bad causeWatermark
      else if x.toks.length < 8 then .accept else .wait
    else bad causeWatermark
  else if !t.alive tok.lane.val tok.life then .dead
  else if ahead = 0 then
    match t.boundAt q x.wq with
    | none => bad causeMisrouted
    | some _ => if x.toks.length < 8 then .accept else .wait
  else if ahead = 1 then
    if (x.toks.filter (fun r => r.tok.wm == tok.wm && r.tok.kind != 3)).length < 4 ∧ x.toks.length < 8 then .accept else .wait
  else bad causeWatermark

/-- Whether an arriving token leaves the fabric now. -/
def Arrival.taken : Arrival → Bool
  | .wait => false
  | _ => true

/-- A token waits for a tile in deep idle and raises a wake request for it (R352). -/
def State.wakeFor (s : State) (k : Nat) : State :=
  if s.wakeWaiting.contains k then s else { s with wakeWaiting := s.wakeWaiting ++ [k] }

/-- A data, control, error or end-of-configuration token arrives at a queue (R97, R98), after the tokens that its
producer's output emitted before it (R96). -/
def State.arrive (s : State) (k q : Nat) (tok : Token) (src : Nat) : State :=
  if isTile src && (s.tile src).behind tok then s
  else match (s.tile k).arrival q tok with
  | .wait => if (s.tile k).idle then s.wakeFor k else s
  | .dead => (s.releaseAt src tok).countDead k 1
  | .bad cause => (s.releaseAt src tok).arrivalViolation k q tok src cause
  | .accept => (s.releaseAt src tok).enqueue k q tok src

-- ------------------------------------------------------------------ dead tokens (R114, R115)

/-- A token is dead on a tile; configuration and end-of-configuration tokens have no life (R92, R114). -/
def Tile.isDead (t : Tile) (r : TokRec) : Bool :=
  r.tok.kind != 2 && r.tok.kind != 3 && !t.alive r.tok.lane.val r.tok.life

/-- How many dead tokens a tile holds of the lanes that a test picks. -/
def Tile.deadOf (t : Tile) (pick : Nat → Bool) : Nat :=
  let dead (r : TokRec) : Bool := t.isDead r && pick r.tok.lane.val
  sumN (t.queues.map (fun p => (p.2.toks.filter dead).length)) + (t.store.filter (fun e => dead e.item)).length +
  sumN (t.slots.map (fun p => (p.2.emit0.filter dead).length + (p.2.emit1.filter dead).length +
    (if (p.2.held.map dead).getD false then 1 else 0) +
    (match p.2.reading with | some b => (b.toks.filter dead).length | none => 0)))

/-- How many dead tokens a tile holds. -/
def Tile.deadCount (t : Tile) : Nat := t.deadOf (fun _ => true)

/-- The tile with every dead token discarded; a matrix firing on a dead key is abandoned (R114). -/
def Tile.dropDead (t : Tile) : Tile :=
  let live (r : TokRec) : Bool := !t.isDead r
  let qs := t.queues.foldl (fun m p => mset {} m p.1 { p.2 with toks := p.2.toks.filter live }) t.queues
  let ss := t.slots.foldl (fun m p => mset {} m p.1
    { p.2 with emit0 := p.2.emit0.filter live, emit1 := p.2.emit1.filter live, held := p.2.held.filter live,
               reading := p.2.reading.map (fun b => { b with toks := b.toks.filter live }),
               mat := p.2.mat.filter (fun m => live m.group) }) t.slots
  { t with queues := qs, slots := ss, store := t.store.filter (fun e => live e.item) }

/-- A tile discards its dead tokens and counts them (R114). -/
def State.purgeDead (s : State) (k : Nat) : State :=
  let t := s.tile k
  ((s.setTile k (t.dropDead.refresh s.clk)).countDead k t.deadCount).pumpReads k

end Sys2Proof.Machine
end

