-- ==== Sys2Proof/Machine/Dataflow.lean ====
section
/-!
DEFINITION. Spatial dataflow (chapter 04) and the steering and mailbox units (R81, R83): arrivals, the matching store,
steering firings, the stall detector, overlapped reconfiguration, and life fences at a tile.
-/
namespace Sys2Proof.Machine

-- ------------------------------------------------------------------ the sequencer's turn (R84, R87)

/-- A fault notice: a fault-log entry in eight words (R177). -/
def noticeMsg (hub node txn : Nat) (e : FaultEntry) : Emit := ctlMsg hub node 9 txn ((List.range 8).map (fun i => leAt (entryBytes e) (4 * i) 4))

/-- An undrained fault-log entry goes to the acting hub as a fault notice and stays with its sender until answered
(R87, R178). -/
def State.sendNotice (s : State) (node : Nat) (e : FaultEntry) : State :=
  let s1 := { s.bumpTxn with noticesOut := mins s.noticesOut node (mget [] s.noticesOut node ++ [(e, 0, s.nextTxn)]) }
  s1.send (noticeMsg (hubNode s.actingHub) node s.nextTxn e)

/-- The tile's waits after a time in HOLD or scan: that time does not count in them (R106), and what waits now is timed. -/
def Tile.resumeWaits (t : Tile) (clk : Nat) : Tile :=
  ({ t with slots := t.slots.map (fun p => (p.1, { p.2 with
      waitHeld := p.2.waitHeld + (match p.2.waitSince with | some w => clk - max w t.heldAt | none => 0) })) } : Tile).refresh clk

/-- A tile released to RUN (R122). -/
def Tile.toRun (t : Tile) (clk : Nat) : Tile := { t.resumeWaits clk with run := .run, idleSince := clk }

/-- Scan served: a tile in SCAN_OUT or SCAN_IN goes back to the run state in which it was scanned (R84, R122; log entry
105). -/
def Tile.endScan (t : Tile) (clk : Nat) : Tile :=
  if t.run = .scanOut ∨ t.run = .scanIn then (if t.scanBack = .run then t.toRun clk else { t with run := .hold }) else t

/-- TILE_SEQUENCER_DISPATCH (R84): heartbeat, fault-log drain in order, scan served. -/
def execTileSequencerDispatch (dt tile : Nat) (s : State) : Host.Outcome State Fault Refusal :=
  let s := s.tick dt
  let t := s.tile tile
  let s1 := s.setTile tile (({ t with heartbeat := t.heartbeat + 1, drained := t.log.length } : Tile).endScan s.clk)
  onTile tile s ((t.log.drop t.drained).foldl (fun s e => s.sendNotice tile e) s1)

-- ------------------------------------------------------------------ arrivals (R97, R98, R108)

/-- The watermark a slot stands at: its tile's W, or W + 1 once it has switched (R109). -/
def Tile.slotWm (t : Tile) (i : Nat) : Fin 4 := (t.slot i).wm

/-- A shadow installed (R108): queues that no unit binds under W, but that it names, take W + 1 (R110). -/
def Tile.installShadow (t : Tile) (i : Nat) (d : Desc) : Tile :=
  let w := t.slotWm i
  let t1 := t.setSlot i { t.slot i with wm := w, shadow := some d }
  (boundIns d).foldl (fun t n =>
    let q := dIn d n
    if (t.boundAt q w).isNone then t.setQueue q { t.queue q with wq := w + 1 } else t) t1

/-- A configuration token is lifted out, checked and installed as the slot's shadow, or refused with cause 0x0007
(R64, R108, R109). A descriptor that breaks a field map leaves the slot empty for that watermark. -/
def State.takeConfig (s : State) (k q : Nat) (tok : Token) (src : Nat) : State :=
  let d := descOfRow tok.payload
  let i := dSlot d
  let t := s.tile k
  let fits := dWm d == t.wm + 1 && t.slotWm i == t.wm && (t.slot i).shadow.isNone
  let refuse (s : State) (detail : Nat) : State :=
    s.logTile k { (t.entryFor i q tok src causeDescriptor 0 detail) with wmSeen := (dWm d).val, logicalUnit := dUnit d }
  match descBroken d with
  | some b =>
    refuse (if fits then s.setTile k (t.installShadow i { d0 := BitVec.ofNat 64 ((dWm d).val * 256 + i * 16) }) else s) b
  | none => if fits then s.setTile k (t.installShadow i d) else refuse s 0

/-- Any token arrives at a queue of a tile: configuration goes to the sequencer, whatever watermark its tag word holds
(log entry 100), every other kind to the queue. A tile in scan-in or in deep idle takes none (R122, R352). -/
def State.arriveAny (s : State) (k q : Nat) (tok : Token) (src : Nat) : State :=
  if tok.kind = 2 then
    if (s.tile k).run = .scanIn then s
    else if (s.tile k).idle then s.wakeFor k
    else (s.releaseAt src tok).takeConfig k q tok src
  else s.arrive k q tok src

/-- CONFIG_TOKEN_ARRIVAL (R108). -/
def execConfigTokenArrival (dt tile : Nat) (q : Fin 48) (payload : Row) (wm : Fin 4) (src : Nat) (s : State) :
    Host.Outcome State Fault Refusal :=
  onTile tile (s.tick dt) ((s.tick dt).arriveAny tile q.val { payload := payload, kind := 2, wm := wm } src)

/-- TOKEN_ARRIVAL (R98). -/
def execTokenArrival (dt tile : Nat) (q : Fin 48) (tok : Token) (src : Nat) (s : State) : Host.Outcome State Fault Refusal :=
  onTile tile (s.tick dt) ((s.tick dt).arriveAny tile q.val tok src)

/-- MATCHING_STORE_MOVE (R102): a visible token of an input that cannot complete a firing moves to the store, or its
queue is blocked behind it and the wait counted once. Only a tile in RUN moves tokens (log entry 101). -/
def execMatchingStoreMove (dt tile : Nat) (slot : Fin 16) (input : Fin 4) (s : State) : Host.Outcome State Fault Refusal :=
  let s := s.tick dt
  let t := s.tile tile
  let x := t.slot slot.val
  let q := dIn x.cur input.val
  let inSome (r : TokRec) : Bool :=
    (t.readySets slot.val).any (fun l => l.any (fun p => p.1 == input.val && p.2.order == r.order))
  onTile tile s
    (if t.run ≠ .run ∨ !(boundIns x.cur).contains input.val ∨ (firingSet x.cur).length < 2 ∨ dKind x.cur = 10 then s
     else match (t.queue q).visible x.wm with
      | none => s
      | some r =>
        if inSome r then s
        else if t.store.length < 64 ∧ (t.store.filter (fun e => e.slot == slot.val)).length < 32 then
          s.setTile tile { t.setQueue q ((t.queue q).drop r.order) with store := t.store ++ [⟨r, slot.val, input.val⟩] }
        else if (t.queue q).stuck = some r.order then s
        else (s.setTile tile (t.setQueue q { t.queue q with stuck := some r.order })).bump (oDataflowTileStoreFullWaits tile))

-- ------------------------------------------------------------------ steering units (R81, R104)

/-- A steering firing: its set is consumed, the forwarded token goes to the outputs listed. An error token on any
input makes it the firing of R86. -/
def State.steer (s : State) (k i kind : Nat) (route : Desc → List (Nat × TokRec) → List (Nat × TokRec)) : State :=
  match s.startFire k i [kind] with
  | none => s
  | some (t, l) =>
    let s := s.setTile k (t.spendV 1)
    match errorIn l with
    | some e => s.errorFire k i l e
    | none =>
      let t := (s.tile k).consume i l
      let x := t.slot i
      let x1 := (route x.cur l).foldl (fun x p => x.push p.1 (x.out k p.2.tok p.2.tok.kind p.2.tok.payload)) x
      (s.setTile k ((t.setSlot i x1).fired i s.clk)).bump (oDataflowTileFirings k)

/-- The token of an input in a set. -/
def tokAt (l : List (Nat × TokRec)) (n : Nat) : Option TokRec := (l.find? (fun p => p.1 == n)).map (·.2)

/-- SWITCH_FIRE: in0's token to out0 when the decision is 0, to out1 when it is 1 (R81). -/
def execSwitchFire (dt tile : Nat) (slot : Fin 16) (s : State) : Host.Outcome State Fault Refusal :=
  onTile tile (s.tick dt) ((s.tick dt).steer tile slot.val 7 (fun d l => match tokAt l 0, tokAt l 1 with
    | some a, some c => [(if decision d c.tok then 1 else 0, a)]
    | _, _ => []))

/-- MERGE_FIRE: the data token that the control token chooses (R81). -/
def execMergeFire (dt tile : Nat) (slot : Fin 16) (s : State) : Host.Outcome State Fault Refusal :=
  onTile tile (s.tick dt) ((s.tick dt).steer tile slot.val 8 (fun _ l => (l.filter (fun p => p.1 != 2)).map (fun p => (0, p.2))))

/-- GATE_FIRE: in0's token when the decision is 1, nothing when it is 0 (R81). -/
def execGateFire (dt tile : Nat) (slot : Fin 16) (s : State) : Host.Outcome State Fault Refusal :=
  onTile tile (s.tick dt) ((s.tick dt).steer tile slot.val 9 (fun d l => match tokAt l 0, tokAt l 1 with
    | some a, some c => if decision d c.tok then [(0, a)] else []
    | _, _ => []))

/-- SPLIT_FIRE: in0's token to both outputs (R81). -/
def execSplitFire (dt tile : Nat) (slot : Fin 16) (s : State) : Host.Outcome State Fault Refusal :=
  onTile tile (s.tick dt) ((s.tick dt).steer tile slot.val 10 (fun _ l => match tokAt l 0 with
    | some a => [(0, a), (1, a)]
    | none => []))

/-- JOIN_FIRE: in0's token once every bound input holds its key (R81). -/
def execJoinFire (dt tile : Nat) (slot : Fin 16) (s : State) : Host.Outcome State Fault Refusal :=
  onTile tile (s.tick dt) ((s.tick dt).steer tile slot.val 11 (fun _ l => match tokAt l 0 with
    | some a => [(0, a)]
    | none => []))

/-- ERROR_TOKEN_FIRE (R86, R101, R103): a unit of any kind whose next set holds an error token. -/
def execErrorTokenFire (dt tile : Nat) (slot : Fin 16) (s : State) : Host.Outcome State Fault Refusal :=
  let s := s.tick dt
  let t := (s.tile tile).refill s.clk
  onTile tile s (if t.mayFire slot.val && (t.slot slot.val).mat.isNone && t.outRoom slot.val && t.hasCredit slot.val then
    match t.ready slot.val with
    | some l => match errorIn l with
      | some e => (s.setTile tile (t.spend slot.val)).errorFire tile slot.val l e
      | none => s
    | none => s
  else s)

-- ------------------------------------------------------------------ mailbox units (R83, R182)

/-- The key of a mailbox: node and number (R179). -/
def mboxKey (node n : Nat) : Nat := node * 256 + n

/-- INBOUND_MAILBOX_FIRE (R83): the full mailbox is read, which clears its flag, and its word goes out as a data token
with the descriptor's lane, the unit's tag counter and the lane's life. -/
def execInboundMailboxFire (dt tile : Nat) (slot : Fin 16) (s : State) : Host.Outcome State Fault Refusal :=
  let s := s.tick dt
  let t := (s.tile tile).refill s.clk
  let x := t.slot slot.val
  let key := mboxKey tile (bMbox x.cur)
  onTile tile s
    (if dKind x.cur = 12 ∧ !bOutbound x.cur ∧ t.mayFire slot.val ∧ t.outRoom slot.val ∧ t.creditV ≥ 1 then
      match mlook s.mboxes key with
      | none => s
      | some w =>
        let tok : Token := {
          payload := BitVec.ofNat 512 w.toNat, tag := BitVec.ofNat 16 x.tagCtr,
          lane := Fin.ofNat 256 (bLane x.cur), wm := x.wm, kind := 0, life := t.life (bLane x.cur) }
        let x1 := { x.push 0 { tok := tok, producer := tile } with tagCtr := (x.tagCtr + 1) % 65536 }
        ({ s.setTile tile ((((t.spendV 1).setSlot slot.val x1)).fired slot.val s.clk) with mboxes := mdel s.mboxes key }).bump
          (oDataflowTileFirings tile)
    else s)

/-- Where an outbound mailbox unit's write goes (R182): node and mailbox, or a hub doorbell bit, or nowhere allowed. -/
inductive MboxTarget where
  | mbox (node n : Nat)
  | bell (hub bit : Nat)
  | refused
  deriving DecidableEq, Repr

/-- The target that a route entry names for a mailbox unit (R182). -/
def mboxTarget (r : Route) (mbox : Nat) : MboxTarget :=
  match nodeKind r.node with
  | .tile k => if r.queue = 0 then .mbox k mbox else .refused
  | .hub h 0 =>
    if r.queue < 0x20 then .mbox (hubNode h) (2 * r.queue + mbox)
    else if r.queue < 0x28 then .bell h (16 + 2 * (r.queue - 0x20) + mbox)
    else .refused
  | _ => .refused

/-- An outbound mailbox unit's word leaves for its target (R83). DESIGN CHOICE: a doorbell write travels as an MBOX_WRITE to
mailbox number 0x80 + bit, for the spec gives it no operation of its own (R182, log entry 26). -/
def State.mboxSend (s : State) (k i : Nat) (r : TokRec) (tgt : MboxTarget) : State :=
  let w := rowBytes r.tok.payload 7 0
  match tgt with
  | .mbox node n => s.send (ctlMsg node k 1 i [n, w % 2 ^ 32, w / 2 ^ 32])
  | .bell h b => s.send (ctlMsg (hubNode h) k 1 i [0x80 + b, w % 2 ^ 32, w / 2 ^ 32])
  | .refused => s

/-- The target of a slot's outbound mailbox unit. -/
def Tile.mboxTargetOf (t : Tile) (i : Nat) : MboxTarget :=
  match t.route (bRoute (t.slot i).cur) with
  | some r => mboxTarget r (bMbox (t.slot i).cur)
  | none => .refused

/-- OUTBOUND_MAILBOX_FIRE (R83): the token's payload bytes [7:0] are written to the mailbox that the route handle names;
the token is kept until the write is answered. -/
def execOutboundMailboxFire (dt tile : Nat) (slot : Fin 16) (s : State) : Host.Outcome State Fault Refusal :=
  let s := s.tick dt
  onTile tile s (match s.startFire tile slot.val [12] with
    | none => s
    | some (t, l) =>
      match errorIn l, l with
      | some e, _ => (s.setTile tile (t.spendV 1)).errorFire tile slot.val l e
      | none, (_, r) :: _ =>
        match t.mboxTargetOf slot.val with
        | .refused => (s.setTile tile (t.spendV 1)).violate tile slot.val l causeFirmwareOnly 0 0
        | tgt =>
          let t1 := ((t.spendV 1).consume slot.val l)
          let t2 := (t1.fired slot.val s.clk)
          let t3 := t2.setSlot slot.val { t2.slot slot.val with held := some r, retryAt := 0 }
          ((s.setTile tile (t3.refresh s.clk)).bump (oDataflowTileFirings tile)).mboxSend tile slot.val r tgt
      | none, [] => s)

/-- MAILBOX_RETRY (R180): a unit answered BUSY writes again once the backoff has passed. -/
def execMailboxRetry (dt tile : Nat) (slot : Fin 16) (s : State) : Host.Outcome State Fault Refusal :=
  let s := s.tick dt
  let t := s.tile tile
  let x := t.slot slot.val
  onTile tile s (match x.held with
    | some r =>
      if x.retryAt ≠ 0 ∧ x.retryAt ≤ s.clk ∧ t.run = .run ∧ !t.idle then
        (s.setTile tile (t.setSlot slot.val { x with retryAt := 0 })).mboxSend tile slot.val r (t.mboxTargetOf slot.val)
      else s
    | none => s)

-- ------------------------------------------------------------------ the stall detector (R106, R107, R137)

/-- The oldest waiting token of a slot and its queue, 0x3F where it waits in the store. -/
def Tile.oldestWaiting (t : Tile) (i : Nat) : Option (TokRec × Nat) :=
  let x := t.slot i
  let qs := (boundIns x.cur).filterMap (fun n => ((t.queue (dIn x.cur n)).visible x.wm).map (fun r => (r, dIn x.cur n)))
  let ss := (t.store.filter (fun e => e.slot == i)).map (fun e => (e.item, 0x3F))
  let hs := match x.held with | some r => [(r, 0x3F)] | none => []
  (sortBy (fun p => p.1.order) (qs ++ ss ++ hs)).head?

/-- A scratchpad write unit's run of rows goes on with a token: one lane and life (log entry 16). -/
def Slot.going (x : Slot) (trig : TokRec) : Bool :=
  decide (x.wrRows > 0) && x.wrKey == (trig.tok.lane.val, trig.tok.life.val)

/-- Where a scratchpad write unit writes a token's row (R79, R134, R144): the row behind those of its run from the region's
pointer; under addr_mode 1 the row that the token's own offset names, or, in a POSITION region, the next row of the entry
of its own position. -/
def Slot.writeRow (x : Slot) (reg : Region) (trig : TokRec) : Access :=
  match resolve x.cur reg true (rowBytes trig.tok.payload 1 0) 1 with
  | .rows first q =>
    let part :=
      if !x.going trig then 0
      else if uAddrMode x.cur = 0 then x.wrRows
      else if rKind reg = 4 ∧ x.wrPos = q then x.wrPart
      else 0
    if inDeckle x.cur (first + part) 1 && inRegion reg (first + part) 1 then .rows (first + part) q
    else .violation (first + part) 0
  | a => a

/-- The key of a KV directory entry: stack, lane, directory key (R193). -/
def kvKey (stack lane key : Nat) : Nat := stack * 16384 + lane * 64 + key

/-- The rows of the KV entries that a page gather trigger asks for, 0 where the directory has no such entry (R193). -/
def State.gatherRows (s : State) (t : Tile) (d : Desc) (trig : TokRec) : Nat :=
  match t.route (dOut d 1) with
  | some r =>
    let stack := match nodeKind r.node with | .stack i _ => i | _ => 0
    rowBytes trig.tok.payload 5 4 * ((mget {} s.kv (kvKey stack trig.tok.lane.val r.queue)).entryBytes / 64)
  | none => 0

/-- Where the next firing of a memory unit touches its region, how many rows, and whether it writes them (R134). -/
def State.memAccess (s : State) (k i : Nat) (trig : TokRec) : Access × Nat × Bool :=
  let t := s.tile k
  let x := t.slot i
  let d := x.cur
  let reg := t.region (uRegion d)
  match dKind d with
  | 3 => (resolve d reg false (rowBytes trig.tok.payload 1 0) (uRows d), uRows d, false)
  | 4 => (x.writeRow reg trig, 1, true)
  | 5 => (resolve d reg (decide (uDir d = 0)) 0 (uRows d), uRows d, decide (uDir d = 0))
  | 6 =>
    let n := s.gatherRows t d trig
    let first := rBase reg + reg.head
    (if rKind reg = 1 ∧ inDeckle d first n ∧ inRegion reg first n then .rows first 0
     else .violation (rowAtFault d reg first) 0, n, true)
  | _ => (.violation 0 0, 0, false)

/-- Whether a unit's next firing waits for rows, and for which: 1 for a read, 2 for a write (R137). A vector unit waits for
the constant rows of its LDK ops. -/
def State.rowWait (s : State) (k i : Nat) : Nat :=
  let t := s.tile k
  let d := (t.slot i).cur
  match t.ready i with
  | some ((_, r) :: _) =>
    if dKind d = 2 then
      if ((t.program d).filter (fun o => o.op == 5)).all (fun o => s.rowReady k (vConstBase d + o.a)) then 0 else 1
    else if 3 ≤ dKind d ∧ dKind d ≤ 6 then
      match s.memAccess k i r with
      | (.rows first _, n, w) => if s.rowsReady k (t.region (uRegion d)) first n (!w) then 0 else if w then 2 else 1
      | (.wait, _, w) => if w then 2 else 1
      | (.violation _ _, _, _) => 0
    else 0
  | _ => 0

/-- The reason code of a stalled slot (R107, R137). -/
def State.stallReason (s : State) (k i : Nat) : Nat :=
  let t := (s.tile k).refill s.clk
  let x := t.slot i
  let eocs := (boundIns x.cur).map (fun n => ((t.queue (dIn x.cur n)).visibleEoc).isSome)
  if x.held.isSome then 6
  else if (t.ready i).isSome then
    if !t.space i then 2
    else if s.rowWait k i ≠ 0 then s.rowWait k i
    else if !t.hasCredit i then 7
    else 1
  else if eocs ≠ [] ∧ eocs.all id then (if x.shadow.isNone then 5 else 4)
  else if eocs.any id then 4
  else if (boundIns x.cur).any (fun n => (t.queue (dIn x.cur n)).blocked x.wm) then 3
  else 1

/-- The 24 bytes of a stall record (chapter 04, Objects). -/
def stallBytes (node slot : Nat) (r : StallRec) : List Nat :=
  toLE 2 node ++ [slot, r.reason, r.lane, r.wm * 64 + r.life] ++ toLE 2 r.tag ++ [r.queue] ++ List.replicate 7 0 ++ toLE 8 r.since

/-- TIME64 of an earlier instant of the clock. -/
def State.timeAt (s : State) (clk : Nat) : Nat := s.now - (s.clk - clk)

/-- STALL_DETECTED (R106, R107): a slot that has held a token without firing for the threshold. -/
def execStallDetected (dt tile : Nat) (slot : Fin 16) (s : State) : Host.Outcome State Fault Refusal :=
  let s := s.tick dt
  let t := s.tile tile
  let x := t.slot slot.val
  onTile tile s (match x.waitSince, t.oldestWaiting slot.val with
    | some t0, some (r, q) =>
      if t.run = .run ∧ x.stall = none ∧ t0 + x.waitHeld + 1000 * s.odGet oDataflowPanelStallThresholdUs ≤ s.clk then
        let rec' : StallRec := {
          reason := s.stallReason tile slot.val, lane := r.tok.lane.val, life := r.tok.life.val,
          wm := r.tok.wm.val, tag := r.tok.tag.toNat, queue := q, since := s.timeAt t0 }
        let s1 := s.setTile tile { t.setSlot slot.val { x with stall := some rec' } with stallFlag := true }
        ((s1.bump (oDataflowTileStalls tile)).bump oDataflowPanelStalls).publish oDataflowPanelStall
          (stallBytes tile slot.val rec')
      else s
    | _, _ => s)

-- ------------------------------------------------------------------ the switch (R109 to R111)

/-- The tile watermark once every configured slot has reached W + 1; a slot that is empty at both counts as switched and
stands there too (R109). -/
def Tile.settleWm (t : Tile) : Tile :=
  if (List.range 16).all (fun i => let x := t.slot i
      (dKind x.cur == 0 && x.shadow.isNone) || x.wm == t.wm + 1) &&
     (List.range 16).any (fun i => (t.slot i).wm == t.wm + 1)
  then (List.range 16).foldl (fun u i => u.setSlot i { u.slot i with wm := t.wm + 1 }) { t with wm := t.wm + 1 } else t

/-- The registers of a descriptor's window (R73), none where it is no vector unit. -/
def regWindow (d : Desc) : List Nat := if dKind d = 2 then (List.range (vRegCount d)).map (vRegBase d + ·) else []

/-- What a switch clears (R111 step 4), of the old unit and of the new one: the partial store while it holds no other unit's
column block, the registers of their windows that no other unit of the tile owns (R73), the tag counter. -/
def Tile.clearState (t : Tile) (i : Nat) (d : Desc) : Tile :=
  let old := (t.slot i).cur
  if dKeep d && dKind d == dKind old then t
  else
    let owned := (((List.range 16).filter (· != i)).map (fun j => regWindow (t.slot j).cur)).flatten
    let busy := (List.range 16).any (fun j => match (t.slot j).mat with | some m => decide (m.kc > 0) | none => false)
    let t1 := if (dKind d = 1 ∨ dKind old = 1) ∧ !busy then { t with pstore := [] } else t
    let gone := regWindow d ++ (regWindow old).filter (fun r => !owned.contains r)
    let t2 := { t1 with regs := gone.foldl (fun m r => mset 0 m r 0) t1.regs }
    t2.setSlot i { t2.slot i with tagCtr := 0 }

/-- The end-of-configuration token that a switching slot passes on (R110). -/
def eocTok (w : Fin 4) (id : Nat) : Token := { payload := BitVec.ofNat 512 id, wm := w, kind := 3 }

/-- The switch of a slot whose inputs all show end-of-configuration with one ID (R111). A stall record stays until the slot
next fires (R107). -/
def State.switchSlot (s : State) (k i : Nat) (d : Desc) (eocs : List (Nat × TokRec)) : State :=
  let t := s.tile k
  let x := t.slot i
  let w := t.slotWm i
  let id := match eocs with | (_, r) :: _ => rowBytes r.tok.payload 7 0 | [] => t.confId
  let orphans := (t.store.filter (fun e => e.slot == i)).length
  let t1 := { t with store := t.store.filter (fun e => e.slot != i), confId := id }
  let t2 := eocs.foldl (fun t p =>
    let q := dIn x.cur p.1
    t.setQueue q { (t.queue q).drop p.2.order with wq := w + 1 }) t1
  let x1 := [0, 1].foldl (fun x o => x.push o { tok := eocTok (w + 1) id, producer := k }) (t2.slot i)
  let t3 := (t2.setSlot i x1).clearState i d
  let t4 := t3.setSlot i { t3.slot i with
    cur := d, shadow := none, wm := w + 1, firings := 0, wrRows := 0, waitSince := none, waitHeld := 0, waited := none }
  let s1 := s.setTile k ((t4.settleWm).refresh s.clk)
  ((s1.bumpN (oDataflowTileOrphans k) orphans).bumpN oDataflowPanelOrphans orphans).bump (oDataflowTileReconfigs k)

/-- SLOT_SWITCH (R111): every input bound under W shows a visible end-of-configuration token and the shadow is
installed; tokens with unlike configuration IDs are a violation, cause 0x0002, and stay (log entry 101). What the unit has
begun at W it completes first (R110, R112); a tile in HOLD switches no slot (log entry 101). -/
def execSlotSwitch (dt tile : Nat) (slot : Fin 16) (s : State) : Host.Outcome State Fault Refusal :=
  let s := s.tick dt
  let t := s.tile tile
  let x := t.slot slot.val
  let ins := boundIns x.cur
  let eocs := ins.filterMap (fun n => ((t.queue (dIn x.cur n)).visibleEoc).map (fun r => (n, r)))
  onTile tile s (match x.shadow with
    | none => s
    | some d =>
      if eocs.length ≠ ins.length ∨ t.run ≠ .run ∨ !t.outRoom slot.val ∨ x.busy.isSome ∨ x.held.isSome ∨ x.reading.isSome ∨ x.mat.isSome then s
      else match eocs with
        | (n, r) :: rest =>
          match rest.find? (fun p => rowBytes p.2.tok.payload 7 0 != rowBytes r.tok.payload 7 0) with
          | some (n', r') =>
            let e := { t.entryFor slot.val (dIn x.cur n') r'.tok r'.producer causeWatermark 0 0 with time := s.logTime }
            let _ := n
            ((s.setTile tile (t.setSlot slot.val (x.pushErrors tile r'.tok e))).sendError tile r'.producer 0 0xF e []).logTile tile e
          | none => s.switchSlot tile slot.val d eocs
        | [] => s.switchSlot tile slot.val d eocs)

-- ------------------------------------------------------------------ life fences at a tile (R114, R115, R146)

/-- A memory firing of a tile that has begun on a dead key of a lane (R146). -/
def Tile.deadBusy (t : Tile) (lane : Nat) : Bool :=
  t.slots.any (fun p => match p.2.busy with
    | some b => b.trig.tok.lane.val == lane && !t.alive lane b.trig.tok.life
    | none => false)

/-- The report of a hub command: done adds one to the tile's commands; refused changes nothing else (R149). -/
def State.cmdDone (s : State) (k : Nat) : State :=
  (s.setTile k { s.tile k with cmdFlag := some true }).bump (oScratchpadTileCommands k)
def State.cmdRefused (s : State) (k : Nat) : State := s.setTile k { s.tile k with cmdFlag := some false }

/-- COMMIT at a tile: commit_pos set to a position from tail_pos to head_pos, and reported; refused elsewhere (R143, R146,
R149). -/
def State.commitRegion (s : State) (k e pos : Nat) : State :=
  let t := s.tile k
  let r := t.region e
  if rKind r = 4 ∧ serLe 32 r.tail pos ∧ serLe 32 pos r.head then
    ((s.setTile k (t.setRegion e { r with commit := pos % 2 ^ 32 })).bump (oScratchpadTileCommits k)).cmdDone k
  else s.cmdRefused k

/-- ROLLBACK at a tile: head_pos set to commit_pos and nothing else; reported as it takes effect (R146, R149). -/
def State.rollbackRegion (s : State) (k e : Nat) : State :=
  let t := s.tile k
  let r := t.region e
  if rKind r = 4 then
    ((s.setTile k (t.setRegion e { r with head := r.commit })).bump (oScratchpadTileRollbacks k)).cmdDone k
  else s.cmdRefused k

/-- A ROLLBACK waits while a memory firing on a dead key of its lane is under way (R146). -/
def State.rollbackOrWait (s : State) (k e : Nat) : State :=
  let t := s.tile k
  if rKind (t.region e) = 4 ∧ t.deadBusy (rLane (t.region e)) then s.setTile k { t with pendRollback := t.pendRollback ++ [e] }
  else s.rollbackRegion k e

/-- The ROLLBACKs that waited, applied once no dead memory firing of their lane is left (R146). -/
def State.flushRollbacks (s : State) (k : Nat) : State :=
  let t := s.tile k
  let due := t.pendRollback.filter (fun e => !t.deadBusy (rLane (t.region e)))
  due.foldl (fun s e => s.rollbackRegion k e)
    (s.setTile k { t with pendRollback := t.pendRollback.filter (fun e => t.deadBusy (rLane (t.region e))) })

end Sys2Proof.Machine
end

