-- ==== Sys2Proof/Machine/Units.lean ====
section
/-!
DEFINITION. Memory units (R79, R80, R134, R144, R145): scratchpad read and write, DMA and page gather; the tag rules
(R129, R135, R136) and resident hazards (R142) that their accesses obey.
-/
namespace Sys2Proof.Machine

/-- The global fabric address of a row of a tile. -/
def rowAddr (k row : Nat) : Nat := gaddr k (64 * row)

/-- Rows filled by a write (R129). -/
def State.fillRows (s : State) (k : Nat) (r : Region) (first n : Nat) : State :=
  if rHonoured r then s.setTags k first true n else s

/-- The banks that some rows lie in: row r in bank r[4:0] (R127). -/
def banksOf (rows : List Nat) : List Nat := (rows.map (· % 32)).eraseDups

/-- Whom a bank's arbiter grants the handshake: of the users that request the bank, the first in the rotating order 0 matrix
operand path, 1 units, 2 DMA inbound, 3 DMA outbound, 4 hub commands (R138). -/
def grantee (rot : Nat) (users : List Nat) : Option Nat := ((List.range 5).map (fun n => (rot + n) % 5)).find? users.contains

/-- A user's accesses to rows of a tile, one row per bank and handshake (R127), beside what other users request of the same
banks (bank, user): each contested handshake counts and turns that bank's rotation, and the accesses begin only where
every contested bank is granted to the user (R138; log entry 104). -/
def State.arbitrate (s : State) (k user : Nat) (rows : List Nat) (contests : List (Fin 32 × Fin 5)) : State × Bool :=
  let t := s.tile k
  let others (b : Nat) : List Nat := (contests.filter (fun c => c.1.val == b && c.2.val != user)).map (fun c => c.2.val)
  let met := (banksOf rows).filter (fun b => others b != [])
  let granted := met.all (fun b => grantee (mget 0 t.bankRot b) (user :: others b) == some user)
  let rot := met.foldl (fun m b => mset 0 m b ((mget 0 m b + 1) % 5)) t.bankRot
  (if met = [] then s else (s.setTile k { t with bankRot := rot }).bumpN (oScratchpadTileBankContests k) met.length, granted)

/-- A run of rows. -/
def rowRun (first n : Nat) : List Nat := (List.range n).map (first + ·)

/-- What a user does once the banks of its rows are granted; else only the contests count (R138). -/
def State.granted (s : State) (k user : Nat) (rows : List Nat) (contests : List (Fin 32 × Fin 5)) (act : State → State) : State :=
  let a := s.arbitrate k user rows contests
  if a.2 then act a.1 else a.1

/-- A unit of the tile's current watermark reads a region entry (R142): a read unit or an outbound DMA that names it, a
matrix unit or a vector unit with LDK ops whose deckle or constants meet its rows. -/
def Tile.readsRegion (t : Tile) (e : Nat) : Bool :=
  let r := t.region e
  let meets (lo hi : Nat) : Bool := decide (lo ≤ rLimit r) && decide (rBase r ≤ hi)
  (List.range 16).any (fun i =>
    let d := (t.slot i).cur
    ((dKind d == 3 || (dKind d == 5 && uDir d == 1)) && uRegion d == e) ||
    (dKind d == 1 && meets (dBase d) (dLimit d)) ||
    (dKind d == 2 && ((t.program d).filter (fun o => o.op == 5)).any (fun o => meets (vConstBase d + o.a) (vConstBase d + o.a))))

/-- A write into a resident region under the hazard conditions: counted, and published at most once per interval (R142). -/
def State.hazard (s : State) (k e writer row producer : Nat) : State :=
  let t := s.tile k
  let s1 := (s.bump (oScratchpadTileHazards k)).bump oScratchpadPanelHazards
  let due := match t.lastHazard with
    | none => true
    | some c => decide (c + 1000 * s.odGet oScratchpadPanelHazardIntervalUs ≤ s.clk)
  if due then
    (s1.setTile k { s1.tile k with lastHazard := some s.clk }).publish24 oScratchpadPanelHazard
      (toLE 2 k ++ [e, writer] ++ toLE 2 (rResident (t.region e)) ++ toLE 2 row ++ toLE 2 producer)
  else s1

/-- A completion token's payload: first row and row count (R79). -/
def completion (first n : Nat) : Row := BitVec.ofNat 512 (first % 65536 + n % 256 * 65536)

/-- A memory firing that the rows hold up adds one wait (R136). -/
def State.tagWait (s : State) (k : Nat) : State := s.bump (oScratchpadTileTagWaits k)

/-- A slot's firing on a trigger waits for rows: one wait, however often the firing is tried (R136). -/
def State.slotWait (s : State) (k i : Nat) (trig : TokRec) : State :=
  let t := s.tile k
  let x := t.slot i
  if x.waited = some trig.order then s
  else (s.setTile k (t.setSlot i { x with waited := some trig.order })).tagWait k

/-- The first token of a set and its input. -/
def trigOf (l : List (Nat × TokRec)) : TokRec := match l with | (_, r) :: _ => r | [] => {}

/-- A firing that is done: the set consumed, tokens pushed to out0, the firing counted. -/
def State.endFire (s : State) (k i : Nat) (l : List (Nat × TokRec)) (toks : List TokRec) : State :=
  let t := (s.tile k).consume i l
  let x := toks.foldl (fun x r => x.push 0 r) (t.slot i)
  (s.setTile k ((t.setSlot i x).fired i s.clk)).bump (oDataflowTileFirings k)

/-- SCRATCHPAD_READ_FIRE (R79): rows_per_fire rows of the region, each as a data token on out0 as its emit buffer has room
(R101); the release slot's rows are emptied with the last (R135). -/
def execScratchpadReadFire (dt tile : Nat) (slot : Fin 16) (contests : List (Fin 32 × Fin 5)) (s : State) :
    Host.Outcome State Fault Refusal :=
  let s := s.tick dt
  onTile tile s (match s.startFire tile slot.val [3] with
    | none => s
    | some (t, l) =>
      let s0 := s.setTile tile (t.spendV 1)
      match errorIn l with
      | some e => s0.errorFire tile slot.val l e
      | none =>
        let x := t.slot slot.val
        let reg := t.region (uRegion x.cur)
        let trig := trigOf l
        let n := uRows x.cur
        match resolve x.cur reg false (rowBytes trig.tok.payload 1 0) n with
        | .violation row det => s0.violate tile slot.val l causeDeckle (rowAddr tile row) det
        | .wait => s.slotWait tile slot.val trig
        | .rows first _ =>
          if s.rowsReady tile reg first n true then
            s.granted tile 1 (rowRun first n) contests fun s =>
            let toks := (s.rowsAt tile (64 * first) n).map (fun r => x.out tile trig.tok 0 r)
            let s1 := (s.setTile tile ((s.tile tile).charge t)).endFire tile slot.val l []
            let t1 := (s1.tile tile).setRegion (uRegion x.cur) (afterRead x.cur reg n)
            (s1.setTile tile (t1.setSlot slot.val { t1.slot slot.val with
              reading := some { toks := toks, region := uRegion x.cur, first := first, rows := n } })).pumpRead tile slot.val
          else s.slotWait tile slot.val trig)

/-- SCRATCHPAD_WRITE_FIRE (R79, R144): the token's payload to the next row of the region; a completion token after
rows_per_fire rows. A run of rows belongs to one lane and life (log entry 16). -/
def execScratchpadWriteFire (dt tile : Nat) (slot : Fin 16) (contests : List (Fin 32 × Fin 5)) (s : State) :
    Host.Outcome State Fault Refusal :=
  let s := s.tick dt
  onTile tile s (match s.startFire tile slot.val [4] with
    | none => s
    | some (t, l) =>
      let s0 := s.setTile tile (t.spendV 1)
      match errorIn l with
      | some e => s0.errorFire tile slot.val l e
      | none =>
        let x := t.slot slot.val
        let e := uRegion x.cur
        let reg := t.region e
        let trig := trigOf l
        let n := uRows x.cur
        match x.writeRow reg trig with
        | .violation row det => s0.violate tile slot.val l causeDeckle (rowAddr tile row) det
        | .wait => s.slotWait tile slot.val trig
        | .rows row q =>
          if !s.rowsReady tile reg row 1 false then s.slotWait tile slot.val trig
          else
            s.granted tile 1 [row] contests fun s =>
            let done := if x.going trig then x.wrRows else 0
            let first := if done = 0 then row else x.wrFirst
            let last := decide (done + 1 ≥ n)
            let part := if x.going trig && x.wrPos == q then x.wrPart + 1 else 1
            let toks := if last then [x.out tile trig.tok 0 (completion first n)] else []
            let s1 := ((s.setTile tile ((s.tile tile).charge t)).putRow tile (64 * row) trig.tok.payload).fillRows tile reg row 1
            let s2 := if rKind reg = 3 ∧ !rTwo reg ∧ t.readsRegion e then s1.hazard tile e slot.val row 0 else s1
            let s3 := s2.endFire tile slot.val l toks
            let t3 := s3.tile tile
            let t4 := t3.setSlot slot.val { t3.slot slot.val with
              wrRows := if last then 0 else done + 1, wrFirst := first, wrKey := (trig.tok.lane.val, trig.tok.life.val),
              wrPos := q, wrPart := part }
            -- A POSITION region's pointers follow each row (R144); a write pointer or head moves by the whole run (R134).
            if last ∨ rKind reg = 4 then
              let (reg', slid) := afterWrite x.cur reg n q
              (s3.setTile tile (t4.setRegion e reg')).bumpN (oScratchpadTileSlidEntries tile) slid
            else s3.setTile tile t4)

/-- The completion of a memory firing that waited for the fabric: its completion token, or error tokens (R79, R168); of a
life that has died meanwhile they are discarded (R114). -/
def State.finishBusy (s : State) (k i : Nat) (n : Nat) (err : Option FaultEntry) : State :=
  let t := s.tile k
  let x := t.slot i
  match x.busy with
  | none => s
  | some b =>
    let x1 := { x with busy := none }
    if !t.alive b.trig.tok.lane.val b.trig.tok.life then
      ((s.setTile k ((t.setSlot i x1).refresh s.clk)).countDead k 1).flushRollbacks k
    else
    let x2 := match err with
      | some e => x1.pushErrors k b.trig.tok e
      | none => x1.push 0 (x.out k b.trig.tok 0 (completion b.firstRow n))
    (s.setTile k ((t.setSlot i x2).refresh s.clk)).flushRollbacks k

/-- Each row of a run of buffer rows is ready under the rules of the region that it lies in (R150). -/
def State.sideReady (s : State) (k first n : Nat) (full : Bool) : Bool :=
  (List.range n).all (fun i => match (s.tile k).regionOfRow (first + i) with
    | some (_, r) => !rHonoured r || s.tagAt k (first + i) == full
    | none => true)

/-- What a read by a slot, or a write, of a run of buffer rows does to their tags, row by row (R150); a write into a
resident region under the hazard conditions is one (R142). -/
def State.sideDone (s : State) (k i first n : Nat) (write : Bool) : State :=
  (List.range n).foldl (fun s j => match (s.tile k).regionOfRow (first + j) with
    | some (e, r) =>
      if write then
        let s1 := s.fillRows k r (first + j) 1
        if rKind r = 3 ∧ !rTwo r ∧ (s.tile k).readsRegion e then s1.hazard k e i (first + j) 0 else s1
      else s.emptyRows k r i (first + j) 1
    | none => s) s

/-- A DMA within its own tile (R150): the rows copied, the tags of both sides moved. -/
def State.dmaLocal (s : State) (k i : Nat) (l : List (Nat × TokRec)) (d : Desc) (reg : Region) (first brow n : Nat) : State :=
  let t := s.tile k
  let inward := decide (uDir d = 0)
  let (src, dst) := if inward then (brow, first) else (first, brow)
  let s1 := (s.putRows k (64 * dst) (s.rowsAt k (64 * src) n)).endFire k i l [(t.slot i).out k (trigOf l).tok 0 (completion first n)]
  let reg' := if inward then (afterWrite d reg n 0).1 else afterRead d reg n
  let s2 := s1.setTile k ((s1.tile k).setRegion (uRegion d) reg')
  if inward then (s2.sideDone k i brow n false).fillRows k reg first n
  else (s2.emptyRows k reg i first n).sideDone k i brow n true

/-- The acknowledgement of a slot's outbound DMA or gather: pointers, tags, completion (R79, R134, R135). -/
def State.memAcked (s : State) (k i : Nat) (b : MemBusy) : State :=
  let t := s.tile k
  let reg := t.region b.region
  let reg' := if b.what = 2 then { reg with head := advance reg reg.head b.rows } else afterRead (t.slot i).cur reg b.rows
  let s1 := s.setTile k (t.setRegion b.region reg')
  let s2 := if b.what = 2 then s1 else s1.emptyRows k reg i b.firstRow b.rows
  s2.finishBusy k i b.rows none

/-- The range that a buffer entry names for a lane (R214): itself, or, where it names a stack's engine and a directory
key, that lane's extent (log entry 27). -/
def State.bufferFor (s : State) (b : Buffer) (lane : Nat) : Option Buffer :=
  match nodeKind b.node with
  | .stack i 1 =>
    let e := mget {} s.kv (kvKey i lane b.base)
    if e.valid then some { node := b.node - 1, base := e.base, len := e.pages * 256 * e.entryBytes } else none
  | _ => some b

/-- DMA_FIRE (R79, R80): a byte offset that is no whole number of rows is a malformed trigger (log entry 103); the whole
range is checked, then rows_per_fire rows move between the region and the buffer. -/
def execDmaFire (dt tile : Nat) (slot : Fin 16) (contests : List (Fin 32 × Fin 5)) (s : State) : Host.Outcome State Fault Refusal :=
  let s := s.tick dt
  onTile tile s (match s.startFire tile slot.val [5] with
    | none => s
    | some (t, l) =>
      let s0 := s.setTile tile (t.spendV 1)
      match errorIn l with
      | some e => s0.errorFire tile slot.val l e
      | none =>
        let x := t.slot slot.val
        let d := x.cur
        let reg := t.region (uRegion d)
        let trig := trigOf l
        let n := uRows d
        let off := rowBytes trig.tok.payload 5 0
        let isIn := decide (uDir d = 0)
        match (t.buffer (uBuffer d)).bind (fun b => s.bufferFor b trig.tok.lane.val) with
        | none => s0.violate tile slot.val l causeBuffer 0 0
        | some b =>
          if off % 64 ≠ 0 then s0.violate tile slot.val l causeMalformed (gaddr b.node (b.base + off)) 0
          else if off + 64 * n > b.len then s0.violate tile slot.val l causeBuffer (gaddr b.node (b.base + off)) 0
          else match resolve d reg isIn 0 n with
            | .violation row det => s0.violate tile slot.val l causeDeckle (rowAddr tile row) det
            | .wait => s.slotWait tile slot.val trig
            | .rows first _ =>
              if b.node = tile then
                if !(s.rowsReady tile reg first n (!isIn) && s.sideReady tile ((b.base + off) / 64) n isIn) then s.slotWait tile slot.val trig
                else s.granted tile (if isIn then 2 else 3) (rowRun first n ++ rowRun ((b.base + off) / 64) n) contests fun s =>
                  (s.setTile tile ((s.tile tile).charge t)).dmaLocal tile slot.val l d reg first ((b.base + off) / 64) n
              else if !s.rowsReady tile reg first n (!isIn) then s.slotWait tile slot.val trig
              else
                -- A write to a multicast group is not acknowledged (R170): its firing is complete once it has left.
                s.granted tile 3 (if isIn then [] else rowRun first n) contests fun s =>
                let cast := !isIn && decide (b.node ≥ 32768)
                let s1 := (s.setTile tile ((s.tile tile).charge t)).endFire tile slot.val l []
                let t1 := s1.tile tile
                let x1 := { t1.slot slot.val with busy := some ⟨trig, first, n, s1.nextTxn, uDir d, uRegion d⟩ }
                let p : Pkt := {
                  dest := b.node, src := tile, ptype := if isIn then 3 else 2, vc := if cast then 3 else 0, gen := s.odGet oFabricPanelActiveBank,
                  srcSlot := slot.val, offset := b.base + off, retOffset := if isIn then 64 * first else 0, txn := s1.nextTxn,
                  rowsM1 := if isIn then n - 1 else 0
                  body := if isIn then [] else (s.rowsAt tile (64 * first) n).map (fun r => { row := r }) }
                let s2 := ((s1.setTile tile (t1.setSlot slot.val x1)).send (.pkt p)).bumpTxn
                if cast then s2.memAcked tile slot.val ⟨trig, first, n, s1.nextTxn, uDir d, uRegion d⟩ else s2)

/-- PAGE_GATHER_FIRE (R194, R134): GATHER goes to the node and key that the out1 route entry names, with the run of
rows checked against the region; the completion waits for the WRITE_ACK. -/
def execPageGatherFire (dt tile : Nat) (slot : Fin 16) (s : State) : Host.Outcome State Fault Refusal :=
  let s := s.tick dt
  onTile tile s (match s.startFire tile slot.val [6] with
    | none => s
    | some (t, l) =>
      let s0 := s.setTile tile (t.spendV 1)
      match errorIn l with
      | some e => s0.errorFire tile slot.val l e
      | none =>
        let x := t.slot slot.val
        let d := x.cur
        let reg := t.region (uRegion d)
        let trig := trigOf l
        let pos := rowBytes trig.tok.payload 3 0
        let cnt := rowBytes trig.tok.payload 5 4
        match t.route (dOut d 1) with
        | none => s0.violate tile slot.val l causeBuffer 0 0
        | some r =>
          let n := s.gatherRows t d trig
          let first := rBase reg + reg.head
          if rKind reg ≠ 1 ∨ !(inDeckle d first n && inRegion reg first n) then
            s0.violate tile slot.val l causeDeckle (rowAddr tile (rowAtFault d reg first)) 0
          else if !s.rowsReady tile reg first n false then s.slotWait tile slot.val trig
          else
            let s1 := s0.endFire tile slot.val l []
            let t1 := s1.tile tile
            let x1 := { t1.slot slot.val with busy := some ⟨trig, first, n, s1.nextTxn, 2, uRegion d⟩ }
            let p : Pkt := {
              dest := r.node / 64 * 64 + 1, src := tile, ptype := 0x10, vc := 0, gen := s.odGet oFabricPanelActiveBank,
              srcSlot := slot.val, txn := s1.nextTxn
              op := toLE 4 pos ++ toLE 2 cnt ++ [trig.tok.lane.val, r.queue] ++ toLE 2 tile ++ toLE 2 first }
            ((s1.setTile tile (t1.setSlot slot.val x1)).send (.pkt p)).bumpTxn)

/-- The slot of a tile whose memory firing waits for a transaction, echoed with its slot. -/
def Tile.busySlot (t : Tile) (txn slot : Nat) : Option (Nat × MemBusy) :=
  (List.range 16).findSome? (fun i => match (t.slot i).busy with
    | some b => if b.txn = txn ∧ i = slot then some (i, b) else none
    | none => none)

/-- The rows of a slot's inbound DMA have come: written, filled, pointers moved, completion sent. -/
def State.memData (s : State) (k i : Nat) (b : MemBusy) (rows : List Row) : State :=
  let t := s.tile k
  let reg := t.region b.region
  let s1 := (s.putRows k (64 * b.firstRow) rows).fillRows k reg b.firstRow b.rows
  let s2 := s1.setTile k ((s1.tile k).setRegion b.region (afterWrite (t.slot i).cur reg b.rows 0).1)
  s2.finishBusy k i b.rows none

end Sys2Proof.Machine
end

