-- ==== Sys2Proof/Machine/Matrix.lean ====
section
/-!
DEFINITION. The matrix engine (R65 to R72): operand layout in the scratchpad, the exact sums of a column block, and the
results of a group token.
-/
namespace Sys2Proof.Machine

/-- Reduction chunks of a dot product (R67). -/
def mChunks (d : Desc) : Nat := ceilDiv (mKlen d) (modeElems (mMode d))
/-- Column blocks of 64 output columns. -/
def mBlocks (d : Desc) : Nat := ceilDiv (mNlen d) 64
/-- Output columns of a column block. -/
def mCols (d : Desc) (nc : Nat) : Nat := min 64 (mNlen d - 64 * nc)
/-- Reduction elements of a chunk; the last may be shorter, its padding adds nothing (R68). -/
def mElems (d : Desc) (kc : Nat) : Nat := min (modeElems (mMode d)) (mKlen d - kc * modeElems (mMode d))
/-- 32-element scale blocks per chunk (R67). -/
def mScaleBlocks (d : Desc) : Nat := modeElems (mMode d) / 32

/-- A group token's fields (R69): activation row, activation scale row, token count. -/
def grpRow (t : Token) : Nat := rowBytes t.payload 1 0
def grpScaleRow (t : Token) : Nat := rowBytes t.payload 3 2
def grpCount (t : Token) : Nat := rowByte t.payload 4
/-- T is 1 to 32 and the reserved bytes are 0 (R69, R11). -/
def grpOk (t : Token) : Bool := decide (1 ≤ grpCount t) && decide (grpCount t ≤ 32) && rowBytes t.payload 63 5 == 0

/-- Activation rows of a group: a row number and a row count for each token row (R67). -/
def actRuns (d : Desc) (g : Token) : List (Nat × Nat) :=
  (List.range (grpCount g)).map (fun t => (grpRow g + t * mAstride d, ceilDiv (actBytes d) 64))

/-- Activation scale rows of a group. -/
def actScaleRuns (d : Desc) (g : Token) : List (Nat × Nat) :=
  if !mAscaled d then []
  else if isRowScaled (mAfmt d) then [(grpScaleRow g, ceilDiv (2 * grpCount g) 64)]
  else [(grpScaleRow g, ceilDiv (grpCount g * (mKlen d / 32)) 64)]

/-- The weight rows of block (kc, nc) and its MX scale rows (R67). -/
def blockRuns (d : Desc) (nc kc : Nat) : List (Nat × Nat) :=
  let blk := nc * mChunks d + kc
  (mWbase d + blk * 64, 64) ::
  (if !mWscaled d ∨ isRowScaled (mWfmt d) then [] else [(mWscaleBase d + blk * mScaleBlocks d, mScaleBlocks d)])

/-- The row-scale rows of the weights of column block nc (R67). -/
def rowScaleRuns (d : Desc) (nc : Nat) : List (Nat × Nat) :=
  if mWscaled d && isRowScaled (mWfmt d) then [(mWscaleBase d + 2 * nc, 2)] else []

/-- Weight and weight scale rows of a column block. -/
def weightRuns (d : Desc) (nc : Nat) : List (Nat × Nat) :=
  ((List.range (mChunks d)).map (blockRuns d nc)).flatten ++ rowScaleRuns d nc

/-- What a block of a group reads (R70): its weights and scales, the activations and theirs. -/
def blockReads (d : Desc) (g : Token) (nc kc : Nat) : List (Nat × Nat) :=
  actRuns d g ++ actScaleRuns d g ++ blockRuns d nc kc ++ rowScaleRuns d nc

/-- Every row of some runs is ready (R136). -/
def State.runsReady (s : State) (k : Nat) (l : List (Nat × Nat)) : Bool :=
  l.all (fun p => (List.range p.2).all (fun i => s.rowReady k (p.1 + i)))

/-- The first row of a group's operands outside the unit's deckle (R69), or that its region's kind does not let a matrix
unit name (R133), if one. -/
def Tile.groupOutside (t : Tile) (d : Desc) (g : Token) : Option Nat :=
  (actRuns d g ++ actScaleRuns d g ++ ((List.range (mBlocks d)).map (weightRuns d)).flatten).findSome? (fun p =>
    if p.2 = 0 then none
    else if !inDeckle d p.1 p.2 then some (if inDeckle d p.1 1 then dLimit d + 1 else p.1)
    else ((List.range p.2).find? (fun i => t.rowBarred (p.1 + i))).map (fun i => p.1 + i))

/-- The byte address, in the tile, of a T5 byte of block (kc, nc) that is an invalid code, with the byte (R46). -/
def State.badT5 (s : State) (k : Nat) (d : Desc) (nc kc : Nat) : Option (Nat × Nat) :=
  if mWfmt d ≠ 10 then none
  else (List.range (mCols d nc)).findSome? (fun j =>
    let a := 64 * (mWbase d + (nc * mChunks d + kc) * 64 + j)
    ((List.range (ceilDiv (mElems d kc) 5)).find? (fun i => decide (s.unitByte k (a + i) > 242))).map
      (fun i => ((s.tile k).liveAddr (a + i), s.unitByte k (a + i))))

/-- An FP16 row scale read from the scratchpad (R45). -/
def State.rowScale (s : State) (k addr : Nat) : Num := decodeFloat fp16 (ofLE (s.unitBytes k addr 2))

/-- The byte address of the weight row scale of column j of a column block (R67). -/
def wScaleAddr (d : Desc) (nc j : Nat) : Nat := 64 * (mWscaleBase d + 2 * nc) + 2 * j
/-- The byte address of the activation row scale of token row t (R67). -/
def aScaleAddr (g : Token) (t : Nat) : Nat := 64 * grpScaleRow g + 2 * t

/-- The byte address of a row scale of a column block or of the group that is Inf or NaN (R45). -/
def State.badRowScale (s : State) (k : Nat) (d : Desc) (g : Token) (nc : Nat) : Option Nat :=
  if !isRowScaled (mAfmt d) then none
  else (((List.range (mCols d nc)).map (wScaleAddr d nc) ++ (List.range (grpCount g)).map (aScaleAddr g)).find?
    (fun a => !(s.rowScale k a).isFin)).map (s.tile k).liveAddr

/-- The violation that the operands of a group's blocks from (kc, nc) on hold, if one: cause, address in the tile, detail
(R45, R46). Blocks whose rows are not ready are looked at when they are (log entry 17). -/
def State.groupFault (s : State) (k : Nat) (d : Desc) (g : Token) (m : MatProg) : Option (Nat × Nat × Nat) :=
  (((List.range (mBlocks d * mChunks d)).drop (m.nc * mChunks d + m.kc)).filter (fun b =>
    s.runsReady k (blockReads d g (b / mChunks d) (b % mChunks d)))).findSome? (fun b =>
      match s.badT5 k d (b / mChunks d) (b % mChunks d) with
      | some (a, v) => some (causeT5, a, v)
      | none => (s.badRowScale k d g (b / mChunks d)).map (fun a => (causeRowScale, a, 0)))

/-- The E8M0 code of an MX scale byte; 0x7F where the operand carries no scales (R65, R67). -/
def State.mxCode (s : State) (k : Nat) (scaled : Bool) (addr : Nat) : Nat := if scaled then s.unitByte k addr else 0x7F

/-- Products of elements [lo, lo + n) of a packed activation and a packed weight chunk. -/
def products (d : Desc) (aw ww lo n : Nat) : List Num :=
  (List.range n).map (fun i => (elemAt (mAfmt d) aw (lo + i)).mul (elemAt (mWfmt d) ww (lo + i)))

/-- The packed activation chunk kc of token row t. -/
def State.actChunk (s : State) (k : Nat) (d : Desc) (g : Token) (t kc : Nat) : Nat :=
  let nb := modeElems (mMode d) * fmtBits (mAfmt d) / 8
  ofLE (s.unitBytes k (64 * (grpRow g + t * mAstride d) + kc * nb) nb)

/-- One handshake's sum for token row t and column j (R51, R66, R70): chunk kc of column block nc added. -/
def State.addChunk (s : State) (k : Nat) (d : Desc) (g : Token) (nc t j : Nat) (x : Acc) (kc : Nat) : Acc :=
  let aw := s.actChunk k d g t kc
  let blk := nc * mChunks d + kc
  let ww := (s.unitRow k (mWbase d + blk * 64 + j)).toNat
  let n := mElems d kc
  if isRowScaled (mAfmt d) then
    x.intBlock ((products d aw ww 0 n).map (fun v => match v with | .fin b m e => fixAt b m e 0 | _ => 0))
  else if mMode d = 4 then x.h16Block (products d aw ww 0 n)
  else
    let b := mScaleBlocks d
    (List.range (n / 32)).foldl (fun x i =>
      let ea := s.mxCode k (mAscaled d) (64 * grpScaleRow g + t * (mKlen d / 32) + kc * b + i)
      let eb := s.mxCode k (mWscaled d) (64 * (mWscaleBase d + blk * b) + j * b + i)
      if ea = 0xFF ∨ eb = 0xFF then x.note [.nan]
      else
        let c : Int := (ea : Int) - 127 + ((eb : Int) - 127)
        x.mxBlock (inWindow (mWfmt d) (mAfmt d) c) c (products d aw ww (32 * i) 32)) x

/-- The partial store after chunk kc of a column block: entry (t, j) at t × 64 + j (R59, R70). The first chunk begins each
entry anew. -/
def State.blockSums (s : State) (k : Nat) (d : Desc) (g : Token) (nc kc : Nat) : SMap Acc :=
  ((List.range (grpCount g)).map (fun t => (List.range (mCols d nc)).filterMap (fun j =>
    let x := s.addChunk k d g nc t j (if kc = 0 then {} else mget {} (s.tile k).pstore (t * 64 + j)) kc
    if x = {} then none else some (t * 64 + j, x)))).flatten

/-- Handshakes that a block takes (R70). -/
def blockHandshakes (g : Token) : Nat := max (grpCount g) 3

/-- Results that one output token holds (R71). -/
def perToken (d : Desc) : Nat := if mOutKind d = 1 then 4 else fmtElems (mOutFmt d)

/-- Output tokens of one token row of a column block, and of the whole block. -/
def rowTokens (d : Desc) (nc : Nat) : Nat := ceilDiv (mCols d nc) (perToken d)
def blockTokens (d : Desc) (g : Token) (nc : Nat) : Nat := rowTokens d nc * grpCount g

/-- The row scales that still apply to a dot product (R53). -/
def State.dotScale (s : State) (k : Nat) (d : Desc) (g : Token) (nc t j : Nat) : Num :=
  if isRowScaled (mAfmt d) then (s.rowScale k (aScaleAddr g t)).mul (s.rowScale k (wScaleAddr d nc j))
  else .fin false 1 0

/-- The seed of the furnish that a slot holds (R49, R209). -/
def State.seedOf (s : State) (slot : Nat) : Nat := (((mlook s.pslots slot).bind (·.furn)).map (·.seed)).getD 0

/-- What names the draws of stochastic rounding on a tile (R49). -/
def State.srCtx (s : State) (k i port : Nat) (tok : Token) : SrCtx :=
  { seed := s.seedOf (s.odGet (oFloorTileFurnish k)), ltile := s.odGet (oFloorTileLogicalTile k),
    lane := tok.lane.val, tag := tok.tag.toNat, slot := i, port := port }

/-- The results of one output token, each with what its conversion met (R53, R71). -/
def State.resultCodes (s : State) (k i : Nat) (d : Desc) (g : Token) (nc n : Nat) : List (Nat × ConvNote) :=
  let t := n / rowTokens d nc
  let c0 := n % rowTokens d nc * perToken d
  match floatFmt (mOutFmt d) with
  | none => []
  | some f => (List.range (min (perToken d) (mCols d nc - c0))).map (fun e =>
      let x := mget {} (s.tile k).pstore (t * 64 + c0 + e)
      encodeFloat f (modeOf (mRound d) (s.srCtx k i 0 g) e) (mSat d) (x.value (s.dotScale k d g nc t (c0 + e))))

/-- The exact partials of one output token: four 16-byte slots (R71). -/
def State.partialRow (s : State) (k : Nat) (d : Desc) (nc n : Nat) : Row :=
  let t := n / rowTokens d nc
  let c0 := n % rowTokens d nc * 4
  BitVec.ofNat 512 (packCodes 128 ((List.range (min 4 (mCols d nc - c0))).map (fun e =>
    ofSigned 128 (toSigned 96 (ofSigned 96 (mget {} (s.tile k).pstore (t * 64 + c0 + e)).acc)))))

/-- The payload of output token n of a column block. -/
def State.resultRow (s : State) (k i : Nat) (d : Desc) (g : Token) (nc n : Nat) : Row :=
  if mOutKind d = 1 then s.partialRow k d nc n
  else BitVec.ofNat 512 (packCodes (fmtBits (mOutFmt d)) ((s.resultCodes k i d g nc n).map (·.1)))

/-- An arithmetic counter of a tile and the panel's sum of it (R89): n is its subindex in area 0x30. -/
def State.arith (s : State) (k n c : Nat) : State :=
  (s.bumpN (oTileArith k + n) c).bumpN (oTilePanelArithTotals + n) c

/-- The arithmetic counters that the conversions of a token add to (R89). -/
def State.noteConv (s : State) (k : Nat) (l : List ConvNote) : State :=
  ((s.arith k 3 (l.filter (·.sat)).length).arith k 4 (l.filter (·.special)).length).arith k 5 (l.filter (·.nan)).length

/-- Rows of runs that a slot's read releases are emptied (R135). -/
def State.releaseRuns (s : State) (k i : Nat) (l : List (Nat × Nat)) : State :=
  l.foldl (fun s p => (List.range p.2).foldl (fun s j =>
    match (s.tile k).regionOfRow (p.1 + j) with
    | some (_, r) => s.emptyRows k r i (p.1 + j) 1
    | none => s) s) s

/-- MATRIX_GROUP_FIRE (R69, R101): the group token is consumed and the unit's group begins, or it is a violation. -/
def execMatrixGroupFire (dt tile : Nat) (slot : Fin 16) (s : State) : Host.Outcome State Fault Refusal :=
  let s := s.tick dt
  let t := (s.tile tile).refill s.clk
  let d := (t.slot slot.val).cur
  onTile tile s
    (if dKind d = 1 ∧ t.mayFire slot.val ∧ t.outRoom slot.val ∧ (t.slot slot.val).mat = none ∧ t.hasCredit slot.val then
      match t.ready slot.val with
      | some ((n, r) :: l) =>
        let s0 := s.setTile tile t
        if r.tok.kind = 4 then (s.setTile tile (t.spend slot.val)).errorFire tile slot.val ((n, r) :: l) r
        else if !grpOk r.tok then s0.violate tile slot.val ((n, r) :: l) causeMalformed 0 0
        else match t.groupOutside d r.tok with
          | some row => s0.violate tile slot.val ((n, r) :: l) causeDeckle (rowAddr tile row) 0
          | none =>
            let t1 := (t.consume slot.val ((n, r) :: l)).fired slot.val s.clk
            (s.setTile tile (t1.setSlot slot.val { t1.slot slot.val with mat := some { group := r } })).bump (oDataflowTileFirings tile)
      | _ => s
    else s)

/-- One block of a group: its handshakes add chunk kc into the partial store (R70). The lane columns' accumulators hold the
last token row's sums. The block's weights and MX scales have then been used for the last time, and after the group's
last block the MX scales of the activations (R135). -/
def State.addBlock (s : State) (k i : Nat) (m : MatProg) (d : Desc) : State :=
  let g := m.group.tok
  let ps := s.blockSums k d g m.nc m.kc
  let t := s.tile k
  let lastK := decide (m.kc + 1 ≥ mChunks d)
  let lastN := decide (m.nc + 1 ≥ mBlocks d)
  let accs := (ps.filter (fun p => p.1 / 64 == grpCount g - 1)).map (fun p => (p.1 % 64, p.2))
  let s1 := s.setTile k { (t.spendM (blockHandshakes g)).setSlot i { t.slot i with mat := some { m with kc := m.kc + 1, waited := false } } with
    pstore := ps, accs := accs }
  let s2 := s1.bumpN (oTileEngineMatrixHandshakes k) (blockHandshakes g)
  let s3 := if lastK then s2.arith k 6 (ps.filter (fun p => !p.2.exact)).length else s2
  s3.releaseRuns k i (blockRuns d m.nc m.kc ++ (if lastK && lastN && !isRowScaled (mAfmt d) then actScaleRuns d g else []))

/-- The blocks of a column block that the engine can run now, one after another, each when its rows are ready and the
matrix bucket holds its credits (R70, R136, R346). -/
def State.runBlocks (s : State) (k i : Nat) (d : Desc) : Nat → State
  | 0 => s
  | n + 1 =>
    match ((s.tile k).slot i).mat with
    | none => s
    | some m =>
      if m.kc ≥ mChunks d ∨ (s.tile k).creditM < blockHandshakes m.group.tok then s
      else if !s.runsReady k (blockReads d m.group.tok m.nc m.kc) then
        if m.waited then s
        else (s.setTile k ((s.tile k).setSlot i { (s.tile k).slot i with mat := some { m with waited := true } })).tagWait k
      else (s.addBlock k i m d).runBlocks k i d n

/-- One result token leaves the engine (R71). With a column block's last one the engine is free for the next unit (R72) and
the row scales of its weights have been used; with the group's last one, the activations and their row scales (R135). -/
def State.emitResult (s : State) (k i : Nat) (m : MatProg) (d : Desc) : State :=
  let g := m.group.tok
  let t := s.tile k
  let x := t.slot i
  let row := s.resultRow k i d g m.nc m.emitted
  let notes := if mOutKind d = 1 then [] else (s.resultCodes k i d g m.nc m.emitted).map (·.2)
  let endBlock := decide (m.emitted + 1 ≥ blockTokens d g m.nc)
  let endGroup := endBlock && decide (m.nc + 1 ≥ mBlocks d)
  let m1 : Option MatProg :=
    if endGroup then none
    else if endBlock then some { m with nc := m.nc + 1, kc := 0, emitted := 0 }
    else some { m with emitted := m.emitted + 1 }
  let t1 := t.setSlot i { x.push 0 (x.out k g 0 row) with mat := m1 }
  let s1 := (s.setTile k { t1 with matTurn := if endBlock then i else t.matTurn, idleSince := s.clk }).noteConv k notes
  s1.releaseRuns k i ((if endBlock then rowScaleRuns d m.nc else []) ++
    (if endGroup then actRuns d g ++ (if isRowScaled (mAfmt d) then actScaleRuns d g else []) else []))

/-- A unit's next column block may begin: its rows are ready and its output has room (R72, R136). -/
def State.matReady (s : State) (k i : Nat) : Bool :=
  let t := s.tile k
  match (t.slot i).mat with
  | some m => t.outRoom i && s.runsReady k (blockReads (t.slot i).cur m.group.tok m.nc m.kc)
  | none => false

/-- The unit whose column block the partial store holds, if one. -/
def Tile.matHolder (t : Tile) : Option Nat :=
  (List.range 16).find? (fun i => match (t.slot i).mat with | some m => decide (m.kc > 0) | none => false)

/-- Whether the engine serves a unit: the one whose column block is under way; else, of the units that are ready, the next
in ascending slot order after the last one served (R72). A unit whose rows are not ready waits there (R136). -/
def State.matServes (s : State) (k i : Nat) : Bool :=
  let t := s.tile k
  match t.matHolder with
  | some j => j == i
  | none => (((List.range 16).map (fun n => (t.matTurn + 1 + n) % 16)).find? (s.matReady k)).all (fun j => j == i || !s.matReady k i)

/-- MATRIX_EMIT (R70 to R72): the blocks of the unit's column block that are not yet in the partial store run, and once it is
whole one result token of the group leaves as output space allows. -/
def execMatrixEmit (dt tile : Nat) (firing : Firing) (s : State) : Host.Outcome State Fault Refusal :=
  let s := s.tick dt
  let slot := firing.slot
  let t := (s.tile tile).refill s.clk
  let d := (t.slot slot.val).cur
  onTile tile s (match (t.slot slot.val).mat with
    | none => s
    | some m =>
      let s0 := s.setTile tile t
      if t.run ≠ .run ∨ t.idle ∨ !t.outRoom slot.val ∨ !s0.matServes tile slot.val then s
      else match s0.groupFault tile d m.group.tok m with
        | some (cause, a, det) =>
          (s.setTile tile (t.setSlot slot.val { t.slot slot.val with mat := none })).violateTok tile slot.val (dIn d 0) m.group cause
            (gaddr tile a) det
        | none =>
          let reads := blockReads d m.group.tok m.nc m.kc
          let go (s0 : State) : State :=
            let s1 := s0.runBlocks tile slot.val d (mChunks d - m.kc)
            match ((s1.tile tile).slot slot.val).mat with
            | some m1 => if m1.kc ≥ mChunks d then s1.emitResult tile slot.val m1 d else s1
            | none => s1
          if m.kc ≥ mChunks d ∨ !s0.runsReady tile reads then go s0
          else s0.granted tile 0 (((reads.map (fun p => rowRun p.1 p.2)).flatten).map t.liveRow) firing.contests go)

end Sys2Proof.Machine
end

