-- ==== Sys2Proof/Machine/Trans.lean ====
section
/-!
DEFINITION. The functions of vector ops 0x20 to 0x2A (R77): the exact mathematical value at an FP32 input, rounded once.
RECIP, SQRT and RSQRT are computed exactly with a remainder bit. The others are transcendental: their value is held
as a fixed-point number with `fracBits` fraction bits, cut toward zero, with a remainder bit that stands for the rest
(DEDUCED, log entry 9: an FP32 rounding never needs more bits than that).
-/
namespace Sys2Proof.Machine

/-- Fraction bits of the fixed-point values of this file. -/
def fracBits : Nat := 1024

/-- One in fixed point. -/
def fxOne : Int := (2 : Int) ^ fracBits

/-- The fixed-point product, cut. -/
def fxMul (a b : Int) : Int := (a * b) / fxOne

/-- The fixed-point quotient, cut. -/
def fxDiv (a b : Int) : Int := if b = 0 then 0 else (a * fxOne) / b

/-- Sum of t, t·y/(k+1), … : the exponential series from a term t at index k, fuel terms long. -/
def expSeries (y : Int) : Nat → Int → Int → Int → Int
  | 0, _, _, s => s
  | n + 1, k, t, s => expSeries y n (k + 1) (fxMul t y / k) (s + t)

/-- Squaring a number of times. -/
def sqrTimes : Nat → Int → Int
  | 0, a => a
  | n + 1, a => sqrTimes n (fxMul a a)

/-- e^r for a fixed-point r from 0 to 1: halved 16 times, summed and squared back. -/
def fxExpSmall (r : Int) : Int := sqrTimes 16 (expSeries (r / 65536) 90 1 fxOne 0)

/-- atanh(y) = y + y³/3 + y⁵/5 + … for a fixed-point y, fuel terms long. -/
def atanhSeries (y2 : Int) : Nat → Int → Int → Int → Int
  | 0, _, _, s => s
  | n + 1, k, t, s => atanhSeries y2 n (k + 2) (fxMul t y2) (s + t / k)

/-- atanh of a fixed-point y of magnitude at most 1/3. -/
def fxAtanh (y : Int) : Int := atanhSeries (fxMul y y) 340 1 y 0

/-- ln 2 = 18 atanh(1/26) − 2 atanh(1/4801) + 8 atanh(1/8749). -/
def fxLn2 : Int := 18 * fxAtanh (fxOne / 26) - 2 * fxAtanh (fxOne / 4801) + 8 * fxAtanh (fxOne / 8749)

/-- e^x for a fixed-point x: the value times 2^(-k), and k. -/
def fxExp (x : Int) : Int × Int :=
  let l := fxLn2
  let k := x / l
  (fxExpSmall (x - k * l), k)

/-- The arctangent series of 1/n, fuel terms long. -/
def atanSeries (n2 : Int) : Nat → Int → Int → Int → Int
  | 0, _, _, s => s
  | f + 1, k, t, s => atanSeries n2 f (k + 2) (-(t / n2)) (s + t / k)

/-- π = 16 atan(1/5) − 4 atan(1/239). -/
def fxPi : Int := 16 * atanSeries 25 240 1 (fxOne / 5) 0 - 4 * atanSeries (239 * 239) 80 1 (fxOne / 239) 0

/-- The integer square root, bit by bit: the largest r with r² ≤ n below 2^fuel, from a partial root. -/
def isqrtFrom (n : Nat) : Nat → Nat → Nat
  | 0, r => r
  | k + 1, r => let r' := r + 2 ^ k; if r' * r' ≤ n then isqrtFrom n k r' else isqrtFrom n k r

/-- The integer square root. -/
def isqrt (n : Nat) : Nat := isqrtFrom n (Nat.log2 n / 2 + 1) 0

/-- The fixed-point square root. -/
def fxSqrt (a : Int) : Int := (isqrt (a.toNat * 2 ^ fracBits) : Nat)

/-- x·(1 + x²/3 + x⁴/15 + …), the odd series of the normal distribution function. -/
def phiSeries (x2 : Int) : Nat → Int → Int → Int → Int
  | 0, _, _, s => s
  | n + 1, k, t, s => phiSeries x2 n (k + 2) (fxMul t x2 / k) (s + t)

/-- Φ(x) for a fixed-point x of magnitude at most 16. -/
def fxPhi (x : Int) : Int :=
  let x2 := fxMul x x
  let (e, k) := fxExp (-x2 / 2)
  let dens := fxDiv (if k < 0 then e / (2 : Int) ^ (-k).toNat else e * (2 : Int) ^ k.toNat) (fxSqrt (2 * fxPi))
  fxOne / 2 + fxMul dens (phiSeries x2 900 3 x 0)

/-- An FP32 value as a fixed-point number, exact for magnitudes that the callers bound. -/
def fxOf (n : Bool) (m : Nat) (e : Int) : Int := fixAt n m (e + fracBits) 0

/-- A fixed-point value rounded to FP32, its cut remainder nonzero. -/
def fxRound (mode : Rmode) (v : Int) (e : Int := 0) : Nat := toF32 mode (numOfFix v (e - fracBits)) true

/-- A nonzero value below every FP32 step, rounded. -/
def tiny (mode : Rmode) (neg : Bool) : Nat := toF32 mode (.fin neg 1 (-400)) true

/-- A value just below an exact magnitude, rounded. -/
def justBelow (mode : Rmode) (neg : Bool) (m : Nat) (e : Int) : Nat := toF32 mode (.fin neg (m * 2 ^ 400 - 1) (e - 400)) true

def inf32 (neg : Bool) : Nat := if neg then 0xFF800000 else 0x7F800000
def one32 : Nat := 0x3F800000
def zero32 (neg : Bool) : Nat := if neg then 0x80000000 else 0

/-- Whether |m × 2^e| exceeds a whole number. -/
def exceeds (m : Nat) (e : Int) (k : Nat) : Bool := (Num.fin false m e).cmp (.fin false k 0) > 0

def fRecip (mode : Rmode) : Num → Nat
  | .nan => nan32
  | .inf n => zero32 n
  | .fin n m e =>
    if m = 0 then inf32 n
    else toF32 mode (.fin n (2 ^ 200 / m) (-200 - e)) (2 ^ 200 % m ≠ 0)

def fSqrt (mode : Rmode) : Num → Nat
  | .nan => nan32
  | .inf n => if n then nan32 else inf32 false
  | .fin n m e =>
    if m = 0 then zero32 n
    else if n then nan32
    else
      let e' := if (e % 2) = 0 then e else e - 1
      let m' := (if (e % 2) = 0 then m else 2 * m) * 2 ^ 200
      let r := isqrt m'
      toF32 mode (.fin false r (e' / 2 - 100)) (r * r ≠ m')

def fRsqrt (mode : Rmode) : Num → Nat
  | .nan => nan32
  | .inf n => if n then nan32 else 0
  | .fin n m e =>
    if m = 0 then inf32 n
    else if n then nan32
    else
      let e' := if (e % 2) = 0 then e else e - 1
      let m' := if (e % 2) = 0 then m else 2 * m
      let r := isqrt (2 ^ 400 / m')
      toF32 mode (.fin false r (-200 - e' / 2)) (r * r * m' ≠ 2 ^ 400)

def fExp (mode : Rmode) : Num → Nat
  | .nan => nan32
  | .inf n => if n then 0 else inf32 false
  | .fin n m e =>
    if m = 0 then one32
    else if exceeds m e 200 then (if n then tiny mode false else toF32 mode (.fin false 1 300) true)
    else let (v, k) := fxExp (fxOf n m e); fxRound mode v k

def fExp2 (mode : Rmode) (w : Nat) : Num → Nat
  | .nan => nan32
  | .inf n => if n then 0 else inf32 false
  | .fin n m e =>
    if m = 0 then one32
    else if exceeds m e 300 then (if n then tiny mode false else toF32 mode (.fin false 1 300) true)
    else match f32Int w with
      | some i => toF32 mode (.fin false 1 i)
      | none =>
        let x := fxOf n m e
        let k := x / fxOne
        fxRound mode (fxExpSmall (fxMul (x - k * fxOne) fxLn2)) k

/-- ln of a positive value: k ln 2 + 2 atanh((f − 1)/(f + 1)) with f from 0.75 to 1.5. -/
def fxLog (m : Nat) (e : Int) : Int :=
  let top := (Nat.log2 m : Int)
  let f0 : Int := ((m <<< fracBits : Nat) : Int) / (2 : Int) ^ top.toNat
  let (f, k) := if 2 * f0 > 3 * fxOne then (f0 / 2, top + e + 1) else (f0, top + e)
  k * fxLn2 + 2 * fxAtanh (fxDiv (f - fxOne) (f + fxOne))

def fLog (mode : Rmode) : Num → Nat
  | .nan => nan32
  | .inf n => if n then nan32 else inf32 false
  | .fin n m e =>
    if m = 0 then inf32 true
    else if n then nan32
    else if (Num.fin false m e).cmp (.fin false 1 0) = 0 then 0
    else fxRound mode (fxLog m e)

def fLog2 (mode : Rmode) : Num → Nat
  | .nan => nan32
  | .inf n => if n then nan32 else inf32 false
  | .fin n m e =>
    if m = 0 then inf32 true
    else if n then nan32
    else if m = 2 ^ Nat.log2 m then toF32 mode (numOfInt ((Nat.log2 m : Int) + e))
    else fxRound mode (fxDiv (fxLog m e) fxLn2)

/-- e^x as one fixed-point number, for |x| at most 300. -/
def fxExpAbs (x : Int) : Int :=
  let (v, k) := fxExp x
  if k < 0 then v / (2 : Int) ^ (-k).toNat else v * (2 : Int) ^ k.toNat

def fTanh (mode : Rmode) : Num → Nat
  | .nan => nan32
  | .inf n => if n then 0xBF800000 else one32
  | .fin n m e =>
    if m = 0 then zero32 n
    else if exceeds m e 150 then justBelow mode n 1 0
    else
      let a := fxExpAbs (2 * fxOf false m e)
      let t := fxDiv (a - fxOne) (a + fxOne)
      fxRound mode (if n then -t else t)

/-- 1 / (1 + e^−x) in fixed point, for |x| at most 300. -/
def fxSigm (x : Int) : Int := fxDiv fxOne (fxOne + fxExpAbs (-x))

def fSigm (mode : Rmode) : Num → Nat
  | .nan => nan32
  | .inf n => if n then 0 else one32
  | .fin n m e =>
    if m = 0 then 0x3F000000
    else if exceeds m e 300 then (if n then tiny mode false else justBelow mode false 1 0)
    else fxRound mode (fxSigm (fxOf n m e))

/-- The spec states no result for SILU and GELU at −Inf (log entry 6). -/
def fSilu (mode : Rmode) (w : Nat) : Num → Nat
  | .nan => nan32
  | .inf n => if n then Config.freeLane 0x29 w 0 % 2 ^ 32 else inf32 false
  | .fin n m e =>
    if m = 0 then zero32 n
    else if exceeds m e 300 then (if n then tiny mode true else justBelow mode false m e)
    else fxRound mode (fxMul (fxOf n m e) (fxSigm (fxOf n m e)))

def fGelu (mode : Rmode) (w : Nat) : Num → Nat
  | .nan => nan32
  | .inf n => if n then Config.freeLane 0x2A w 0 % 2 ^ 32 else inf32 false
  | .fin n m e =>
    if m = 0 then zero32 n
    else if exceeds m e 16 then (if n then tiny mode true else justBelow mode false m e)
    else fxRound mode (fxMul (fxOf n m e) (fxPhi (fxOf n m e)))

/-- The function of a vector op 0x20 to 0x2A at an FP32 input (R76, R77). -/
def vectorFn (mode : Rmode) (op w : Nat) : Nat :=
  let x := f32 w
  match op with
  | 0x20 => fRecip mode x
  | 0x21 => fSqrt mode x
  | 0x22 => fRsqrt mode x
  | 0x23 => fExp mode x
  | 0x24 => fExp2 mode w x
  | 0x25 => fLog mode x
  | 0x26 => fLog2 mode x
  | 0x27 => fTanh mode x
  | 0x28 => fSigm mode x
  | 0x29 => fSilu mode w x
  | _ => fGelu mode w x

end Sys2Proof.Machine
end

