-- ==== Sys2Proof/Machine/Vector.lean ====
section
/-!
DEFINITION. The vector engine (R73 to R78): the ops of R76 on 16-lane registers, the output staging, and a firing.
-/
namespace Sys2Proof.Machine

/-- A vector program under way: the tile's registers, the two output stagings, the tokens emitted so far (port, kind,
payload), and what its conversions met. -/
structure VRun where
  regs : SMap Row := []
  stage0 : Row := 0
  stage1 : Row := 0
  outs : List (Nat × Nat × Row) := []
  ints : List ConvNote := []
  flts : List ConvNote := []
  mxNan : Nat := 0
  /-- Canonical NaNs that arithmetic and functions have produced (R89). -/
  nans : Nat := 0
  /-- Registers that hold what MXQ left in them: their PACK saturates (R44). -/
  quant : List Nat := []
  /-- Parts packed since the last EMIT, by port (R46). -/
  parts : List (Nat × Nat) := []
  deriving DecidableEq, Repr

/-- What a firing reads: its descriptor, the input tokens by port, constant rows, program, and what names its draws. -/
structure VEnv where
  d : Desc
  ins : List (Nat × TokRec)
  consts : List Row
  prog : List OpWord
  sr : Nat → SrCtx
  mode : Rmode

/-- Lane i of a register. -/
def lane (r : Row) (i : Nat) : Nat := (r.toNat >>> (32 * i)) % 2 ^ 32

/-- A register from its 16 lanes. -/
def ofLanes (l : List Nat) : Row := BitVec.ofNat 512 (packCodes 32 l)

/-- The lanes of a register. -/
def lanes (r : Row) : List Nat := (List.range 16).map (lane r)

/-- A register with one lane replaced. -/
def withLane (r : Row) (i v : Nat) : Row := ofLanes ((lanes r).set i v)

/-- The number in the register file of a window's register n (R73). -/
def VEnv.reg (e : VEnv) (n : Nat) : Nat := (vRegBase e.d + n) % 128

/-- A register read. -/
def VRun.get (x : VRun) (e : VEnv) (n : Nat) : Row := mget 0 x.regs (e.reg n)

/-- A register written. -/
def VRun.put (x : VRun) (e : VEnv) (n : Nat) (r : Row) : VRun :=
  { x with regs := mset 0 x.regs (e.reg n) r, quant := x.quant.filter (· != e.reg n) }

/-- Canonical NaNs counted in a list of results (R38, R89). -/
def VRun.countNans (x : VRun) (l : List Nat) : VRun := { x with nans := x.nans + (l.filter (· == nan32)).length }

/-- A register written with the results of an arithmetic op or function, lane by lane. -/
def VRun.result (x : VRun) (e : VEnv) (n : Nat) (l : List Nat) : VRun := (x.put e n (ofLanes l)).countNans l

/-- The staging of an output port. -/
def VRun.stage (x : VRun) (p : Nat) : Row := if p = 0 then x.stage0 else x.stage1

/-- The staging of an output port replaced. -/
def VRun.setStage (x : VRun) (p : Nat) (r : Row) : VRun := if p = 0 then { x with stage0 := r } else { x with stage1 := r }

/-- The payload of the token taken at an input port. -/
def VEnv.payload (e : VEnv) (p : Nat) : Row :=
  match e.ins.find? (fun q => q.1 == p) with
  | some (_, r) => r.tok.payload
  | none => 0

/-- UNPK: element 16c + i of a token, widened exactly to FP32; FP32 and SI32 lanes pass as they are (R74, R76). -/
def unpackPart (fmt : Nat) (w : Row) (c : Nat) : Row :=
  ofLanes ((List.range 16).map (fun i =>
    if fmt = 0 ∨ fmt = 0xB then (w.toNat >>> (32 * (16 * c + i))) % 2 ^ 32 else toF32 .rne (elemAt fmt w.toNat (16 * c + i))))

/-- A staging with bits [lo + n − 1 : lo] replaced. -/
def putBits (r : Row) (lo n v : Nat) : Row :=
  let w := r.toNat
  BitVec.ofNat 512 (w - ((w >>> lo) % 2 ^ n) * 2 ^ lo + (v % 2 ^ n) * 2 ^ lo)

/-- A T5 byte string with one trit replaced (R46). -/
def putTrit (r : Row) (k : Nat) (t : Int) : Row :=
  let b := rowByte r (k / 5)
  let p := 3 ^ (k % 5)
  putBits r (8 * (k / 5)) 8 (b - t5Digit b (k % 5) * p + (t + 1).toNat * p)

/-- Parts of 16 elements that a token of a format has (R74). -/
def fmtParts (f : Nat) : Nat := fmtElems f / 16

/-- PACK of one element into a staging (R41, R48): the staging, the integer notes and the floating-point notes. -/
def packElem (fmt : Nat) (mode : Rmode) (sat : Bool) (r : Row) (k v : Nat) : Row × List ConvNote × List ConvNote :=
  match floatFmt fmt with
  | some f =>
    let (c, n) := encodeFloat f mode sat (f32 v)
    (putBits r (fmtBits fmt * k) (fmtBits fmt) c, [], [n])
  | none =>
    if fmt = 0xB then (putBits r (32 * k) 32 v, [], [])
    else
      let (i, n) := toIntFmt fmt mode (f32 v)
      (if fmt = 0xA then putTrit r k i else putBits r (fmtBits fmt * k) (fmtBits fmt) (ofSigned (fmtBits fmt) i), [n], [])

/-- The padding trits behind part c of a T5 staging: the rest of its last byte, where the next part is not packed (R46). -/
def padTrits (c : Nat) (nextPacked : Bool) (r : Row) : Row :=
  if nextPacked then r
  else ((List.range 4).filter (fun i => decide ((16 * c + 16 + i) / 5 = (16 * c + 15) / 5))).foldl
    (fun r i => putTrit r (16 * c + 16 + i) 0) r

/-- PACK: part c of a port's staging from a register (R76); a part that the format does not have is not packed. What MXQ
quantised always saturates (R44 step 5). -/
def VRun.pack (x : VRun) (e : VEnv) (p c a : Nat) : VRun :=
  let fmt := vOutFmt e.d p
  let sat := vOutSat e.d p || x.quant.contains (e.reg a)
  let A := x.get e a
  if c ≥ fmtParts fmt then x
  else
    let x1 := (List.range 16).foldl (fun x i =>
      let k := 16 * c + i
      let (r, ni, nf) := packElem fmt (modeOf (vOutRound e.d p) (e.sr p) k) sat (x.stage p) k (lane A i)
      { x.setStage p r with ints := x.ints ++ ni, flts := x.flts ++ nf }) x
    let x2 := if fmt = 0xA then x1.setStage p (padTrits c (x1.parts.contains (p, c + 1)) (x1.stage p)) else x1
    { x2 with parts := x2.parts ++ [(p, c)] }

/-- A lane taken as an integer and saturated to 0 to 255; the spec states no result for a lane that holds no integer
(log entry 6). -/
def byteOf (v : Nat) : Nat :=
  match f32Int v with
  | some i => (max 0 (min 255 i)).toNat
  | none => Config.freeLane 3 v 0 % 256

/-- A port that carries exact partials: bound, declared INT8, and not unpacked by the program (R78). -/
def VEnv.exactPort (e : VEnv) (p : Nat) : Bool :=
  decide (p < 4) && inBound e.d p && vInFmt e.d p == 8 && !(e.prog.any (fun o => o.op == 1 && o.b == p))

/-- An operand of XADD or XFIN: four 128-bit lanes of a register, or of the token of a port that carries exact
partials (log entry 19). -/
def VRun.wide (x : VRun) (e : VEnv) (n : Nat) : Row := if e.exactPort n then e.payload n else x.get e n

/-- 128-bit lane i of a register. -/
def wideLane (r : Row) (i : Nat) : Nat := (r.toNat >>> (128 * i)) % 2 ^ 128

/-- The exact value of XFIN: an exact sum of zero gives +0 whatever the signs, every other zero keeps its sign (R39). -/
def xfinValue (p b c : Nat) : Num :=
  let v := ((numOfFix (toSigned 128 p) (-32)).mul (f32 b)).mul (f32 c)
  if v.isZero ∧ p % 2 ^ 128 = 0 then .fin false 0 0 else v

/-- XFIN of one partial (R53, R76): rounded once into FP32, FP16 or BF16, and held as FP32. -/
def xfin (mode : Rmode) (fmt p b c : Nat) : Nat :=
  match floatFmt fmt with
  | some f => toF32 .rne (decodeFloat f (encodeFloat f mode false (xfinValue p b c)).1)
  | none => nan32

/-- The element format that MXQ quantises for: that of the port to which a register is packed next (log entry 19). -/
def VEnv.mxFmt (e : VEnv) (pc a : Nat) : Nat :=
  match (e.prog.drop (pc + 1)).find? (fun o => o.op == 2 && (o.a == a || o.a == a + 1)) with
  | some o => vOutFmt e.d (o.b % 2)
  | none => vOutFmt e.d 0

/-- MXQ (R44, R76). -/
def VRun.mxq (x : VRun) (e : VEnv) (pc d a : Nat) : VRun :=
  let r0 := x.get e a
  let r1 := x.get e (a + 1)
  let vals := (lanes r0 ++ lanes r1).map f32
  let code := mxScale (e.mxFmt pc a) vals
  let q (v : Nat) : Nat :=
    if code = 0xFF ∨ mxZero vals then 0
    else match f32 v with
      | .fin n m ex => toF32 .rne (.fin n m (ex - ((code : Int) - 127)))
      | _ => 0
  let x1 := (x.put e a (ofLanes ((lanes r0).map q))).put e (a + 1) (ofLanes ((lanes r1).map q))
  let x1 := { x1 with quant := x1.quant ++ [e.reg a, e.reg (a + 1)] }
  let x2 := x1.put e d (withLane (x1.get e d) 0 (toF32 .rne (numOfInt code)))
  if code = 0xFF then { x2 with mxNan := x2.mxNan + 1 } else x2

/-- SIE: E = e_max − 30 as an FP32 value; no result is stated where the lane is not finite (log entry 6). -/
def sieOf (v : Nat) : Nat :=
  match f32 v with
  | .fin n m e => toF32 .rne (numOfInt (siExp (.fin n m e)))
  | _ => Config.freeLane 0x48 v 0 % 2 ^ 32

/-- QSI of one lane with exponent lane eb; no result is stated outside SI32 (log entry 6). -/
def qsiOf (v eb : Nat) : Nat :=
  match f32Int eb, f32 v with
  | some E, .fin n m e =>
    let i := siQuant (.fin n m e) (max (-2000) (min 2000 E))
    if -(2 ^ 31) ≤ i ∧ i < 2 ^ 31 then ofSigned 32 i else Config.freeLane 0x49 v eb % 2 ^ 32
  | _, _ => Config.freeLane 0x49 v eb % 2 ^ 32

/-- 64-bit lane i of a pair of registers. -/
def pairLane (lo hi : Row) (i : Nat) : Nat :=
  if i < 8 then (lo.toNat >>> (64 * i)) % 2 ^ 64 else (hi.toNat >>> (64 * (i - 8))) % 2 ^ 64

/-- DSI of one 64-bit lane; no result is stated where the exponent lane holds no integer (log entry 6). -/
def dsiOf (w eb : Nat) : Nat :=
  match f32Int eb with
  | some E => toF32 .rne (numOfFix (toSigned 64 w) (max (-2000) (min 2000 E)))
  | none => Config.freeLane 0x4B w eb % 2 ^ 32

/-- A lane counts as nonzero unless it is +0 or −0 (log entry 18). -/
def nonzero (v : Nat) : Bool := v % 2 ^ 31 != 0

/-- One op of a program (R76). A reserved opcode or code never passes the load check and does nothing (log entry 18). -/
def VRun.op (x : VRun) (e : VEnv) (pc : Nat) (o : OpWord) : VRun :=
  let A := x.get e o.a
  let B := x.get e o.b
  let C := x.get e o.c
  let each1 (f : Nat → Nat) : VRun := x.result e o.d ((lanes A).map f)
  let each2 (f : Nat → Nat → Nat) : VRun := x.result e o.d ((List.range 16).map (fun i => f (lane A i) (lane B i)))
  let each3 (f : Nat → Nat → Nat → Nat) : VRun :=
    x.result e o.d ((List.range 16).map (fun i => f (lane A i) (lane B i) (lane C i)))
  let bits1 (f : Nat → Nat) : VRun := x.put e o.d (ofLanes ((lanes A).map f))
  let all (v : Nat) : VRun := x.put e o.d (ofLanes (List.replicate 16 v))
  let reduced (v : Nat) : VRun := (all v).countNans [v]
  match o.op with
  | 0x01 =>
    let r := unpackPart (vInFmt e.d (o.b % 4)) (e.payload o.b) o.c
    let y := x.put e o.d r
    if vInFmt e.d (o.b % 4) = 0 ∨ vInFmt e.d (o.b % 4) = 0xB then y else y.countNans (lanes r)
  | 0x02 => x.pack e (o.b % 2) o.c o.a
  | 0x03 => x.setStage (o.b % 2) (putBits (x.stage (o.b % 2)) (8 * o.c) 8 (byteOf (lane A o.aux)))
  | 0x04 => { x.setStage (o.b % 2) 0 with
      outs := x.outs ++ [(o.b % 2, o.aux % 2, x.stage (o.b % 2))], parts := x.parts.filter (fun q => q.1 != o.b % 2) }
  | 0x05 => x.put e o.d (e.consts.getD o.a 0)
  | 0x06 => x.put e o.d A
  | 0x07 => all (lane A o.aux)
  | 0x10 => each2 (f32Add e.mode)
  | 0x11 => each2 (f32Sub e.mode)
  | 0x12 => each2 (f32Mul e.mode)
  | 0x13 => each3 (f32Fma e.mode)
  | 0x14 => each2 f32Min
  | 0x15 => each2 f32Max
  | 0x16 => each1 f32Abs
  | 0x17 => each1 f32Neg
  | 0x18 => each2 (f32Ldexp e.mode)
  | 0x19 => x.put e o.d (ofLanes ((List.range 16).map (fun i => f32Cmp o.aux (lane A i) (lane B i))))
  | 0x1A => x.put e o.d (ofLanes ((List.range 16).map (fun i => if nonzero (lane C i) then lane A i else lane B i)))
  | 0x30 =>
    if o.aux = 1 then reduced (f32Chain e.mode (lanes A))
    else if o.aux = 2 then reduced (pairTree (f32Add e.mode) 16 (lanes A))
    else x
  | 0x31 => reduced ((lanes A).tail.foldl f32Max (lane A 0))
  | 0x38 => x.mxq e pc o.d o.a
  | 0x40 =>
    let P := x.wide e o.a
    let Q := x.wide e o.b
    x.put e o.d (BitVec.ofNat 512 (packCodes 128 ((List.range 4).map (fun i => (wideLane P i + wideLane Q i) % 2 ^ 128))))
  | 0x41 =>
    let P := x.wide e o.a
    let D := x.get e o.d
    if o.aux ≤ 2 then
      let rs := (List.range 4).map (fun i => xfin e.mode o.aux (wideLane P i) (lane B i) (lane C i))
      (x.put e o.d (ofLanes ((List.range 16).map (fun i => rs.getD i (lane D i))))).countNans rs
    else x
  | 0x48 => all (sieOf (lane A 0))
  | 0x49 => bits1 (fun v => qsiOf v (lane B 0))
  | 0x4A =>
    let lo := x.get e o.d
    let hi := x.get e (o.d + 1)
    let sum (i : Nat) : Nat := (pairLane lo hi i + ofSigned 64 (toSigned 32 (lane A i))) % 2 ^ 64
    (x.put e o.d (BitVec.ofNat 512 (packCodes 64 ((List.range 8).map sum)))).put e (o.d + 1)
      (BitVec.ofNat 512 (packCodes 64 ((List.range 8).map (fun i => sum (i + 8)))))
  | 0x4B =>
    let hi := x.get e (o.a + 1)
    x.result e o.d ((List.range 16).map (fun i => dsiOf (pairLane A hi i) (lane B 0)))
  | n => if 0x20 ≤ n ∧ n ≤ 0x2A then each1 (vectorFn e.mode n) else x

/-- A program run once, in order (R75). -/
def VEnv.run (e : VEnv) (x : VRun) : VRun :=
  (e.prog.foldl (fun p o => (p.1 + 1, p.2.op e p.1 o)) ((0, x) : Nat × VRun)).2

/-- What a firing of a vector unit reads. -/
def State.vEnv (s : State) (k i : Nat) (l : List (Nat × TokRec)) : VEnv :=
  let t := s.tile k
  let d := (t.slot i).cur
  { d := d, ins := l
    consts := (List.range (vConstCount d)).map (fun j => s.unitRow k (vConstBase d + j))
    prog := t.program d
    sr := fun p => s.srCtx k i p (trigOf l).tok
    mode := if vArith d = 1 then .rtz else .rne }

/-- The constant rows that a program's LDK ops read are ready (R136). -/
def State.constsReady (s : State) (k : Nat) (d : Desc) (prog : List OpWord) : Bool :=
  (prog.filter (fun o => o.op == 5)).all (fun o => s.rowReady k (vConstBase d + o.a))

/-- The rows that a program's LDK ops read. -/
def Tile.constRows (t : Tile) (d : Desc) (prog : List OpWord) : List Nat :=
  (prog.filter (fun o => o.op == 5)).map (fun o => t.liveRow (vConstBase d + o.a))

/-- The first constant row that a program's LDK ops may not name, if one (R133). -/
def Tile.constBarred (t : Tile) (d : Desc) (prog : List OpWord) : Option Nat :=
  ((prog.filter (fun o => o.op == 5)).map (fun o => vConstBase d + o.a)).find? t.rowBarred

/-- The violation that an input token of a firing holds: a T5 byte that is an invalid code, on a TERN port that the
program unpacks (R46, R85): the byte's address in the payload, and the byte. -/
def badTrits (d : Desc) (prog : List OpWord) (l : List (Nat × TokRec)) : Option (Nat × TokRec × Nat) :=
  l.findSome? (fun p =>
    if vInFmt d p.1 = 10 ∧ prog.any (fun o => o.op == 1 && o.b == p.1) then
      ((List.range 64).map (rowByte p.2.tok.payload)).findSome? (fun b => if b > 242 then some (p.1, p.2, b) else none)
    else none)

/-- A vector firing's effect (R75): registers, tokens in program order, counters, credits. -/
def State.vectorFire (s : State) (k i : Nat) (t : Tile) (l : List (Nat × TokRec)) : State :=
  let e := s.vEnv k i l
  let x := e.run { regs := t.regs }
  let t1 := ((t.spendV (ceilDiv (vProgLen e.d) 4)).consume i l)
  let y := x.outs.foldl (fun y o => y.push o.1 (y.out k (trigOf l).tok (Fin.ofNat 8 o.2.1) o.2.2)) (t1.slot i)
  let t2 := { t1.setSlot i y with regs := x.regs }
  let s1 := ((s.setTile k (t2.fired i s.clk)).bump (oDataflowTileFirings k)).bumpN (oTileEngineVectorOps k) (vProgLen e.d)
  ((((s1.arith k 1 (x.ints.filter (·.sat)).length).arith k 2 (x.ints.filter (·.nan)).length).noteConv k x.flts).arith k 5 x.nans).arith k 7 x.mxNan

/-- VECTOR_FIRE (R75). -/
def execVectorFire (dt tile : Nat) (firing : Firing) (s : State) : Host.Outcome State Fault Refusal :=
  let s := s.tick dt
  let slot := firing.slot
  let t := (s.tile tile).refill s.clk
  let x := t.slot slot.val
  let prog := t.program x.cur
  onTile tile s
    (if dKind x.cur = 2 ∧ t.mayFire slot.val ∧ t.outRoom slot.val ∧ t.hasCredit slot.val then
      match t.ready slot.val with
      | none => s
      | some l =>
        let s0 := s.setTile tile (t.spend slot.val)
        match errorIn l with
        | some e => s0.errorFire tile slot.val l e
        | none =>
          match badTrits x.cur prog l, t.constBarred x.cur prog with
          | some (n, r, b), _ => s0.violateAt tile slot.val l n r causeT5 0 b
          | none, some row => s0.violate tile slot.val l causeDeckle (rowAddr tile row) 0
          | none, none =>
            if !t.space slot.val then s
            else if !s.constsReady tile x.cur prog then s.slotWait tile slot.val (trigOf l)
            else s.granted tile 1 (t.constRows x.cur prog) firing.contests fun s => s.vectorFire tile slot.val ((s.tile tile).refill s.clk) l
    else s)

end Sys2Proof.Machine
end

