-- ==== Sys2Proof/Machine/Routes.lean ====
section
/-!
DEFINITION. Routing tables and the paths of packets (R161 to R163, R489), and what every packet meets at its destination before the
destination looks at its type (R168).
-/
namespace Sys2Proof.Machine

-- ------------------------------------------------------------------ banks and paths (R161 to R163, R489)

/-- A routing-table bank. -/
def State.bank (s : State) (b : Nat) : Bank := if b = 0 then s.bank0 else s.bank1

/-- The state with a bank replaced. -/
def State.setBank (s : State) (b : Nat) (x : Bank) : State := if b = 0 then { s with bank0 := x } else { s with bank1 := x }

/-- The active bank. -/
def State.activeBank (s : State) : Nat := s.odGet oFabricPanelActiveBank

/-- A packet's gen names a bank that is active or draining (R163). -/
def State.genLive (s : State) (g : Nat) : Bool := g == s.activeBank || (decide (g < 2) && (s.bank g).drainUntil.isSome)

/-- A die that passes traffic (R162): in service, a hub not lost, a base die in any DRAM state. -/
def State.sitePassable (s : State) (g : Nat) : Bool :=
  let v := s.floorNow (oFloorSiteState g)
  v == 1 || v == 2 || (isStackSite g && v == 5)

/-- A link that passes traffic (R162): UP or UP_HALF. -/
def State.linkPassable (s : State) (l : Nat) : Bool := s.odGet (oFabricLinkState l) == 2 || s.odGet (oFabricLinkState l) == 3

/-- The site that an edge leads to over a passable link, in a bank. -/
def Bank.hop (b : Bank) (g e : Nat) : Option Nat :=
  match neighbour g e with
  | some h => if b.blockedSites.contains h ∨ b.blockedLinks.contains (g * 4 + e) then none else some h
  | none => none

/-- The edge that dimension order takes from a site, x first (R162). -/
def dimEdge (g dst : Nat) : Nat :=
  if siteX g < siteX dst then 1 else if siteX dst < siteX g then 3 else if siteY g < siteY dst then 2 else 0

/-- The dimension-order walk: the sites visited, and whether it arrived. -/
def Bank.dimWalk (b : Bank) : Nat → Nat → Nat → List Nat × Bool
  | 0, g, dst => ([g], decide (g = dst))
  | n + 1, g, dst =>
    if g = dst then ([g], true)
    else match b.hop g (dimEdge g dst) with
      | some h => let r := b.dimWalk n h dst; (g :: r.1, r.2)
      | none => ([g], false)

/-- The sites reached from a set in up to n steps, as levels outward. -/
def Bank.levels (b : Bank) : Nat → List Nat → List Nat → List (List Nat)
  | 0, _, cur => [cur]
  | n + 1, seen, cur =>
    let next := ((cur.map (fun g => (List.range 4).filterMap (b.hop g))).flatten.filter (fun h => !seen.contains h)).eraseDups
    if next = [] then [cur] else cur :: b.levels n (seen ++ next) next

/-- A shortest detour, down the levels around the destination; of equal choices north, south, west, east (log 23). -/
def Bank.descend (b : Bank) : List (List Nat) → Nat → Option (List Nat)
  | [], _ => some []
  | l :: rest, g =>
    match ([0, 2, 3, 1].filterMap (b.hop g)).find? (fun h => l.contains h) with
    | some h => (b.descend rest h).map (fun p => h :: p)
    | none => none

/-- The dies that dimension order towards a site cannot leave. -/
def Bank.stuckTo (b : Bank) (dst : Nat) : List Nat :=
  if b.blockedSites = [] ∧ b.blockedLinks = [] then []
  else (List.range 256).filter (fun g => g != dst && !b.blockedSites.contains g && (b.hop g (dimEdge g dst)).isNone)

/-- The dies that have the entry of a detour towards a site: those that dimension order cannot leave, and all on the shortest way
from them (R162). -/
def Bank.detoursTo (b : Bank) (ls : List (List Nat)) (dst : Nat) : List Nat :=
  ((b.stuckTo dst).map (fun g => match findIdx (fun l => l.contains g) ls with
    | some n => g :: ((b.descend (ls.take n).reverse g).getD []).filter (· != dst)
    | none => [])).flatten.eraseDups

/-- The edge of a shortest detour from a die: down the levels around the destination; of equal choices north, south, west, east
(log entry 23). -/
def Bank.downEdge (b : Bank) (ls : List (List Nat)) (g : Nat) : Option Nat :=
  match findIdx (fun l => l.contains g) ls with
  | some (n + 1) => [0, 2, 3, 1].find? (fun e => match b.hop g e with | some h => (ls.getD n []).contains h | none => false)
  | _ => none

/-- The action of a die's route entry for a site (R161): 0 to 3 an edge, 4 local, 5 unreachable. -/
def Bank.action (b : Bank) (g dst : Nat) : Nat :=
  if !b.built ∨ b.blockedSites.contains dst then 5
  else if g = dst then 4
  else
    let ls := b.levels 256 [dst] [dst]
    if !ls.any (·.contains g) then 5
    else if (b.detoursTo ls dst).contains g then (b.downEdge ls g).getD 5
    else dimEdge g dst

/-- The walk of a packet by the dies' entries for a site. -/
def Bank.walk (b : Bank) (ls : List (List Nat)) (det : List Nat) : Nat → Nat → Nat → Option (List Nat)
  | 0, g, dst => if g = dst then some [g] else none
  | n + 1, g, dst =>
    if g = dst then some [g]
    else (if det.contains g then (b.downEdge ls g).bind (b.hop g) else b.hop g (dimEdge g dst)).bind (fun h =>
      (b.walk ls det n h dst).map (fun p => g :: p))

/-- The sites of a path between two sites, ends included, if there is one: as the dies' entries lead (R161, R162). -/
def Bank.path (b : Bank) (src dst : Nat) : Option (List Nat) :=
  if !b.built ∨ b.blockedSites.contains dst then none
  else if b.stuckTo dst = [] then (let r := b.dimWalk 32 src dst; if r.2 then some r.1 else none)
  else
    let ls := b.levels 256 [dst] [dst]
    b.walk ls (b.detoursTo ls dst) 256 src dst

/-- Die crossings of a path: a hub die's inner seam is none (R489). -/
def crossingsOf : List Nat → Nat
  | a :: b :: t => (if hubSeam a b then 0 else 1) + crossingsOf (b :: t)
  | _ => 0

/-- The sites through which a node is reached: its own, or a port die's attach sites. -/
def nodeSites (n : Nat) : List Nat :=
  match nodeKind n with
  | .portDie p => portAttach p
  | .steward _ => []
  | .nothing => []
  | _ => [n / 64]

/-- The path between two nodes by a bank, the shortest over their sites. -/
def Bank.nodePath (b : Bank) (src dst : Nat) : Option (List Nat) :=
  (sortBy crossingsOf (((nodeSites src).map (fun g => (nodeSites dst).filterMap (fun h => b.path g h))).flatten)).head?

/-- The byte of a die's route table for a destination code, node ID [13:6], or 256 + n for function n of the off-grid directory code
(R161): a steward's is unreachable; a port die's leads to the attach site nearest to the die and out of its edge. -/
def Bank.routeByte (b : Bank) (g code : Nat) : Nat :=
  if code < 256 then b.action g code
  else if code < 272 then 5
  else
    let p := code - 272
    let near := (sortBy (fun h => (((b.path g h).map crossingsOf).getD 0xFFFF) * 256 + h) (portAttach p)).headD 0
    if p ≥ 4 ∨ (b.path g near).isNone then 5
    else if g = near then p
    else b.action g near

-- ------------------------------------------------------------------ on the die (R154, R161)

/-- The sub-channel of an edge that serves a tile (R154): its column on a north or south edge, its row on an east or west one. A tile
that injects a packet takes it on its exit edge (R161). -/
def subChannel (edge tile : Nat) : Nat := if edge % 2 = 0 then tile % 8 else tile % 64 / 8

/-- The tile of a die at which a packet that passes through on a sub-channel turns: where its line meets the line of the same number
in the other direction (R161). -/
def turnTile (k : Nat) : Nat := 8 * k + k

/-- Die crossings between two sites by the current generation's tables (R489). -/
def State.crossings (s : State) (g h : Nat) : Option Nat := ((s.bank s.activeBank).path g h).map crossingsOf

-- ------------------------------------------------------------------ packets at their destinations (R156, R168)

/-- A hub's node (hub firmware). -/
def isHubNode (n : Nat) : Bool := match nodeKind n with | .hub _ _ => true | _ => false

/-- Hub firmware, a steward or a port die: the sources that are not units of region programs. -/
def isFirmwareNode (n : Nat) : Bool :=
  match nodeKind n with
  | .hub _ _ => true
  | .steward _ => true
  | .portDie _ => true
  | _ => false

/-- The channels that a packet type may use (R156). -/
def channelOk (ptype vc : Nat) : Bool :=
  match ptype with
  | 1 => vc == 0 || vc == 3
  | 2 => vc == 0 || vc == 2 || vc == 3
  | 3 => vc == 0 || vc == 2
  | 4 | 5 | 6 => vc == 1
  | 7 | 8 => vc == 2 || vc == 3
  | t => decide (0x10 ≤ t) && decide (t < 0x20) && (vc == 0 || vc == 2)

/-- The payload flits that a packet type carries (R156, R192). An INSTALL's rows stand beside its head (log entry 71). -/
def payloadOk (ptype n : Nat) : Bool :=
  match ptype with
  | 1 | 2 | 5 | 7 => decide (1 ≤ n) && decide (n ≤ 64)
  | 6 => decide (1 ≤ n) && decide (n ≤ 5)
  | 8 => decide (n ≤ 64)
  | 0x15 => n == 1
  | _ => n == 0

/-- A packet's head and payload are as its type wants them (R11, R155, R156): fields within their widths, reserved bits 0,
the engine's bytes 0 outside engine commands (GROUP_SET's members run 4 bytes past the head flit, log entry 113), a queue and
sidebands on token packets alone. -/
def pktFormOk (p : Pkt) : Bool :=
  decide (p.dest < 2 ^ 16) && decide (p.src < 2 ^ 16) && decide (p.gen < 2) && decide (p.srcSlot < 16) && decide (p.queue < 64) &&
  decide (p.offset < 2 ^ 48) && decide (p.retOffset < 2 ^ 48) && decide (p.txn < 2 ^ 16) && decide (p.rowsM1 < 64) &&
  p.rsv == 0 && channelOk p.ptype p.vc && payloadOk p.ptype p.body.length && decide (p.op.length ≤ if p.ptype = 0x14 then 36 else 32) &&
  (decide (0x10 ≤ p.ptype) || p.op.all (· == 0)) &&
  (p.ptype == 1 || p.ptype == 7 || (p.queue == 0 && p.body.all (fun f => f.side == 0)))

/-- Why a packet cannot be delivered (R155, R156, R168), before its destination looks at its type. -/
def State.packetFault (s : State) (p : Pkt) : Option Nat :=
  if !pktFormOk p ∨ p.hops > 64 ∨ !s.genLive p.gen ∨ nodeKind p.dest = .nothing then some causeMisrouted
  else if ((s.bank p.gen).nodePath p.src p.dest).isNone then some causeMisrouted
  else if isHubNode p.dest ∧ !isFirmwareNode p.src ∧ !([4, 5, 6].contains p.ptype) then some causeFirmwareOnly
  else none

/-- The node that detects why a packet cannot be delivered (R168): where no path leads on, the source, whose route table has no
way; else the destination. -/
def State.detector (s : State) (p : Pkt) : Nat :=
  if decide (0x4000 ≤ p.dest) || (nodeKind p.dest != .nothing && ((s.bank p.gen).nodePath p.src p.dest).isNone) then p.src else p.dest

/-- A request that its destination already holds, in a tile's table or a stack's pools (R167, R188). -/
def State.heldAt (s : State) (p : Pkt) : Bool :=
  match nodeKind p.dest with
  | .tile k => (s.tile k).rreqs.contains p
  | .stack i _ => (mget {} s.stackRecs i).reads.contains p || (mget {} s.stackRecs i).writes.contains p
  | _ => false

/-- Packets of one flow: from one source and slot to one destination and queue, on one channel (R158). -/
def sameFlow (p q : Pkt) : Bool := p.src == q.src && p.srcSlot == q.srcSlot && p.dest == q.dest && p.queue == q.queue && p.vc == q.vc

/-- No packet of its flow was injected before a packet and is still in flight (R158). -/
def State.inOrder (s : State) (p : Pkt) : Bool :=
  s.heldAt p || match s.out.find? (fun e => match e with | .pkt q => sameFlow p q | _ => false) with
    | some (.pkt q) => { q with hops := p.hops } == p
    | _ => true

/-- A packet, or the rest of it, that waits stays in flight, in its place before all others of its flow. -/
def State.defer (s : State) (p : Pkt) : State := { s with out := .pkt p :: s.out }

/-- A packet reaches its destination, in its turn (R158): dropped with an ERROR where R168 says so, else handled. -/
def State.packet (s : State) (p : Pkt) (accepted : Bool) (run : State → State) : State :=
  if !s.inOrder p then s
  else
    let s := if s.heldAt p then s else s.takePkt p
    match s.packetFault p with
    | some c => s.dropPkt (s.detector p) p c 0
    | none => if accepted then run s else s.dropPkt p.dest p causeMisrouted 0

end Sys2Proof.Machine
end

