-- ==== Sys2Proof/Machine/Stack.lean ====
section
/-!
DEFINITION. HBM4 stacks on the Ihleth base die (chapter 07): stack space and its allocation, the KV directory and page
gather, erasure groups and their code, engine commands, scrub, temperature. An exchange of GROUP_READs that a
reconstruction needs is taken within the command that needs it (log entry 21).
-/
namespace Sys2Proof.Machine

-- ------------------------------------------------------------------ records

/-- A stack's record. -/
def State.stackUnit (s : State) (i : Nat) : StackUnit := mget {} s.stackRecs i
/-- The state with a stack's record replaced. -/
def State.setStack (s : State) (i : Nat) (x : StackUnit) : State := { s with stackRecs := mset {} s.stackRecs i x }
/-- The node of a stack's main function. -/
def stackNode (i : Nat) : Nat := siteNode (stackSite i)
/-- The stack that a main function's node names. -/
def stackOfNode (n : Nat) : Option Nat := match nodeKind n with | .stack i _ => some i | _ => none
/-- A member's entry for a group (R196). -/
def State.groupEnt (s : State) (i g : Nat) : GroupEnt := mget {} s.groupEnts (i * 256 + g)
/-- The state with a member's entry replaced. -/
def State.setGroupEnt (s : State) (i g : Nat) (e : GroupEnt) : State := { s with groupEnts := mset {} s.groupEnts (i * 256 + g) e }
/-- The hub's record of a group (R196). -/
def State.pgroup (s : State) (g : Nat) : PGroup := mget {} s.pgroups g
/-- The state with the hub's record of a group replaced. -/
def State.setPgroup (s : State) (g : Nat) (x : PGroup) : State := { s with pgroups := mset {} s.pgroups g x }

/-- A stack that holds data: its site ACTIVE and its DRAM in service (R30, R207). -/
def State.stackOnline (s : State) (i : Nat) : Bool :=
  decide (i < 32) && s.floorNow (oFloorSiteState (stackSite i)) == 1 && !(s.stackUnit i).offline

/-- The groups a stack is a member of. -/
def State.groupsOf (s : State) (i : Nat) : List Nat := (List.range 256).filter (fun g => (s.groupEnt i g).valid)

/-- Members lost of a group: 0xFFFF in its record. -/
def PGroup.lost (x : PGroup) : List Nat := (List.range 12).filter (fun m => x.members.getD m 0xFFFF == 0xFFFF)

/-- A group's published state (stack.panel.group_state). -/
def PGroup.state (x : PGroup) : Nat :=
  if x.members = [] then 0
  else match x.lost.length with
    | 0 => 1
    | 1 => if x.rebuild = [] then 2 else 4
    | 2 => 3
    | _ => 5

/-- The member that reconstructs (R200, R490): p0 while it lives, otherwise p1, else none. -/
def PGroup.reconstructor (x : PGroup) : Nat :=
  if x.members.getD 10 0xFFFF ≠ 0xFFFF then x.members.getD 10 0xFFFF else x.members.getD 11 0xFFFF

/-- A group event (chapter 07, Objects). -/
def State.groupEvent (s : State) (g kind member target : Nat) : State :=
  s.publish24 oStackPanelGroupEvent ([g, kind] ++ toLE 2 member ++ toLE 2 target)

/-- Groups with any member lost (stack.panel.groups_degraded). -/
def State.groupsDegraded (s : State) : Nat := (s.pgroups.filter (fun p => p.2.members != [] && p.2.lost != [])).length

-- ------------------------------------------------------------------ allocation (R191, R223)

/-- The lowest offset of a stack at which n bytes are free below a limit: ranges sorted by offset. -/
def firstFit (limit n : Nat) : Nat → List (Nat × Nat) → Option Nat
  | at', [] => if at' + n ≤ limit then some at' else none
  | at', (o, l) :: t => if at' + n ≤ o then some at' else firstFit limit n (max at' (o + l)) t

/-- The ranges allocated on a stack, in offset order. -/
def State.rangesOn (s : State) (i : Nat) : List (Nat × Nat) :=
  sortBy (·.1) ((s.allocs.filter (fun a => a.stack == i)).map (fun a => (a.off, a.len)))

/-- A dump stack (R191): its node is named in stack.panel.dump_stacks. -/
def State.isDumpStack (s : State) (i : Nat) : Bool :=
  let d := s.odGet oStackPanelDumpStacks
  d != 0 && (d % 65536 == stackNode i || d / 65536 == stackNode i)

/-- The end of the space that the placer may allocate on a stack (R191). -/
def State.stackLimit (s : State) (i : Nat) : Nat :=
  stackBytesOf s.variant - (if s.isDumpStack i then 0x100000000 else 0)

/-- Where n bytes would go on a stack, if they fit. -/
def State.fit (s : State) (i n : Nat) : Option Nat :=
  if s.stackOnline i then firstFit (s.stackLimit i) n 0 (s.rangesOn i) else none

/-- The state with a range allocated, or unchanged where it does not fit; and the offset. -/
def State.allocate (s : State) (i n owner : Nat) : Option (Nat × State) :=
  (s.fit i n).map (fun o => (o, { s with allocs := s.allocs ++ [⟨i, o, n, owner⟩] }))

/-- The state with every range of an owner freed. -/
def State.freeOwner (s : State) (owner : Nat) : State := { s with allocs := s.allocs.filter (fun a => a.owner != owner) }

/-- Bytes allocated on a stack (stack.unit.bytes_allocated). -/
def State.bytesAllocated (s : State) (i : Nat) : Nat := sumN ((s.rangesOn i).map (·.2))

/-- Owner keys of the placer's allocations. -/
def ownSlab (g m : Nat) : Nat := 1 * 2 ^ 40 + g * 16 + m
def ownCopy (slot sec copy : Nat) : Nat := 2 * 2 ^ 40 + slot * 2 ^ 34 + sec * 2 + copy
def ownStaging (slot : Nat) : Nat := 3 * 2 ^ 40 + slot
def ownSeam (slot n : Nat) : Nat := 4 * 2 ^ 40 + slot * 2 ^ 20 + n
def ownLane (lane layer : Nat) : Nat := 5 * 2 ^ 40 + lane * 2 ^ 16 + layer
def ownSaved (slot : Nat) : Nat := 6 * 2 ^ 40 + slot

/-- The furnish slot whose data an owner key names. -/
def State.ownerSlot (s : State) (owner : Nat) : Option Nat :=
  match owner / 2 ^ 40 with
  | 2 => some (owner % 2 ^ 40 / 2 ^ 34)
  | 4 => some (owner % 2 ^ 40 / 2 ^ 20)
  | 5 => (mlook s.lanes (owner % 2 ^ 40 / 2 ^ 16)).map (·.slot)
  | 6 => some (owner % 2 ^ 40)
  | _ => none

/-- GROUP_SET at a member (R196): role 0 to 9 data, 10 p0, 11 p1; what the entry kept of its deltas stays. -/
def State.groupSetAt (s : State) (i g role rows base : Nat) (members : List Nat) : State :=
  s.setGroupEnt i g { s.groupEnt i g with valid := true, role := role, slabRows := rows, slabBase := base, members := members }

/-- The rows of a new slab read zero (R197). -/
def State.zeroSlab (s : State) (i base rows : Nat) : State :=
  { s with mem := memZero s.mem (gaddr (stackNode i) base) (64 * rows) }

/-- A slab for a new group on each of some stacks, allocated in order: their offsets. -/
def State.allocSlabs (s : State) (g bytes : Nat) : Nat → List Nat → Option (List Nat × State)
  | _, [] => some ([], s)
  | m, i :: t =>
    match s.allocate i bytes (ownSlab g m) with
    | none => none
    | some (o, s1) => (State.allocSlabs (s1.zeroSlab i o (bytes / 64)) g bytes (m + 1) t).map (fun r => (o :: r.1, r.2))

/-- The stacks of a new group (R196): m0, then one stack from each of eleven other sectors, in ascending order of
memberships, ties to the lower node. -/
def State.groupStacks (s : State) (m0 bytes : Nat) : Option (List Nat) :=
  let ok (i : Nat) : Bool := s.stackOnline i && decide ((s.groupsOf i).length < 64) && (s.fit i bytes).isSome
  let cands := sortBy (fun i => (s.groupsOf i).length * 65536 + stackNode i) ((List.range 32).filter (fun i => ok i && i / 2 != m0 / 2))
  let pick := cands.foldl (fun l i => if l.length < 11 ∧ !(l.any (fun j => j / 2 == i / 2)) then l ++ [i] else l) []
  if ok m0 ∧ pick.length = 11 then some (m0 :: pick) else none

/-- A new erasure group with m0 on a stack (R196): its number and the state with it installed on its members. -/
def State.formGroup (s : State) (m0 bytes : Nat) : Option (Nat × State) :=
  match (List.range 256).find? (fun g => (s.pgroup g).members == []), s.groupStacks m0 bytes with
  | some g, some l =>
    (s.allocSlabs g bytes 0 l).map (fun r =>
      let nodes := l.map stackNode
      let s1 := r.2.setPgroup g { members := nodes, original := nodes, bases := r.1, slabRows := bytes / 64 }
      (g, (List.range 12).foldl (fun s m => s.groupSetAt (l.getD m 0) g m (bytes / 64) (r.1.getD m 0) nodes) s1))
  | _, _ => none

/-- Space of a data slab on a stack, in a group that has it or in a new one: group, offset in the stack, state. The
slab length of a new group is at least 1 GiB (log entry 22). -/
def State.allocData (s : State) (i bytes owner : Nat) : Option (Nat × Nat × State) :=
  let here := (List.range 256).findSome? (fun g =>
    let x := s.pgroup g
    (List.range 10).findSome? (fun m =>
      if x.members.getD m 0xFFFF = stackNode i ∧ x.members ≠ [] then
        (firstFit (64 * x.slabRows) bytes 0 (sortBy (·.1) ((x.used.filter (fun u => u.1 == m)).map (fun u => (u.2.1, u.2.2.1))))).map
          (fun o => (g, m, o))
      else none))
  let put (s : State) (g m o : Nat) : Nat × Nat × State :=
    let x := s.pgroup g
    (g, x.bases.getD m 0 + o, s.setPgroup g { x with used := x.used ++ [(m, o, bytes, owner)] })
  match here with
  | some (g, m, o) => some (put s g m o)
  | none => (s.formGroup i (max bytes 0x40000000)).map (fun r => put r.2 r.1 0 0)

/-- Every slab allocation of owners that meet a test freed. -/
def State.freeDataOf (s : State) (f : Nat → Bool) : State :=
  { s with pgroups := s.pgroups.map (fun p => (p.1, { p.2 with used := p.2.used.filter (fun u => !f u.2.2.2) })) }
/-- Every slab allocation of an owner freed. -/
def State.freeData (s : State) (owner : Nat) : State := s.freeDataOf (· == owner)
/-- Every KV extent of a lane freed. -/
def State.freeLaneData (s : State) (lane : Nat) : State := s.freeDataOf (fun o => o / 2 ^ 16 == ownLane lane 0 / 2 ^ 16)

-- ------------------------------------------------------------------ address mapping (R189)

/-- Where a byte offset of stack space lies in the DRAM: pseudo-channel, column unit, bank group, bank, stack ID, row. -/
structure DramAddr where
  channel : Nat
  column : Nat
  bankGroup : Nat
  bank : Nat
  stackId : Nat
  row : Nat
  deriving DecidableEq, Repr

/-- The mapping of R189, the same on every stack: the pseudo-channel is offset [11:6] XOR [17:12]; the rest are bits of the local
index, offset [35:12]. -/
def dramAddr (off : Nat) : DramAddr :=
  let l := off / 2 ^ 12 % 2 ^ 24
  { channel := (off / 2 ^ 6 % 64) ^^^ (off / 2 ^ 12 % 64), column := l % 16, bankGroup := l / 16 % 4, bank := l / 64 % 4,
    stackId := l / 256 % 4, row := l / 1024 }

-- ------------------------------------------------------------------ the code (R197)

/-- Multiplication in GF(2^8) with polynomial 0x11D, by shift and add. -/
def gfMulBits : Nat → Nat → Nat → Nat
  | 0, _, _ => 0
  | n + 1, a, b =>
    let a2 := a * 2
    (if b % 2 = 1 then a else 0) ^^^ gfMulBits n (if a2 ≥ 256 then a2 ^^^ 0x11D else a2) (b / 2)

def gfMul (a b : Nat) : Nat := gfMulBits 8 a b

/-- α^k. -/
def gfPow : Nat → Nat
  | 0 => 1
  | n + 1 => gfMul 2 (gfPow n)

/-- The inverse of a nonzero element: a^254. -/
def gfInv (a : Nat) : Nat := (List.range 253).foldl (fun x _ => gfMul x a) a

/-- A row times a constant, byte by byte. -/
def rowScaleBy (c : Nat) (r : Row) : Row := rowOf ((bytesOfRow r).map (gfMul c))

/-- The missing rows of a code row from the other ten (R197): member number and row. `have` lists the rows present. -/
def solveRow (got : List (Nat × Row)) (missing : List Nat) (m : Nat) : Row :=
  let data := got.filter (fun p => decide (p.1 < 10))
  let sum0 := data.foldl (fun a p => a ^^^ p.2) (0 : Row)
  let sum1 := data.foldl (fun a p => a ^^^ rowScaleBy (gfPow p.1) p.2) (0 : Row)
  let p0 := (got.find? (fun p => p.1 == 10)).map (·.2)
  let p1 := (got.find? (fun p => p.1 == 11)).map (·.2)
  let others := missing.filter (fun k => decide (k < 10) && k != m)
  let single : Row := match p0, p1 with
    | some q, _ => sum0 ^^^ q
    | none, some q => rowScaleBy (gfInv (gfPow m)) (sum1 ^^^ q)
    | none, none => 0
  if m < 10 then
    match others, p0, p1 with
    | y :: _, some q0, some q1 =>
      -- d_m ⊕ d_y = A and α^m d_m ⊕ α^y d_y = B
      let A := sum0 ^^^ q0
      let B := sum1 ^^^ q1
      rowScaleBy (gfInv (gfPow m ^^^ gfPow y)) (B ^^^ rowScaleBy (gfPow y) A)
    | _, _, _ => single
  else if m = 10 then sum0
  else sum1

/-- A member's own row of a group, read from its slab. -/
def State.memberRow (s : State) (g m j : Nat) : Row :=
  let x := s.pgroup g
  s.rowAt (x.members.getD m 0) (x.bases.getD m 0 + 64 * j)

/-- Whether a code row is open at some member (R199). -/
def State.rowOpen (s : State) (g j : Nat) : Bool :=
  (s.pgroup g).members.any (fun n => match stackOfNode n with
    | some i => (s.groupEnt i g).openRows.contains j
    | none => false)

/-- The code row that holds an offset of a stack is open (R199). -/
def State.codeOpen (s : State) (i off : Nat) : Bool :=
  s.groupEnts.any (fun p => p.1 / 256 == i && p.2.valid && decide (p.2.slabBase ≤ off) &&
    decide (off < p.2.slabBase + 64 * p.2.slabRows) && s.rowOpen (p.1 % 256) ((off - p.2.slabBase) / 64))

/-- Code rows reconstructed by a group's reconstructor (R200). -/
def State.countDegraded (s : State) (g n : Nat) : State :=
  match stackOfNode (s.pgroup g).reconstructor with
  | some i => s.bumpN (oStackUnitDegradedReads i) n
  | none => s

/-- The row of member m of code row j, reconstructed where the member is lost (R200, R490). -/
def State.groupRow (s : State) (g m j : Nat) : Row :=
  let x := s.pgroup g
  let lost := x.lost
  if !lost.contains m then s.memberRow g m j
  else
    let got := (List.range 12).filterMap (fun k => if lost.contains k then none else some (k, s.memberRow g k j))
    -- A lost data member that m does not depend on is solved first where m is a parity member.
    let got := if m < 10 then got else got ++ (lost.filter (fun k => decide (k < 10))).map (fun k => (k, solveRow got lost k))
    solveRow got lost m

-- ------------------------------------------------------------------ writes and parity (R198, R199)

/-- The group and role whose slab holds an offset of a stack. -/
def State.slabAt (s : State) (i off : Nat) : Option (Nat × GroupEnt) :=
  (List.range 256).findSome? (fun g =>
    let e := s.groupEnt i g
    if e.valid ∧ e.slabBase ≤ off ∧ off < e.slabBase + 64 * e.slabRows then some (g, e) else none)

/-- A PARITY_DELTA packet (R192). -/
def deltaPkt (src dst g member row seq : Nat) (delta : Row) : Pkt :=
  { dest := dst + 1, src := src, ptype := 0x15, vc := 0, txn := seq
    op := [g, member] ++ toLE 4 row ++ toLE 2 seq, body := [{ row := delta }] }

/-- The parity members that a member's entry names (R192), 0xFFFF none; the one that takes a delta first (R199, R490). -/
def GroupEnt.p0 (e : GroupEnt) : Nat := e.members.getD 10 0xFFFF
def GroupEnt.p1 (e : GroupEnt) : Nat := e.members.getD 11 0xFFFF
def GroupEnt.deltaTarget (e : GroupEnt) : Nat := if e.p0 ≠ 0xFFFF then e.p0 else e.p1

/-- A data-slab row changed by its member (R199): written, marked open, its delta kept and sent. Equal data changes
nothing; with both parity members lost the row is simply stored (R490). -/
def State.slabWrite (s : State) (i off g : Nat) (e : GroupEnt) (r : Row) : State :=
  let node := stackNode i
  let old := s.rowAt node off
  let s1 := s.putRow node off r
  let tgt := e.deltaTarget
  if old = r ∨ tgt = 0xFFFF then s1
  else
    let j := (off - e.slabBase) / 64
    let sq := e.seq + 1
    let d : Delta := ⟨g, e.role, j, sq, old ^^^ r⟩
    (s1.setGroupEnt i g { e with seq := sq, openRows := e.openRows ++ [j], heldDeltas := e.heldDeltas ++ [d] }).send
      (.pkt (deltaPkt node tgt g e.role j sq.toNat (old ^^^ r)))

/-- A row written to stack space: into a data slab with its delta, elsewhere plainly. -/
def State.stackWriteRow (s : State) (i off : Nat) (r : Row) : State :=
  match s.slabAt i off with
  | some (g, e) => if e.role < 10 then s.slabWrite i off g e r else s
  | none => s.putRow (stackNode i) off r

/-- Consecutive rows written to stack space. -/
def State.stackWriteRows (s : State) (i off : Nat) : List Row → State
  | [] => s
  | r :: t => (s.stackWriteRow i off r).stackWriteRows i (off + 64) t

/-- Some row of a range lies in a parity slab (R198). -/
def State.hitsParity (s : State) (i off n : Nat) : Bool :=
  s.groupEnts.any (fun p => p.1 / 256 == i && p.2.valid && decide (p.2.role ≥ 10) &&
    decide (p.2.slabBase < off + n) && decide (off < p.2.slabBase + 64 * p.2.slabRows))

/-- The lost data member of a group, and its slab base, whose slab lies at an offset (R201): of several the one in which an
allocation whose owner meets a test lies there, else one with any allocation there. -/
def State.lostAt (s : State) (g off : Nat) (mine : Nat → Bool) : Option (Nat × Nat) :=
  let x := s.pgroup g
  let l := (x.lost.map (fun m => (m, x.bases.getD m 0))).filter (fun p => decide (p.1 < 10) && decide (p.2 ≤ off) && decide (off < p.2 + 64 * x.slabRows))
  let holds (f : Nat → Bool) (p : Nat × Nat) : Bool :=
    x.used.any (fun u => u.1 == p.1 && decide (p.2 + u.2.1 ≤ off) && decide (off < p.2 + u.2.1 + u.2.2.1) && f u.2.2.2)
  match l.find? (holds mine), l.find? (holds (fun _ => true)) with
  | some p, _ => some p
  | none, some p => some p
  | none, none => l.head?

/-- What a stack itself holds at an offset: the owners of plain allocations and of space in its data slabs. -/
def State.ownersAt (s : State) (i off : Nat) : List Nat :=
  (s.allocs.filter (fun a => a.stack == i && decide (a.off ≤ off) && decide (off < a.off + a.len) && a.owner / 2 ^ 40 != 1)).map (·.owner) ++
  (match s.slabAt i off with
    | some (g, e) => if e.role < 10 then
        (((s.pgroup g).used.filter (fun u => u.1 == e.role && decide (e.slabBase + u.2.1 ≤ off) && decide (off < e.slabBase + u.2.1 + u.2.2.1))).map
          (·.2.2.2))
      else []
    | none => [])

/-- The data member of a group, and its slab base, in which an allocation whose owner meets a test lies at an offset. -/
def State.memberAt (s : State) (g off : Nat) (mine : Nat → Bool) : Option (Nat × Nat) :=
  let x := s.pgroup g
  (List.range 10).findSome? (fun m =>
    let b := x.bases.getD m 0
    if x.used.any (fun u => u.1 == m && decide (b + u.2.1 ≤ off) && decide (off < b + u.2.1 + u.2.2.1) && mine u.2.2.2) then some (m, b) else none)

/-- An offset in an extent of a stack's directory that another member of its group holds (R193, R201, log entry 51): group,
member and slab base. -/
def State.extentElsewhere (s : State) (i off slot : Nat) : Option (Nat × Nat × Nat) :=
  s.kv.findSome? (fun p =>
    let lane := p.1 / 64 % 256
    if p.1 / 16384 == i && p.2.valid && decide (p.2.base ≤ off) && decide (off < p.2.base + p.2.pages * 256 * p.2.entryBytes) &&
        (mlook s.lanes lane).map (·.slot) == some slot then
      (s.memberAt p.2.group off (fun o => o / 2 ^ 16 == ownLane lane 0 / 2 ^ 16)).bind (fun q =>
        if (s.pgroup p.2.group).members.getD q.1 0xFFFF = stackNode i then none else some (p.2.group, q.1, q.2))
    else none)

/-- A range of another member of an erasure group that a stack serves at an offset (R201, log entry 51): group, member and slab
base. That is an extent of its directory, or a lost member's range where it is the group's reconstructor. Where the stack's
own ranges lie at the same offset, those of the furnish that the sending tile belongs to come first. -/
def State.servedLost (s : State) (i off src : Nat) : Option (Nat × Nat × Nat) :=
  let slot := match nodeKind src with | .tile k => s.odGet (oFloorTileFurnish k) | _ => 0xFFFF
  let mine (o : Nat) : Bool := s.ownerSlot o == some slot
  let own := s.ownersAt i off
  let gs := s.pgroups.filter (fun p => p.2.members != [] && p.2.reconstructor == stackNode i && p.2.state != 5)
  let lost := gs.filterMap (fun p => (s.lostAt p.1 off mine).map (fun q => (p.1, q.1, q.2)))
  let used (p : Nat × Nat × Nat) : Bool := (s.pgroup p.1).used.any (fun u =>
    u.1 == p.2.1 && decide (p.2.2 + u.2.1 ≤ off) && decide (off < p.2.2 + u.2.1 + u.2.2.1) && mine u.2.2.2)
  match s.extentElsewhere i off slot with
  | some p => some p
  | none =>
    if own.any mine then none
    else match lost.find? used with
      | some p => some p
      | none => if own != [] then none else lost.head?

/-- The stack that keeps the delta of a row of a group's member: the member, or its group's reconstructor while it is lost. -/
def State.keeperOf (s : State) (g m i : Nat) : Nat :=
  let x := s.pgroup g
  (stackOfNode (if x.lost.contains m then x.reconstructor else x.members.getD m 0xFFFF)).getD i

/-- The stack that keeps the delta of a row at an offset of a stack. -/
def State.rowKeeper (s : State) (i off src : Nat) : Nat :=
  match s.servedLost i off src with
  | some (g, m, _) => s.keeperOf g m i
  | none => i

/-- The open code rows among a range of a stack, or of another member's range that it serves for a source. -/
def State.openIn (s : State) (i off n src : Nat) : List (Nat × Nat) :=
  ((List.range n).filterMap (fun k => match s.servedLost i (off + 64 * k) src with
    | some (g, m, b) =>
      let j := (off + 64 * k - b) / 64
      if (s.groupEnt (s.keeperOf g m i) g).openRows.contains j then some (g, j) else none
    | none => (s.slabAt i (off + 64 * k)).bind (fun p =>
      let j := (off + 64 * k - p.2.slabBase) / 64
      if p.2.openRows.contains j then some (p.1, j) else none)))

/-- A WRITE_ACK packet. -/
def ackPkt (src dst txn slot : Nat) : Pkt := { dest := dst, src := src, ptype := 4, vc := 1, txn := txn, srcSlot := slot }

/-- The acknowledgement by a stack `by'` of rows written at a stack: at once, or when their parity is complete (R187, R192). -/
def State.ackFrom (s : State) (by' i dst txn slot off n : Nat) : State :=
  let l := s.openIn i off n dst
  if l = [] then s.send (.pkt (ackPkt (stackNode by') dst txn slot))
  else
    let j := s.rowKeeper i off dst
    let u := s.stackUnit j
    s.setStack j { u with acks := u.acks ++ [⟨dst, txn, slot, l, by'⟩] }
/-- The acknowledgement of rows that a stack wrote in its own space (R187). -/
def State.ackWhenDone (s : State) (i dst txn slot off n : Nat) : State := s.ackFrom i i dst txn slot off n

/-- A code row of a member closes (R199 step 4): the delta is dropped, and what waited for the row goes out. -/
def State.closeRow (s : State) (i g m seq : Nat) : State :=
  let e := s.groupEnt i g
  match e.heldDeltas.find? (fun d => d.member == m && d.seq.toNat == seq) with
  | none => s
  | some d =>
    let e1 := { e with heldDeltas := dropFirst (fun d => d.member == m && d.seq.toNat == seq) e.heldDeltas,
                       openRows := dropFirst (· == d.row) e.openRows }
    let still := e1.openRows.contains d.row
    let (go, keep) := e1.heldReads.partition (fun p => !still && leAt p.op 2 4 == d.row)
    let s1 := s.setGroupEnt i g { e1 with heldReads := keep }
    let s2 := go.foldl (fun s p => s.send (.pkt {
      dest := p.src, src := stackNode i, ptype := 5, vc := 1, txn := p.txn
      body := [{ row := s.rowAt (stackNode i) (e.slabBase + 64 * d.row) }] })) s1
    let u := s2.stackUnit i
    let acks := u.acks.map (fun a => if still then a else { a with rows := a.rows.filter (· != (g, d.row)) })
    let done := acks.filter (fun a => a.rows == [])
    (s2.setStack i { u with acks := acks.filter (fun a => a.rows != []) }).sendAll
      (done.map (fun a => .pkt (ackPkt (stackNode a.by') a.dst a.txn a.slot)))

-- ------------------------------------------------------------------ sources and engine packets (R192)

/-- The outcome of an engine command packet at a stack's function 1: taken from the fabric; dropped and answered ERROR where
R168 says so, where the node is no stack engine, where the type or the source does not fit, where operand bytes that its
command does not use are nonzero (`used` of them it uses; R11, log entry 106) and where the stack is offline (R207); in a
forced scrub pause it waits in flight (R396). -/
def State.engine (s : State) (p : Pkt) (ptype used : Nat) (allowed : Nat → Bool) (run : Nat → State → State) :
    Host.Outcome State Fault Refusal :=
  let s0 := s
  let s := s.takePkt p
  .next (if !s0.inOrder p then s0 else match s.packetFault p with
    | some c => s.dropPkt (s.detector p) p c 0
    | none => match nodeKind p.dest with
      | .stack i f =>
        if f ≠ 1 ∨ p.ptype ≠ ptype ∨ (p.op.drop used).any (· != 0) then s.dropPkt p.dest p causeMisrouted 0
        else if (s.stackUnit i).offline then s.dropPkt p.dest p 0x0014 0
        else if ptype ≠ 0x18 ∧ s.clk < (s.stackUnit i).pauseUntil then s0
        else if !allowed i then s.dropPkt p.dest p causeFirmwareOnly 0
        else run i s
      | _ => s.dropPkt p.dest p causeMisrouted 0)

/-- The command comes from hub firmware. -/
def fromHub (p : Pkt) (_ : Nat) : Bool := isHubNode p.src
/-- The command comes from a base die of the group that it names, by the member's own entry (R192). -/
def State.fromMember (s : State) (p : Pkt) (i : Nat) : Bool := (s.groupEnt i (leAt p.op 0 1)).members.contains (p.src / 64 * 64)

/-- FILL (R192). -/
def execStackFill (dt : Nat) (p : Pkt) (s : State) : Host.Outcome State Fault Refusal :=
  (s.tick dt).engine p 0x11 20 (fromHub p) (fun i s =>
    let off := leAt p.op 0 6
    let len := leAt p.op 6 6
    if len % 64 ≠ 0 ∨ off % 64 ≠ 0 ∨ off + len > stackBytesOf s.variant then s.dropPkt p.dest p causeBuffer (gaddr (stackNode i) off)
    else if s.hitsParity i off len then s.dropPkt p.dest p causeFirmwareOnly (gaddr (stackNode i) off)
    else
      let row := BitVec.ofNat 512 (packCodes 64 (List.replicate 8 (leAt p.op 12 8)))
      (s.stackWriteRows i off (List.replicate (len / 64) row)).ackWhenDone i p.src p.txn p.srcSlot off (len / 64))

/-- Rows written at a node by a base die or a hub: into stack space, or into a tile's scratchpad. -/
def State.writeNode (s : State) (node off : Nat) (rows : List Row) : State :=
  match nodeKind node with
  | .stack i _ => s.stackWriteRows i off rows
  | .tile k => s.putRows k off rows
  | _ => s

/-- A node's memory answers: a tile's scratchpad, or a stack that is not OFFLINE (R207). -/
def State.readable (s : State) (node : Nat) : Bool :=
  match nodeKind node with
  | .stack i _ => !(s.stackUnit i).offline
  | _ => true

/-- A range that hub firmware may write: in service, and no row of a parity slab (R198, R207). -/
def State.writable (s : State) (node off n : Nat) : Bool :=
  s.readable node && (match nodeKind node with
    | .stack i _ => !s.hitsParity i off n
    | _ => true)

/-- COPY (R192): to a stack or a tile; the answer follows the destination's acknowledgement, taken with it (log 21). -/
def execStackCopy (dt : Nat) (p : Pkt) (s : State) : Host.Outcome State Fault Refusal :=
  (s.tick dt).engine p 0x12 20 (fromHub p) (fun i s =>
    let off := leAt p.op 0 6
    let len := leAt p.op 6 6
    let dst := leAt p.op 12 2
    let doff := leAt p.op 14 6
    if len % 64 ≠ 0 ∨ off % 64 ≠ 0 ∨ doff % 64 ≠ 0 ∨ off + len > stackBytesOf s.variant ∨ !s.validRange dst doff len then
      s.dropPkt p.dest p causeBuffer (gaddr dst doff)
    else
      let rows := s.rowsAt (stackNode i) off (len / 64)
      match nodeKind dst with
      | .stack j _ =>
        if (s.stackUnit j).offline then s.dropPkt p.dest p 0x0014 (gaddr dst doff)
        else if s.hitsParity j doff len then s.dropPkt p.dest p causeFirmwareOnly (gaddr dst doff)
        else (s.stackWriteRows j doff rows).ackFrom i j p.src p.txn p.srcSlot doff (len / 64)
      | _ => (s.writeNode dst doff rows).send (.pkt (ackPkt (stackNode i) p.src p.txn p.srcSlot)))

/-- A directory entry written (R193). -/
def State.dirPut (s : State) (i lane key : Nat) (e : KvEnt) : State := { s with kv := mset {} s.kv (kvKey i lane key) e }

/-- DIR_SET (R192, R193). -/
def execDirSet (dt : Nat) (p : Pkt) (s : State) : Host.Outcome State Fault Refusal :=
  (s.tick dt).engine p 0x13 14 (fromHub p) (fun i s =>
    let n := leAt p.op 8 2
    let e : KvEnt := if leAt p.op 13 1 = 1 then
        { valid := true, base := leAt p.op 2 6, entryBytes := n, pages := leAt p.op 10 2, group := leAt p.op 12 1 }
      else {}
    if leAt p.op 1 1 ≥ 64 ∨ leAt p.op 13 1 ≥ 2 ∨ (e.valid ∧ (n % 64 ≠ 0 ∨ n = 0 ∨ 4096 < n)) then s.dropPkt p.dest p causeMisrouted 0
    else (s.dirPut i (leAt p.op 0 1) (leAt p.op 1 1) e).send (.pkt (ackPkt (stackNode i) p.src p.txn p.srcSlot)))

/-- A lane's directory entries of a stack cleared (R193). -/
def State.dirClear (s : State) (i lane : Nat) : State :=
  { s with kv := mclear s.kv (kvKey i lane 0) (kvKey i lane 64) }

/-- DIR_CLEAR (R192, R193). -/
def execDirClear (dt : Nat) (p : Pkt) (s : State) : Host.Outcome State Fault Refusal :=
  (s.tick dt).engine p 0x19 1 (fromHub p) (fun i s =>
    (s.dirClear i (leAt p.op 0 1)).send (.pkt (ackPkt (stackNode i) p.src p.txn p.srcSlot)))

/-- GROUP_SET (R192, R196). -/
def execGroupSet (dt : Nat) (p : Pkt) (s : State) : Host.Outcome State Fault Refusal :=
  (s.tick dt).engine p 0x14 36 (fromHub p) (fun i s =>
    let members := (List.range 12).map (fun k => leAt p.op (12 + 2 * k) 2)
    if leAt p.op 1 1 ≥ 12 then s.dropPkt p.dest p causeMisrouted 0
    else (s.groupSetAt i (leAt p.op 0 1) (leAt p.op 1 1) (leAt p.op 2 4) (leAt p.op 6 6) members).send
      (.pkt (ackPkt (stackNode i) p.src p.txn p.srcSlot)))

/-- The allocation that holds a lane's extent named by a directory key of a stack (R193, R229). -/
def State.extentOwner (s : State) (i lane key : Nat) : Nat → Bool :=
  match (mlook s.lanes lane).bind (fun x => ((mget {} s.pslots x.slot).placed).bind (fun p => p.kvHome.find? (fun h => h.2.1 == i && h.2.2 == key))) with
  | some h => (· == ownLane lane h.1)
  | none => fun _ => false

/-- The group's member that holds a row of an extent, where it is not the stack itself (R201): by the allocation, or a lost
member's slab where the stack is no data member of the group. -/
def State.extentLost (s : State) (i g off : Nat) (mine : Nat → Bool) : Option (Nat × Nat) :=
  match s.memberAt g off mine with
  | some (m, b) => if (s.pgroup g).members.getD m 0xFFFF = stackNode i then none else some (m, b)
  | none => if (s.groupEnt i g).valid ∧ (s.groupEnt i g).role < 10 then none else s.lostAt g off mine

/-- A code row that another member's extent needs at an offset is open: its reconstruction waits (R200). -/
def State.extentOpen (s : State) (i g off : Nat) (mine : Nat → Bool) : Bool :=
  match s.extentLost i g off mine with
  | some (_, b) => s.rowOpen g ((off - b) / 64)
  | none => false

/-- A row of stack space as GATHER reads it: the stack's own, or another member's, reconstructed where that is lost (R200,
R201). -/
def State.extentRow (s : State) (i g off : Nat) (mine : Nat → Bool) : Row :=
  match s.extentLost i g off mine with
  | some (m, b) => s.groupRow g m ((off - b) / 64)
  | none => s.rowAt (stackNode i) off

/-- A code row that a stack would reconstruct for an offset is open (R200). -/
def State.servedOpen (s : State) (i off src : Nat) : Bool :=
  match s.servedLost i off src with
  | some (g, _, b) => s.rowOpen g ((off - b) / 64)
  | none => false

/-- The rows of a range that a READ at a stack has reconstructed, counted at the reconstructor (R200). -/
def State.countServed (s : State) (i off n src : Nat) : State :=
  (List.range n).foldl (fun s k => match s.servedLost i (off + 64 * k) src with
    | some (g, m, _) => if (s.pgroup g).lost.contains m then s.countDegraded g 1 else s
    | none => s) s

/-- A row that a READ at a stack answers (R187, R201). -/
def State.servedRow (s : State) (i off src : Nat) : Row :=
  match s.servedLost i off src with
  | some (g, m, b) => s.groupRow g m ((off - b) / 64)
  | none => s.rowAt (stackNode i) off

/-- A row written to a lost member's extent (R199, R201, log entry 51): the reconstructor, in the member's place, takes the
change into its own parity row under the member's next sequence number, and as p0 passes it on to p1. -/
def State.lostWrite (s : State) (i g m j : Nat) (r : Row) : State :=
  let d := s.groupRow g m j ^^^ r
  let e := s.groupEnt i g
  if d = 0 then s
  else
    let sq : BitVec 16 := (match mlook e.applied m with | some a => a | none => 0) + 1
    let off := e.slabBase + 64 * j
    let s1 := (s.putRow (stackNode i) off (s.rowAt (stackNode i) off ^^^ (if e.role = 10 then d else rowScaleBy (gfPow m) d))).bump
      (oStackUnitParityDeltas i)
    let e1 := { e with applied := mins e.applied m sq }
    if e.role = 10 ∧ e.p1 ≠ 0xFFFF then
      let e2 := { e1 with openRows := e.openRows ++ [j], heldDeltas := e.heldDeltas ++ [⟨g, m, j, sq, d⟩] }
      (s1.setGroupEnt i g e2).send (.pkt (deltaPkt (stackNode i) e.p1 g m j sq.toNat d))
    else s1.setGroupEnt i g e1

/-- Consecutive rows that a WRITE brings to a stack: its own, or another member's that it serves. -/
def State.servedWrite (s : State) (i off src : Nat) : List Row → State
  | [] => s
  | r :: t =>
    (match s.servedLost i off src with
      | some (g, m, b) =>
        if (s.pgroup g).lost.contains m then s.lostWrite (s.keeperOf g m i) g m ((off - b) / 64) r
        else s.stackWriteRow (s.keeperOf g m i) off r
      | none => s.stackWriteRow i off r).servedWrite i (off + 64) src t

/-- Which placer owns a row: the other copy of a weight section's copy, as node and offset. -/
def State.otherCopy (s : State) (i off : Nat) : Option (Nat × Nat) :=
  match s.allocs.find? (fun a => a.stack == i && decide (a.off ≤ off) && decide (off < a.off + a.len) && a.owner / 2 ^ 40 == 2) with
  | none => none
  | some a => (s.allocs.find? (fun b => b.owner / 2 == a.owner / 2 && b.owner != a.owner)).map
      (fun b => (stackNode b.stack, b.off + (off - a.off)))

/-- What an uncorrectable row holds, from what the panel has of it elsewhere (R188, R204): reconstructed in a slab
(false: not rewritten by a READ), or the other copy's row of a weight section (true). -/
def State.goodRow (s : State) (i off : Nat) : Option (Row × Bool) :=
  match s.slabAt i off with
  | some (g, e) =>
    let j := (off - e.slabBase) / 64
    let x := s.pgroup g
    let got := (List.range 12).filterMap (fun k => if k = e.role ∨ x.lost.contains k then none else some (k, s.memberRow g k j))
    let lost := e.role :: x.lost
    if lost.length > 2 then none
    else if e.role < 10 then some (solveRow got lost e.role, false)
    else some (solveRow (got ++ (x.lost.filter (fun k => decide (k < 10))).map (fun k => (k, solveRow got lost k))) lost e.role, false)
  | none => (s.otherCopy i off).map (fun p => (s.rowAt p.1 p.2, true))

/-- GATHER (R194): lookup, the entries written to the tile in ascending position, then WRITE_ACK. A bad position or
entry fails the whole command with cause 0x0008; a group that is LOST fails it with the hardware cause (R202). The on-die
ECC reports rows corrected and rows that it cannot correct, which are reconstructed (R185, R188). -/
def execGather (dt : Nat) (g : Gathering) (s : State) : Host.Outcome State Fault Refusal :=
  let p := g.pkt
  let corrected := g.ecc.corrected
  let bad := g.ecc.bad
  (s.tick dt).engine p 0x10 12 (fun _ => isTile p.src) (fun i s =>
    let pos := leAt p.op 0 4
    let cnt := leAt p.op 4 2
    let lane := leAt p.op 6 1
    let key := leAt p.op 7 1
    let e := if key < 64 then mget {} s.kv (kvKey i lane key) else {}
    let mine := s.extentOwner i lane key
    let tile := leAt p.op 8 2
    let row := leAt p.op 10 2
    let n := cnt * (e.entryBytes / 64)
    let off := e.base + pos * e.entryBytes
    let lost := (List.range n).filter (fun k => match s.extentLost i e.group (off + 64 * k) mine with
      | some (m, _) => (s.pgroup e.group).lost.contains m
      | none => false)
    let hit := (List.range n).filter (fun k => bad.contains (off + 64 * k) && !lost.contains k)
    if !e.valid ∨ pos + cnt > e.pages * 256 ∨ !isTile tile ∨ row + n > 65536 then
      s.dropPkt p.dest p causeBuffer (gaddr (stackNode i) off)
    else if (s.pgroup e.group).state = 5 then s.dropPkt p.dest p 0x0015 (gaddr (stackNode i) off)
    else if lost.any (fun k => s.extentOpen i e.group (off + 64 * k) mine) ∨ hit.any (fun k => s.codeOpen i (off + 64 * k)) then s.defer p
    else
      let s0 := (s.bumpN (oStackUnitEccCorrected i) (min corrected n)).bumpN (oStackUnitEccUncorrected i) hit.length
      match hit.find? (fun k => (s.goodRow i (off + 64 * k)).isNone) with
      | some k => s0.dropPkt p.dest p 0x0013 (gaddr (stackNode i) (off + 64 * k))
      | none =>
        let rows := (List.range n).map (fun k =>
          if hit.contains k then ((s.goodRow i (off + 64 * k)).map (·.1)).getD 0 else s.extentRow i e.group (off + 64 * k) mine)
        let s1 := (s0.putRows tile (64 * row) rows).setTags tile row true (match (s.tile tile).regionOfRow row with
          | some (_, r) => if rHonoured r then n else 0
          | none => 0)
        let s2 := s1.countDegraded e.group (lost.length + hit.length)
        s2.send (.pkt (ackPkt (stackNode i) p.src p.txn p.srcSlot)))

/-- PARITY_DELTA (R199, R490). -/
def execParityDelta (dt : Nat) (p : Pkt) (s : State) : Host.Outcome State Fault Refusal :=
  (s.tick dt).engine p 0x15 8 (s.fromMember p) (fun i s =>
    let g := leAt p.op 0 1
    let m := leAt p.op 1 1
    let j := leAt p.op 2 4
    let sq := leAt p.op 6 2
    let delta := (p.body.headD {}).row
    let e := s.groupEnt i g
    let node := stackNode i
    let member := e.members.getD m 0xFFFF
    let p1 := e.p1
    let ack (s : State) (dst : Nat) : State :=
      if dst = 0xFFFF then s else s.send (.pkt { ackPkt node dst sq 0xF with retOffset := g * 16 + m })
    if !e.valid ∨ e.role < 10 then s.dropPkt p.dest p causeMisrouted 0
    else
      let fresh := match mlook e.applied m with
        | some a => newer 16 a.toNat sq
        | none => true
      let d : Delta := ⟨g, m, j, BitVec.ofNat 16 sq, delta⟩
      let off := e.slabBase + 64 * j
      let add := if e.role = 10 then delta else rowScaleBy (gfPow m) delta
      let s1 := if fresh then
          ((s.putRow node off (s.rowAt node off ^^^ add)).setGroupEnt i g
            { e with applied := mins e.applied m (BitVec.ofNat 16 sq),
                     heldDeltas := if e.role = 10 ∧ p1 ≠ 0xFFFF then e.heldDeltas ++ [d] else e.heldDeltas }).bump
            (oStackUnitParityDeltas i)
        else s
      if e.role = 10 ∧ p1 ≠ 0xFFFF then
        if fresh then s1.send (.pkt (deltaPkt node p1 g m j sq delta)) else s1
      else
        let s2 := ack s1 member
        if e.role = 11 then ack s2 e.p0 else s2)

/-- GROUP_READ (R200): answered once the row is not open. -/
def execGroupRead (dt : Nat) (p : Pkt) (s : State) : Host.Outcome State Fault Refusal :=
  (s.tick dt).engine p 0x16 6 (s.fromMember p) (fun i s =>
    let g := leAt p.op 0 1
    let j := leAt p.op 2 4
    let e := s.groupEnt i g
    if !e.valid ∨ j ≥ e.slabRows then s.dropPkt p.dest p causeBuffer 0
    else if e.openRows.contains j then s.setGroupEnt i g { e with heldReads := e.heldReads ++ [p] }
    else s.send (.pkt { dest := p.src, src := stackNode i, ptype := 5, vc := 1, txn := p.txn,
                        body := [{ row := s.rowAt (stackNode i) (e.slabBase + 64 * j) }] }))

-- ------------------------------------------------------------------ loss and rebuild (R201, R202)

/-- What a group does with the deltas under way once a parity member is lost (R199, R490): without p0 every member sends what
it still holds to p1; without p1, p0 acknowledges what it holds; without both, the rows are stored and close. -/
def State.parityLost (s : State) (g m : Nat) : State :=
  let x := s.pgroup g
  let p0 := x.members.getD 10 0xFFFF
  let p1 := x.members.getD 11 0xFFFF
  let data := (x.members.take 10).filterMap stackOfNode
  let held (i : Nat) : List Delta := (s.groupEnt i g).heldDeltas
  if p0 = 0xFFFF ∧ p1 = 0xFFFF then
    data.foldl (fun s i => (held i).foldl (fun s d => s.closeRow i g d.member d.seq.toNat) s) s
  else if m = 10 then
    data.foldl (fun s i => s.sendAll ((held i).map (fun d => .pkt (deltaPkt (stackNode i) p1 g d.member d.row d.seq.toNat d.delta)))) s
  else match stackOfNode p0 with
    | none => s
    | some j =>
      (s.setGroupEnt j g { s.groupEnt j g with heldDeltas := [] }).sendAll ((held j).map (fun d =>
        .pkt { ackPkt p0 (x.members.getD d.member 0xFFFF) d.seq.toNat 0xF with retOffset := g * 16 + d.member }))

/-- A member of a group marked lost; a third loss makes the group LOST (R202). -/
def State.loseMember (s : State) (g node : Nat) : State :=
  let x := s.pgroup g
  match findIdx (· == node) x.members with
  | none => s
  | some m =>
    let x1 := { x with members := setAt x.members m 0xFFFF }
    -- The surviving members' entries follow (GROUP_SET, log entry 21).
    let s0 := (x1.members.filterMap stackOfNode).foldl (fun s i =>
      if (s.groupEnt i g).valid then s.setGroupEnt i g { s.groupEnt i g with members := x1.members } else s) (s.setPgroup g x1)
    let s1 := (if m ≥ 10 then s0.parityLost g m else s0).groupEvent g 1 node x1.reconstructor
    if x1.state = 5 then s1.groupEvent g 4 node 0xFFFF else s1

/-- A rebuild may write into a stack: online, in a sector without another member or target of the group, with a slab free
(R196, R202). -/
def State.rebuildTarget (s : State) (g : Nat) : Option Nat :=
  let x := s.pgroup g
  let ok (i : Nat) : Bool :=
    s.stackOnline i && decide ((s.groupsOf i).length < 64) && (s.fit i (64 * x.slabRows)).isSome &&
    !((x.members ++ x.rebuild.map (·.target)).any (fun n => match stackOfNode n with | some j => n != 0xFFFF && j / 2 == i / 2 | none => false))
  (sortBy (fun i => (s.groupsOf i).length * 65536 + stackNode i) ((List.range 32).filter ok)).head?

/-- A rebuild of a lost member starts into a target slab (R202). -/
def State.startRebuild (s : State) (g m : Nat) : State :=
  match s.rebuildTarget g with
  | none => s
  | some i =>
    match s.allocate i (64 * (s.pgroup g).slabRows) (ownSlab g m) with
    | none => s
    | some (o, s1) =>
      let x := s1.pgroup g
      (s1.setPgroup g { x with rebuild := x.rebuild ++ [{ lost := m, target := stackNode i, base := o }] }).groupEvent g 2 (x.original.getD m 0) (stackNode i)

/-- REBUILD (R192, R202): the hub names the lost member, target node and slab base. -/
def execRebuild (dt : Nat) (p : Pkt) (s : State) : Host.Outcome State Fault Refusal :=
  (s.tick dt).engine p 0x17 10 (fromHub p) (fun i s =>
    let g := leAt p.op 0 1
    let m := leAt p.op 1 1
    let x := s.pgroup g
    if !(match stackOfNode (leAt p.op 2 2) with | some _ => s.validRange (leAt p.op 2 2) (leAt p.op 4 6) (64 * x.slabRows) | none => false) then
      s.dropPkt p.dest p causeBuffer (gaddr (leAt p.op 2 2) (leAt p.op 4 6))
    else if x.lost.contains m ∧ x.lost.length ≤ 2 ∧ !(x.rebuild.any (fun r => r.lost == m)) then
      let r : Rebuild := ⟨m, leAt p.op 2 2, leAt p.op 4 6, some (ackPkt (stackNode i) p.src p.txn p.srcSlot)⟩
      (s.setPgroup g { x with rebuild := x.rebuild ++ [r] }).groupEvent g 2
        (x.original.getD m 0xFFFF) (leAt p.op 2 2)
    else s)

/-- A rebuild's last row done (R202): the slab filled, GROUP_SET on all members. -/
def State.completeRebuild (s : State) (g : Nat) (r : Rebuild) : State :=
  let x := s.pgroup g
  match stackOfNode r.target with
  | none => s
  | some i =>
    let s1 := (List.range x.slabRows).foldl (fun s j => s.putRow r.target (r.base + 64 * j) (s.groupRow g r.lost j)) s
    let x1 := { x with members := setAt x.members r.lost r.target, original := setAt x.original r.lost r.target,
                       bases := setAt x.bases r.lost r.base, rebuild := x.rebuild.filter (fun q => q.lost != r.lost) }
    let s3 := s1.setPgroup g x1
    let applied := match x1.members.findSome? (fun n => (stackOfNode n).bind (fun j =>
        if j ≠ i ∧ (s.groupEnt j g).role ≥ 10 ∧ n ≠ 0xFFFF then some (s.groupEnt j g).applied else none)) with
      | some a => a
      | none => []
    let s4 := (List.range 12).foldl (fun s m => match stackOfNode (x1.members.getD m 0xFFFF) with
      | some j => s.groupSetAt j g m x1.slabRows (x1.bases.getD m 0) x1.members
      | none => s) s3
    -- A data member goes on from the sequence number that the parity members applied last (R199).
    let s5 := s4.setGroupEnt i g (if r.lost ≥ 10 then { s4.groupEnt i g with applied := applied }
      else { s4.groupEnt i g with seq := mget 0 applied r.lost })
    let s6 := if r.lost < 10 then s5.countDegraded g x.slabRows else s5
    ((s6.groupEvent g 3 (x.original.getD r.lost 0xFFFF) r.target).bump oStackPanelRebuilds).sendAll (r.answer.toList.map .pkt)

-- ------------------------------------------------------------------ scrub (R204)

/-- An uncorrectable row that scrub found, counted and rewritten where its content is known (R204). -/
def State.badRow (s : State) (i off : Nat) : State :=
  let s1 := s.bump (oStackUnitEccUncorrected i)
  match s.goodRow i off with
  | some (r, _) => (match s.slabAt i off with
    | some (g, e) => if e.role < 10 then s1.countDegraded g 1 else s1
    | none => s1).putRow (stackNode i) off r
  | none => s1

/-- SCRUB (R192, R204): a range at once; the on-die ECC reports rows corrected and rows it cannot correct. A row to
reconstruct waits while its code row is open (R200). -/
def execScrub (dt : Nat) (p : Pkt) (corrected : Nat) (bad : List Nat) (s : State) : Host.Outcome State Fault Refusal :=
  (s.tick dt).engine p 0x18 12 (fromHub p) (fun i s =>
    let off := leAt p.op 0 6
    let len := leAt p.op 6 6
    let rows := bad.filter (fun o => decide (off ≤ o) && decide (o < off + len) && o % 64 == 0)
    if off % 64 ≠ 0 ∨ len % 64 ≠ 0 ∨ off + len > stackBytesOf s.variant then s.dropPkt p.dest p causeBuffer (gaddr (stackNode i) off)
    else if rows.any (fun o => s.codeOpen i o) then s.defer p
    else ((rows.foldl (fun s o => s.badRow i o) (s.bumpN (oStackUnitEccCorrected i) corrected))).send
      (.pkt (ackPkt (stackNode i) p.src p.txn p.srcSlot)))

/-- SCRUB_PASS (R204): a whole pass over a stack's space ends. -/
def execScrubPass (dt site corrected : Nat) (bad : List Nat) (s : State) : Host.Outcome State Fault Refusal :=
  let s := s.tick dt
  let i := stackIdx site
  let rows := bad.filter (fun o => decide (o < stackBytesOf s.variant) && o % 64 == 0)
  onStack site s (if (s.stackUnit i).offline ∨ rows.any (fun o => s.codeOpen i o) then s else
    let s1 := rows.foldl (fun s o => s.badRow i o) (s.bumpN (oStackUnitEccCorrected i) corrected)
    ((s1.odSet (oStackUnitScrubLast i) s1.now).odSet (oStackUnitScrubLagH i) 0).setStack i
      { s1.stackUnit i with scrubStart := s1.clk })

-- ------------------------------------------------------------------ temperature (R205 to R207)

/-- The level a temperature enters from a level (R205): up at once, down 3 °C below the threshold. -/
def stackLevel (old : Nat) (mc : Int) : Nat :=
  let up := if mc ≥ 105000 then 3 else if mc ≥ 95000 then 2 else if mc ≥ 85000 then 1 else 0
  if up ≥ old then up
  else
    let keep := if mc > 102000 then 3 else if mc > 92000 then 2 else if mc > 82000 then 1 else 0
    max up (min old keep)

/-- A signed 32-bit object's value. -/
def s32 (i : Int) : Nat := ofSigned 32 i

/-- A dispute event (R356, R206). -/
def State.dispute (s : State) (site spot kind : Nat) (a b : Int) : State :=
  s.publish24 oThermalPanelDispute ([site, spot, kind, 0] ++ toLE 4 (s32 a) ++ toLE 4 (s32 b))

/-- A fault decided by the hub joins those that wait for repair (R382, R383); in FATAL nothing is repaired any more (R458). -/
def State.reportFault (s : State) (kind ident cause : Nat) : State :=
  if s.dev = 7 ∨ s.faults.any (fun f => f.kind == kind && f.ident == ident) then s
  else
    let f : FaultJob := { kind := kind, ident := ident, at' := s.clk, cause := cause, time := s.now }
    { s with faults := s.faults ++ [f] }

/-- A recovery record goes into the log and out as an event, and counts (R402); that of a second fault as one (R397). -/
def State.recordRepair (s : State) (r : List Nat) (second : Bool) : State :=
  let s1 := ({ s with faultLog := lastN 64 (s.faultLog ++ [r]) } : State)
  let s2 := (s1.publish oFaultPanelEvent r).bump oFaultPanelRecoveries
  if second then (s2.publish oFaultPanelDoubleFault r).bump oFaultPanelDoubleFaults else s2

/-- A fault comes during a recovery, or while a lane is REFILLING (R397). -/
def State.amidRecovery (s : State) : Bool := s.faults.any (·.contained) || s.lanes.any (fun p => p.2.refilling)

/-- The record of a fault whose repair is over where it is found: a brick (kind 9), an optical module (kind 10) (R383). -/
def State.instantRepair (s : State) (kind which : Nat) (lapsed : Bool) : State :=
  if s.dev = 7 then s
  else
    let second := s.amidRecovery
    s.recordRepair ([kind, (if second then 1 else 0) + (if second || lapsed then 4 else 0)] ++ toLE 2 0 ++ toLE 2 which ++ toLE 2 0 ++ toLE 4 0 ++
      toLE 4 0 ++ toLE 8 s.now) second

/-- A stack goes OFFLINE (R207): no further DRAM access; its loss waits for recovery. -/
def State.stackOffline (s : State) (i : Nat) : State :=
  let g := stackSite i
  let s1 := s.setStack i { s.stackUnit i with offline := true, coolFrom := none }
  ((s1.stageFloor (oFloorSiteState g) 5).stageFloor (oFloorSiteCause g) 7).reportFault 4 g 0x14

/-- The suspect mark of a base-die sensor after a sample (R206): the record, and the change: 2 marked, 3 cleared. -/
def StackUnit.judge (u : StackUnit) (clk : Nat) (base dram : Int) : StackUnit × Nat :=
  let d := (base - dram).natAbs
  if !u.suspect then
    if d > 4000 then
      match u.offFrom with
      | none => ({ u with offFrom := some clk }, 0)
      | some t => if t + 10 ^ 9 ≤ clk then ({ u with suspect := true, offFrom := none, backFrom := none }, 2) else (u, 0)
    else ({ u with offFrom := none }, 0)
  else if d ≤ 2000 then
    match u.backFrom with
    | none => ({ u with backFrom := some clk }, 0)
    | some t => if t + 60 * 10 ^ 9 ≤ clk then ({ u with suspect := false, backFrom := none }, 3) else (u, 0)
  else ({ u with backFrom := none }, 0)

/-- STACK_TEMP_SAMPLE (R205, R206): the base-die sensor and the hottest DRAM readout, in m°C. -/
def execStackTempSample (dt site : Nat) (baseMc dramMc : Int) (s : State) : Host.Outcome State Fault Refusal :=
  let s := s.tick dt
  let i := stackIdx site
  let (u, ch) := (s.stackUnit i).judge s.clk baseMc dramMc
  let temp := if u.suspect then dramMc else max baseMc dramMc
  let old := s.odGet (oStackUnitLevel i)
  -- A stack that went OFFLINE stays so until it rejoins (R207).
  let lvl := if u.offline then 3 else stackLevel old temp
  let cool := if temp < 80000 then (match u.coolFrom with | none => some s.clk | some t => some t) else none
  let s1 := s.setStack i { u with baseMc := baseMc, dramMc := dramMc, coolFrom := cool }
  let s2 := ((s1.odSet (oStackUnitTempMc i) (s32 temp)).odSet (oStackUnitBaseTempMc i) (s32 baseMc)).odSet
    (oStackUnitLevel i) lvl
  let s3 := if ch = 0 then s2 else s2.dispute site 0 ch baseMc dramMc
  let s4 := if lvl = old then s3 else (s3.bump (oStackUnitLevelChanges i)).ring (0x24C0 + sectorOf site) 5
  onStack site s (if lvl = 3 ∧ !u.offline then s4.stackOffline i else s4)

/-- STACK_REJOIN (R207): below 80 °C for 60 s and a DRAM known-answer test passed, the stack rejoins empty. -/
def execStackRejoin (dt site : Nat) (passed : Bool) (s : State) : Host.Outcome State Fault Refusal :=
  let s := s.tick dt
  let i := stackIdx site
  let u := s.stackUnit i
  let due : Bool := match u.coolFrom with | some t => decide (t + 60 * 10 ^ 9 ≤ s.clk) | none => false
  onStack site s (if u.offline ∧ s.floorNow (oFloorSiteState site) = 5 ∧ due ∧ passed ∧ !(s.faults.any (fun f => f.kind == 4 && f.ident == site)) then
      let s1 := { s.setStack i { u with offline := false } with
        allocs := s.allocs.filter (fun a => a.stack != i)
        kv := mclear s.kv (i * 16384) ((i + 1) * 16384)
        groupEnts := mclear s.groupEnts (i * 256) ((i + 1) * 256)
        mem := memZero s.mem (gaddr (siteNode site) 0) (2 ^ 40) }
      let s2 := if s.odGet (oStackUnitLevel i) = 0 then s1 else ((s1.odSet (oStackUnitLevel i) 0).bump (oStackUnitLevelChanges i)).ring (0x24C0 + sectorOf site) 5
      (s2.stageFloor (oFloorSiteState site) 1).stageFloor (oFloorSiteCause site) 0
    else s)

end Sys2Proof.Machine
end

