-- ==== Sys2Proof/Machine/Scan.lean ====
section
/-!
DEFINITION. Run states and scan (R122 to R125): the scan image of R124, written out and taken in. What the image's
layout leaves no room for starts afresh after a scan-in (log entry 20).
-/
namespace Sys2Proof.Machine

-- ------------------------------------------------------------------ run states (R122)

/-- TILE_HOLD (R122): RUN to HOLD. Every firing under way is already whole in this model; the matrix engine stays where
it stopped. -/
def execTileHold (dt tile : Nat) (s : State) : Host.Outcome State Fault Refusal :=
  let s := s.tick dt
  let t := s.tile tile
  onTile tile s (if t.run = .run then s.setTile tile { t with run := .hold, heldAt := s.clk } else s)

/-- TILE_RUN (R122): HOLD to RUN. -/
def execTileRun (dt tile : Nat) (s : State) : Host.Outcome State Fault Refusal :=
  let s := s.tick dt
  let t := s.tile tile
  onTile tile s (if t.run = .hold then s.setTile tile (t.toRun s.clk) else s)

-- ------------------------------------------------------------------ the image, outward

/-- The two rows of a token record (R124). -/
def tokRows (r : TokRec) (slot io order : Nat) : List Row :=
  [r.tok.payload, rowOf (toLE 4 (tokWord r.tok) ++ [slot, io] ++ toLE 2 order)]

/-- The rows of n token records, empty positions zero. Each token's slot, input or output, and order. -/
def tokRecords (n : Nat) (l : List TokRec) (name : TokRec → Nat × Nat × Nat) : List Row :=
  ((List.range n).map (fun i => match l[i]? with
    | some r => tokRows r (name r).1 (name r).2.1 (name r).2.2
    | none => [0, 0])).flatten

/-- The arrival orders of the tokens that wait on a tile. -/
def Tile.orders (t : Tile) : List Nat :=
  (t.queues.map (fun p => p.2.toks.map (·.order))).flatten ++ t.store.map (·.item.order)

/-- An arrival order as the image's 16 bits hold it: the place among the tokens that wait, from 1 (log entry 20). -/
def Tile.rank (t : Tile) (order : Nat) : Nat := (t.orders.filter (fun o => decide (o < order))).length + 1

/-- A partial-store entry's 96 bits: the exact sum, or a marked word that holds the running FP32 value and the special
values met (log entry 20). -/
def accWord (x : Acc) : Nat :=
  if x.exact ∧ !x.nan ∧ !x.posInf ∧ !x.negInf then ofSigned 96 x.acc
  else
    2 ^ 94 + (if x.exact then 2 ^ 40 else 0) + (if x.nan then 2 ^ 41 else 0) + (if x.posInf then 2 ^ 42 else 0) +
    (if x.negInf then 2 ^ 43 else 0) + x.run % 2 ^ 32

/-- The entry that 96 bits spell. -/
def accOf (w : Nat) : Acc :=
  if bits w 95 94 = 1 then
    { exact := w.testBit 40, nan := w.testBit 41, posInf := w.testBit 42, negInf := w.testBit 43, run := w % 2 ^ 32 }
  else { acc := toSigned 96 w }

/-- Rows cut from a byte string, n of them. -/
def rowsOfBytes (b : List Nat) (n : Nat) : List Row := (List.range n).map (fun i => rowOf (b.drop (64 * i)))

/-- A slot's emit records as the image holds them; an outbound mailbox unit's held token stands first of output 0. -/
def Slot.emitRecords (x : Slot) (o : Nat) : List TokRec :=
  (if o = 0 then x.held.toList else []) ++ x.emit o

/-- Whether a reconfiguration is in progress on a tile (R124). -/
def Tile.reconfiguring (t : Tile) : Bool := (List.range 16).any (fun i => (t.slot i).shadow.isSome || (t.slot i).wm == t.wm + 1)

/-- The counters of rows 0x000D to 0x000F, in subindex order of areas 0x30, 0x31 and 0x33. -/
def scanCounters (k : Nat) : List Nat :=
  (List.range 9).map (fun i => oTileArith k + i + 1) ++ [oTileFaultCount k, oTileFaultLost k] ++
  [oDataflowTileFirings k, oDataflowTileStoreFullWaits k, oDataflowTileDeadDropped k, oDataflowTileOrphans k,
   oDataflowTileReconfigs k, oDataflowTileStalls k]

/-- Row 1: slot state. -/
def Tile.slotStateBytes (t : Tile) : List Nat :=
  ((List.range 16).map (fun i =>
    let x := t.slot i
    toLE 4 (x.wm.val + (if x.shadow.isSome then 4 else 0) + dKind x.cur * 16 +
      (match x.stall with | some r => r.reason | none => 0) * 256 + x.firings % 65536 * 65536))).flatten

/-- Rows 2 to 7: queue state. -/
def Tile.queueStateBytes (t : Tile) : List Nat :=
  ((List.range 48).map (fun q =>
    let x := t.queue q
    let b := t.boundAt q x.wq
    let later := (x.toks.filter (fun r => r.tok.wm != x.wq)).length
    toLE 8 (x.wq.val + (match b with | some (i, n) => 0x80 + i * 256 + n * 4096 | none => 0) +
      x.toks.length % 16 * 65536 + later % 16 * 2 ^ 20 + (if x.blocked x.wq then 2 ^ 24 else 0)))).flatten

/-- Row 0x0C: mailboxes and tag counters. -/
def State.mboxRowBytes (s : State) (k : Nat) : List Nat :=
  let m (n : Nat) : Option (BitVec 64) := mlook s.mboxes (mboxKey k n)
  toLE 8 ((m 0).getD 0).toNat ++ toLE 8 ((m 1).getD 0).toNat ++
  padTo 16 [(if (m 0).isSome then 1 else 0) + (if (m 1).isSome then 2 else 0)] ++
  ((List.range 16).map (fun i => toLE 2 (((s.tile k).slot i).tagCtr))).flatten

/-- A route-table entry's 8 bytes. -/
def routeBytes : Option Route → List Nat
  | some r => toLE 8 (r.node % 65536 + r.queue % 64 * 65536 + 2 ^ 31)
  | none => toLE 8 0

/-- A buffer-table entry's 16 bytes: node in 0–1, base in 2–7, length in 8–13, valid in 15 (log entry 20). -/
def bufferBytes : Option Buffer → List Nat
  | some b => toLE 2 b.node ++ toLE 6 b.base ++ toLE 6 b.len ++ [0, 1]
  | none => List.replicate 16 0

/-- The record of a group under way (log entry 20): slot, waited and valid in byte 0, the group's tag word and payload
bytes 0 to 4, then next kc, nc and the tokens emitted. -/
def progressRecord (i : Nat) (m : MatProg) : List Nat :=
  [i + (if m.waited then 64 else 0) + 128] ++ toLE 4 (tokWord m.group.tok) ++ (bytesOfRow m.group.tok.payload).take 5 ++
  toLE 6 (m.kc % 2 ^ 20 + m.nc % 2 ^ 11 * 2 ^ 20 + m.emitted % 2 ^ 10 * 2 ^ 31)

/-- Rows 0x4C to 0x4F: the groups under way, the one that the engine serves first (R124, R72). -/
def Tile.progressBytes (t : Tile) : List Nat :=
  let first := match t.matHolder with | some i => i | none => (t.matTurn + 1) % 16
  (((List.range 16).map (fun n => (first + n) % 16)).filterMap (fun i => (t.slot i).mat.map (progressRecord i))).flatten

/-- The record of what else a slot is in the middle of (log entry 20): the run of a write unit, the wait counted for a
trigger, the stall record. -/
def Tile.slotRecord (t : Tile) (i : Nat) : List Nat :=
  let x := t.slot i
  let stall (r : StallRec) : List Nat := [1, r.reason, r.lane, r.life, r.wm] ++ toLE 2 r.tag ++ [r.queue] ++ toLE 8 r.since
  padTo 16 (toLE 2 x.wrRows ++ toLE 2 x.wrFirst ++ [x.wrKey.1, x.wrKey.2] ++ toLE 4 x.wrPos ++ toLE 2 x.wrPart ++
    toLE 2 ((x.waited.map t.rank).getD 0)) ++
  padTo 48 ((x.stall.map stall).getD [])

/-- The record of what else the tile holds (log entry 20): the matrix engine's turn, the configuration ID, the banks'
rotations. -/
def Tile.tileRecord (t : Tile) : List Nat :=
  padTo 8 [t.matTurn] ++ padTo 24 (toLE 8 t.confId) ++ (List.range 32).map (fun b => mget 0 t.bankRot b)

/-- The rows after the header (R124). -/
def State.scanBody (s : State) (k : Nat) : List Row :=
  let t := s.tile k
  let zeros (n : Nat) : List Row := List.replicate n 0
  rowsOfBytes t.slotStateBytes 1 ++ rowsOfBytes t.queueStateBytes 6 ++
  rowsOfBytes ((List.range 256).map (fun l => (t.life l).val)) 4 ++ rowsOfBytes (s.mboxRowBytes k) 1 ++
  rowsOfBytes (((scanCounters k).map (fun a => toLE 8 (s.odGet a))).flatten) 3 ++
  (List.range 16).map (fun i => rowOfDesc (t.slot i).cur) ++
  (List.range 16).map (fun i => match (t.slot i).shadow with | some d => rowOfDesc d | none => 0) ++
  rowsOfBytes ((t.log.map entryBytes).flatten) 16 ++
  rowsOfBytes (((List.range 64).map (fun h => routeBytes (t.route h))).flatten) 8 ++
  rowsOfBytes (((List.range 16).map (fun h => bufferBytes (t.buffer h))).flatten) 4 ++
  rowsOfBytes t.progressBytes 4 ++ rowsOfBytes (((List.range 16).map t.slotRecord).flatten) 16 ++ rowsOfBytes t.tileRecord 1 ++ zeros 31 ++
  rowsOfBytes (((List.range 1024).map (fun i => toLE 4 (mget 0 t.prog i).toNat)).flatten) 64 ++
  (List.range 128).map (fun i => mget 0 t.regs i) ++
  rowsOfBytes (((List.range 64).map (fun j => toLE 12 (accWord (mget {} t.accs j)))).flatten) 12 ++ zeros 52 ++
  rowsOfBytes (((List.range 2048).map (fun i => toLE 12 (accWord (mget {} t.pstore i)))).flatten) 384 ++
  ((List.range 48).map (fun q => tokRecords 8 (t.queue q).toks (fun r =>
    match t.boundAt q r.tok.wm with
    | some (i, n) => (i, n, t.rank r.order)
    | none => (0, 0, t.rank r.order)))).flatten ++
  ((List.range 64).map (fun e => match t.store[e]? with
    | some x => tokRows x.item x.slot x.input (t.rank x.item.order)
    | none => [0, 0])).flatten ++
  zeros 128 ++
  ((List.range 16).map (fun i => tokRecords 8 ((t.slot i).emitRecords 0) (fun _ => (i, 0, 1)) ++
    tokRecords 8 ((t.slot i).emitRecords 1) (fun _ => (i, 1, 1)))).flatten

/-- The bytes of some rows. -/
def rowsBytes (l : List Row) : List Nat := (l.map bytesOfRow).flatten

/-- An image is consistent: taken in HOLD, with no memory firing left to complete (R122, R123). -/
def Tile.scanConsistent (t : Tile) : Bool :=
  t.run == .hold && (List.range 16).all (fun i => (t.slot i).busy.isNone && (t.slot i).reading.isNone)

/-- The scan image (R124). -/
def State.scanImage (s : State) (k : Nat) : List Row :=
  let t := s.tile k
  let body := s.scanBody k
  rowOf (toLE 2 1 ++ toLE 2 k ++ [t.wm.val + (if t.reconfiguring then 4 else 0),
      (if t.scanConsistent then 1 else 0) + (if (List.range 16).any (fun i => (t.slot i).mat.isSome) then 2 else 0)] ++ toLE 2 0 ++
    toLE 8 (s.odGet oFloorPanelGeneration) ++ toLE 8 s.now ++ toLE 4 0x900 ++ toLE 4 (crc32 (rowsBytes body))) :: body

/-- TILE_SCAN_OUT (R124): the image goes to a scratchpad region of any tile or a range of stack space that is in service; the
tile is in SCAN_OUT until its sequencer's next turn (R122; log entry 105). -/
def execTileScanOut (dt tile node offset : Nat) (s : State) : Host.Outcome State Fault Refusal :=
  let s := s.tick dt
  let t := s.tile tile
  let run (x : Tile) : Tile := { x with run := .scanOut, scanBack := t.run, heldAt := if t.run = .run then s.clk else t.heldAt }
  onTile tile s (if (t.run = .hold ∨ t.run = .run) ∧ s.validRange node offset (64 * 2304) ∧ offset % 64 = 0 ∧
        s.writable node offset (64 * 2304) then
      let s1 := s.writeNode node offset (s.scanImage tile)
      s1.setTile tile (run (s1.tile tile))
    else s)

-- ------------------------------------------------------------------ the image, inward (R125)

/-- A row of an image. -/
def imgRow (img : List Row) (n : Nat) : Row := img.getD n 0

/-- The token record at a row, if the position is not empty. Its producer is not in the image (log entry 20). -/
def imgTok (img : List Row) (k n : Nat) : Option (TokRec × Nat × Nat) :=
  let a := imgRow img n
  let b := imgRow img (n + 1)
  if a = 0 ∧ b = 0 then none
  else some ({ tok := tokenOf a (rowBytes b 3 0), order := rowBytes b 7 6, producer := k }, rowByte b 4, rowByte b 5)

/-- The records of up to n positions from a row. -/
def imgToks (img : List Row) (k first n : Nat) : List TokRec :=
  (List.range n).filterMap (fun i => (imgTok img k (first + 2 * i)).map (·.1))

/-- A word of an image's bytes. -/
def imgWord (img : List Row) (row off n : Nat) : Nat := leAt (rowsBytes ((img.drop (row + off / 64)).take 2)) (off % 64) n

/-- The groups under way in an image, by slot. -/
def imgMat (img : List Row) (k i : Nat) : Option MatProg :=
  (List.range 16).findSome? (fun n =>
    let w (off len : Nat) : Nat := imgWord img 0x4C (16 * n + off) len
    if w 0 1 / 128 = 1 ∧ w 0 1 % 16 = i then
      some { group := { tok := tokenOf (BitVec.ofNat 512 (w 5 5)) (w 1 4), producer := k },
             nc := bits (w 10 6) 30 20, kc := bits (w 10 6) 19 0, emitted := bits (w 10 6) 40 31, waited := (w 0 1).testBit 6 }
    else none)

/-- The stall record of a slot in an image. -/
def imgStall (img : List Row) (i : Nat) : Option StallRec :=
  let r := imgRow img (0x50 + i)
  if rowByte r 16 = 1 then
    some { reason := rowByte r 17, lane := rowByte r 18, life := rowByte r 19, wm := rowByte r 20, tag := rowBytes r 22 21,
           queue := rowByte r 23, since := rowBytes r 31 24 }
  else none

/-- The table that a default-free list of values spells. -/
def mofList {α : Type} [DecidableEq α] (d : α) (l : List α) : SMap α :=
  (List.range l.length).foldl (fun m i => match l[i]? with | some v => mset d m i v | none => m) []

/-- A slot from an image. -/
def imgSlot (img : List Row) (k i : Nat) : Slot :=
  let w := rowBytes (imgRow img 1) (4 * i + 3) (4 * i)
  let cur := descOfRow (imgRow img (0x10 + i))
  let e0 := imgToks img k (0x700 + i * 32) 8
  let outb := dKind cur == 12 && bOutbound cur
  let z := imgRow img (0x50 + i)
  { wm := Fin.ofNat 4 w, cur := cur, shadow := if w.testBit 2 then some (descOfRow (imgRow img (0x20 + i))) else none,
    firings := bits w 31 16, tagCtr := rowBytes (imgRow img 0xC) (32 + 2 * i + 1) (32 + 2 * i),
    emit0 := if outb then e0.drop 1 else e0, emit1 := imgToks img k (0x700 + i * 32 + 16) 8,
    held := if outb then e0.head? else none, retryAt := if outb ∧ e0 ≠ [] then 1 else 0,
    wrRows := rowBytes z 1 0, wrFirst := rowBytes z 3 2, wrKey := (rowByte z 4, rowByte z 5), wrPos := rowBytes z 9 6,
    wrPart := rowBytes z 11 10, waited := if rowBytes z 13 12 = 0 then none else some (rowBytes z 13 12),
    stall := imgStall img i, mat := imgMat img k i }

/-- The tile that an image describes, on what the image does not hold of the tile (R125). -/
def imgTile (img : List Row) (k : Nat) (t : Tile) : Tile :=
  let qs := (List.range 48).map (fun q =>
    let w := imgWord img 2 (8 * q) 8
    let x : Queue := { wq := Fin.ofNat 4 w, toks := imgToks img k (0x300 + q * 16) (bits w 19 16) }
    if w.testBit 24 then { x with stuck := (x.visible x.wq).map (·.order) } else x)
  let store := (List.range 64).filterMap (fun e => (imgTok img k (0x600 + 2 * e)).map (fun r => (⟨r.1, r.2.1, r.2.2⟩ : StoreEnt)))
  let orders := (qs.map (fun q => q.toks.map (·.order))).flatten ++ store.map (·.item.order)
  { t with
    wm := Fin.ofNat 4 (rowByte (imgRow img 0) 4)
    slots := mofList {} ((List.range 16).map (imgSlot img k))
    queues := mofList {} qs
    store := store
    nextOrder := maxN orders + 1
    routes := mofList none ((List.range 64).map (fun h =>
      let w := imgWord img 0x40 (8 * h) 8
      if w.testBit 31 then some ⟨w % 65536, bits w 21 16⟩ else none))
    buffers := mofList none ((List.range 16).map (fun h =>
      let w := imgWord img 0x48 (16 * h) 16
      if w.testBit 120 then some ⟨w % 65536, bits w 63 16, bits w 111 64⟩ else none))
    prog := mofList 0 ((List.range 1024).map (fun i => BitVec.ofNat 32 (imgWord img 0x80 (4 * i) 4)))
    regs := mofList 0 ((List.range 128).map (fun i => imgRow img (0xC0 + i)))
    pstore := mofList {} ((List.range 2048).map (fun i => accOf (imgWord img 0x180 (12 * i) 12)))
    accs := mofList {} ((List.range 64).map (fun j => accOf (imgWord img 0x140 (12 * j) 12)))
    matTurn := imgWord img 0x60 0 1
    confId := imgWord img 0x60 8 8
    bankRot := mofList 0 ((List.range 32).map (fun b => imgWord img 0x60 (32 + b) 1))
    lives := mofList 0 ((List.range 256).map (fun l => Fin.ofNat 8 (imgWord img 8 l 1)))
    log := ((List.range 32).map (fun i => entryOf (toLE 32 (imgWord img 0x30 (32 * i) 32)))).filter (fun e => e.cause != 0) }

/-- An image passes the checks of R125. -/
def imgOk (img : List Row) : Bool :=
  let h := imgRow img 0
  rowBytes h 1 0 == 1 && rowBytes h 27 24 == 0x900 && rowBytes h 31 28 == crc32 (rowsBytes img.tail) && (rowByte h 5).testBit 0

/-- The mailboxes of a tile from an image. -/
def State.imgMboxes (s : State) (img : List Row) (k : Nat) : SMap (BitVec 64) :=
  let r := imgRow img 0xC
  let one (m : SMap (BitVec 64)) (n : Nat) : SMap (BitVec 64) :=
    if (rowByte r 16).testBit n then mins m (mboxKey k n) (BitVec.ofNat 64 (rowBytes r (8 * n + 7) (8 * n))) else mdel m (mboxKey k n)
  one (one s.mboxes 0) 1

/-- The state after a tile has taken an image in. -/
def State.takeImage (s : State) (k : Nat) (img : List Row) : State :=
  let t := imgTile img k (s.tile k)
  let s1 := (List.range (scanCounters k).length).foldl (fun s i =>
    s.odSet ((scanCounters k).getD i 0) (imgWord img 0xD (8 * i) 8)) s
  { s1.setTile k { t with run := .hold, drained := t.log.length } with mboxes := s.imgMboxes img k }

/-- TILE_SCAN_IN (R125): an image that passes its checks replaces the dataflow state of a tile in HOLD, which is in SCAN_IN
until its sequencer's next turn, then in HOLD again (R122; log entry 105); an image that fails a check changes nothing. -/
def execTileScanIn (dt tile node offset : Nat) (s : State) : Host.Outcome State Fault Refusal :=
  let s := s.tick dt
  let img := s.rowsAt node offset 2304
  onTile tile s (if (s.tile tile).run = .hold ∧ s.readable node ∧ s.validRange node offset (64 * 2304) ∧ imgOk img then
      let s1 := s.takeImage tile img
      s1.setTile tile { s1.tile tile with run := .scanIn, scanBack := .hold }
    else s)

end Sys2Proof.Machine
end

