-- ==== Sys2Proof/Machine/Scratch.lean ====
section
/-!
DEFINITION. The scratchpad's hub commands (R148, R149): region descriptors, FILL, COPY, tags, COMMIT and ROLLBACK
(R146), SWAP (R141), and save images (R151).
-/
namespace Sys2Proof.Machine

/-- A unit of the tile's current watermark binds some row of a range, by region, deckle or constant range (R149). -/
def Tile.bindsRows (t : Tile) (first n : Nat) : Bool :=
  let meets (lo hi : Nat) : Bool := decide (lo < first + n) && decide (first ≤ hi)
  (List.range 16).any (fun i =>
    let d := (t.slot i).cur
    let k := dKind d
    let r := t.region (uRegion d)
    (decide (1 ≤ k) && decide (k ≤ 6) && meets (dBase d) (dLimit d)) ||
    (decide (3 ≤ k) && decide (k ≤ 6) && rKind r != 0 && meets (rBase r) (rLimit r)) ||
    (k == 2 && decide (0 < vConstCount d) && meets (vConstBase d) (vConstBase d + vConstCount d - 1)))

/-- FILL, COPY, TAGSET, SAVE and RESTORE may act on a range of rows (R149, R59). -/
def Tile.mayCommand (t : Tile) (first n : Nat) : Bool :=
  decide (first + n ≤ 65536) && (t.run == .hold || !t.bindsRows first n)

/-- A slot at W or at W + 1 uses a region entry (R149). -/
def Tile.usesRegion (t : Tile) (e : Nat) : Bool :=
  let by' (d : Desc) : Bool := decide (3 ≤ dKind d) && decide (dKind d ≤ 6) && uRegion d == e
  (List.range 16).any (fun i => by' (t.slot i).cur || ((t.slot i).shadow.map by').getD false)

/-- REGION_SET (R148, R131): a descriptor installed, its pointers 0, or a POSITION region's pointers at a position. -/
def execRegionSet (dt tile : Nat) (entry : Fin 32) (g0 g1 : BitVec 64) (position : Nat) (s : State) :
    Host.Outcome State Fault Refusal :=
  let s := s.tick dt
  let t := s.tile tile
  onTile tile s
    (if t.usesRegion entry.val || !regionWordsOk g0 g1 then s.cmdRefused tile
     else
       let r : Region := { g0 := g0, g1 := g1 }
       let p := position % 2 ^ 32
       let r := if rKind r = 4 then { r with head := p, tail := p, commit := p } else r
       (s.setTile tile (t.setRegion entry.val r)).cmdDone tile)

/-- Writes by hub firmware into one-copy resident regions that a unit reads are hazards, writer 0x30 (R142). -/
def State.hubHazards (s : State) (k first n : Nat) : State :=
  let t := s.tile k
  ((List.range 32).filter (fun e =>
    let r := t.region e
    rKind r == 3 && !rTwo r && t.readsRegion e && decide (rBase r < first + n) && decide (first ≤ rLimit r))).foldl
    (fun s e => s.hazard k e 0x30 (max first (rBase (t.region e))) 0) s

/-- FILL (R148). -/
def execScratchFill (dt tile first rows : Nat) (pattern : BitVec 64) (full : Bool) (s : State) :
    Host.Outcome State Fault Refusal :=
  let s := s.tick dt
  onTile tile s
    (if (s.tile tile).mayCommand first rows then
       let row := BitVec.ofNat 512 (packCodes 64 (List.replicate 8 pattern.toNat))
       (((s.hubHazards tile first rows).putRows tile (64 * first) (List.replicate rows row)).setTags tile first full rows).cmdDone tile
     else s.cmdRefused tile)

/-- The tags of a run of rows. -/
def State.tagsAt (s : State) (k first n : Nat) : List Bool := (List.range n).map (fun i => s.tagAt k (first + i))

/-- The state with the tags of a run of rows set one by one. -/
def State.putTags (s : State) (k first : Nat) : List Bool → State
  | [] => s
  | b :: t => (s.setTag k first b).putTags k (first + 1) t

/-- COPY (R148): rows and tags, as if through a temporary buffer. -/
def execScratchCopy (dt tile source dest rows : Nat) (s : State) : Host.Outcome State Fault Refusal :=
  let s := s.tick dt
  onTile tile s
    (if (s.tile tile).mayCommand source rows && (s.tile tile).mayCommand dest rows then
       (((s.hubHazards tile dest rows).putRows tile (64 * dest) (s.rowsAt tile (64 * source) rows)).putTags tile dest
         (s.tagsAt tile source rows)).cmdDone tile
     else s.cmdRefused tile)

/-- TAGSET (R148). -/
def execTagset (dt tile first rows : Nat) (full : Bool) (s : State) : Host.Outcome State Fault Refusal :=
  let s := s.tick dt
  onTile tile s
    (if (s.tile tile).mayCommand first rows then (s.setTags tile first full rows).cmdDone tile else s.cmdRefused tile)

/-- COMMIT (R146): accepted for a POSITION entry and a position from tail_pos to head_pos. -/
def execScratchCommit (dt tile : Nat) (entry : Fin 32) (position : Nat) (s : State) : Host.Outcome State Fault Refusal :=
  let s := s.tick dt
  onTile tile s (s.commitRegion tile entry.val position)

/-- ROLLBACK (R146): it waits for memory firings that have begun on a dead key of the lane. -/
def execScratchRollback (dt tile : Nat) (entry : Fin 32) (s : State) : Host.Outcome State Fault Refusal :=
  let s := s.tick dt
  onTile tile s (s.rollbackOrWait tile entry.val)

/-- The live copy of a two-copy resident region flipped, and the command reported (R141, R149). -/
def State.swapRegion (s : State) (k e : Nat) : State :=
  let t := s.tile k
  let r := t.region e
  ((s.setTile k (t.setRegion e { r with live := !r.live })).bump (oScratchpadTileSwaps k)).cmdDone k

/-- SWAP (R141, R148). -/
def execScratchSwap (dt tile : Nat) (entry : Fin 32) (s : State) : Host.Outcome State Fault Refusal :=
  let s := s.tick dt
  let r := (s.tile tile).region entry.val
  onTile tile s (if rKind r = 3 ∧ rTwo r then s.swapRegion tile entry.val else s.cmdRefused tile)

-- ------------------------------------------------------------------ save images (R151)

/-- The 32 bytes of a region entry (R131). -/
def regionBytes (r : Region) : List Nat := toLE 8 r.g0.toNat ++ toLE 8 r.g1.toNat ++ toLE 8 (rG2 r) ++ toLE 8 (rG3 r)

/-- The save image's rows after the header: region table, tag bitmap, contents. -/
def State.saveBody (s : State) (k first n : Nat) : List Row :=
  rowsOfBytes (((List.range 32).map (fun e => regionBytes ((s.tile k).region e))).flatten) 16 ++
  (List.range (ceilDiv n 512)).map (fun i =>
    BitVec.ofNat 512 (packCodes 1 ((s.tagsAt k (first + 512 * i) (min 512 (n - 512 * i))).map (fun b => if b then 1 else 0)))) ++
  s.rowsAt k (64 * first) n

/-- The save image (R151). -/
def State.saveImage (s : State) (k first n : Nat) : List Row :=
  let body := s.saveBody k first n
  rowOf (toLE 2 1 ++ toLE 2 k ++ toLE 2 first ++ toLE 4 n ++ List.replicate 6 0 ++ toLE 8 (s.odGet oFloorPanelGeneration) ++
    toLE 8 s.now ++ toLE 4 (crc32 (rowsBytes body))) :: body

/-- Rows of a save image of n rows. -/
def saveRows (n : Nat) : Nat := 17 + ceilDiv n 512 + n

/-- SAVE (R148, R151). -/
def execScratchSave (dt tile first rows node offset : Nat) (s : State) : Host.Outcome State Fault Refusal :=
  let s := s.tick dt
  onTile tile s
    (if (s.tile tile).mayCommand first rows ∧ s.validRange node offset (64 * saveRows rows) ∧ offset % 64 = 0 ∧
        s.writable node offset (64 * saveRows rows) then
       (s.writeNode node offset (s.saveImage tile first rows)).cmdDone tile
     else s.cmdRefused tile)

/-- A save image passes its checks (R151). -/
def saveOk (img : List Row) : Bool :=
  let h := imgRow img 0
  rowBytes h 1 0 == 1 && decide (rowBytes h 5 4 + rowBytes h 9 6 ≤ 65536) && img.length == saveRows (rowBytes h 9 6) &&
  rowBytes h 35 32 == crc32 (rowsBytes img.tail)

/-- The region table that a save image holds. -/
def imgRegions (img : List Row) : SMap Region :=
  mofList {} ((List.range 32).map (fun e =>
    let w (i : Nat) : Nat := imgWord img 1 (32 * e + 8 * i) 8
    regionOf (BitVec.ofNat 64 (w 0)) (BitVec.ofNat 64 (w 1)) (w 2) (w 3)))

/-- A save image installed: rows, tags and the region table at once (R151). -/
def State.installSave (s : State) (k : Nat) (img : List Row) : State :=
  let h := imgRow img 0
  let first := rowBytes h 5 4
  let n := rowBytes h 9 6
  let s1 := (s.hubHazards k first n).putRows k (64 * first) (img.drop (17 + ceilDiv n 512))
  let s2 := s1.putTags k first ((List.range n).map (fun i => (imgRow img (17 + i / 512)).getLsbD (i % 512)))
  s2.setTile k { s2.tile k with regions := imgRegions img }

/-- RESTORE (R148, R151). -/
def execScratchRestore (dt tile node offset : Nat) (s : State) : Host.Outcome State Fault Refusal :=
  let s := s.tick dt
  let h := s.rowAt node offset
  let n := rowBytes h 9 6
  let img := s.rowsAt node offset (saveRows n)
  onTile tile s
    (if s.readable node ∧ (s.tile tile).mayCommand (rowBytes h 5 4) n ∧ s.validRange node offset (64 * saveRows n) ∧ saveOk img then
       (s.installSave tile img).cmdDone tile
     else s.cmdRefused tile)

end Sys2Proof.Machine
end

