-- ==== Sys2Proof/Machine/Fabric.lean ====
section
/-!
DEFINITION. The fabric: packets at their destinations (R155 to R168), remote
requests (R167), multicast (R169, R170), and the links between dies (R171 to R176).
-/
namespace Sys2Proof.Machine

-- ------------------------------------------------------------------ token packets at a tile (R97, R156)

/-- Tokens delivered to a queue in packet order, until one has to wait; the tokens that stay in the fabric. -/
def State.deliverToks (s : State) (k q src : Nat) : List Token → State × List Token
  | [] => (s, [])
  | t :: rest =>
    if t.kind ≠ 2 ∧ (s.tile k).arrival q t = .wait then (s.arriveAny k q t src, t :: rest)
    else (s.arriveAny k q t src).deliverToks k q src rest

/-- Payload flits of tokens (R155). -/
def tokFlits (l : List Token) : List Flit := l.map (fun t => { side := BitVec.ofNat 32 (tokWord t), row := t.payload, tok := true })

/-- A packet of tokens delivered at a tile; what has to wait stays in flight as the rest of the packet (R97). -/
def State.deliverPkt (s : State) (p : Pkt) : State :=
  let (s1, rest) := s.deliverToks p.dest p.queue p.src (pktTokens p)
  if rest = [] then s1 else s1.defer { p with body := tokFlits rest }

/-- TOKENS_PACKET (R156). -/
def execTokensPacket (dt : Nat) (p : Pkt) (s : State) : Host.Outcome State Fault Refusal :=
  .next ((s.tick dt).packet p (isTile p.dest && p.ptype == 1) (fun s => s.deliverPkt p))

/-- CONFIG_PACKET (R156). -/
def execConfigPacket (dt : Nat) (p : Pkt) (s : State) : Host.Outcome State Fault Refusal :=
  .next ((s.tick dt).packet p (isTile p.dest && p.ptype == 7) (fun s => s.deliverPkt p))

/-- The row of a two-copy resident region lies in its live copy (R142). -/
def liveRow (r : Region) (row : Nat) : Bool := decide (row - rBase r ≥ rRows r / 2) == r.live

/-- A remote write of a row: the hazard of R142, the row, its tag (R129). -/
def State.remoteRow (s : State) (k src row : Nat) (v : Row) : State :=
  let t := s.tile k
  match t.regionOfRow row with
  | some (e, r) =>
    let hz := rKind r == 3 && (if rTwo r then liveRow r row else t.readsRegion e)
    let s1 := if hz then s.hazard k e 0x20 row src else s
    (s1.putRow k (64 * row) v).fillRows k r row 1
  | none => s.putRow k (64 * row) v

/-- The rows of a remote write. -/
def State.remoteRows (s : State) (k src row : Nat) : List Row → State
  | [] => s
  | v :: t => (s.remoteRow k src row v).remoteRows k src (row + 1) t

/-- The rows that a remote access touches all have the wanted tag, where their regions honour tags (R129, R136). -/
def State.remoteReady (s : State) (k row n : Nat) (full : Bool) : Bool :=
  (List.range n).all (fun i => match (s.tile k).regionOfRow (row + i) with
    | some (_, r) => !rHonoured r || s.tagAt k (row + i) == full
    | none => true)

/-- A request in a tile's table, or room for it there: eight of its kind (R167). -/
def Tile.requestRoom (t : Tile) (p : Pkt) : Bool :=
  t.rreqs.contains p || decide ((t.rreqs.filter (fun q => q.ptype == p.ptype)).length < 8)

/-- A request that waits in the table, or that has left it (R167). -/
def State.requestHeld (s : State) (k : Nat) (p : Pkt) : State :=
  let t := s.tile k
  if t.rreqs.contains p then s else s.setTile k { t with rreqs := t.rreqs ++ [p] }
def State.requestDone (s : State) (k : Nat) (p : Pkt) : State :=
  let t := s.tile k
  s.setTile k { t with rreqs := dropFirst (· == p) t.rreqs }

/-- A request waits for rows: it enters the table, and the wait counts once (R136). -/
def State.requestWait (s : State) (k : Nat) (p : Pkt) : State :=
  if (s.tile k).rreqs.contains p then s else (s.requestHeld k p).tagWait k

/-- A WRITE at a tile's DMA engine (R167): range, room, tags, rows, WRITE_ACK unless it came by multicast. A request
that waits is served by the next event that brings it up again (log entry 24). -/
def State.tileWrite (s : State) (k : Nat) (p : Pkt) (ack : Bool) : State :=
  let row := p.offset / 64
  let n := p.body.length
  if p.offset % 64 ≠ 0 ∨ p.offset + 64 * n > 0x400000 then s.dropPkt k p causeBuffer (gaddr k p.offset)
  else if !(s.tile k).requestRoom p then s.defer p
  else if s.remoteReady k row n false then
    let s1 := (s.requestDone k p).remoteRows k p.src row (p.body.map (·.row))
    if ack then s1.send (.pkt (ackPkt k p.src p.txn p.srcSlot)) else s1
  else s.requestWait k p

/-- A request at a stack in a forced scrub pause waits (R396): it stays in flight. -/
def State.paused (s : State) (i : Nat) : Bool := decide (s.clk < (s.stackUnit i).pauseUntil)

/-- A request in a stack's pool of its kind, or taken from it (R188). -/
def State.poolHeld (s : State) (i : Nat) (p : Pkt) : State :=
  let u := s.stackUnit i
  if p.ptype = 3 then (if u.reads.contains p then s else s.setStack i { u with reads := u.reads ++ [p] })
  else (if u.writes.contains p then s else s.setStack i { u with writes := u.writes ++ [p] })
def State.poolDone (s : State) (i : Nat) (p : Pkt) : State :=
  let u := s.stackUnit i
  if p.ptype = 3 then s.setStack i { u with reads := dropFirst (· == p) u.reads } else s.setStack i { u with writes := dropFirst (· == p) u.writes }

/-- Room for a request at a stack's main function: 64 READs and 64 WRITEs, a WRITE from its arrival to its acknowledgement
(R188). -/
def StackUnit.room (u : StackUnit) (p : Pkt) : Bool :=
  u.reads.contains p || u.writes.contains p ||
  (if p.ptype = 3 then decide (u.reads.length < 64) else decide (u.writes.length + u.acks.length < 64))

/-- A WRITE at a stack's main function (R187, R188, R198). -/
def State.stackWrite (s : State) (i : Nat) (p : Pkt) : State :=
  let n := p.body.length
  let addr := gaddr (stackNode i) p.offset
  if (s.stackUnit i).offline then s.dropPkt p.dest p 0x0014 addr
  else if s.paused i ∨ !(s.stackUnit i).room p then s.defer p
  else if p.offset % 64 ≠ 0 ∨ p.offset + 64 * n > stackBytesOf s.variant then s.dropPkt p.dest p causeBuffer addr
  else if s.hitsParity i p.offset (64 * n) then s.dropPkt p.dest p causeFirmwareOnly addr
  else if (List.range n).any (fun k => s.servedOpen i (p.offset + 64 * k) p.src) then s.poolHeld i p
  else
    let s1 := (s.poolDone i p).servedWrite i p.offset p.src (p.body.map (·.row))
    if p.vc = 3 then s1 else s1.ackWhenDone i p.src p.txn p.srcSlot p.offset n

/-- REMOTE_WRITE (R167, R187). A copy of a multicast, on channel 3, is not acknowledged (R157, R170). -/
def execRemoteWrite (dt : Nat) (p : Pkt) (s : State) : Host.Outcome State Fault Refusal :=
  .next ((s.tick dt).packet p (p.ptype == 2) (fun s => match nodeKind p.dest with
    | .tile k => s.tileWrite k p (p.vc != 3)
    | .stack i 0 => s.stackWrite i p
    | _ => s.dropPkt p.dest p causeMisrouted 0))

/-- READ_DATA for a READ. -/
def dataPkt (src : Nat) (p : Pkt) (rows : List Row) : Pkt :=
  { dest := p.src, src := src, ptype := 5, vc := 1, txn := p.txn, srcSlot := p.srcSlot, offset := p.retOffset,
    body := rows.map (fun r => { row := r }) }

/-- A READ at a tile's DMA engine (R167). -/
def State.tileRead (s : State) (k : Nat) (p : Pkt) : State :=
  let row := p.offset / 64
  let n := p.rowsM1 % 64 + 1
  if p.offset % 64 ≠ 0 ∨ p.offset + 64 * n > 0x400000 then s.dropPkt k p causeBuffer (gaddr k p.offset)
  else if !(s.tile k).requestRoom p then s.defer p
  else if s.remoteReady k row n true then
    (s.requestDone k p).send (.pkt (dataPkt k p (s.rowsAt k p.offset n)))
  else s.requestWait k p

/-- A READ at a stack's main function (R185, R187, R188): how many rows the on-die ECC reports as corrected; `bad` lists the
offsets of those that it cannot correct. -/
def State.stackRead (s : State) (i : Nat) (p : Pkt) (corrected : Nat) (bad : List Nat) : State :=
  let n := p.rowsM1 % 64 + 1
  let addr := gaddr (stackNode i) p.offset
  if (s.stackUnit i).offline then s.dropPkt p.dest p 0x0014 addr
  else if s.paused i ∨ !(s.stackUnit i).room p then s.defer p
  else if p.offset % 64 ≠ 0 ∨ p.offset + 64 * n > stackBytesOf s.variant then s.dropPkt p.dest p causeBuffer addr
  else
    let hit := (List.range n).filter (fun k => bad.contains (p.offset + 64 * k))
    if (List.range n).any (fun k => s.servedOpen i (p.offset + 64 * k) p.src) ∨ hit.any (fun k => s.codeOpen i (p.offset + 64 * k)) then
      s.poolHeld i p
    else
    let s0 := hit.foldl (fun s k => match s.slabAt i (p.offset + 64 * k) with
      | some (g, e) => if e.role < 10 then s.countDegraded g 1 else s
      | none => s) ((s.poolDone i p).countServed i p.offset n p.src)
    let s1 := (s0.bumpN (oStackUnitEccCorrected i) (min corrected n)).bumpN (oStackUnitEccUncorrected i) hit.length
    match hit.find? (fun k => (s.goodRow i (p.offset + 64 * k)).isNone) with
    | some k => s1.dropPkt p.dest p 0x0013 (gaddr (stackNode i) (p.offset + 64 * k))
    | none =>
      let rowFor (k : Nat) : Row :=
        if hit.contains k then ((s.goodRow i (p.offset + 64 * k)).map (·.1)).getD 0 else s.servedRow i (p.offset + 64 * k) p.src
      let s2 := hit.foldl (fun st k => match s.goodRow i (p.offset + 64 * k) with
        | some (r, true) => st.putRow (stackNode i) (p.offset + 64 * k) r
        | _ => st) s1
      s2.send (.pkt (dataPkt (stackNode i) p ((List.range n).map rowFor)))

/-- REMOTE_READ (R167, R187, R188). -/
def execRemoteRead (dt : Nat) (p : Pkt) (ecc : EccReport) (s : State) : Host.Outcome State Fault Refusal :=
  .next ((s.tick dt).packet p (p.ptype == 3) (fun s => match nodeKind p.dest with
    | .tile k => s.tileRead k p
    | .stack i 0 => s.stackRead i p ecc.corrected ecc.bad
    | _ => s.dropPkt p.dest p causeMisrouted 0))

/-- WRITE_ACK (R156, R157): misrouted at a node that is no source of WRITEs; one that answers nothing there is
sunk; a memory firing of a tile completes; a parity acknowledgement closes a member's row (R199). -/
def execWriteAck (dt : Nat) (p : Pkt) (s : State) : Host.Outcome State Fault Refusal :=
  .next ((s.tick dt).packet p (p.ptype == 4) (fun s => match nodeKind p.dest with
    | .tile k => match (s.tile k).busySlot p.txn p.srcSlot with
      | some (i, b) => if b.what = 0 then s else s.memAcked k i b
      | none => s
    | .stack i _ => s.closeRow i (p.retOffset / 16) (p.retOffset % 16) p.txn
    | .hub _ _ => s
    | _ => s.dropPkt p.dest p causeMisrouted 0))

/-- READ_DATA (R156, R157): misrouted at a node that is no source of READs; one that answers nothing there is
sunk; the rows of a tile's inbound DMA land at ret_offset. -/
def execReadData (dt : Nat) (p : Pkt) (s : State) : Host.Outcome State Fault Refusal :=
  .next ((s.tick dt).packet p (p.ptype == 5) (fun s => match nodeKind p.dest with
    | .tile k => match (s.tile k).busySlot p.txn p.srcSlot with
      | some (i, b) => if b.what = 0 then s.memData k i b (p.body.map (·.row)) else s
      | none => s
    | .stack _ _ => s
    | .hub _ _ => s
    | _ => s.dropPkt p.dest p causeMisrouted 0))

/-- ERROR_PACKET (R168, R86): a tile logs cause 0x000A against src_slot; a memory firing that it answers completes with
error tokens. Other nodes take it. -/
def execErrorPacket (dt : Nat) (p : Pkt) (s : State) : Host.Outcome State Fault Refusal :=
  let e := entryOf (bytesOfRow (p.body.headD {}).row)
  .next (if (s.tick dt).inOrder p ∧ ((s.tick dt).takePkt p).packetFault p ≠ none then
      ((s.tick dt).takePkt p).bump oFabricPanelErrorLost
    else (s.tick dt).packet p (p.ptype == 6) (fun s => match nodeKind p.dest with
        | .tile k =>
          let e' := { e with cause := causeErrorToken, slot := p.srcSlot, queue := 0x3F, producer := p.src, detail := e.cause }
          let s1 := s.logTile k e'
          match (s1.tile k).busySlot p.txn p.srcSlot with
          | some (i, _) => s1.finishBusy k i 0 (some { e' with time := s.logTime })
          | none => s1
        | _ => s))

-- ------------------------------------------------------------------ INSTALL and multicast (R156, R169, R170)

/-- The rows that an INSTALL writes lie within their table. -/
def installFits (i : Install) : Bool :=
  match i.rows with
  | .routes l => decide (i.first + l.length ≤ 64)
  | .buffers l => decide (i.first + l.length ≤ 16)
  | .regions l => decide (i.first + l.length ≤ 32)
  | .program l => decide (i.first + l.length ≤ 1024)

/-- A list written into a table from an index. -/
def putList {α : Type} [DecidableEq α] (d : α) (m : SMap α) (first : Nat) : List α → SMap α
  | [] => m
  | v :: t => putList d (mset d m first v) (first + 1) t

/-- The tile after an INSTALL. -/
def Tile.install (t : Tile) (i : Install) : Tile :=
  match i.rows with
  | .routes l => { t with routes := putList none t.routes i.first (l.map some) }
  | .buffers l => { t with buffers := putList none t.buffers i.first (l.map some) }
  | .regions l => { t with regions := putList {} t.regions i.first (l.map (fun g => { g0 := g.1, g1 := g.2 })) }
  | .program l => { t with prog := putList 0 t.prog i.first l }

/-- An INSTALL at a tile (R156, R168): from a hub only, within the table. -/
def State.installAt (s : State) (p : Pkt) (i : Install) : State :=
  if !isHubNode p.src then s.dropPkt p.dest p causeMisrouted 0
  else if !installFits i then s.dropPkt p.dest p causeBuffer 0
  else s.setTile p.dest ((s.tile p.dest).install i)

/-- INSTALL (R156, R168): a packet with the rows that it brings; misrouted anywhere but at a compute tile. -/
def execInstall (dt : Nat) (p : Pkt) (first : Nat) (rows : InstallRows) (s : State) : Host.Outcome State Fault Refusal :=
  let inst : Install := ⟨first, rows⟩
  .next (((s.tick dt).take (.install p.dest inst)).packet p (isTile p.dest && p.ptype == 8) (fun s => s.installAt p inst))

/-- The table index of a multicast group: furnish groups 0 to 0x1FF, firmware groups 0x7F00 to 0x7FFF (R169). -/
def groupIndex (dest : Nat) : Option Nat :=
  let g := dest % 32768
  if g < 0x200 then some g else if 0x7F00 ≤ g then some (512 + (g - 0x7F00)) else none

/-- A die's multicast entry: parent, branches, tiles (R169). -/
def Bank.tree (b : Bank) (g ix : Nat) : Option (Nat × Nat × Nat) := mlook b.mcast (g * 768 + ix)

/-- A multicast packet delivered to one tile. -/
def State.deliverCopy (s : State) (k : Nat) (p : Pkt) (inst : Option Install) : State :=
  let q := { p with dest := k, vc := 3 }
  match p.ptype, inst with
  | 2, _ => s.tileWrite k q false
  | 8, some i => s.installAt q i
  | 8, none => s
  | _, _ => s.deliverPkt q

/-- A multicast packet delivered to function 0 of a die that has no tiles (R169): a stack takes a WRITE, every other type is
misrouted there (R156). -/
def State.deliverRest (s : State) (g : Nat) (p : Pkt) : State :=
  if isStackSite g ∧ p.ptype = 2 then s.stackWrite (stackIdx g) { p with dest := siteNode g, vc := 3 }
  else s.dropPkt (siteNode g) p causeMisrouted 0

/-- MULTICAST_FORWARD (R170): a packet on the group's parent edge, or from a source on the die (edge 4), goes to the
die's tiles of the tree and out of its branches. -/
def execMulticastForward (dt : Nat) (site : Fin 256) (edge : Fin 5) (p : Pkt) (inst : Option Install) (s : State) :
    Host.Outcome State Fault Refusal :=
  let s := (s.tick dt).takePkt p
  let g := site.val
  let ent := (groupIndex p.dest).bind (fun ix => (s.bank p.gen).tree g ix)
  .next (match ent with
    | none => s.dropPkt (siteNode g) p causeMisrouted 0
    | some (parent, branches, tiles) =>
      if !pktFormOk p ∨ p.dest < 32768 ∨ !s.genLive p.gen ∨ p.hops > 64 ∨ parent ≠ edge.val ∨ !([1, 2, 7, 8].contains p.ptype) then
        s.dropPkt (siteNode g) p causeMisrouted 0
      else
        let s1 := ((List.range 4).filter (fun e => branches.testBit e)).foldl
          (fun s _ => { s with out := s.out ++ [.pkt { p with hops := p.hops + 1 }] }) s
        if isCompute g then
          ((List.range 64).filter (fun t => tiles.testBit t)).foldl (fun s t => s.deliverCopy (g * 64 + t) p inst) s1
        -- Group 0x7F02 delivers to function 2, whose boot engine takes what it brings (R439, R440).
        else if tiles.testBit 0 ∧ p.dest % 32768 ≠ 0x7F02 then s1.deliverRest g p
        else s1)

-- ------------------------------------------------------------------ links (R159, R171 to R176)

/-- A link end's retry state. -/
def State.linkEnd (s : State) (l : Nat) : LinkEnd := mget {} s.links l
/-- The state with a link end replaced. -/
def State.setLink (s : State) (l : Nat) (e : LinkEnd) : State := { s with links := mset {} s.links l e }

/-- Lanes whose epoch is to be aborted join those that wait for it (R119, R174, R175). -/
def State.abortLanes (s : State) (ls : List Nat) : State :=
  { s with abortDue := ls.foldl (fun l x => if l.contains x then l else l ++ [x]) s.abortDue }

/-- The lanes that the tag words of some flits name. -/
def flitLanes (l : List Flit) : List Nat := (l.filter (·.tok)).map (fun f => (tokenOf f.row f.side.toNat).lane.val)

/-- The flits of a block. -/
def blockFlits (b : Block) : List Flit := b.slots.filterMap id

/-- A link's object index, three bytes, and the rest of a link event (chapter 06, Objects). -/
def State.linkEvent (s : State) (l kind old new' lanes : Nat) : State :=
  s.publish24 oFabricPanelLinkEvent (toLE 3 (0x370000 + l) ++ [kind] ++ toLE 4 old ++ toLE 4 new' ++ [lanes, 0, 0, 0])

/-- The bytes under a block's CRC (R171): eight slots of 544 bits, an empty one 0, and trailer bits [63:0]. -/
def blockBytes (b : Block) : List Nat :=
  let slot (k : Nat) : Option Flit := (b.slots[k]?).bind id
  ((List.range 8).map (fun k => match slot k with
    | some f => bytesOfRow f.row ++ toLE 4 f.side.toNat
    | none => List.replicate 68 0)).flatten ++
  toLE 2 b.seq.toNat ++ toLE 2 b.ackSeq.toNat ++
  [b.xoff % 16 * 16, (if b.nak then 16 else 0) + b.kind % 8 * 32, sumN ((List.range 8).map (fun k => if (slot k).isSome then 2 ^ k else 0)), b.rsv % 256]

/-- A block with its CRC word (R171), and the receiver's check of it. -/
def withCrc (b : Block) : Block := { b with crc := crc32 (blockBytes b) }
def crcHolds (b : Block) : Bool := b.crc == crc32 (blockBytes b)

/-- A block sent by a link end, with its XOFF bits and its CRC. -/
def State.putBlock (s : State) (l : Nat) (b : Block) : State := s.send (.block l (withCrc { b with xoff := (s.linkEnd l).xoffOut }))

/-- The end's next block: data if slots wait and the peer allows, else idle (R171, R172). A flit whose channel the peer has put on
XOFF waits (R159). -/
def State.sendBlock (s : State) (l : Nat) (slots : List (Option Flit)) (nak : Bool) : State :=
  let e := s.linkEnd l
  let go := (slots.take 8).map (fun f => match f with
    | some x => if e.peerXoff.testBit x.vc then none else some x
    | none => none)
  let n := (go.filter (·.isSome)).length
  if n = 0 ∨ e.sent.length ≥ 256 then s.putBlock l { kind := 1, seq := e.nextSeq - 1, nak := nak, ackSeq := e.expected }
  else
    let b : Block := withCrc { kind := 0, seq := e.nextSeq, nak := nak, ackSeq := e.expected, xoff := e.xoffOut, slots := go }
    let e1 := { e with sent := e.sent ++ [b], nextSeq := e.nextSeq + 1,
                       oldestAt := match e.oldestAt with | some t => some t | none => some s.clk }
    ((s.setLink l e1).send (.block l b)).bumpN (oFabricLinkFlitsSent l) n

/-- Flits of a block into the receive buffers (R159). -/
def LinkEnd.store (e : LinkEnd) (slots : List (Option Flit)) : LinkEnd :=
  { e with rx := (List.range 8).foldl (fun m k => match (slots[k]?).bind id with
      | some f => mset [] m (4 * k + f.vc % 4) (mget [] m (4 * k + f.vc % 4) ++ [f])
      | none => m) e.rx }

/-- Flits moved on from the receive buffers: buffer and count. -/
def LinkEnd.drain (e : LinkEnd) (l : List (Nat × Nat)) : LinkEnd :=
  { e with rx := l.foldl (fun m p => mset [] m p.1 ((mget [] m p.1).drop p.2)) e.rx }

/-- The XOFF bits by how full the buffers are (R159, R171): a bit is set once a sub-channel's buffer of the channel holds at least
`limit` flits, and cleared once every one holds at most half of that. -/
def LinkEnd.watch (e : LinkEnd) (limit : Nat) : LinkEnd :=
  let fill (v : Nat) : Nat := maxN ((List.range 8).map (fun k => (mget [] e.rx (4 * k + v)).length))
  { e with xoffOut := sumN ((List.range 4).map (fun v =>
      if 0 < limit ∧ limit ≤ fill v then 2 ^ v else if fill v ≤ limit / 2 then 0 else if e.xoffOut.testBit v then 2 ^ v else 0)) }

/-- Blocks replayed in order, counted (R172). -/
def State.replay (s : State) (l : Nat) (bs : List Block) : State :=
  ((s.sendAll (bs.map (fun b => .block l b))).bumpN (oFabricLinkReplayedBlocks l) bs.length).bumpN
    oFabricPanelReplayedBlocks bs.length

/-- A link end enters a retrain: it stops sending (R173). `request` sends kind-4 blocks first. -/
def State.startRetrain (s : State) (l : Nat) (request : Bool) : State :=
  let e := s.linkEnd l
  let s0 : State := ({ s with weakLanes := mdel s.weakLanes l } : State).odSet (oAgeingLinkWeakLanes l) 0
  let s1 := (s0.setLink l { e with retraining := true, failedReplays := 0 }).odSet (oFabricLinkState l) 4
  let s2 := s1.odSet (oFabricLinkRetrain l) 1
  if request then s2.putBlock l { kind := 4, seq := e.nextSeq - 1, ackSeq := e.expected } else s2

/-- The acknowledgement that a good block carries (R172). -/
def State.takeAck (s : State) (l : Nat) (b : Block) : State :=
  let e := s.linkEnd l
  let left := e.sent.filter (fun x => !newer 16 x.seq.toNat b.ackSeq.toNat)
  let moved := decide (left.length < e.sent.length)
  let e1 := { e with sent := left, peerXoff := b.xoff,
                     failedReplays := if moved then 0 else e.failedReplays,
                     oldestAt := if left = [] then none else if moved then some s.clk else e.oldestAt }
  let s1 := s.setLink l e1
  if b.nak ∧ left ≠ [] then
    if e1.failedReplays ≥ 8 then s1.startRetrain l true
    else (s1.setLink l { e1 with failedReplays := e1.failedReplays + 1 }).replay l left
  else s1

/-- LINK_BLOCK_RECEIVED (R159, R171, R172): a block reaches this end, which takes its turn. -/
def execLinkBlockReceived (dt link : Nat) (b : Block) (turn : LinkTurn) (s : State) : Host.Outcome State Fault Refusal :=
  let reply := turn.reply
  let s := s.tick dt
  let s := match linkOther link with | some o => s.take (.block o b) | none => s
  let limit := s.odGet (oFabricLinkXoffThreshold link)
  let s := s.setLink link (((s.linkEnd link).drain turn.drained).watch limit)
  let e := s.linkEnd link
  onLink link s (if !s.linkPassable link then s
    else if !crcHolds b then
      ((s.setLink link { e with naking := true }).bump (oFabricLinkCrcErrors link)).sendBlock link reply true
    else if b.kind = 4 then s.startRetrain link false
    else
      let s1 := s.takeAck link b
      if !s1.linkPassable link then s1
      else if b.kind ≠ 0 then s1.sendBlock link reply false
      else
        let e1 := s1.linkEnd link
        if b.seq = e1.expected then
          (s1.setLink link (({ e1 with expected := e1.expected + 1, naking := false }.store b.slots).watch limit)).sendBlock link reply false
        else (s1.setLink link { e1 with naking := true }).sendBlock link reply (!e1.naking))

/-- ACK_TIMEOUT_RETRAIN (R173): no acknowledgement for 10 µs while blocks are outstanding. -/
def execAckTimeoutRetrain (dt link : Nat) (s : State) : Host.Outcome State Fault Refusal :=
  let s := s.tick dt
  onLink link s (match (s.linkEnd link).oldestAt with
    | some t => if t + 10000 ≤ s.clk ∧ s.linkPassable link then s.startRetrain link true else s
    | none => s)

/-- RETRAIN_REQUEST (R173): an end decides to retrain, or has received a kind-4 block. -/
def execRetrainRequest (dt link : Nat) (received : Bool) (s : State) : Host.Outcome State Fault Refusal :=
  let s := s.tick dt
  let v := s.odGet (oFabricLinkState link)
  onLink link s (if v = 2 ∨ v = 3 ∨ (v = 5 ∧ !received) then s.startRetrain link (!received) else s)

/-- The calibrated one-way latency: the smallest multiple of 0.4 ns at least 1.6 ns above the measured minimum (R176). -/
def calibrated (minPs : Nat) : Nat := ceilDiv (minPs + 1600) 400 * 400

/-- The XOFF threshold (R159): 64 − ⌈F⌉ − 4, F the flits of a round trip and two block times. -/
def xoffThreshold (latencyPs blockPs : Nat) : Nat := 60 - ceilDiv (2 * latencyPs + 2 * blockPs) blockPs

/-- A link fails (R174, R380): both ends discard their buffers, the lanes that the unacknowledged flits name are to be
aborted, and the next generation routes around it. -/
def State.failLink (s : State) (l lanesGood : Nat) : State :=
  let ends := l :: (linkOther l).toList
  let lanes := flitLanes ((ends.map (fun e => ((s.linkEnd e).sent.map blockFlits).flatten)).flatten)
  let s1 := ends.foldl (fun s e =>
    (((s.setLink e {}).odSet (oFabricLinkState e) 5).odSet (oFabricLinkLanesGood e) lanesGood).odSet (oFabricLinkRetrain e) 2) s
  let ent : FaultEntry := { address := 0x370000 + l, cause := 0x0016, slot := 0xF, producer := siteNode (l / 4) }
  let s2 := (s1.abortLanes lanes).logAt (hubNode s.actingHub) ent
  let s3 := ((s2.bump oFabricPanelLinkFaults).linkEvent l 3 (s.odGet (oFabricLinkLatencyPs l)) 0 lanesGood).reportFault 5 l 0x16
  { s3 with faults := s3.faults.map (fun (f : FaultJob) => if f.kind = 5 ∧ f.ident = l then { f with lanes := lanes.eraseDups } else f) }

/-- RETRAIN_DONE (R173, R176): the good lanes, the measured minimum one-way latency, and whether training worked. -/
def execRetrainDone (dt link lanes minPs : Nat) (ok : Bool) (s : State) : Host.Outcome State Fault Refusal :=
  let s := s.tick dt
  let e := s.linkEnd link
  onLink link s (if !e.retraining then s else
    let s1 := (s.bump (oFabricLinkRetrains link)).bump oFabricPanelRetrains
    if lanes < 32 ∨ (!ok ∧ e.failedRetrains ≥ 2) then s1.failLink link lanes
    else if !ok then s1.setLink link { e with failedRetrains := e.failedRetrains + 1 }
    else
      let old := s.odGet (oFabricLinkLatencyPs link)
      let lat := calibrated minPs
      let full := decide (lanes ≥ 64)
      let s2 := (((((s1.odSet (oFabricLinkState link) (if full then 2 else 3)).odSet (oFabricLinkLanesGood link) lanes).odSet
        (oFabricLinkLatencyPs link) lat).odSet (oFabricLinkXoffThreshold link) (xoffThreshold lat (if full then 620 else 1240))).odSet
        (oFabricLinkLastRetrain link) s.now).odSet (oFabricLinkRetrain link) 0
      let s3 := s2.setLink link { e with retraining := false, failedRetrains := 0, failedReplays := 0, naking := false,
                                         oldestAt := if e.sent = [] then none else some s.clk }
      (s3.linkEvent link (if full then 1 else 2) old lat lanes).replay link e.sent)

/-- A packet cut on a link after n of its rows or tokens were delivered: the rest is discarded, rows of a cut WRITE
stay written, the lanes of the tokens discarded are to be aborted (R174, R175). Hub firmware sends a cut packet of its own again,
so that it is still in flight; its tokens are sent again by the replay. -/
def State.cutPkt (s : State) (p : Pkt) (n : Nat) : State :=
  let s1 := if isHubNode p.src ∧ p.ptype ≠ 1 then s else s.takePkt p
  let done := p.body.take n
  if p.ptype = 1 then
    let s2 := if isTile p.dest then (s1.deliverToks p.dest p.queue p.src (pktTokens { p with body := done })).1 else s1
    s2.abortLanes ((pktTokens { p with body := p.body.drop n }).map (fun t => t.lane.val))
  else if p.ptype = 2 then
    match nodeKind p.dest with
    | .tile k => s1.remoteRows k p.src (p.offset / 64) (done.map (·.row))
    | .stack i 0 => s1.stackWriteRows i p.offset (done.map (·.row))
    | _ => s1
  else s1

/-- LINK_FAIL (R174): with the packets that were open on the link and how much of each was delivered. -/
def execLinkFail (dt link : Nat) (cut : List (Pkt × Nat)) (s : State) : Host.Outcome State Fault Refusal :=
  let s := s.tick dt
  let v := s.odGet (oFabricLinkState link)
  onLink link s (cut.foldl (fun s c => s.cutPkt c.1 c.2) (if v = 5 ∨ v = 6 ∨ v = 0 then s else s.failLink link (s.odGet (oFabricLinkLanesGood link))))

/-- HELD_FLIT_FAULT (R175): the link is purged and stays UP; the lanes named are to be aborted. Both ends discard what they
hold and expect the block that the other end sends next. -/
def execHeldFlitFault (dt link : Nat) (cut : List (Pkt × Nat)) (s : State) : Host.Outcome State Fault Refusal :=
  let s := s.tick dt
  let ends := link :: (linkOther link).toList
  let lanes := flitLanes ((ends.map (fun e => ((s.linkEnd e).sent.map blockFlits).flatten ++ ((s.linkEnd e).rx.map (·.2)).flatten)).flatten)
  onLink link s (if !s.linkPassable link then s else
    let s1 := ends.foldl (fun s e =>
      let x := s.linkEnd e
      let next := match linkOther e with | some o => (s.linkEnd o).nextSeq | none => x.expected
      (s.setLink e { x with sent := [], oldestAt := none, naking := false, failedReplays := 0, expected := next, rx := [], xoffOut := 0 }).putBlock e
        { kind := 3, seq := x.nextSeq - 1, ackSeq := next }) s
    let ent : FaultEntry := { address := 0x370000 + link, cause := 0x0017, slot := 0xF, producer := siteNode (link / 4) }
    let s2 := ((s1.abortLanes lanes).logAt (hubNode s.actingHub) ent).bump (oFabricLinkPurges link)
    let lat := s.odGet (oFabricLinkLatencyPs link)
    cut.foldl (fun s c => s.cutPkt c.1 c.2)
      ((s2.bump oFabricPanelPurges).linkEvent link 4 lat lat (s.odGet (oFabricLinkLanesGood link))))

-- ------------------------------------------------------------------ new generations (R28, R33, R162 to R165)

/-- The impassable sites and links as the hub knows them. -/
def State.blockedNow (s : State) : List Nat × List Nat :=
  ((List.range 256).filter (fun g => !s.sitePassable g),
   (List.range 1024).filter (fun l => linkExists l && !(s.linkPassable l &&
     (match linkOther l with | some o => s.linkPassable o | none => true))))

/-- The multicast entries of the firmware groups 0x7FFF, which reaches every passable die (R169), 0x7F01, tile 0 of every
compute die, and 0x7F02, every base die (R439), as table indices 767, 513 and 514: a tree grown from hub A's
die, or hub B's where hub A is lost, in levels. -/
def broadcastTree (blockedSites blockedLinks : List Nat) : SMap (Nat × Nat × Nat) :=
  let b : Bank := { built := true, blockedSites := blockedSites, blockedLinks := blockedLinks }
  let root := if blockedSites.contains 95 then 108 else 95
  let ls := b.levels 256 [root] [root]
  let parentOf (g : Nat) (n : Nat) : Nat :=
    if n = 0 then 4
    else ((List.range 4).find? (fun e => match b.hop g e with | some h => (ls.getD (n - 1) []).contains h | none => false)).getD 7
  let parents : List (Nat × Nat) := ((List.range ls.length).map (fun n => (ls.getD n []).map (fun g => (g, parentOf g n)))).flatten
  parents.foldl (fun m p =>
    let kids := (List.range 4).filter (fun e => match neighbour p.1 e with
      | some h => parents.any (fun q => q.1 == h && q.2 == (e + 2) % 4)
      | none => false)
    let out := sumN (kids.map (fun e => 2 ^ e))
    let m1 := mins m (p.1 * 768 + 767) (p.2, out, if isCompute p.1 then 2 ^ 64 - 1 else 1)
    let m2 := mins m1 (p.1 * 768 + 513) (p.2, out, if isCompute p.1 then 1 else 0)
    mins m2 (p.1 * 768 + 514) (p.2, out, if isStackSite p.1 then 1 else 0)) []

/-- The floor-plan fields that were staged take effect (R33), and the sites that changed carry the time. -/
def State.applyFloor (s : State) : State :=
  let changed := (List.range 256).filter (fun g => match mlook s.floorDue (oFloorSiteState g) with
    | some v => v != s.odGet (oFloorSiteState g)
    | none => false)
  let s1 := s.floorDue.foldl (fun s p => s.odSet p.1 p.2) s
  let s2 := changed.foldl (fun s g => s.odSet (oFloorSiteStateSince g) s.now) s1
  (({ s2 with floorDue := [] }).bump oFloorPanelGeneration).odSet oFloorPanelChangedAt s.now

/-- A bank's generation can be written: it is idle (R163). -/
def State.idleBank (s : State) : Bool := (s.bank (1 - s.activeBank)).drainUntil.isNone

/-- The dies that tables for given blocked sites and links reach by no path from the hub (R162). -/
def strandedSites (blockedSites blockedLinks : List Nat) : List Nat :=
  let b : Bank := { built := true, blockedSites := blockedSites, blockedLinks := blockedLinks }
  let root := if blockedSites.contains 95 then 108 else 95
  let seen := (b.levels 256 [root] [root]).flatten
  (List.range 256).filter (fun g => !blockedSites.contains g && !seen.contains g)

/-- A die that is reachable by no path is FAILED with cause 0x0004 (R162): a stack's base die takes its stack with it, a
compute die is repaired as a lost die. -/
def State.failStranded (s : State) (blockedSites blockedLinks : List Nat) : State :=
  (strandedSites blockedSites blockedLinks).foldl (fun s g =>
    if isStackSite g then
      ((s.stageFloor (oFloorSiteState g) 4).stageFloor (oFloorSiteCause g) 4).reportFault 4 g 0x14
    else if isCompute g then s.reportFault 2 g 0x16 else s) s

/-- What the control network's tables avoid (R177, log entry 108): dies that are FUSED, unknown, or FAILED otherwise than by having
no fabric path; links whose control link is not UP. -/
def State.ctlBlocked (s : State) : List Nat × List Nat :=
  ((List.range 256).filter (fun g =>
      let v := s.floorNow (oFloorSiteState g)
      v == 0 || v == 3 || (v == 4 && s.floorNow (oFloorSiteCause g) != 4)),
   (List.range 1024).filter (fun l => linkExists l && s.odGet (oFabricLinkCtlState l) != 2))

/-- The flip to a new generation (R163): the idle bank written for the given blocked sites and links, every die's active
bank flipped, the old bank draining for the held-flit limit, the floor plan's new records published. -/
def State.flip (s : State) (sites links : List Nat) (pairs : Nat) : State :=
  let a := s.activeBank
  let old := s.bank a
  let keep := old.mcast.filter (fun p => decide (p.1 % 768 < 512))
  let s1 := (s.failStranded sites links).applyFloor
  let fresh : Bank := {
    built := true, generation := s1.odGet oFloorPanelGeneration, blockedSites := sites, blockedLinks := links
    ctlSites := s1.ctlBlocked.1, ctlLinks := s1.ctlBlocked.2
    mcast := (broadcastTree sites links).foldl (fun m p => mins m p.1 p.2) keep }
  let drain := { old with drainUntil := some (s.clk + 1000 * s.odGet oFabricPanelHeldFlitLimitUs) }
  (((s1.setBank (1 - a) fresh).setBank a drain).odSet oFabricPanelActiveBank (1 - a)).odSet oFabricPanelUpdownPairs pairs

/-- A new generation is due: floor-plan fields wait, or something passable in the tables is so no longer. -/
def State.generationDue (s : State) : Bool :=
  let b := s.bank s.activeBank
  s.floorDue != [] || !b.built || s.blockedNow.1.any (fun g => !b.blockedSites.contains g) ||
  s.blockedNow.2.any (fun l => !b.blockedLinks.contains l)

/-- What an ordinary flip leaves blocked: what is impassable now, and what the tables already avoid (R164, R165). -/
def State.blockedNext (s : State) : List Nat × List Nat :=
  let b := s.bank s.activeBank
  if !b.built then s.blockedNow
  else
    (b.blockedSites ++ s.blockedNow.1.filter (fun g => !b.blockedSites.contains g),
     b.blockedLinks ++ s.blockedNow.2.filter (fun l => !b.blockedLinks.contains l))

/-- BANK_DRAIN_END (R163). -/
def execBankDrainEnd (dt : Nat) (bank : Fin 2) (s : State) : Host.Outcome State Fault Refusal :=
  let s := s.tick dt
  let b := s.bank bank.val
  .next (match b.drainUntil with
    | some t => if t ≤ s.clk then s.setBank bank.val { b with drainUntil := none } else s
    | none => s)

/-- The tiles that a furnish slot is placed on. -/
def State.slotTiles (s : State) (slot : Nat) : List Nat :=
  match (mget {} s.pslots slot).placed with
  | some x => x.tiles.map (·.2)
  | none => []

/-- The nodes that a slot's tiles send to or reach, as pairs (R165, R166). -/
def State.slotPairs (s : State) (slot : Nat) : List (Nat × Nat) :=
  ((s.slotTiles slot).map (fun k =>
    let t := s.tile k
    (t.routes.filterMap (fun p => p.2.map (fun r => (k, r.node)))) ++
    (t.buffers.filterMap (fun p => p.2.map (fun b => (k, b.node)))))).flatten

/-- The lanes of a slot that hold a stream. -/
def State.lanesOf (s : State) (slot : Nat) : List Nat := (s.lanes.filter (fun p => p.2.slot == slot)).map (·.1)

/-- The slots some of whose pairs meet a test. -/
def State.slotsWhere (s : State) (f : Nat × Nat → Bool) : List Nat := (List.range 8).filter (fun i => (s.slotPairs i).any f)

/-- A lane has no tag outstanding: no pass, no run-ahead (R165). -/
def State.laneQuiet (s : State) (lane : Nat) : Bool :=
  match mlook s.lanes lane with
  | some x => x.pass.isNone && x.runAhead.isNone
  | none => true

end Sys2Proof.Machine
end

