-- ==== Sys2Proof/Machine/Control.lean ====
section
/-!
DEFINITION. The control network (R177): mailboxes (R179 to R182), doorbells (R183), polled flags, fault notices (R178),
scan rows, chunk bitmaps, and object-dictionary agents. Payload layouts that the spec does not give are in log entry 26.
-/
namespace Sys2Proof.Machine

/-- A word of a control packet's payload. -/
def ctlWord (c : Ctl) (i : Nat) : Nat := c.words.getD i 0

/-- A fault-log entry about a control packet. -/
def ctlEntry (c : Ctl) (cause : Nat) : FaultEntry := { cause := cause, slot := 0xF, producer := c.src }

/-- The sites through which a node hangs on the control network: a steward on its sector's site 10 (R153). -/
def ctlSitesOf (n : Nat) : List Nat :=
  match nodeKind n with
  | .steward i => [16 * i + 10]
  | _ => nodeSites n

/-- The control network's tables lead from one node to another (R177); before they are computed its routers are in boot mode. -/
def State.ctlReaches (s : State) (src dest : Nat) : Bool :=
  let b := s.bank s.activeBank
  let c := { b with blockedSites := b.ctlSites, blockedLinks := b.ctlLinks }
  !b.built || (ctlSitesOf src).any (fun g => (ctlSitesOf dest).any (fun h => (c.path g h).isSome))

/-- A control packet as R177 forms it: its class that of its operation, reserved bits 0, at most 17 payload words. -/
def ctlFormOk (c : Ctl) : Bool := c.cls == ctlClass c.op && c.rsv == 0 && decide (c.words.length ≤ 17)

/-- A control packet reaches its destination: another operation code than the command's is discarded and logged with
cause 0x0003, as is one of another form, and one for no endpoint (R11, R177); one that no path leads to is, at its source. -/
def State.control (s : State) (c : Ctl) (op : Nat) (run : State → State) : State :=
  let s := s.take (.ctl c)
  if c.op ≠ op ∨ !ctlFormOk c ∨ nodeKind c.dest = .nothing then s.logAt c.dest (ctlEntry c causeMisrouted)
  else if !s.ctlReaches c.src c.dest then s.logAt c.src (ctlEntry c causeMisrouted)
  else run s

/-- The answer to a control packet. -/
def State.reply (s : State) (c : Ctl) (op : Nat) (words : List Nat) : State := s.send (ctlMsg c.src c.dest op c.txn words)

-- ------------------------------------------------------------------ doorbells (R183)

/-- A source that may ring a bit: region programs only bits 16 to 31 of a hub (R183). -/
def mayRing (src dest bit : Nat) : Bool :=
  isFirmwareNode src || (match nodeKind dest with | .hub _ _ => decide (16 ≤ bit ∧ bit < 32) | _ => false)

/-- DOORBELL (R183): word 0 [4:0] is the bit, [8] asks for an acknowledgement. DESIGN CHOICE: the acknowledgement is an MBOX_RESP
with payload 0, for R177 names no operation for it (log entry 109). -/
def execDoorbell (dt : Nat) (c : Ctl) (s : State) : Host.Outcome State Fault Refusal :=
  .next ((s.tick dt).control c 5 (fun s =>
    let bit := ctlWord c 0 % 32
    if (bellObj c.dest).isNone ∨ !mayRing c.src c.dest bit then s.logAt c.dest (ctlEntry c causeFirmwareOnly)
    else
      let s1 := s.ring c.dest bit
      if (ctlWord c 0).testBit 8 then s1.reply c 2 [0] else s1))

-- ------------------------------------------------------------------ mailboxes (R179 to R182)

/-- The mailbox that a node and a number name, if it exists: two on a tile; on a hub 64 of function 0 and a further 64
of its other functions; 16 on a steward and on a port die (R179). -/
def mailbox (node n : Nat) : Option Nat :=
  match nodeKind node with
  | .tile k => if n < 2 then some (mboxKey k n) else none
  | .hub h 0 => if n < 64 then some (mboxKey (hubNode h) n) else none
  | .hub h _ => if n < 64 then some (mboxKey (hubNode h) (64 + n)) else none
  | .steward _ => if n < 16 then some (mboxKey node n) else none
  | .portDie _ => if n < 16 then some (mboxKey node n) else none
  | _ => none

/-- A source may write a node's mailbox: region programs only those of tiles and of a hub's function 0 (R25, R179). -/
def mayWriteMbox (src dest : Nat) : Bool :=
  isFirmwareNode src || (match nodeKind dest with
    | .tile _ => true
    | .hub _ 0 => true
    | _ => false)

/-- The hardware doorbell that a hub's mailbox rings as it becomes full (R183). -/
def mboxBell (src dest n : Nat) : Option Nat :=
  match nodeKind dest with
  | .hub _ 0 => some (1 + n / 16)
  | .hub _ _ => match nodeKind src with
    | .steward _ => some 7
    | .portDie _ => some 8
    | _ => none
  | _ => none

/-- MBOX_WRITE (R180, R182). -/
def execMboxWrite (dt : Nat) (c : Ctl) (s : State) : Host.Outcome State Fault Refusal :=
  .next ((s.tick dt).control c 1 (fun s =>
    let n := ctlWord c 0 % 256
    let answer (s : State) (code : Nat) : State := s.reply c 2 [code + n * 256]
    if n ≥ 0x80 then
      if (bellObj c.dest).isSome ∧ mayRing c.src c.dest (n - 0x80) ∧ n < 0xA0 then answer (s.ring c.dest (n - 0x80)) 0
      else answer (s.logAt c.dest (ctlEntry c causeFirmwareOnly)) 2
    else match mailbox c.dest n with
      | none => answer (s.logAt c.dest (ctlEntry c causeFirmwareOnly)) 2
      | some key =>
        if !mayWriteMbox c.src c.dest then answer (s.logAt c.dest (ctlEntry c causeFirmwareOnly)) 2
        else if (mlook s.mboxes key).isSome then answer (s.bump oFabricPanelMailboxBusy) 1
        else
          let s1 := { s with mboxes := mins s.mboxes key (BitVec.ofNat 64 (ctlWord c 1 + ctlWord c 2 * 2 ^ 32)) }
          let s2 := match mboxBell c.src c.dest n with
            | some b => s1.ring c.dest b
            | none => s1
          answer s2 0))

/-- MBOX_RESP (R83, R180): ACCEPTED lets the unit's token go; BUSY sets the next write after the backoff; ERROR is a
violation of the unit that wrote. -/
def execMboxResp (dt : Nat) (c : Ctl) (s : State) : Host.Outcome State Fault Refusal :=
  .next ((s.tick dt).control c 2 (fun s => match nodeKind c.dest with
    | .tile k =>
      let t := s.tile k
      let i := c.txn % 16
      let x := t.slot i
      match x.held with
      | none => s
      | some r =>
        let done := s.setTile k ((t.setSlot i { x with held := none, retryAt := 0 }).refresh s.clk)
        match ctlWord c 0 % 4 with
        | 0 => done
        | 1 => s.setTile k (t.setSlot i { x with retryAt := s.clk + s.odGet oFabricPanelBusyBackoffNs })
        | 2 => done.violateTok k i (dIn x.cur 0) r causeFirmwareOnly 0 0
        | _ => s
    | _ => s))

/-- MBOX_POLL (R180). -/
def execMboxPoll (dt : Nat) (c : Ctl) (s : State) : Host.Outcome State Fault Refusal :=
  .next ((s.tick dt).control c 3 (fun s =>
    let n := ctlWord c 0 % 256
    match mailbox c.dest n with
    | some key => s.reply c 4 [(if (mlook s.mboxes key).isSome then 1 else 0) + n * 256]
    | none => (s.logAt c.dest (ctlEntry c causeFirmwareOnly)).reply c 2 [2 + n * 256]))

/-- MBOX_POLL_RESP (R180): the poller learns the flag; nothing else changes. -/
def execMboxPollResp (dt : Nat) (c : Ctl) (s : State) : Host.Outcome State Fault Refusal :=
  .next ((s.tick dt).control c 4 id)

-- ------------------------------------------------------------------ polled flags (R1, R107, R109, R115, R149)

/-- The flag words of a node (log entry 26): of a tile in group 0 the fault and stall flags, the last command's report,
the tile watermark and the heartbeat; in group 1 + g the fence acknowledgements due, lanes 32g to 32g + 31. -/
def State.flagWords (s : State) (node group : Nat) : List Nat :=
  match nodeKind node with
  | .tile k =>
    let t := s.tile k
    if group = 0 then
      [(if t.faultFlag then 1 else 0) + (if t.stallFlag then 2 else 0) +
        (match t.cmdFlag with | some true => 4 | some false => 8 | none => 0) + t.wm.val * 16, t.heartbeat % 2 ^ 32]
    else [sumN ((t.ackDue.filter (fun l => l / 32 == group - 1)).map (fun l => 2 ^ (l % 32)))]
  | _ => [0]

/-- FLAG_READ (R177): the node answers; the hub's poll takes the stall flag and the command report with it. -/
def execFlagRead (dt : Nat) (c : Ctl) (s : State) : Host.Outcome State Fault Refusal :=
  .next ((s.tick dt).control c 6 (fun s =>
    let s1 := s.reply c 7 (s.flagWords c.dest (ctlWord c 0 % 65536))
    match nodeKind c.dest with
    | .tile k => if ctlWord c 0 % 65536 = 0 then s1.setTile k { s1.tile k with stallFlag := false, cmdFlag := none } else s1
    | _ => s1))

/-- FLAG_RESP (R177): the hub has the flags; what it does with them are its own commands. -/
def execFlagResp (dt : Nat) (c : Ctl) (s : State) : Host.Outcome State Fault Refusal :=
  .next ((s.tick dt).control c 7 id)

-- ------------------------------------------------------------------ fault notices (R178)

/-- A hub's queue of notices. -/
def State.notices (s : State) (h : Nat) : List Notice := if h = 0 then s.noticesA else s.noticesB

/-- The state with a hub's queue replaced. -/
def State.setNotices (s : State) (h : Nat) (l : List Notice) : State :=
  if h = 0 then { s with noticesA := l } else { s with noticesB := l }

/-- FAULT_NOTICE (R178): into the hub's queue of 1,024, or answered BUSY. -/
def execFaultNotice (dt : Nat) (c : Ctl) (s : State) : Host.Outcome State Fault Refusal :=
  .next ((s.tick dt).control c 9 (fun s => match nodeKind c.dest with
    | .hub h _ =>
      if (s.notices h).length ≥ 1024 then (s.bump oFabricPanelNoticeBusy).reply c 10 [1]
      else
        let e := entryOf ((c.words.map (toLE 4)).flatten)
        ((s.setNotices h (s.notices h ++ [⟨c.src, e⟩])).ring (hubNode h) 0).reply c 10 [0]
    | _ => s.logAt c.dest (ctlEntry c causeMisrouted)))

/-- The state with a node's outstanding notices replaced. -/
def State.setOut (s : State) (node : Nat) (l : List (FaultEntry × Nat × Nat)) : State :=
  { s with noticesOut := if l = [] then mdel s.noticesOut node else mins s.noticesOut node l }

/-- NOTICE_RESP (R178), to the notice whose transaction it echoes: taken lets the notice go, and the last one the tile's fault
flag; BUSY sets the time to send it again. -/
def execNoticeResp (dt : Nat) (c : Ctl) (s : State) : Host.Outcome State Fault Refusal :=
  .next ((s.tick dt).control c 10 (fun s =>
    let l := mget [] s.noticesOut c.dest
    if !l.any (fun n => n.2.2 == c.txn) then s
    else if ctlWord c 0 % 2 = 1 then
      s.setOut c.dest (l.map (fun n => if n.2.2 = c.txn then (n.1, s.clk + s.odGet oFabricPanelBusyBackoffNs, n.2.2) else n))
    else
      let rest := l.filter (fun n => n.2.2 != c.txn)
      let s1 := s.setOut c.dest rest
      match nodeKind c.dest with
      | .tile k =>
        let t := s1.tile k
        if rest = [] ∧ t.drained ≥ t.log.length then s1.setTile k { t with faultFlag := false } else s1
      | _ => s1))

/-- NOTICE_RESEND (R178): a notice answered BUSY goes out again once the backoff has passed. -/
def execNoticeResend (dt node : Nat) (s : State) : Host.Outcome State Fault Refusal :=
  let s := s.tick dt
  let l := mget [] s.noticesOut node
  .next (match l.find? (fun n => n.2.1 != 0 && decide (n.2.1 ≤ s.clk)) with
    | some x => (s.setOut node (l.map (fun n => if n = x then (n.1, 0, n.2.2) else n))).send (noticeMsg (hubNode s.actingHub) node x.2.2 x.1)
    | none => s)

-- ------------------------------------------------------------------ rows, bitmaps and agents (R177, R441)

/-- SCAN_DATA (R177): the row joins what the receiver has of the image; nonzero reserved bits of word 0 are refused (R11). -/
def execScanData (dt : Nat) (c : Ctl) (s : State) : Host.Outcome State Fault Refusal :=
  .next ((s.tick dt).control c 0x10 (fun s =>
    let row := rowOf (((List.range 16).map (fun i => toLE 4 (ctlWord c (i + 1)))).flatten)
    if ctlWord c 0 ≥ 65536 then s.logAt c.dest (ctlEntry c causeMisrouted) else { s with scanRows := mset 0 s.scanRows (c.dest * 65536 + ctlWord c 0) row }))

/-- BITMAP_READ (R441): 512 bits of a die's chunk bitmap from chunk 0 or 512, in 16 words; a response at a hub rings
doorbell bit 6. -/
def execBitmapRead (dt : Nat) (c : Ctl) (s : State) : Host.Outcome State Fault Refusal :=
  .next ((s.tick dt).control c 0x11 (fun s => match nodeKind c.dest with
    | .hub _ _ => s.ring c.dest 6
    | _ =>
      let w := mget 0 s.chunks (c.dest / 64) >>> (if ctlWord c 0 = 512 then 512 else 0)
      s.reply c 0x11 ((List.range 16).map (fun i => (w >>> (32 * i)) % 2 ^ 32))))

/-- OD_REQ (R177): the agent of a node answers with the value of the object that word 0 names. -/
def execOdReq (dt : Nat) (c : Ctl) (s : State) : Host.Outcome State Fault Refusal :=
  .next ((s.tick dt).control c 0x12 (fun s =>
    let v := s.odGet (ctlWord c 0)
    s.reply c 0x13 [ctlWord c 0, v % 2 ^ 32, v / 2 ^ 32 % 2 ^ 32]))

/-- OD_RESP (R177, R183): a response at a hub rings doorbell bit 5. -/
def execOdResp (dt : Nat) (c : Ctl) (s : State) : Host.Outcome State Fault Refusal :=
  .next ((s.tick dt).control c 0x13 (fun s => s.ring c.dest 5))

end Sys2Proof.Machine
end

