-- ==== Sys2Proof/Machine/Clock.lean ====
section
/-!
DEFINITION. The clock reference (R434, R435): forwarding from die to die, holdover and relocking, and handing the reference
from hub to hub. Clock nodes are the global sites, and from 256 on the functions at the off-grid node (R23).
-/
namespace Sys2Proof.Machine

/-- The edges of a clock node that face another die, in the order north, east, south, west; a port die's in the order of its
attach sites (R20, R21). -/
def clockPeers (n : Nat) : List (Nat × Nat) :=
  if n < 256 then
    (List.range 4).filterMap (fun e => match neighbour n e with
      | some h => if hubSeam n h then none else some (e, h)
      | none => (edgePortDie n e).map (fun p => (e, 272 + p)))
  else if n < 272 then [(0, (n - 256) * 16 + 10)]
  else (List.range 4).map (fun i => (i, (portAttach (n - 272)).getD i 0))

/-- The hub whose site a clock node is. -/
def clockHub (n : Nat) : Option Nat := if n = 95 ∨ n = 147 then some 0 else if n = 108 ∨ n = 160 then some 1 else none

/-- A die that runs: neither fused nor failed. -/
def State.clockAlive (s : State) (n : Nat) : Bool :=
  if n < 256 then s.floorNow (oFloorSiteState n) != 4 && s.floorNow (oFloorSiteState n) != 3 && !s.boot.fused.contains n &&
    (match clockHub n with | some h => !s.boot.badHubs.contains h | none => true)
  else s.floorNow (oFloorOffgridState (n - 256)) != 4

/-- A forwarded clock arrives over an edge: its control link has not failed. -/
def State.clockEdge (s : State) (n e : Nat) : Bool :=
  decide (n ≥ 256) || (s.odGet (oFabricLinkCtlState (n * 4 + e)) != 5 && s.odGet (oFabricLinkCtlState (n * 4 + e)) != 6)

/-- The nodes through which a node's clock comes, from itself to a hub; none where it is not locked. -/
def State.clockChain (s : State) : Nat → Nat → Option (List Nat)
  | 0, _ => none
  | fuel + 1, n => match mlook s.boot.clock n with
    | none => none
    | some 4 => some [n]
    | some e => match (clockPeers n).find? (fun p => p.1 == e) with
      | some p => (s.clockChain fuel p.2).map (fun l => n :: l)
      | none => none

/-- A node's hop count: that of its hub, 0 where it holds the reference and 1 where it follows, plus the hops from it. -/
def State.clockHops (s : State) (n : Nat) : Option Nat :=
  (s.clockChain 276 n).map (fun l => l.length - 1 + (match l.getLast?.bind clockHub with
    | some h => if h = s.odGet oBootClockSource then 0 else 1
    | none => 0))

/-- The state with a node's source. -/
def State.setClock (s : State) (n : Nat) (e : Option Nat) : State :=
  { s with boot := { s.boot with clock := match e with | some v => mins s.boot.clock n v | none => mdel s.boot.clock n } }

/-- boot.clock.dies_locked brought up to date; a hub's two sites are one die. -/
def State.countLocks (s : State) : State :=
  s.odSet oBootClockDiesLocked (s.boot.clock.filter (fun p => p.1 != 147 && p.1 != 160 && s.clockAlive p.1)).length

/-- The hubs take their oscillators: the leading one the reference, the other following (R434, R435). -/
def State.startClock (s : State) (lead : Nat) : State :=
  let hubs := [95, 147, 108, 160].filter s.clockAlive
  hubs.foldl (fun s n => s.setClock n (some 4)) ({ s with boot := { s.boot with clock := [] } }.odSet oBootClockSource lead)

/-- A level of dies locks: each die not locked yet that an edge with a given hop count reaches, on the first such edge. -/
def State.clockLevel (s : State) (hop : Nat) : State :=
  let fits (n : Nat) (p : Nat × Nat) : Bool := s.clockEdge n p.1 && s.clockAlive p.2 && s.clockHops p.2 == some hop
  let fresh := (List.range 276).filterMap (fun n =>
    if (mlook s.boot.clock n).isSome ∨ !s.clockAlive n then none else ((clockPeers n).find? (fits n)).map (fun p => (n, p.1)))
  fresh.foldl (fun s q => s.setClock q.1 (some q.2)) s

/-- Every die locks to the edge with the lowest hop count, ties in the order north, east, south, west (R434). -/
def State.lockAll (s : State) (lead : Nat) : State := ((List.range 64).foldl State.clockLevel (s.startClock lead)).countLocks

/-- The hop count of an edge's source where its clock is valid. -/
def State.edgeHops (s : State) (n : Nat) (p : Nat × Nat) : Option Nat :=
  if s.clockEdge n p.1 && s.clockAlive p.2 then s.clockHops p.2 else none

/-- The edge to which a locked die changes: the one with the lowest count, where that is strictly lower than that of the die's present
source (R434). -/
def State.clockBetter (s : State) (n : Nat) : Option Nat :=
  match mlook s.boot.clock n, s.clockHops n with
  | some e, some h =>
    if e = 4 then none
    else
      let lower := (clockPeers n).filterMap (fun p => match s.edgeHops n p with
        | some k => if k + 1 < h then some (k, p.1) else none
        | none => none)
      ((sortBy (·.1) lower).head?).map (·.2)
  | _, _ => none

/-- The dies change edge until none has one with a strictly lower count (R434). -/
def State.clockSettle : Nat → State → State
  | 0, s => s.countLocks
  | rounds + 1, s =>
    let moves := (List.range 276).filterMap (fun n => (s.clockBetter n).map (fun e => (n, e)))
    if moves = [] then s.countLocks
    else State.clockSettle rounds (moves.foldl (fun (s : State) q => s.setClock q.1 (some q.2)) s)

/-- A die whose source is gone holds over and locks to the edge with the lowest hop count that is still valid, one whose clock does
not come from this die (R434). -/
def State.clockRelock (s : State) (n : Nat) : State :=
  let s1 := (s.setClock n none).bump oBootClockHoldovers
  let best := (sortBy (·.1) ((clockPeers n).filterMap (fun p => (s1.edgeHops n p).map (fun k => (k, p.1))))).head?
  s1.setClock n (best.map (·.2))

/-- CLOCK_SOURCE_LOSS (R434): a die loses the edge that it was locked to. -/
def execClockSourceLoss (dt : Nat) (die : Fin 276) (s : State) : Host.Outcome State Fault Refusal :=
  let s := s.tick dt
  .next (match mlook s.boot.clock die.val with
    | some e => if e = 4 then s else (s.clockRelock die.val).clockSettle 276
    | none => s)

/-- The dies whose source is a hub. -/
def State.clockOn (s : State) (h : Nat) : List Nat :=
  (s.boot.clock.filter (fun q => q.2 != 4 && ((clockPeers q.1).any (fun p => p.1 == q.2 && clockHub p.2 == some h)))).map (·.1)

/-- The reference goes to a hub (R435): its output continues unbroken, and the dies whose source was the other hold over and
relock. -/
def State.takeReference (s : State) (h : Nat) : State :=
  let dies := s.clockOn (1 - h)
  (dies.foldl State.clockRelock ((s.odSet oBootClockSource h).bump oBootClockSwitchovers)).clockSettle 276

/-- A hub's clock is gone (R435): where it held the reference the other takes it, and the dies that it fed relock. -/
def State.clockHubLost (s : State) (h : Nat) : State :=
  let s1 := ((if h = 0 then [95, 147] else [108, 160]).foldl (fun (s : State) n => s.setClock n none) s)
  if s.odGet oBootClockSource = h ∧ s.boot.clock ≠ [] then s1.takeReference (1 - h) else ((s.clockOn h).foldl State.clockRelock s1).clockSettle 276

/-- A write of boot.clock.switch (R435): read 0 done, 2 refused where the other hub cannot take the reference. -/
def State.clockSwitch (s : State) : State :=
  let h := 1 - s.odGet oBootClockSource
  let n := if h = 0 then 95 else 108
  if s.clockAlive n ∧ mlook s.boot.clock n = some 4 then (s.takeReference h).odSet oBootClockSwitch 0 else s.odSet oBootClockSwitch 2

/-- CLOCK_SWITCH (R435). -/
def execClockSwitch (dt : Nat) (s : State) : Host.Outcome State Fault Refusal := .next (s.tick dt).clockSwitch

end Sys2Proof.Machine
end

