-- ==== Sys2Proof/Machine/Fences.lean ====
section
/-!
DEFINITION. Life fences of the hub (R114 to R116, R118, R175) and their effect at a tile (R146).
-/
namespace Sys2Proof.Machine

/-- A compute die in service: ACTIVE or SPARE (R30). -/
def State.dieInService (s : State) (g : Nat) : Bool :=
  isCompute g && (s.floorNow (oFloorSiteState g) == 1 || s.floorNow (oFloorSiteState g) == 2)

/-- The slots that a lane's regions stand in: its stream's, and on lane 255 also those with an adaptation cycle (log entry
36). -/
def State.laneSlots (s : State) (lane : Nat) : List Nat :=
  (List.range 8).filter (fun i => (s.lanesOf i).contains lane || (lane == 255 && (mget {} s.pslots i).adapting))

/-- The tiles that a fence reaches: those that the lane's regions occupy (R115), while they are good and their die is in
service. -/
def State.fenceTiles (s : State) (lane : Nat) : List Nat :=
  ((s.laneSlots lane).map s.slotTiles).flatten.eraseDups.filter (fun k => s.dieInService (k / 64) &&
    decide (1 ≤ s.floorNow (oFloorTileState k)) && decide (s.floorNow (oFloorTileState k) ≤ 3))

/-- The current life L of a lane at the hub (R114). -/
def State.lifeOf (s : State) (lane : Nat) : Fin 8 := mget 0 s.laneLife lane

/-- The clock times at which the lane's last six fences started, newest first (R175). -/
def State.fenceTimes (s : State) (lane : Nat) : List Nat := mget [] s.fenceHist lane

/-- Whether the held-flit limit has passed since the advance six before (R175). -/
def State.fenceSpaced (s : State) (lane : Nat) : Bool :=
  match (s.fenceTimes lane)[5]? with
  | some t => decide (t + 1000 * s.odGet oFabricPanelHeldFlitLimitUs ≤ s.clk)
  | none => true

/-- A fence goes out (R115); with no tile to reach it is complete at once. -/
def State.beginFence (s : State) (lane : Nat) (f : Fence) : State :=
  let ts := s.fenceTiles lane
  let s1 := { s with fenceHist := mins s.fenceHist lane ((s.clk :: s.fenceTimes lane).take 6) }
  if ts = [] then s1.bump oDataflowPanelFences
  else { s1 with fences := mins s1.fences lane { f with toApply := ts, waiting := ts, started := s.clk } }

/-- The next fence of a lane goes out if none is under way and R175 allows it; the wait that R175 imposes is counted once. -/
def State.nextFence (s : State) (lane : Nat) : State :=
  match mlook s.fences lane, mget [] s.fenceQueue lane with
  | none, f :: rest =>
    if s.fenceSpaced lane then ({ s with fenceQueue := mset [] s.fenceQueue lane rest }).beginFence lane f
    else if f.delayed then s
    else ({ s with fenceQueue := mset [] s.fenceQueue lane ({ f with delayed := true } :: rest) } : State).bump oFabricPanelFenceDelays
  | _, _ => s

/-- The hub advances a lane's life (R115, R116): at once in the stream table; at the tiles by a fence, which waits for
the fence before it and for the held-flit limit (R175). -/
def State.advanceLife (s : State) (lane n : Nat) (cmds : List TileFence) : State :=
  let f : Fence := { advance := n, cmds := cmds }
  let s1 := { s with laneLife := mset 0 s.laneLife lane (s.lifeOf lane + Fin.ofNat 8 n),
                     fenceQueue := mset [] s.fenceQueue lane (mget [] s.fenceQueue lane ++ [f]) }
  s1.nextFence lane

/-- A lane's life as a tile has it that has applied every advance sent to it: the hub's, less those still to be applied (log entry
107). -/
def State.lifeAt (s : State) (lane k : Nat) : Fin 8 :=
  let behind := sumN ((mget [] s.fenceQueue lane).map (·.advance)) +
    (match mlook s.fences lane with | some f => if f.toApply.contains k then f.advance else 0 | none => 0)
  s.lifeOf lane - Fin.ofNat 8 behind

/-- Tiles that a lane's regions come to occupy are given its life (log entry 107). -/
def State.syncLane (s : State) (lane : Nat) (ks : List Nat) : State :=
  ks.foldl (fun s k => let t := s.tile k; s.setTile k { t with lives := mset 0 t.lives lane (s.lifeAt lane k) }) s

/-- A tile that a slot comes to occupy is given the lives of the slot's lanes (log entry 107). -/
def State.syncTile (s : State) (slot k : Nat) : State :=
  ((255 :: s.lanesOf slot).filter (· < 256)).foldl (fun s l => s.syncLane l [k]) s

/-- What a fence carries for a tile. -/
def Fence.cmdFor (f : Fence) (k : Nat) : TileFence := (f.cmds.find? (fun c => c.tile == k)).getD { tile := k }

/-- The fence's effect on a tile: the life, dead tokens, COMMITs, then ROLLBACKs (R114, R146). -/
def State.applyFence (s : State) (k lane : Nat) (f : Fence) : State :=
  let t := s.tile k
  let t1 := { t with lives := mset 0 t.lives lane (t.life lane + Fin.ofNat 8 f.advance),
                     ackDue := if t.ackDue.contains lane then t.ackDue else t.ackDue ++ [lane] }
  let s1 := (s.setTile k t1).purgeDead k
  let s2 := (f.cmdFor k).commits.foldl (fun s p => s.commitRegion k p.1 p.2) s1
  (f.cmdFor k).rollbacks.foldl (fun s e => s.rollbackOrWait k e) s2

/-- FENCE_APPLY (R115): at its dispatch point a tile applies the advance of the fence under way on a lane. -/
def execFenceApply (dt tile : Nat) (lane : Fin 256) (s : State) : Host.Outcome State Fault Refusal :=
  let s := s.tick dt
  onTile tile s (match mlook s.fences lane.val with
    | some f =>
      if f.toApply.contains tile then
        ({ s with fences := mins s.fences lane.val { f with toApply := f.toApply.filter (· != tile) } }).applyFence tile lane.val f
      else s
    | none => s)

/-- The hub finds a tile's acknowledgement of a fence; the last one completes it, and the next fence may start (R115). -/
def State.fenceAcked (s : State) (k lane : Nat) : State :=
  match mlook s.fences lane with
  | none => s
  | some f =>
    let w := f.waiting.filter (· != k)
    if w = [] then (({ s with fences := mdel s.fences lane }).bump oDataflowPanelFences).nextFence lane
    else { s with fences := mins s.fences lane { f with waiting := w } }

/-- FENCE_ACK (R115): a tile that has applied the fence and holds no dead token of the lane acknowledges. -/
def execFenceAck (dt tile : Nat) (lane : Fin 256) (s : State) : Host.Outcome State Fault Refusal :=
  let s := s.tick dt
  let t := s.tile tile
  onTile tile s (if t.ackDue.contains lane.val ∧ t.deadOf (· == lane.val) = 0 then
      (s.setTile tile { t with ackDue := t.ackDue.filter (· != lane.val) }).fenceAcked tile lane.val
    else s)

/-- A lost tile no longer holds up any fence. -/
def State.fenceForget (s : State) (ks : List Nat) : State :=
  s.fences.foldl (fun s p => match mlook s.fences p.1 with
    | some f =>
      let w := f.waiting.filter (fun k => !ks.contains k)
      if w = [] then (({ s with fences := mdel s.fences p.1 }).bump oDataflowPanelFences).nextFence p.1
      else { s with fences := mins s.fences p.1 { f with waiting := w, toApply := f.toApply.filter (fun k => !ks.contains k) } }
    | none => s) s

end Sys2Proof.Machine
end

