-- ==== Sys2Proof/Machine/Furnish.lean ====
section
/-!
DEFINITION. The furnish image (R209 to R219): how its bytes are read, and the load checks 1 to 8 (R221).
-/
namespace Sys2Proof.Machine

-- ------------------------------------------------------------------ reading the image

/-- The bytes of a section. -/
def sectBytes (img : List Nat) (x : Sect) : List Nat := sliceAt img x.off x.len

/-- A section table entry (R210). -/
def readSect (img : List Nat) (at' : Nat) : Sect :=
  { kind := leAt img at' 2, id := leAt img (at' + 4) 4, off := leAt img (at' + 8) 8, len := leAt img (at' + 16) 8,
    crc := leAt img (at' + 24) 4 }

/-- The section table. -/
def readSects (img : List Nat) : List Sect :=
  (List.range (leAt img 46 2)).map (fun i => readSect img (leAt img 48 8 + 32 * i))

/-- A logical tile record (R212). -/
def readLTile (b : List Nat) (o : Nat) : LTile :=
  { coord := leAt b o 4, firstDesc := leAt b (o + 4) 2, nDesc := leAt b (o + 6) 1, queues := leAt b (o + 7) 1,
    firstRegion := leAt b (o + 8) 2, nRegion := leAt b (o + 10) 1, nRoute := leAt b (o + 11) 1,
    firstRoute := leAt b (o + 12) 2, firstBuf := leAt b (o + 14) 2, nBuf := leAt b (o + 16) 1, regs := leAt b (o + 17) 1,
    nOps := leAt b (o + 18) 2, firstOp := leAt b (o + 20) 2, firstConst := leAt b (o + 22) 2, nConst := leAt b (o + 24) 2,
    constRow := leAt b (o + 26) 2, rowsM1 := leAt b (o + 28) 2, opBase := leAt b (o + 30) 2 }

/-- An array of a region program: offset and record count (R211). -/
def progArray (b : List Nat) (k : Nat) : Nat × Nat := (leAt b (16 + 8 * k) 4, leAt b (20 + 8 * k) 4)

/-- The records of an array. -/
def progRecords {α : Type} (b : List Nat) (k size : Nat) (f : Nat → α) : List α :=
  (List.range (progArray b k).2).map (fun i => f ((progArray b k).1 + size * i))

/-- Reduction records, one after another (R215). -/
def readReds (b : List Nat) : Nat → Nat → List RedRec
  | 0, _ => []
  | n + 1, o =>
    let nodes := if leAt b (o + 4) 1 = 3 then leAt b (o + 12) 4 else 0
    { id := leAt b o 4, order := leAt b (o + 4) 1, rsv := leAt b (o + 5) 3, partials := leAt b (o + 8) 4,
      nodes := (List.range nodes).map (fun i => (leAt b (o + 16 + 8 * i) 4, leAt b (o + 20 + 8 * i) 4)) } ::
      readReds b n (o + 16 + 8 * nodes)

/-- The end of the reduction records. -/
def redsEnd (b : List Nat) : Nat → Nat → Nat
  | 0, o => o
  | n + 1, o => redsEnd b n (o + 16 + (if leAt b (o + 4) 1 = 3 then 8 * leAt b (o + 12) 4 else 0))

/-- A region program section (R211). -/
def readProg (img : List Nat) (x : Sect) : RegionProg :=
  let b := sectBytes img x
  { secId := x.id, region := leAt b 0 2, variant := leAt b 2 1, seam := leAt b 3 1, layer := leAt b 4 2, role := leAt b 6 1,
    fold := leAt b 7 1, width := leAt b 8 2, stride := leAt b 10 2
    tiles := progRecords b 0 32 (readLTile b)
    descs := progRecords b 1 64 (fun o => descOfRow (rowOf (b.drop o)))
    regions := progRecords b 2 16 (fun o => (BitVec.ofNat 64 (leAt b o 8), BitVec.ofNat 64 (leAt b (o + 8) 8)))
    routes := progRecords b 3 8 (fun o => { target := leAt b o 4, queue := leAt b (o + 4) 1, kind := leAt b (o + 5) 1 })
    bufs := progRecords b 4 16 (fun o =>
      { kind := leAt b o 1, layer := leAt b (o + 2) 2, target := leAt b (o + 4) 4, off := leAt b (o + 8) 4, len := leAt b (o + 12) 4 })
    ops := progRecords b 5 4 (fun o => BitVec.ofNat 32 (leAt b o 4))
    consts := progRecords b 6 64 (fun o => rowOf (b.drop o))
    reds := readReds b (progArray b 7).2 (progArray b 7).1 }

/-- A logical tile's own records. -/
def tileDescs (p : RegionProg) (t : LTile) : List Desc := (p.descs.drop t.firstDesc).take t.nDesc
def tileRegions (p : RegionProg) (t : LTile) : List (BitVec 64 × BitVec 64) := (p.regions.drop t.firstRegion).take t.nRegion
def tileRoutes (p : RegionProg) (t : LTile) : List RouteRec := (p.routes.drop t.firstRoute).take t.nRoute
def tileBufs (p : RegionProg) (t : LTile) : List BufRec := (p.bufs.drop t.firstBuf).take t.nBuf
def tileOps (p : RegionProg) (t : LTile) : List (BitVec 32) := (p.ops.drop t.firstOp).take t.nOps
def tileConsts (p : RegionProg) (t : LTile) : List Row := (p.consts.drop t.firstConst).take t.nConst

/-- The first section of a kind. -/
def sectOf (l : List Sect) (kind : Nat) : Option Sect := l.find? (fun x => x.kind == kind)

/-- The furnish that an image spells (R209 to R219). -/
def readFurnish (img : List Nat) : Furnish :=
  let sects := readSects img
  let bytesOf (kind : Nat) : List Nat := match sectOf sects kind with | some x => sectBytes img x | none => []
  let face := bytesOf 1
  let cost := bytesOf 5
  let mc := bytesOf 6
  let nEntry := leAt face 4 2
  { fid := sliceAt img 16 16, seed := leAt img 32 8, layers := leAt img 58 2, refContext := leAt img 60 4,
    maxContext := leAt img 80 4
    folds := ((List.range 8).filter (fun n => (leAt img 84 1).testBit n)).map (fun n => 2 ^ n) ++
             ((List.range 8).filter (fun n => (leAt img 85 1).testBit n)).map (fun n => 2 * n + 3)
    regionCount := leAt img 56 2
    sects := sects
    progs := (sects.filter (fun x => x.kind == 2)).map (readProg img)
    lanesMax := leAt face 0 2, classes := leAt face 2 1, draftMax := leAt face 3 1
    entries := (List.range nEntry).map (fun i =>
      let o := 64 + 8 * i
      { ltile := leAt face o 4, queue := leAt face (o + 4) 1, role := leAt face (o + 5) 1, first := leAt face (o + 6) 1,
        last := leAt face (o + 7) 1 })
    kv := (List.range (leAt face 6 2)).map (fun i => (leAt face (64 + 8 * nEntry + 4 * i) 2, leAt face (66 + 8 * nEntry + 4 * i) 2))
    egress := leAt face 8 2, commitRegion := leAt face 10 2
    costs := (List.range (cost.length / 32)).map (fun i =>
      let o := 32 * i
      { region := leAt cost o 2, variant := leAt cost (o + 2) 1, width := leAt cost (o + 4) 2, bottleneck := leAt cost (o + 8) 4,
        slope := leAt cost (o + 12) 4, vops := leAt cost (o + 16) 4, stackBytes := leAt cost (o + 20) 4,
        weightRows := leAt cost (o + 24) 4 })
    groups := (List.range (leAt mc 0 4)).map (fun i =>
      let o := 16 + 16 * i
      let m := 16 + 16 * leAt mc 0 4
      { group := leAt mc o 2, kind := leAt mc (o + 2) 1
        members := (List.range (leAt mc (o + 4) 2)).map (fun j =>
          let a := m + 8 * (leAt mc (o + 8) 4 + j)
          (leAt mc a 4, leAt mc (a + 4) 1)) }) 
    keyId := (sectOf sects 0xFE).map (fun x => sliceAt (sectBytes img x) 0 8) }

-- ------------------------------------------------------------------ checks 1 to 5 (R221)

/-- Every byte of a range is 0 (R11). -/
def zeroAt (b : List Nat) (off n : Nat) : Bool := (sliceAt b off n).all (· == 0)

/-- A load error: code, section ID, region index, logical unit (R221). -/
abbrev LoadErr := Nat × Nat × Nat × Nat

/-- Check 1: the header (R209). -/
def check1 (img : List Nat) : Bool :=
  decide (img.length ≥ 256) && leAt img 0 4 == 0x4E464849 && leAt img 4 2 == 1 &&
  leAt img 92 4 == crc32 (img.take 92 ++ sliceAt img 96 160) && leAt img 6 2 == 256 && zeroAt img 86 2 && zeroAt img 96 160 &&
  (leAt img 84 1).testBit 0 && decide (1 ≤ leAt img 46 2) && decide (1 ≤ leAt img 56 2) && decide (leAt img 56 2 ≤ 4096)

/-- Ranges of bytes do not overlap, pairwise. -/
def disjointAll : List (Nat × Nat) → Bool
  | [] => true
  | (a, n) :: t => t.all (fun p => decide (a + n ≤ p.1) || decide (p.1 + p.2 ≤ a) || n == 0 || p.2 == 0) && disjointAll t

/-- How many sections of each kind an image may hold (R210). -/
def kindCountOk (kind n : Nat) : Bool :=
  match kind with
  | 1 | 5 => n == 1
  | 2 => decide (1 ≤ n)
  | 3 | 4 => true
  | 6 | 0xFE => decide (n ≤ 1)
  | _ => n == 0

/-- Check 2: the layout (R209, R210). -/
def check2 (img : List Nat) : Bool :=
  let n := leAt img 46 2
  let tab := leAt img 48 8
  let l := readSects img
  leAt img 8 8 == img.length && decide (tab + 32 * n ≤ img.length) &&
  l.all (fun x => [1, 2, 3, 4, 5, 6, 0xFE].contains x.kind && x.off % 64 == 0 && decide (x.off + x.len ≤ img.length)) &&
  [1, 2, 5, 6, 0xFE].all (fun k => kindCountOk k (l.filter (fun x => x.kind == k)).length) &&
  disjointAll ((0, 256) :: (tab, 32 * n) :: l.map (fun x => (x.off, x.len))) &&
  (l.map (·.id)).eraseDups.length == l.length &&
  (List.range n).all (fun i => zeroAt img (tab + 32 * i + 2) 2 && zeroAt img (tab + 32 * i + 28) 4) &&
  (match sectOf l 0xFE with
   | some x => (l.getLast?.map (·.kind)) == some 0xFE && x.off + x.len == img.length && l.all (fun y => decide (y.off ≤ x.off)) &&
               decide (x.len ≥ 3381)
   | none => true)

/-- Check 3: section CRCs; the first wrong section's ID. -/
def check3 (img : List Nat) : Option Nat :=
  ((readSects img).find? (fun x => x.kind != 0xFE && x.crc != crc32 (sectBytes img x))).map (·.id)

/-- An enrolled furnish key: key ID, Ed25519 and ML-DSA-65 public keys (R219). -/
def State.furnishKeys (s : State) : List (List Nat × List Nat × List Nat) :=
  let b := toLE (8 * 1992) (s.odGet oPlacementPanelFurnishKeys)
  ((List.range 8).map (fun i => (sliceAt b (1992 * i) 8, sliceAt b (1992 * i + 8) 32, sliceAt b (1992 * i + 40) 1952))).filter
    (fun k => k.1.any (· != 0))

/-- Check 4: the signature (R219): none where none is required, or both verify under an enrolled key. -/
def State.check4 (s : State) (img : List Nat) : Bool :=
  match sectOf (readSects img) 0xFE with
  | none => s.odGet oPlacementPanelRequireSigned == 0
  | some x =>
    let b := sectBytes img x
    let digest := sha384 (img.take x.off)
    match s.furnishKeys.find? (fun k => k.1 == sliceAt b 0 8) with
    | some k => Config.ed25519Verify k.2.1 digest (sliceAt b 8 64) && Config.mldsaVerify 65 k.2.2 digest (sliceAt b 72 3309) &&
                zeroAt b 3381 (b.length - 3381)
    | none => false

/-- Check 5: descriptor format and function set. -/
def State.check5 (s : State) (img : List Nat) : Bool :=
  leAt img 40 2 == s.odGet oTilePanelDescriptorFormat && leAt img 42 4 == s.odGet oTilePanelFunctionSet

-- ------------------------------------------------------------------ check 6 (R63, R132, R211 to R218)

/-- The register numbers that an op names in its unit's window (R76). -/
def opRegs (o : OpWord) : List Nat :=
  match o.op with
  | 0x00 => []
  | 0x01 | 0x05 => [o.d]
  | 0x02 | 0x03 => [o.a]
  | 0x04 => []
  | 0x06 | 0x07 | 0x16 | 0x17 | 0x30 | 0x31 | 0x48 => [o.d, o.a]
  | 0x13 | 0x1A => [o.d, o.a, o.b, o.c]
  | 0x38 => [o.d, o.a, o.a + 1]
  | 0x40 => [o.d]
  | 0x41 => [o.d, o.b, o.c]
  | 0x4A => [o.d, o.d + 1, o.a]
  | 0x4B => [o.d, o.a, o.a + 1, o.b]
  | n => if 0x20 ≤ n ∧ n ≤ 0x2A then [o.d, o.a] else [o.d, o.a, o.b]

/-- The operands of an op that name a register of four exact partials, or an input port that carries them, read whole
(R76, R78; log entry 19). -/
def opWide (o : OpWord) : List Nat :=
  match o.op with
  | 0x40 => [o.a, o.b]
  | 0x41 => [o.a]
  | _ => []

/-- The op codes of R76. -/
def opKnown (n : Nat) : Bool :=
  decide (n ≤ 7) || (decide (0x10 ≤ n) && decide (n ≤ 0x1A)) || (decide (0x20 ≤ n) && decide (n ≤ 0x2A)) ||
  [0x30, 0x31, 0x38, 0x40, 0x41, 0x48, 0x49, 0x4A, 0x4B].contains n

/-- An op of a vector program is within the unit's window, ports and constants (R75, R76, R78). -/
def opOk (d : Desc) (o : OpWord) : Bool :=
  opKnown o.op && (opRegs o).all (fun r => decide (r < vRegCount d)) && (opWide o).all (fun r =>
    decide (r < vRegCount d) || (decide (r < 4) && inBound d r && vInFmt d r == 8)) &&
  (match o.op with
   | 1 => decide (o.b < 4) && inBound d o.b && decide (o.c < fmtParts (vInFmt d o.b))
   | 2 => decide (o.b < 2) && outBound d o.b && decide (o.c < fmtParts (vOutFmt d o.b))
   | 3 => decide (o.b < 2) && outBound d o.b
   | 4 => decide (o.b < 2) && outBound d o.b && decide (o.aux ≤ 1)
   | 5 => decide (o.a < vConstCount d)
   | 0x30 => o.aux == 1 || o.aux == 2
   | 0x19 => decide (o.aux ≤ 3)
   | 0x41 => decide (o.aux ≤ 2)
   | _ => true)

/-- The program of a vector unit in a furnish. -/
def unitProgram (p : RegionProg) (t : LTile) (d : Desc) : List OpWord :=
  (((tileOps p t).drop (vProgBase d - t.opBase)).take (vProgLen d)).map opWord

/-- Region kinds that a memory unit may name, with its addressing mode (R134). -/
def regionFits (d : Desc) (r : Region) : Bool :=
  match dKind d with
  | 3 | 4 => (match rKind r with
    | 1 => true
    | 2 => uAddrMode d == 0
    | 3 | 4 => uAddrMode d == 1
    | _ => false)
  | 5 => rKind r == 1 || rKind r == 2
  | 6 => rKind r == 1
  | _ => true

/-- A memory unit writes, or reads, a region entry. -/
def writesRegion (d : Desc) (e : Nat) : Bool :=
  uRegion d == e && (dKind d == 4 || dKind d == 6 || (dKind d == 5 && uDir d == 0))
def readsRegionEnt (d : Desc) (e : Nat) : Bool := uRegion d == e && (dKind d == 3 || (dKind d == 5 && uDir d == 1))

/-- A unit whose reads may empty a region's rows (R135): a read unit or an outbound DMA that names it, or a matrix unit whose
deckle meets its rows. -/
def releasingUnit (d : Desc) (e : Nat) (r : Region) : Bool :=
  readsRegionEnt d e || (dKind d == 1 && decide (dBase d ≤ rLimit r) && decide (rBase r ≤ dLimit d))

/-- A region entry of a logical tile meets R131 and R132 beside the tile's units. -/
def regionEntOk (t : LTile) (ds : List Desc) (e : Nat) (g : BitVec 64 × BitVec 64) : Bool :=
  let r : Region := { g0 := g.1, g1 := g.2 }
  let users := ds.filter (fun d => decide (3 ≤ dKind d) && decide (dKind d ≤ 6) && uRegion d == e)
  let writers := (users.filter (fun d => writesRegion d e)).length
  let readers := (ds.filter (fun d => releasingUnit d e r)).length
  regionWordsOk g.1 g.2 && (rKind r == 0 ||
    (decide (rBase r ≤ rLimit r) && decide (rLimit r ≤ t.rowsM1) &&
     (!(rKind r == 1 || rKind r == 2) || users.all (fun d => uAddrMode d == 1 || rRows r % uRows d == 0)) &&
     (!rTwo r || rRows r % 2 == 0) &&
     (rKind r != 4 || (rRows r % rEntryRows r == 0 && decide (rCap r ≥ 16))) &&
     ((rKind r == 1 && !rTagged r) || decide (writers ≤ 1)) && (rKind r != 2 || decide (readers ≤ 1)) &&
     (!(rKind r == 1 && rReleaseEn r) || ds.any (fun d => dSlot d == rReleaseSlot r && releasingUnit d e r))))

/-- Regions of a tile do not overlap (R132). -/
def regionsApart (l : List (BitVec 64 × BitVec 64)) : Bool :=
  disjointAll ((l.map (fun g => ({ g0 := g.1, g1 := g.2 } : Region))).filterMap (fun r =>
    if rKind r = 0 then none else some (rBase r, rRows r)))

/-- A descriptor of a furnish breaks a field map or a limit of its tile (R63): the field maps of R64 with logical
numbers, and what R73, R75, R131 to R134 and R182 add. -/
def furnDescBad (p : RegionProg) (t : LTile) (d : Desc) : Bool :=
  let k := dKind d
  let regs := tileRegions p t
  let reg : Region := match regs[uRegion d]? with | some g => { g0 := g.1, g1 := g.2 } | none => {}
  let routes := tileRoutes p t
  let prog := unitProgram p t d
  (descBroken d).isSome ||
  (boundIns d).any (fun n => decide (dIn d n ≥ t.queues)) ||
  [0, 1].any (fun o => outBound d o && decide (dOut d o ≥ t.nRoute)) ||
  (decide (1 ≤ k) && decide (k ≤ 6) && (decide (dBase d > dLimit d) || decide (dLimit d > t.rowsM1))) ||
  (k == 2 && (decide (vProgBase d < t.opBase) || decide (vProgBase d + vProgLen d > t.opBase + t.nOps) ||
    decide (vRegBase d + vRegCount d > t.regs) ||
    prog.any (fun o => !opOk d o) || [0, 1].any (fun o => decide (emits prog o > 8)))) ||
  (decide (3 ≤ k) && decide (k ≤ 6) && (decide (uRegion d ≥ t.nRegion) || rKind reg == 0 || !regionFits d reg)) ||
  (k == 5 && decide (uBuffer d ≥ t.nBuf)) ||
  (k == 12 && bOutbound d && (match routes[bRoute d]? with
    | some r => !([1, 3, 4, 6].contains r.kind)
    | none => true)) ||
  (k == 6 && outBound d 1 && (match routes[dOut d 1]? with | some r => r.kind != 5 | none => true))

/-- Windows of the vector units of a tile do not overlap (R73); slots, queues and mailboxes have one user each (R59,
R83, R96). -/
def tileSetOk (ds : List Desc) : Bool :=
  let wins := (ds.filter (fun d => dKind d == 2)).map (fun d => (vRegBase d, vRegCount d))
  let qs := (ds.map (fun d => (boundIns d).map (dIn d))).flatten
  let boxes := (ds.filter (fun d => dKind d == 12 && !bOutbound d)).map bMbox
  disjointAll wins && qs.eraseDups.length == qs.length && boxes.eraseDups.length == boxes.length &&
  (ds.map dSlot).eraseDups.length == ds.length

/-- The first descriptor of a logical tile that breaks R63, alone or beside those before it. -/
def tileFault (p : RegionProg) (t : LTile) : Option Desc :=
  let ds := tileDescs p t
  ((List.range ds.length).find? (fun i =>
    (match ds[i]? with | some d => furnDescBad p t d | none => false) || !tileSetOk (ds.take (i + 1)))).bind (fun i => ds[i]?)

/-- A logical tile that some variant of some region holds. -/
def hasLTile (f : Furnish) (c : Nat) : Bool := f.progs.any (fun p => p.tiles.any (fun t => t.coord == c))

/-- A route entry names what exists (R213). -/
def routeOk (f : Furnish) (r : RouteRec) : Bool :=
  match r.kind with
  | 0 => hasLTile f r.target && decide (r.queue < 48)
  | 1 => hasLTile f r.target && decide (r.queue < 2)
  | 2 => decide (r.target < 65536) && f.groups.any (fun g => g.group == r.target)
  | 3 => true
  | 4 => decide (16 ≤ r.queue) && decide (r.queue < 32)
  | 5 => f.kv.any (fun k => k.1 == r.target)
  | 6 => true
  | _ => false

/-- A buffer entry names what exists (R214). -/
def bufOk (f : Furnish) (p : RegionProg) (b : BufRec) : Bool :=
  let sect (kind : Nat) : Bool := f.sects.any (fun x => x.kind == kind && x.id == b.target && decide (64 * (b.off + b.len) ≤ x.len))
  match b.kind with
  | 0 => sect 3
  | 1 => sect 4
  | 2 => f.kv.any (fun k => k.1 == b.layer)
  | 3 => hasLTile f b.target && decide (b.off + b.len ≤ 65536)
  | 4 => p.seam != 0
  | _ => false

/-- A reduction record is one that R55 and R215 allow. -/
def redOk (nodeCount : Nat) (r : RedRec) : Bool :=
  r.rsv == 0 && match r.order with
  | 0 => decide (r.partials ≤ 2 ^ 24) && nodeCount == 0
  | 1 | 2 => nodeCount == 0
  | 3 => decide (r.nodes.length + 1 = r.partials) &&
    (List.range r.nodes.length).all (fun i => match r.nodes[i]? with
      | some (a, b) => decide (a < r.partials + i) && decide (b < r.partials + i)
      | none => true)
  | _ => false

/-- The header and the directory of a region program section are well formed (R211). -/
def progHeadOk (img : List Nat) (f : Furnish) (x : Sect) : Bool :=
  let b := sectBytes img x
  let sizes := [32, 64, 16, 8, 16, 4, 64]
  decide (b.length ≥ 128) && zeroAt b 12 4 && zeroAt b 80 48 && decide (leAt b 0 2 < f.regionCount) && decide (leAt b 2 1 ≤ 15) &&
  decide (leAt b 3 1 ≤ 3) && decide (leAt b 6 1 ≤ 3) && decide (1 ≤ leAt b 8 2) && decide (leAt b 8 2 ≤ 4096) &&
  leAt b 8 2 == (progArray b 0).2 && (List.range 9).any (fun n => leAt b 10 2 == 2 ^ n) &&
  (leAt b 4 2 == 0xFFFF || decide (leAt b 4 2 < f.layers)) &&
  (List.range 7).all (fun k => decide ((progArray b k).1 + sizes.getD k 1 * (progArray b k).2 ≤ b.length)) &&
  decide ((progArray b 7).2 ≤ b.length) && decide (redsEnd b (progArray b 7).2 (progArray b 7).1 ≤ b.length) &&
  (progRecords b 3 8 id).all (fun o => zeroAt b (o + 6) 2) && (progRecords b 4 16 id).all (fun o => zeroAt b (o + 1) 1)

/-- The logical tile records of a program are within range and name records that exist (R212). -/
def ltileOk (p : RegionProg) (t : LTile) : Bool :=
  t.coord / 65536 == p.region && decide (1 ≤ t.nDesc) && decide (t.nDesc ≤ 16) && decide (1 ≤ t.queues) && decide (t.queues ≤ 48) &&
  decide (t.nRegion ≤ 32) && decide (t.nRoute ≤ 64) && decide (t.nBuf ≤ 16) && decide (t.regs ≤ 128) && decide (t.nOps ≤ 1024) &&
  decide (t.firstDesc + t.nDesc ≤ p.descs.length) && decide (t.firstRegion + t.nRegion ≤ p.regions.length) &&
  decide (t.firstRoute + t.nRoute ≤ p.routes.length) && decide (t.firstBuf + t.nBuf ≤ p.bufs.length) &&
  decide (t.firstOp + t.nOps ≤ p.ops.length) && decide (t.firstConst + t.nConst ≤ p.consts.length) &&
  decide (t.opBase ≤ 1023) && decide (t.opBase + t.nOps ≤ 1024) &&
  (t.nConst == 0 || decide (t.constRow + t.nConst ≤ t.rowsM1 + 1))

/-- Whom the outputs of a program's units feed, directly or through a multicast group: (logical tile, queue) pairs (R96). -/
def progTargets (f : Furnish) (p : RegionProg) : List (Nat × Nat) :=
  (p.tiles.map (fun t => ((tileDescs p t).map (fun d => (([0, 1].filter (outBound d)).map (fun o =>
    match (tileRoutes p t)[dOut d o]? with
    | some r =>
      if r.kind = 0 then [(r.target, r.queue)]
      else if r.kind = 2 then ((f.groups.filter (fun g => g.group == r.target)).map (·.members)).flatten
      else []
    | none => [])).flatten)).flatten)).flatten

/-- A program binds a queue to a second producer under one watermark (R96): two outputs of its own, an output and an entry
point's start tokens, two entry points of its region, or an output and that of a program of another region. -/
def queueShared (f : Furnish) (p : RegionProg) : Bool :=
  let own := progTargets f p
  let starts := f.entries.map (fun e => (e.ltile, e.queue))
  let mine := starts.filter (fun e => e.1 / 65536 == p.region)
  own.eraseDups.length != own.length || own.any starts.contains || mine.eraseDups.length != mine.length ||
  f.progs.any (fun q => q.region != p.region && (progTargets f q).any own.contains)

/-- The first descriptor of a program that breaks R63: its logical unit. -/
def badUnit (p : RegionProg) : Option Nat :=
  p.tiles.findSome? (fun t => (tileFault p t).map dUnit)

/-- A program's contents: the first error's logical unit, 0xFFFF where no unit is concerned. -/
def progBad (img : List Nat) (f : Furnish) (x : Sect) : Option Nat :=
  let p := readProg img x
  if !progHeadOk img f x then some 0xFFFF
  else if !(p.tiles.all (ltileOk p)) ∨ (p.tiles.map (·.coord)).eraseDups.length ≠ p.tiles.length then some 0xFFFF
  else match badUnit p with
    | some u => some u
    | none =>
      let b := sectBytes img x
      let counts := (List.range p.reds.length).map (fun i => leAt b (redsEnd b i (progArray b 7).1 + 12) 4)
      if p.tiles.any (fun t =>
          let ds := tileDescs p t
          let rs := tileRegions p t
          !regionsApart rs ||
          (List.range rs.length).any (fun e => match rs[e]? with | some g => !regionEntOk t ds e g | none => false)) then some 0xFFFF
      else if p.routes.any (fun r => !routeOk f r) ∨ p.bufs.any (fun b => !bufOk f p b) then some 0xFFFF
      else if (List.range p.reds.length).any (fun i => match p.reds[i]? with
          | some r => !redOk (counts.getD i 0) r
          | none => false) then some 0xFFFF
      else if queueShared f p then some 0xFFFF
      else none

/-- The INTERFACE, COST_MODEL and MULTICAST_PLAN sections are well formed (R216 to R218). -/
def faceOk (img : List Nat) (f : Furnish) : Bool :=
  let b := match sectOf f.sects 1 with | some x => sectBytes img x | none => []
  decide (b.length ≥ 64) && decide (1 ≤ f.lanesMax) && decide (f.lanesMax ≤ 256) && decide (f.classes ≤ 7) && decide (f.draftMax ≤ 7) &&
  decide (f.egress < f.regionCount) && decide (f.commitRegion < f.regionCount) && zeroAt b 12 52 &&
  decide (64 + 8 * leAt b 4 2 + 4 * leAt b 6 2 ≤ b.length) &&
  f.entries.all (fun e => hasLTile f e.ltile && decide (e.queue < 48) && decide (e.role ≤ 2) && decide (e.first ≤ e.last)) &&
  f.kv.all (fun k => decide (k.1 < f.layers) && decide (1 ≤ k.2) && decide (k.2 ≤ 64)) &&
  (f.kv.map (·.1)).eraseDups.length == f.kv.length

def costOk (img : List Nat) (f : Furnish) : Bool :=
  let b := match sectOf f.sects 5 with | some x => sectBytes img x | none => []
  b.length % 32 == 0 && f.costs.length == f.progs.length &&
  (List.range f.costs.length).all (fun i => zeroAt b (32 * i + 3) 1 && zeroAt b (32 * i + 6) 2 && zeroAt b (32 * i + 28) 4) &&
  f.progs.all (fun p => (f.costs.filter (fun c => c.region == p.region && c.variant == p.variant && c.width == p.width)).length == 1)

def planOk (img : List Nat) (f : Furnish) : Bool :=
  match sectOf f.sects 6 with
  | none => true
  | some x =>
    let b := sectBytes img x
    let g := leAt b 0 4
    let m := leAt b 4 4
    decide (b.length ≥ 16) && zeroAt b 8 8 && decide (16 + 16 * g + 8 * m ≤ b.length) &&
    zeroAt b (16 + 16 * g + 8 * m) (b.length - (16 + 16 * g + 8 * m)) &&
    (List.range g).all (fun i =>
      let o := 16 + 16 * i
      (leAt b (o + 2) 1 == 1 || leAt b (o + 2) 1 == 2) && zeroAt b (o + 3) 1 && zeroAt b (o + 6) 2 && zeroAt b (o + 12) 4 &&
      decide (leAt b (o + 8) 4 + leAt b (o + 4) 2 ≤ m)) &&
    (List.range m).all (fun i => zeroAt b (16 + 16 * g + 8 * i + 5) 3) &&
    (f.groups.map (·.group)).eraseDups.length == f.groups.length &&
    f.groups.all (fun g => g.members.all (fun m => hasLTile f m.1 && decide (m.2 < 48)))

/-- Every region has a program, variants are distinct and carry the same reductions (R211, R215); the first region
that breaks this, with the section that does, 0 where it has none. -/
def regionsBad (f : Furnish) : Option (Nat × Nat) :=
  (List.range f.regionCount).findSome? (fun r =>
    match f.progs.filter (fun p => p.region == r) with
    | [] => some (0, r)
    | p :: rest =>
      ((List.range rest.length).findSome? (fun i => (rest[i]?).bind (fun q =>
        if (p :: rest.take i).any (fun o => o.variant == q.variant) ∨ q.reds ≠ p.reds then some (q.secId, r) else none))))

-- ------------------------------------------------------------------ folding (R232, R233)

/-- The lowest layer of a fold class. -/
def classBase (f : Furnish) (c : Nat) : Nat :=
  ((f.progs.filter (fun p => p.fold == c)).map (·.layer)).foldl min 0xFFFF

/-- The layers of a fold class. -/
def classLayers (f : Furnish) (c : Nat) : Nat := (((f.progs.filter (fun p => p.fold == c)).map (·.layer)).eraseDups).length

/-- Where a region of a fold class runs at a factor: its layer position and lap (R233). -/
def foldAt (f : Furnish) (n : Nat) (p : RegionProg) : Nat × Nat :=
  let m := classLayers f p.fold / n
  let l := p.layer - classBase f p.fold
  (l % m, l / m)

/-- A region is folded at a factor. -/
def folded (n : Nat) (p : RegionProg) : Bool := decide (1 < n) && p.fold != 0

/-- What the regions of one layer position share: the first region of the group stands for it; a region that is not
folded stands for itself. A group's members are the same region of the layer, one from each lap. -/
def groupOf (f : Furnish) (n : Nat) (p : RegionProg) : Nat :=
  if !folded n p then p.region
  else
    let pos := (foldAt f n p).1
    let mates := (f.progs.filter (fun q => q.fold == p.fold && q.layer == p.layer)).map (·.region) |>.eraseDups
    let k := (findIdx (· == p.region) mates).getD 0
    let first := (f.progs.filter (fun q => q.fold == p.fold && q.layer == classBase f p.fold + pos)).map (·.region) |>.eraseDups
    first.getD k p.region

/-- The seam flags that a region's variant needs: seam_in behind a lap boundary, seam_out before one (R233). -/
def seamWanted (f : Furnish) (n : Nat) (p : RegionProg) : Nat :=
  if !folded n p then 0
  else
    let (pos, lap) := foldAt f n p
    let m := classLayers f p.fold / n
    (if pos = 0 ∧ lap > 0 then 1 else 0) + (if pos + 1 = m ∧ lap + 1 < n then 2 else 0)

/-- The variants of a region that the placer may choose at a factor. -/
def variantsOf (f : Furnish) (n r : Nat) : List RegionProg :=
  let l := sortBy (·.variant) (f.progs.filter (fun p => p.region == r))
  let w := match l with | p :: _ => seamWanted f n p | [] => 0
  match l.filter (fun p => p.seam == w) with
  | [] => match l.filter (fun p => p.seam != 0 && p.seam &&& w == p.seam) with
    | [] => l.filter (fun p => p.seam == 0)
    | x => x
  | x => x

/-- Logical tiles of a region in ascending (ly, lx). -/
def curveLTiles (p : RegionProg) : List LTile := sortBy (fun t => t.coord % 256 * 256 + t.coord / 256 % 256) p.tiles

/-- A region of one lap overlaps a region of the next on the same physical tile, and is no resident region carried forward
(R132, R140). -/
def regionsClash (a b : List (BitVec 64 × BitVec 64)) : Bool :=
  let rs (l : List (BitVec 64 × BitVec 64)) : List Region := (l.map (fun g => ({ g0 := g.1, g1 := g.2 } : Region))).filter (fun r => rKind r != 0)
  (rs a).any (fun x => (rs b).any (fun y => decide (rBase x ≤ rLimit y) && decide (rBase y ≤ rLimit x) && !(carries x y)))

/-- The first program whose regions overlap those that its tiles hold in the next lap, at some supported factor (R132). -/
def lapsClash (f : Furnish) : Option RegionProg :=
  (f.folds.filter (1 < ·)).findSome? (fun n =>
    let ps := ((List.range f.regionCount).map (variantsOf f n)).flatten.filter (folded n)
    ps.find? (fun p => ps.any (fun q => groupOf f n p == groupOf f n q && (foldAt f n p).2 + 1 == (foldAt f n q).2 &&
      ((curveLTiles p).zip (curveLTiles q)).any (fun t => regionsClash (tileRegions p t.1) (tileRegions q t.2)))))

/-- Check 6 (R221). -/
def check6 (img : List Nat) (f : Furnish) : Option LoadErr :=
  let one (kind : Nat) : Nat := ((sectOf f.sects kind).map (·.id)).getD 0
  if !faceOk img f then some (5, one 1, 0, 0)
  else match (f.sects.filter (fun x => x.kind == 2)).findSome? (fun x => (progBad img f x).map (fun u => (5, x.id, (readProg img x).region, u % 0xFFFF))) with
    | some e => some e
    | none => match regionsBad f with
      | some e => some (5, e.1, e.2, 0)
      | none => match lapsClash f with
      | some p => some (5, p.secId, p.region, 0)
      | none => if !costOk img f then some (5, one 5, 0, 0) else if !planOk img f then some (5, one 6, 0, 0) else none

/-- Check 7: every logical tile within the resources of R59. -/
def check7 (f : Furnish) : Option LoadErr :=
  f.progs.findSome? (fun p => (p.tiles.find? (fun t =>
    decide (t.nDesc > 16) || decide (t.queues > 48) || decide (t.nRoute > 64) || decide (t.nBuf > 16) || decide (t.regs > 128) ||
    decide (t.nOps > 1024) || decide (t.rowsM1 > 65535))).map (fun _ => (6, p.secId, p.region, 0)))

/-- Checks 1 to 8 in order (R221): the first error. Check 9 is the placer's. -/
def State.loadError (s : State) (img : List Nat) : Option LoadErr :=
  if !check1 img then some (1, 0, 0, 0)
  else if !check2 img then some (2, 0, 0, 0)
  else match check3 img with
    | some id => some (3, id, 0, 0)
    | none =>
      let f := readFurnish img
      if !s.check4 img then some (4, ((sectOf f.sects 0xFE).map (·.id)).getD 0, 0, 0)
      else if !s.check5 img then some (8, 0, 0, 0)
      else match check6 img f with
        | some e => some e
        | none => match check7 f with
          | some e => some e
          | none => if f.groups.length > 512 then some (10, ((sectOf f.sects 6).map (·.id)).getD 0, 0, 0) else none

end Sys2Proof.Machine
end

