-- ==== Sys2Proof/Machine/Placer.lean ====
section
/-!
DEFINITION. The placer's decisions (R223 to R234): spares, couch partners, variants, fold factors, positions, stack
space, multicast trees, the configuration that goes to the tiles, and moves of live tiles. What the spec leaves to the
placer is in log entries 27 to 33.
-/
namespace Sys2Proof.Machine

-- ------------------------------------------------------------------ slots and dies

/-- A furnish slot. -/
def State.pslot (s : State) (i : Nat) : PSlot := mget {} s.pslots i
/-- The state with a slot's record replaced. -/
def State.setPslot (s : State) (i : Nat) (x : PSlot) : State := { s with pslots := mset {} s.pslots i x }
/-- A slot's state code (R220). -/
def State.slotState (s : State) (i : Nat) : Nat := s.odGet (oPlacementSlotState i)

/-- A tile in good order: FREE, PLACED or RESERVE (R32). -/
def State.goodTile (s : State) (k : Nat) : Bool :=
  let v := s.floorNow (oFloorTileState k)
  decide (1 ≤ v ∧ v ≤ 3)

/-- The good tiles of a site. -/
def State.goodTiles (s : State) (g : Nat) : List Nat := ((List.range 64).map (fun t => g * 64 + t)).filter s.goodTile

/-- An ACTIVE compute die. -/
def State.dieActive (s : State) (g : Nat) : Bool := isCompute g && s.floorNow (oFloorSiteState g) == 1

/-- A SPARE compute die. -/
def State.dieSpare (s : State) (g : Nat) : Bool := isCompute g && s.floorNow (oFloorSiteState g) == 2

/-- A compute die that may be active or a spare: not FUSED, FAILED, OFFLINE or UNKNOWN (R225). -/
def State.dieUsable (s : State) (g : Nat) : Bool := s.dieActive g || s.dieSpare g

/-- Die crossings for a choice among candidates, out of reach counting as many (R489). -/
def State.distance (s : State) (g h : Nat) : Nat := (s.crossings g h).getD 0xFFFF

-- ------------------------------------------------------------------ spares and partners (R225, R226)

/-- Spares that a sector receives (R225). -/
def spareCount (sec : Nat) : Nat := if [5, 6, 9, 10].contains sec then 1 else 2

/-- The compute sites of a sector. -/
def sectorDies (sec : Nat) : List Nat := ((List.range 16).map (fun i => sec * 16 + i)).filter isCompute

/-- A sector's spares: the usable dies with the fewest good tiles, ties to the higher site (R225). -/
def State.pickSpares (s : State) (sec : Nat) : List Nat :=
  (sortBy (fun g => (s.goodTiles g).length * 256 + (255 - g)) ((sectorDies sec).filter s.dieUsable)).take (spareCount sec)

/-- The spares of the panel as R225 designates them. -/
def State.sparesFor (s : State) : List Nat := ((List.range 16).map s.pickSpares).flatten

/-- The paired sector (R226). -/
def pairSector (sec : Nat) : Nat :=
  [1, 0, 3, 2, 5, 4, 7, 6, 9, 8, 11, 10, 13, 12, 15, 14].getD sec 0

/-- The sectors that come first in the pairs. -/
def pairFirst : List Nat := [0, 2, 7, 5, 8, 10, 15, 13]

/-- The couch pairs of two sectors: dies with the same site number, then the rest in ascending site order (R226). -/
def State.couchPairs (s : State) (a : Nat) : List (Nat × Nat) :=
  let b := pairSector a
  let da := (sectorDies a).filter s.dieActive
  let db := (sectorDies b).filter s.dieActive
  let same := da.filter (fun g => db.contains (b * 16 + g % 16))
  same.map (fun g => (g, b * 16 + g % 16)) ++
  (da.filter (fun g => !same.contains g)).zip (db.filter (fun g => !same.contains (a * 16 + g % 16)))

/-- The state with two dies made couch partners. -/
def State.pairDies (s : State) (p : Nat × Nat) : State :=
  (s.odSet (oPlacementSitePartner p.1) p.2).odSet (oPlacementSitePartner p.2) p.1

/-- A die's couch partner (R226). The object reads 0xFF for none, and also for site 255: a die whose partner site 255 is
counts as its partner. -/
def State.partnerOf (s : State) (g : Nat) : Option Nat :=
  let q := s.odGet (oPlacementSitePartner g)
  if q ≠ 0xFF then some q
  else if g ≠ 0xFF ∧ s.odGet (oPlacementSitePartner 0xFF) = g then some 0xFF
  else none

/-- A die and its partner unpaired. -/
def State.unpair (s : State) (g : Nat) : State :=
  let s1 := s.odSet (oPlacementSitePartner g) 0xFF
  match s.partnerOf g with
  | some q => s1.odSet (oPlacementSitePartner q) 0xFF
  | none => s1

/-- Every active die paired anew (R226). -/
def State.pairAll (s : State) : State :=
  let clear := computeSites.foldl (fun s g => s.odSet (oPlacementSitePartner g) 0xFF) s
  ((pairFirst.map s.couchPairs).flatten).foldl State.pairDies clear

/-- A die that is active no more, and one whose partner is so, is unpaired (R226). -/
def State.unpairLost (s : State) : State :=
  computeSites.foldl (fun s g =>
    match s.partnerOf g with
    | some q => if s.dieActive g && s.dieActive q then s else s.unpair g
    | none => s) s

/-- Unpaired active dies paired with unpaired active dies of other sectors, in ascending site order (R226). -/
def State.pairRest (s : State) : State :=
  let s := s.unpairLost
  let lone (s : State) : List Nat := computeSites.filter (fun g => s.dieActive g && s.partnerOf g == none)
  (lone s).foldl (fun s g =>
    if s.partnerOf g ≠ none then s
    else match (lone s).find? (fun h => sectorOf h == pairSector (sectorOf g)) with
      | some h => s.pairDies (g, h)
      | none => match (lone s).find? (fun h => sectorOf h != sectorOf g) with
        | some h => s.pairDies (g, h)
        | none => s) s

/-- Spares designated: of the usable dies those become SPARE and all others ACTIVE (R225). -/
def State.designateSpares (s : State) : State :=
  let sp := s.sparesFor
  (computeSites.filter s.dieUsable).foldl (fun s g => s.stageFloor (oFloorSiteState g) (if sp.contains g then 2 else 1)) s

-- ------------------------------------------------------------------ the curve (R228)

/-- The sectors and, in a sector of row 0 or 2, the sites in curve order. -/
def snake : List Nat := [0, 1, 2, 3, 7, 6, 5, 4, 8, 9, 10, 11, 15, 14, 13, 12]

/-- The sites of a sector of row 1 or 3 in curve order. -/
def snakeBack : List Nat := [3, 2, 1, 0, 4, 5, 6, 7, 11, 10, 9, 8, 12, 13, 14, 15]

/-- Every site in curve order. -/
def curveSites : List Nat :=
  (snake.map (fun sec => (if sec / 4 % 2 = 0 then snake else snakeBack).map (fun i => sec * 16 + i))).flatten

/-- The 64 tiles of a die in curve order: row by row, alternating direction. -/
def curveTiles : List Nat :=
  ((List.range 8).map (fun r => (List.range 8).map (fun c => r * 8 + (if r % 2 = 0 then c else 7 - c)))).flatten

/-- The placeable tiles of an active die in curve order: good, not RESERVE, at most 60 (R34, R228). -/
def State.placeable (s : State) (g : Nat) : List Nat :=
  if !s.dieActive g then []
  else ((curveTiles.map (fun t => g * 64 + t)).filter (fun k =>
    s.floorNow (oFloorTileState k) == 1 || s.floorNow (oFloorTileState k) == 2)).take 60

/-- The placeable tiles of the panel in curve order. -/
def State.curve (s : State) : List Nat := (curveSites.map s.placeable).flatten

/-- Those that no slot holds. -/
def State.freeCurve (s : State) : List Nat := s.curve.filter (fun k => s.floorNow (oFloorTileState k) == 1)

-- ------------------------------------------------------------------ hints (R224)

/-- The hints record of a slot: context, host ports, pin, least fold, slice weight. -/
structure Hints where
  context : Nat
  ports : Nat
  pin : Bool
  minFold : Nat
  weight : Nat
  deriving DecidableEq, Repr

/-- A slot's hints, five fields in order in nine bytes (R224). -/
def State.hints (s : State) (i : Nat) : Hints :=
  let v := s.odGet (oPlacementSlotHints i)
  { context := v % 2 ^ 32, ports := v / 2 ^ 32 % 65536, pin := decide (v / 2 ^ 48 % 256 = 1), minFold := v / 2 ^ 56 % 256,
    weight := v / 2 ^ 64 % 256 }

-- ------------------------------------------------------------------ folding and variants (R227, R232, R233)

/-- The bottleneck of a variant in handshakes × 1,024 for a context (R227). -/
def bottleneckOf (f : Furnish) (ctx : Nat) (p : RegionProg) : Nat :=
  match f.costs.find? (fun c => c.region == p.region && c.variant == p.variant) with
  | some c => c.bottleneck * 1024 + c.slope * (ctx - f.refContext)
  | none => 0

/-- Resident weight rows of a variant's tiles, at most. -/
def weightRowsOf (f : Furnish) (p : RegionProg) : Nat :=
  match f.costs.find? (fun c => c.region == p.region && c.variant == p.variant) with
  | some c => c.weightRows
  | none => 0

/-- The groups of a choice of variants: group, and its width (R233). -/
def groupWidths (f : Furnish) (n : Nat) (l : List RegionProg) : List (Nat × Nat) :=
  ((l.map (groupOf f n)).eraseDups).map (fun g => (g, maxN ((l.filter (fun p => groupOf f n p == g)).map (·.width))))

/-- Physical tiles of a choice of variants. -/
def choiceTiles (f : Furnish) (n : Nat) (l : List RegionProg) : Nat := sumN ((groupWidths f n l).map (·.2))

/-- Every route entry of a choice names a logical tile that exists in it (R212, R227). -/
def routesResolve (l : List RegionProg) : Bool :=
  let coords := (l.map (fun p => p.tiles.map (·.coord))).flatten
  l.all (fun p => p.routes.all (fun r => decide (r.kind > 1) || coords.contains r.target))

/-- Rows fit on every physical tile, resident weight rows of folded regions counted twice (R232). -/
def rowsFit (f : Furnish) (n : Nat) (l : List RegionProg) : Bool :=
  l.all (fun p => p.tiles.all (fun t => decide (t.rowsM1 + 1 + (if folded n p then weightRowsOf f p else 0) ≤ 65536)))

/-- All choices of one variant from each list. -/
def choices : List (List RegionProg) → List (List RegionProg)
  | [] => [[]]
  | l :: t => (choices t).flatMap (fun c => l.map (fun p => p :: c))

/-- A choice is better: fewer tiles, then lower variant numbers, region by region. -/
def variantsLess : List RegionProg → List RegionProg → Bool
  | p :: a, q :: b => if p.variant < q.variant then true else if q.variant < p.variant then false else variantsLess a b
  | _, _ => false

/-- The region indices that a furnish has programs of, ascending: all of them, or the range of a deepened member (R412). -/
def regionIdsOf (f : Furnish) : List Nat := sortBy id ((f.progs.map (·.region)).eraseDups)

/-- The best choice within a bottleneck limit, if one fits in so many tiles (R227). -/
def bestChoice (f : Furnish) (n ctx share lim : Nat) : Option (List RegionProg) :=
  let cands := (regionIdsOf f).map (fun r => (variantsOf f n r).filter (fun p => decide (bottleneckOf f ctx p ≤ lim)))
  let narrow := cands.filterMap (fun l => (sortBy (·.width) l).head?)
  let widths := groupWidths f n narrow
  let quick := cands.filterMap (fun l => l.find? (fun p =>
    decide (p.width ≤ ((widths.find? (fun w => w.1 == groupOf f n p)).map (·.2)).getD 0)))
  let ok (c : List RegionProg) : Bool :=
    c.length == (regionIdsOf f).length && decide (choiceTiles f n c ≤ share) && routesResolve c && rowsFit f n c
  if ok quick then some quick
  else if cands.any (· == []) ∨ choiceTiles f n narrow > share then none
  else ((choices cands).filter ok).foldl (fun a c => match a with
    | none => some c
    | some b => if choiceTiles f n c < choiceTiles f n b ∨ (choiceTiles f n c = choiceTiles f n b ∧ variantsLess c b) then some c else some b)
    none

/-- The variants chosen at a fold factor: the least largest bottleneck first (R227). -/
def choose (f : Furnish) (n ctx share : Nat) : Option (List RegionProg) :=
  (sortBy id ((f.progs.map (bottleneckOf f ctx)).eraseDups)).findSome? (bestChoice f n ctx share)

/-- Every fold class of a furnish divides by a factor (R232). -/
def foldDivides (f : Furnish) (n : Nat) : Bool :=
  f.progs.all (fun p => !folded n p || classLayers f p.fold % n == 0)

/-- The fold factor and the variants (R232): the smallest supported factor from the hint up; failing that, any. -/
def chooseFold (f : Furnish) (minFold ctx share : Nat) : Option (Nat × List RegionProg) :=
  let fs := (sortBy id f.folds).filter (foldDivides f)
  let try' (n : Nat) : Option (Nat × List RegionProg) := (choose f n ctx share).map (fun c => (n, c))
  match (fs.filter (fun n => decide (minFold ≤ n))).findSome? try' with
  | some x => some x
  | none => fs.findSome? try'

/-- The context that a slot is sized for (R224, R227). -/
def sizedContext (f : Furnish) (h : Hints) : Nat := if h.context = 0 then f.refContext else min h.context f.maxContext

-- ------------------------------------------------------------------ seats (R212, R228, R233)

/-- Where a furnish's logical tiles go: the program, the logical tile, the physical tile. -/
abbrev Seat := RegionProg × LTile × Nat

/-- The attach sites of the ports that a hint names, or of P0 and P8 (R228). -/
def egressSites (ports : Nat) : List Nat :=
  let m := if ports = 0 then 0x101 else ports
  (((List.range 16).filter (fun n => m.testBit n)).map (fun n => portAttach (n / 4))).flatten.eraseDups

/-- The group's tiles taken from the free ones: an egress region from the hinted dies first. -/
def takeTiles (free sites : List Nat) (egress : Bool) (n : Nat) : List Nat :=
  if egress then (free.filter (fun k => sites.contains (k / 64)) ++ free.filter (fun k => !sites.contains (k / 64))).take n
  else free.take n

/-- The seats of a choice of variants on free tiles: egress regions first, then the groups in ascending region. -/
def seatsFor (f : Furnish) (n ports : Nat) (l : List RegionProg) (free : List Nat) : List Seat :=
  let ws := groupWidths f n l
  let isOut (g : Nat) : Bool := l.any (fun p => groupOf f n p == g && p.role == 3)
  let order := ws.filter (fun w => isOut w.1) ++ ws.filter (fun w => !isOut w.1)
  (order.foldl (fun (st : List Nat × List Seat) w =>
    let ks := takeTiles st.1 (egressSites ports) (isOut w.1) w.2
    let seats := ((l.filter (fun p => groupOf f n p == w.1)).map (fun p =>
      ((curveLTiles p).zip ks).map (fun q => ((p, q.1, q.2) : Seat)))).flatten
    (st.1.filter (fun k => !ks.contains k), st.2 ++ seats)) (free, [])).2

/-- The seats of a slot as it is placed. -/
def State.seats (s : State) (slot : Nat) : List Seat :=
  match (s.pslot slot).furn, (s.pslot slot).placed with
  | some f, some x =>
    ((x.variants.filterMap (fun v => f.progs.find? (fun p => p.region == v.1 && p.variant == v.2))).map (fun p =>
      p.tiles.filterMap (fun t => (x.tiles.find? (fun q => q.1 == t.coord)).map (fun q => ((p, t, q.2) : Seat))))).flatten
  | _, _ => []

/-- The lap that a seat belongs to: lap 0 where its region is not folded. -/
def lapOf (f : Furnish) (n : Nat) (p : RegionProg) : Nat := if folded n p then (foldAt f n p).2 else 0

-- ------------------------------------------------------------------ stack space (R203, R229)

/-- The online stacks from which a test holds, nearest to a site first, ties to the lower node. -/
def State.nearStacks (s : State) (g : Nat) (ok : Nat → Bool) : List Nat :=
  sortBy (fun i => s.distance g (stackSite i) * 65536 + stackNode i)
    ((List.range 32).filter (fun i => s.stackOnline i && (s.crossings g (stackSite i)).isSome && ok i))

/-- The die that holds most of some tiles, ties to the lower site. -/
def mostDie (ks : List Nat) : Nat :=
  let count (g : Nat) : Nat := (ks.filter (fun k => k / 64 == g)).length
  ((sortBy (fun g => (65536 - count g) * 256 + g) ((ks.map (· / 64)).eraseDups)).head?).getD 0

/-- The tiles that read a section through a buffer of a kind (0 weights, 1 state). -/
def readersOf (seats : List Seat) (kind sec : Nat) : List Nat :=
  (seats.filter (fun q => (tileBufs q.1 q.2.1).any (fun b => b.kind == kind && b.target == sec))).map (fun q => q.2.2)

/-- The attention tiles of a KV layer (R229). -/
def attentionTiles (seats : List Seat) (layer : Nat) : List Nat :=
  (seats.filter (fun q =>
    (tileRoutes q.1 q.2.1).any (fun r => r.kind == 5 && r.target % 65536 == layer) ||
    (tileBufs q.1 q.2.1).any (fun b => b.kind == 2 && b.layer == layer))).map (fun q => q.2.2)

/-- A directory key of a stack that no placed layer uses (R193, R229). -/
def State.freeKey (s : State) (i : Nat) : Option Nat :=
  let used := (s.pslots.map (fun p => match p.2.placed with
    | some x => x.kvHome.filterMap (fun h => if h.2.1 = i then some h.2.2 else none)
    | none => [])).flatten
  (List.range 64).find? (fun k => !used.contains k)

/-- A stack has a free data-slab page of so many bytes (R229). -/
def State.hasPage (s : State) (i bytes : Nat) : Bool := (s.allocData i bytes 0).isSome

/-- The home stack of a KV layer (R229): the nearest with a free page and a free key; where none has a page, the
nearest with a free key. -/
def State.kvHomeFor (s : State) (g bytes : Nat) : Option Nat :=
  match (s.nearStacks g (fun i => (s.freeKey i).isSome && s.hasPage i bytes)).head? with
  | some i => some i
  | none => (s.nearStacks g (fun i => (s.freeKey i).isSome)).head?

/-- The state with a layer's home recorded for a slot. -/
def State.addHome (s : State) (slot : Nat) (seats : List Seat) (kv : Nat × Nat) : State :=
  match s.kvHomeFor (mostDie (attentionTiles seats kv.1)) (256 * 64 * kv.2), (s.pslot slot).placed with
  | some i, some x => match s.freeKey i with
    | some k => s.setPslot slot { s.pslot slot with placed := some { x with kvHome := x.kvHome ++ [(kv.1, i, k)] } }
    | none => s
  | _, _ => s

/-- Copies of a section that are still there; a lost copy stands as 0x100 + its stack. -/
def liveCopies (l : List (Nat × Nat)) : List (Nat × Nat) := l.filter (fun c => decide (c.1 < 0x100))

/-- One copy of a weight section: the nearest stack that a test allows, its space allocated and its bytes written. -/
def State.putCopy (s : State) (slot : Nat) (sec : Sect) (g copy : Nat) (ok : Nat → Bool) : Option ((Nat × Nat) × State) :=
  match (s.nearStacks g (fun i => ok i && (s.fit i sec.len).isSome)).head? with
  | none => none
  | some i => (s.allocate i sec.len (ownCopy slot sec.id copy)).map (fun r =>
      ((i, r.1), r.2.putBytes (stackNode i) r.1 (sectBytes (s.pslot slot).image sec)))

/-- Both copies of a weight section (R203, R229): the primary nearest its readers, the second in another sector. -/
def State.putCopies (s : State) (slot : Nat) (seats : List Seat) (sec : Sect) : Option State :=
  let g := mostDie (readersOf seats 0 sec.id)
  match s.putCopy slot sec g 0 (fun _ => true) with
  | none => none
  | some (a, s1) => match s1.putCopy slot sec g 1 (fun i => i / 2 != a.1 / 2) with
    | none => none
    | some (b, s2) =>
      let x := s2.pslot slot
      some (s2.setPslot slot { x with placed := x.placed.map (fun p => { p with copies := p.copies ++ [(sec.id, [a, b])] }) })

/-- A STATE section into an erasure-coded slab near its readers (R220): written by its stack, parity with it. -/
def State.putState (s : State) (slot : Nat) (seats : List Seat) (sec : Sect) : Option State :=
  let g := mostDie (readersOf seats 1 sec.id)
  (s.nearStacks g (fun _ => true)).findSome? (fun i =>
    (s.allocData i sec.len (ownSeam slot (2 ^ 19 + sec.id))).map (fun r =>
      let s1 := r.2.2.stackWriteRows i r.2.1 (rowsOfBytes (sectBytes (s.pslot slot).image sec) (ceilDiv sec.len 64))
      let x := s1.pslot slot
      s1.setPslot slot { x with placed := x.placed.map (fun p => { p with states := p.states ++ [(sec.id, i, r.2.1)] }) }))

/-- Seam buffers of a choice of seats: target and bytes, one for each target named (R214). -/
def seamBuffers (seats : List Seat) : List (Nat × Nat) :=
  let l := (seats.map (fun q => (tileBufs q.1 q.2.1).filter (fun b => b.kind == 4))).flatten
  ((l.map (·.target)).eraseDups).map (fun t => (t, maxN ((l.filter (fun b => b.target == t)).map (fun b => 64 * (b.off + b.len)))))

/-- The seam buffers of a choice of seats allocated; one that is long enough on an online stack already is kept (R214). -/
def State.putSeams (s : State) (slot : Nat) (seats : List Seat) : Option State :=
  (seamBuffers seats).foldl (fun st b => st.bind (fun s =>
    let own := ownSeam slot (b.1 % 2 ^ 19)
    if s.allocs.any (fun a => a.owner == own && s.stackOnline a.stack && decide (b.2 ≤ a.len)) then some s else
    let s := s.freeOwner own
    (s.nearStacks (mostDie (seats.map (fun q => q.2.2))) (fun i => (s.fit i b.2).isSome)).head?.bind (fun i =>
      (s.allocate i b.2 (ownSeam slot (b.1 % 2 ^ 19))).map (·.2)))) (some s)

/-- Where a seam buffer stands: node and offset. -/
def State.seamAt (s : State) (slot target : Nat) : Option (Nat × Nat) :=
  (s.allocs.find? (fun a => a.owner == ownSeam slot (target % 2 ^ 19))).map (fun a => (stackNode a.stack, a.off))

-- ------------------------------------------------------------------ binding names (R62, R213, R214)

/-- The physical tile of a logical tile of a slot. -/
def Placed.tileOf (x : Placed) (coord : Nat) : Nat := ((x.tiles.find? (fun q => q.1 == coord)).map (·.2)).getD 0x3FFF

/-- The hub-mailbox queue fields of a slot's commit and lap mailboxes (log entry 28). -/
def commitQueue (slot : Nat) : Nat := slot
def lapQueue (slot : Nat) : Nat := 8 + slot

/-- A route entry bound (R213). -/
def State.bindRoute (s : State) (slot : Nat) (x : Placed) (r : RouteRec) : Route :=
  let hub := hubNode s.actingHub
  match r.kind with
  | 0 => { node := x.tileOf r.target, queue := r.queue }
  | 1 => { node := x.tileOf r.target, queue := 0 }
  | 2 => { node := 0x8000 + ((x.groups.find? (fun g => g.1 == r.target)).map (·.2)).getD 0, queue := r.queue }
  | 3 => { node := hub, queue := commitQueue slot }
  | 4 => { node := hub, queue := 0x20 + (r.queue - 16) / 2 }
  | 5 => match x.kvHome.find? (fun h => h.1 == r.target % 65536) with
    | some h => { node := stackNode h.2.1, queue := h.2.2 }
    | none => { node := 0x3FFF, queue := 0 }
  | _ => { node := hub, queue := lapQueue slot }

/-- The primary copy of a section: of those that are left, the one nearer to the die with most of its readers, ties to the one
recorded first (R203). -/
def State.primaryCopy (s : State) (slot sec : Nat) (l : List (Nat × Nat)) : Option (Nat × Nat) :=
  let g := mostDie (readersOf (s.seats slot) 0 sec)
  let live := liveCopies l
  match live with
  | [a, b] => if s.distance g (stackSite b.1) < s.distance g (stackSite a.1) then some b else some a
  | _ => live.head?

/-- A buffer entry bound (R214). The extent of the firing's lane is named by its home stack's directory (log entry 27). -/
def State.bindBuffer (s : State) (slot : Nat) (x : Placed) (b : BufRec) : Buffer :=
  let part (node base : Nat) : Buffer := { node := node, base := base + 64 * b.off, len := 64 * b.len }
  match b.kind with
  | 0 => match (x.copies.find? (fun c => c.1 == b.target)).bind (fun c => s.primaryCopy slot b.target c.2) with
    | some c => part (stackNode c.1) c.2
    | none => {}
  | 1 => match x.states.find? (fun c => c.1 == b.target) with
    | some c => part (stackNode c.2.1) c.2.2
    | none => {}
  | 2 => match x.kvHome.find? (fun h => h.1 == b.layer) with
    | some h => { node := stackNode h.2.1 + 1, base := h.2.2, len := 2 ^ 47 }
    | none => {}
  | 3 => part (x.tileOf b.target) 0
  | _ => match s.seamAt slot b.target with
    | some p => part p.1 p.2
    | none => {}

-- ------------------------------------------------------------------ multicast trees (R169, R170)

/-- The edge up from a die of a level towards the root: 4 at the root itself. -/
def treeUp (b : Bank) (ls : List (List Nat)) (g n : Nat) : Nat :=
  if n = 0 then 4
  else ((List.range 4).find? (fun e => match b.hop g e with | some h => (ls.getD (n - 1) []).contains h | none => false)).getD 7

/-- The dies from a die of a level up to the root, each with its parent edge. -/
def treeChain (b : Bank) (ls : List (List Nat)) : Nat → Nat → List (Nat × Nat)
  | 0, g => [(g, 4)]
  | n + 1, g => (g, treeUp b ls g (n + 1)) :: (match neighbour g (treeUp b ls g (n + 1)) with
    | some h => treeChain b ls n h
    | none => [])

/-- The tree of a group from a root die to member tiles, as multicast entries. -/
def mcTree (b : Bank) (ix root : Nat) (members : List Nat) : SMap (Nat × Nat × Nat) :=
  let ls := b.levels 256 [root] [root]
  let dies := ((members.map (· / 64)).eraseDups).filterMap (fun g => (findIdx (fun l => l.contains g) ls).map (fun n => (g, n)))
  let parents := ((dies.map (fun p => treeChain b ls p.2 p.1)).flatten).eraseDups
  parents.foldl (fun m p =>
    let kids := (List.range 4).filter (fun e => match neighbour p.1 e with
      | some h => parents.any (fun q => q.1 == h && q.2 == (e + 2) % 4)
      | none => false)
    mins m (p.1 * 768 + ix) (p.2, sumN (kids.map (fun e => 2 ^ e)),
      sumN (((members.filter (fun k => k / 64 == p.1)).eraseDups).map (fun k => 2 ^ (k % 64))))) []

/-- The die of a group's source: the first tile whose routes name it, else a member's. -/
def groupRoot (seats : List Seat) (group : Nat) (members : List Nat) : Nat :=
  match seats.find? (fun q => (tileRoutes q.1 q.2.1).any (fun r => r.kind == 2 && r.target == group)) with
  | some q => q.2.2 / 64
  | none => members.headD 0 / 64

/-- A group number that no slot uses. -/
def State.freeGroup (s : State) : Nat :=
  let used := (s.pslots.map (fun p => match p.2.placed with | some x => x.groups.map (·.2) | none => [])).flatten
  ((List.range 512).find? (fun g => !used.contains g)).getD 0

/-- The groups of a furnish numbered for a slot. -/
def State.numberGroups (s : State) (slot : Nat) (f : Furnish) : State :=
  f.groups.foldl (fun s g =>
    let n := s.freeGroup
    let x := s.pslot slot
    s.setPslot slot { x with placed := x.placed.map (fun p => { p with groups := p.groups ++ [(g.group, n)] }) }) s

/-- The trees of a slot's groups written into the active bank's tables, in place of what its numbers held. -/
def State.plantTrees (s : State) (slot : Nat) : State :=
  match (s.pslot slot).furn, (s.pslot slot).placed with
  | some f, some x =>
    let seats := s.seats slot
    x.groups.foldl (fun s p =>
      match f.groups.find? (fun g => g.group == p.1) with
      | none => s
      | some g =>
        let members := g.members.map (fun m => x.tileOf m.1)
        let b := s.bank s.activeBank
        let keep := b.mcast.filter (fun e => e.1 % 768 != p.2)
        s.setBank s.activeBank { b with mcast :=
          (mcTree b p.2 (groupRoot seats p.1 members) members).foldl (fun m e => mins m e.1 e.2) keep }) s
  | _, _ => s

-- ------------------------------------------------------------------ the configuration stream (R62, R109, R113, R130)

/-- Rows cut into packets of at most 64. -/
def rowPackets (fuel off : Nat) (l : List Row) : List (Nat × List Row) :=
  match fuel, l with
  | 0, _ => []
  | _, [] => []
  | n + 1, l => (off, l.take 64) :: rowPackets n (off + 4096) (l.drop 64)

/-- The resident regions of a logical tile: entry and words. -/
def residents (q : Seat) : List (Nat × Region) :=
  let l := tileRegions q.1 q.2.1
  ((List.range l.length).filterMap (fun e => (l[e]?).map (fun g => (e, ({ g0 := g.1, g1 := g.2 } : Region))))).filter
    (fun p => rKind p.2 == 3 && rResident p.2 != 0xFFF0)

/-- The weight loads of a seat (log entry 29): the i-th weights buffer fills the i-th resident region, but a region carried
forward keeps its contents (R140). -/
def State.weightLoads (s : State) (slot : Nat) (x : Placed) (q : Seat) (carried : List Nat) : List Emit :=
  let bufs := (tileBufs q.1 q.2.1).filter (fun b => b.kind == 0)
  ((bufs.zip (residents q)).filter (fun p => !carried.contains p.2.1)).map (fun p =>
    let b := s.bindBuffer slot x p.1
    .cmd b.node (.stackCopy b.base (min p.1.len (rRows p.2.2)) q.2.2 (64 * rBase p.2.2)))

/-- The route handles, buffer handles and region entries that a tile's current descriptors use (R113, R130). -/
def Tile.routesUsed (t : Tile) : List Nat :=
  ((List.range 16).map (fun i =>
    let d := (t.slot i).cur
    ((kindOuts d).filter (outBound d)).map (dOut d) ++ (if dKind d = 12 ∧ bOutbound d then [bRoute d] else []))).flatten
def Tile.buffersUsed (t : Tile) : List Nat :=
  (List.range 16).filterMap (fun i => if dKind (t.slot i).cur = 5 then some (uBuffer (t.slot i).cur) else none)
def Tile.regionsUsed (t : Tile) : List Nat :=
  (List.range 32).filter (fun e =>
    let r := t.region e
    let meets (lo hi : Nat) : Bool := decide (lo ≤ rLimit r) && decide (rBase r ≤ hi)
    rKind r != 0 && (List.range 16).any (fun i =>
      let d := (t.slot i).cur
      (decide (3 ≤ dKind d) && decide (dKind d ≤ 6) && uRegion d == e) ||
      ((dKind d == 1 || dKind d == 2) && meets (dBase d) (dLimit d)) ||
      (dKind d == 2 && decide (0 < vConstCount d) && meets (vConstBase d) (vConstBase d + vConstCount d - 1))))

/-- Table entries for logical numbers (R62, R113): each its own number where that is unused, else the lowest unused one, best
one that no other of them asks for; with none left its own. -/
def assignEntries (n : Nat) (used named : List Nat) : List (Nat × Nat) :=
  named.foldl (fun m e =>
    let free (j : Nat) : Bool := !used.contains j && !(m.any (fun p => p.2 == j))
    let j := if free e then e
      else match (List.range n).find? (fun j => free j && !named.contains j) with
        | some j => j
        | none => ((List.range n).find? free).getD e
    m ++ [(e, j)]) []

/-- The entry that a logical number stands for. -/
def entryFor (m : List (Nat × Nat)) (e : Nat) : Nat := ((m.find? (fun p => p.1 == e)).map (·.2)).getD e

/-- How a seat's logical numbers go to its tile's entries: routes and buffers that its descriptors name, every region. -/
structure Binding where
  routes : List (Nat × Nat)
  buffers : List (Nat × Nat)
  /-- Regions carried forward from W, and the rest. -/
  carried : List (Nat × Nat)
  regions : List (Nat × Nat)

/-- The entries that the next configuration of a tile takes (R62, R113, R130, R140). -/
def State.bindSeat (s : State) (q : Seat) : Binding :=
  let t := s.tile q.2.2
  let ds := tileDescs q.1 q.2.1
  let regs := tileRegions q.1 q.2.1
  let used := t.regionsUsed
  let outs := ds.map (fun d => ((kindOuts d).filter (outBound d)).map (dOut d) ++ (if dKind d = 12 ∧ bOutbound d then [bRoute d] else []))
  let keep := (List.range regs.length).filterMap (fun e => (regs[e]?).bind (fun g =>
    (used.find? (fun j => carries (t.region j) { g0 := g.1, g1 := g.2 })).map (fun j => (e, j))))
  { routes := assignEntries 64 t.routesUsed outs.flatten.eraseDups
    buffers := assignEntries 16 t.buffersUsed ((ds.filter (fun d => dKind d == 5)).map uBuffer).eraseDups
    carried := keep
    regions := assignEntries 32 used ((List.range regs.length).filter (fun e => !(keep.any (fun p => p.1 == e)))) }

/-- A configuration token, sent to the queue of the new unit's in0, or to queue 0 where it has none (R108). -/
def configPkt (hub k : Nat) (wm : Fin 4) (d : Desc) : Emit :=
  .pkt { dest := k, src := hub, ptype := 7, vc := 2, queue := if (boundIns d).contains 0 then dIn d 0 else 0,
         body := tokFlits [{ payload := rowOfDesc d, kind := 2, wm := wm }] }

/-- The descriptor that empties a slot at a watermark (R109). -/
def emptyDesc (i : Nat) (wm : Fin 4) : Desc := { d0 := BitVec.ofNat 64 (16 * i + 256 * wm.val) }

/-- The watermark that a tile takes next (R109). -/
def State.nextWm (s : State) (k : Nat) : Fin 4 := (s.tile k).wm + 1

/-- A word with one field replaced. -/
def withField (w : BitVec 64) (hi lo v : Nat) : BitVec 64 :=
  BitVec.ofNat 64 (w.toNat - bits w.toNat hi lo * 2 ^ lo + v * 2 ^ lo)

/-- A descriptor of a seat for a watermark, its route, buffer and region numbers those of the tile (R62). A logical queue keeps
its number: a queue holds the tokens of both watermarks apart (R98). -/
def seatDesc (b : Binding) (wm : Fin 4) (d : Desc) : Desc :=
  let out (w : BitVec 64) (o : Nat) : BitVec 64 :=
    if (kindOuts d).contains o ∧ outBound d o then withField w (39 + 8 * o) (32 + 8 * o) (entryFor b.routes (dOut d o)) else w
  let k := dKind d
  let d2 := if 3 ≤ k ∧ k ≤ 6 then withField d.d2 4 0 (entryFor (b.carried ++ b.regions) (uRegion d)) else d.d2
  let d2 := if k = 5 then withField d2 23 20 (entryFor b.buffers (uBuffer d)) else d2
  let d2 := if k = 12 ∧ bOutbound d then withField d2 15 8 (entryFor b.routes (bRoute d)) else d2
  { d with d0 := withField d.d0 9 8 wm.val, d1 := out (out d.d1 0) 1, d2 := d2 }

/-- Everything that the hub sends to configure a seat (R113): entries and program words that W does not use, the region table
without what neither watermark uses, constants and weights, then a configuration token for every slot that is non-empty at
W or at W + 1 (R109). -/
def State.configure (s : State) (slot : Nat) (q : Seat) : State :=
  match (s.pslot slot).placed with
  | none => s
  | some x =>
    let hub := hubNode s.actingHub
    let k := q.2.2
    let t := q.2.1
    let s := s.syncTile slot k
    let u := s.tile k
    let wm := s.nextWm k
    let b := s.bindSeat q
    let regs := tileRegions q.1 t
    let ds := (tileDescs q.1 t).map (seatDesc b wm)
    let gone := (List.range 32).filter (fun e => rKind (u.region e) != 0 && !u.regionsUsed.contains e && !(b.regions.any (fun p => p.2 == e)))
    let empty := (List.range 16).filter (fun i => dKind (u.slot i).cur != 0 && !(ds.any (fun d => dSlot d == i)))
    s.sendAll (
      b.routes.filterMap (fun p => ((tileRoutes q.1 t)[p.1]?).map (fun r => .install k ⟨p.2, .routes [s.bindRoute slot x r]⟩)) ++
      b.buffers.filterMap (fun p => ((tileBufs q.1 t)[p.1]?).map (fun r => .install k ⟨p.2, .buffers [s.bindBuffer slot x r]⟩)) ++
      [.install k ⟨t.opBase, .program (tileOps q.1 t)⟩] ++
      gone.map (fun e => .cmd k (.regionSet e 0 0 0)) ++
      b.regions.filterMap (fun p => (regs[p.1]?).map (fun g => .cmd k (.regionSet p.2 g.1 g.2 0))) ++
      (rowPackets 65536 (64 * t.constRow) (tileConsts q.1 t)).map (fun p =>
        .pkt { dest := k, src := hub, ptype := 2, vc := 2, offset := p.1, body := p.2.map (fun r => { row := r }) }) ++
      s.weightLoads slot x q (b.carried.map (·.1)) ++ (ds ++ empty.map (fun i => emptyDesc i wm)).map (configPkt hub k wm))

/-- End-of-configuration tokens into the queues that the hub feeds: the entry points of a slot on some tiles (R110). -/
def State.closeEntries (s : State) (slot : Nat) (coords : List Nat) (wm : Fin 4) (id : Nat) : State :=
  match (s.pslot slot).furn, (s.pslot slot).placed with
  | some f, some x =>
    s.sendAll ((((f.entries.filter (fun e => coords.contains e.ltile)).map (fun e => (x.tileOf e.ltile, e.queue))).eraseDups).map (fun e =>
      .pkt { dest := e.1, src := hubNode s.actingHub, ptype := 1, vc := 0, queue := e.2, body := tokFlits [eocTok wm id] }))
  | _, _ => s

/-- The table entry that holds a region's words, its own number where none does. -/
def Tile.entryLike (t : Tile) (e : Nat) (g : BitVec 64 × BitVec 64) : Nat :=
  ((List.range 32).find? (fun j => (t.region j).g0 == g.1 && (t.region j).g1 == g.2)).getD e

/-- A tile's tables as its seat binds them now, rewritten in place (R201, R237). -/
def State.rebindSeat (s : State) (slot : Nat) (q : Seat) : State :=
  match (s.pslot slot).placed with
  | none => s
  | some x =>
    let t := s.tile q.2.2
    -- Each unit's own entries, as its current or its shadow descriptor names them.
    let pairs := ((tileDescs q.1 q.2.1).map (fun d => ((t.slot (dSlot d)).cur :: (t.slot (dSlot d)).shadow.toList).filterMap (fun c =>
      if dUnit c = dUnit d ∧ dKind c = dKind d then some (d, c) else none))).flatten
    let rs := ((pairs.map (fun p =>
      ((kindOuts p.1).filter (outBound p.1)).map (fun o => (dOut p.1 o, dOut p.2 o)) ++
      (if dKind p.1 = 12 ∧ bOutbound p.1 then [(bRoute p.1, bRoute p.2)] else []))).flatten).filterMap (fun p =>
        ((tileRoutes q.1 q.2.1)[p.1]?).map (fun r => (p.2, s.bindRoute slot x r)))
    let bs := (pairs.filter (fun p => dKind p.1 == 5)).filterMap (fun p =>
      ((tileBufs q.1 q.2.1)[uBuffer p.1]?).map (fun b => (uBuffer p.2, s.bindBuffer slot x b)))
    s.setTile q.2.2 { t with routes := rs.foldl (fun m p => mset none m p.1 (some p.2)) t.routes,
                             buffers := bs.foldl (fun m p => mset none m p.1 (some p.2)) t.buffers }

/-- The tables of a placed slot's tiles as they bind now: the seats of the lap under way (R201, R203, R237). -/
def State.rebindSlot (s : State) (slot : Nat) : State :=
  match (s.pslot slot).furn, (s.pslot slot).placed with
  | some f, some p =>
    if s.slotState slot ≠ 4 then s
    else ((s.seats slot).filter (fun q => !folded p.fold q.1 || lapOf f p.fold q.1 == (s.pslot slot).lap)).foldl (fun s q => s.rebindSeat slot q) s
  | _, _ => s

/-- Every placed slot's tables as they bind now. -/
def State.rebindAll (s : State) : State := (List.range 8).foldl State.rebindSlot s

-- ------------------------------------------------------------------ floor-plan records of tiles (R32, R212)

/-- A tile's record for a seat of a slot. -/
def State.recordSeat (s : State) (slot : Nat) (q : Seat) : State :=
  let k := q.2.2
  (((s.stageFloor (oFloorTileState k) 2).stageFloor (oFloorTileFurnish k) slot).stageFloor (oFloorTileRegion k) q.1.region).stageFloor
    (oFloorTileLogicalTile k) q.2.1.coord

/-- A tile's record with nothing placed, in a state. -/
def State.recordFree (s : State) (k v : Nat) : State :=
  ((((s.stageFloor (oFloorTileState k) v).stageFloor (oFloorTileFurnish k) 0xFFFF).stageFloor (oFloorTileRegion k) 0xFFFFFFFF).stageFloor
    (oFloorTileLogicalTile k) 0xFFFFFFFF).stageFloor (oFloorTileAddedHopNs k) 0

/-- Slot whose tiles a die holds: 0xFF none, 0xFE several (placement.site.slot). -/
def State.siteSlot (s : State) (g : Nat) : Nat :=
  match (List.range 8).filter (fun i => (s.slotTiles i).any (fun k => k / 64 == g)) with
  | [] => 0xFF
  | [i] => i
  | _ => 0xFE

/-- A tile left by its slot (log entry 30): brought back to the state after tile reset by a scan-in of an empty image;
lives, logs and the heartbeat stay. -/
def Tile.vacated (t : Tile) : Tile :=
  { lives := t.lives, log := t.log, drained := t.drained, faultFlag := t.faultFlag, ackDue := t.ackDue,
    heartbeat := t.heartbeat, creditM := t.creditM, creditV := t.creditV, creditAt := t.creditAt, creditRem := t.creditRem,
    level := t.level, idle := t.idle, idleSince := t.idleSince, nextOrder := t.nextOrder }

/-- The state with a tile vacated. -/
def State.vacate (s : State) (k : Nat) : State := s.setTile k (s.tile k).vacated

-- ------------------------------------------------------------------ moves (R62, R125, R151, R237)

/-- A route or a buffer with one node in place of another. -/
def Tile.renode (t : Tile) (old new' : Nat) : Tile :=
  { t with routes := t.routes.map (fun p => (p.1, p.2.map (fun r => if r.node = old then { r with node := new' } else r))),
           buffers := t.buffers.map (fun p => (p.1, p.2.map (fun b => if b.node = old then { b with node := new' } else b))) }

/-- Every tile's tables with one node in place of another: route rows rewritten by scan in place (R237). -/
def State.renodeAll (s : State) (old new' : Nat) : State :=
  { s with tiles := s.tiles.map (fun p => (p.1, p.2.renode old new')) }

/-- The images of a tile: its dataflow state and its scratchpad. -/
def State.imagesOf (s : State) (k : Nat) : List Row × List Row := (s.scanImage k, s.saveImage k 0 65536)

/-- Images taken in at a tile, which stays in HOLD; a scan image that fails a check changes nothing (R125, R151). -/
def State.imagesInto (s : State) (k : Nat) (img : List Row × List Row) : State :=
  if imgOk img.1 ∧ saveOk img.2 then (s.installSave k img.2).takeImage k img.1 else s

/-- Some tiles put in HOLD, those that run (R122). -/
def State.holdTiles (s : State) (ks : List Nat) : State :=
  ks.foldl (fun s k => let t := s.tile k
    if t.run = .run then s.setTile k { t with run := .hold, heldAt := s.clk } else s) s

/-- Some tiles released to RUN (R122). -/
def State.runTiles (s : State) (ks : List Nat) : State :=
  ks.foldl (fun s k => let t := s.tile k
    if t.run = .hold then s.setTile k (t.toRun s.clk) else s) s

/-- The tiles whose route tables name some tiles: their producers (R123). -/
def State.producersOf (s : State) (ks : List Nat) : List Nat :=
  (s.tiles.filter (fun p => p.2.routes.any (fun r => match r.2 with | some e => ks.contains e.node || decide (0x8000 ≤ e.node) | none => false))).map (·.1)

/-- A slot's record with tiles renamed. -/
def State.renameTiles (s : State) (f : Nat → Nat) : State :=
  { s with pslots := s.pslots.map (fun p => (p.1, { p.2 with placed := p.2.placed.map (fun x =>
    { x with tiles := x.tiles.map (fun q => (q.1, f q.2)),
             mirrors := x.mirrors.map (fun m => { m with tile := f m.tile, mTile := f m.mTile }) }) })) }

/-- The resident weights of a seat read again from the primary copies (R140, R237), while the tile is held. A two-copy region
keeps what its image holds, which is newer than what was loaded. -/
def State.reloadWeights (s : State) (slot : Nat) (q : Seat) : State :=
  match (s.pslot slot).placed with
  | none => s
  | some x =>
    ((((tileBufs q.1 q.2.1).filter (fun b => b.kind == 0)).zip (residents q)).filter (fun p => !rTwo p.2.2)).foldl (fun s p =>
      let b := s.bindBuffer slot x p.1
      if b.len = 0 then s else s.putRows q.2.2 (64 * rBase p.2.2) (s.rowsAt b.node b.base (min p.1.len (rRows p.2.2)))) s

/-- The weights of the seats on some tiles read again: of a folded region, those of the lap under way. -/
def State.reloadOn (s : State) (ks : List Nat) : State :=
  (List.range 8).foldl (fun s i => match (s.pslot i).furn, (s.pslot i).placed with
    | some f, some p => ((s.seats i).filter (fun q => ks.contains q.2.2 &&
        (!folded p.fold q.1 || lapOf f p.fold q.1 == (s.pslot i).lap))).foldl (fun s q => s.reloadWeights i q) s
    | _, _ => s) s

/-- Live moves of several tiles at once (R123, R125, R237): HOLD on the tiles and their producers, images out, old tiles
vacated, images in, weights read again, the producers' tables rewritten, RUN. -/
def State.moveTiles (s : State) (moves : List (Nat × Nat)) : State :=
  let from' := moves.map (·.1)
  let s0 := s.holdTiles (from' ++ s.producersOf from')
  let held := (from' ++ s.producersOf from').filter (fun k => (s.tile k).run == .run)
  let imgs := moves.map (fun m => (m.2, s0.imagesOf m.1))
  let s1 := moves.foldl (fun s m => s.vacate m.1) s0
  let s2 := imgs.foldl (fun s p => s.imagesInto p.1 p.2) (s1.holdTiles (moves.map (·.2)))
  let to' (k : Nat) : Nat := ((moves.find? (fun m => m.1 == k)).map (·.2)).getD k
  let swap (t : Tile) : Tile :=
    { t with routes := t.routes.map (fun p => (p.1, p.2.map (fun r => { r with node := to' r.node }))),
             buffers := t.buffers.map (fun p => (p.1, p.2.map (fun b => { b with node := to' b.node }))) }
  let s3 := ({ s2 with tiles := s2.tiles.map (fun (p : Nat × Tile) => (p.1, swap p.2)) } : State).renameTiles to'
  (s3.reloadOn (moves.map (·.2))).runTiles (moves.map (·.2) ++ held)

/-- The floor-plan records after moves: the new tile takes the old one's record with its added latency, the old one
reads a state. -/
def State.recordMoves (s : State) (moves : List (Nat × Nat)) (left : Nat) : State :=
  let vals := moves.map (fun m => (m, s.floorNow (oFloorTileFurnish m.1), s.floorNow (oFloorTileRegion m.1),
    s.floorNow (oFloorTileLogicalTile m.1), s.floorNow (oFloorTileAddedHopNs m.1)))
  let s1 := (moves.filter (fun m => !(moves.any (fun n => n.2 == m.1)))).foldl (fun s m => s.recordFree m.1 left) s
  vals.foldl (fun s v =>
    let k := v.1.2
    ((((s.stageFloor (oFloorTileState k) 2).stageFloor (oFloorTileFurnish k) v.2.1).stageFloor (oFloorTileRegion k) v.2.2.1).stageFloor
      (oFloorTileLogicalTile k) v.2.2.2.1).stageFloor (oFloorTileAddedHopNs k) v.2.2.2.2) s1

-- ------------------------------------------------------------------ spare plans (R230, R231)

/-- On-die hops between two tiles of a die. -/
def dieHops (a b : Nat) : Nat :=
  let d (x y : Nat) : Nat := (x - y) + (y - x)
  d (a % 64 / 8) (b % 64 / 8) + d (a % 8) (b % 8)

/-- The tiles of a die in a state. -/
def State.tilesIn (s : State) (g v : Nat) : List Nat :=
  ((List.range 64).map (fun t => g * 64 + t)).filter (fun k => s.floorNow (oFloorTileState k) == v)

/-- The target of a lost tile on its own die (R230): the nearest RESERVE tile, else a FREE one. -/
def State.tileTarget (s : State) (k : Nat) : Option Nat :=
  match (sortBy (fun j => dieHops k j * 64 + j % 64) (s.tilesIn (k / 64) 3)).head? with
  | some j => some j
  | none => (s.tilesIn (k / 64) 1).head?

/-- The spare for a lost die among some spares (R230): of the same sector the nearest, else the nearest anywhere. -/
def State.dieTarget (s : State) (g : Nat) (spares : List Nat) : Option Nat :=
  let near (l : List Nat) : Option Nat := (sortBy (fun h => s.distance g h * 256 + h) l).head?
  match near (spares.filter (fun h => sectorOf h == sectorOf g)) with
  | some h => some h
  | none => near spares

/-- The SPARE dies. -/
def State.spares (s : State) : List Nat := computeSites.filter s.dieSpare

/-- The targets of the active dies of a lost sector, in ascending site (R230). -/
def State.sectorTargets (s : State) (sec : Nat) : List (Nat × Nat) :=
  (((sectorDies sec).filter s.dieActive).foldl (fun (st : List Nat × List (Nat × Nat)) g =>
    match (sortBy (fun h => s.distance g h * 256 + h) st.1).head? with
    | some h => (st.1.filter (· != h), st.2 ++ [(g, h)])
    | none => st) ((s.spares).filter (fun h => sectorOf h != sec), [])).2

/-- Where the placed tiles of a die go on a spare (R230): tile t to tile t, else to the nearest good tile left; what is
left over to FREE tiles of the dies nearest to the spare, in ascending site and tile. -/
def State.dieMoves (s : State) (g h : Nat) : List (Nat × Nat) :=
  let placed := s.tilesIn g 2
  let good := s.goodTiles h
  let straight := placed.filter (fun k => good.contains (h * 64 + k % 64))
  let left := good.filter (fun j => !(straight.any (fun k => j == h * 64 + k % 64)))
  let rest := placed.filter (fun k => !straight.contains k)
  let (moves, _, extra) := rest.foldl (fun (st : List (Nat × Nat) × List Nat × List Nat) k =>
    match (sortBy (fun j => dieHops k j * 64 + j % 64) st.2.1).head? with
    | some j => (st.1 ++ [(k, j)], st.2.1.filter (· != j), st.2.2)
    | none => (st.1, st.2.1, st.2.2 ++ [k])) ([], left, [])
  let free := ((sortBy (fun d => s.distance h d * 256 + d) (computeSites.filter (fun d => s.dieActive d && d != g))).map
    (fun d => s.tilesIn d 1)).flatten
  straight.map (fun k => (k, h * 64 + k % 64)) ++ moves ++ extra.zip free

/-- Every plan computed for the current generation and published (R230, R231). -/
def State.publishPlans (s : State) : State :=
  let s1 := computeSites.foldl (fun s g =>
    s.odSet (oPlacementSiteDieTarget g) (if s.dieActive g then (s.dieTarget g s.spares).getD 0xFF else 0xFF)) s
  let sec := ((List.range 16).map s.sectorTargets).flatten
  let s2 := computeSites.foldl (fun s g =>
    s.odSet (oPlacementSiteSectorTarget g) (((sec.find? (fun p => p.1 == g)).map (·.2)).getD 0xFF)) s1
  { s2.odSet oPlacementPanelPlanCoverageGeneration (s.odGet oFloorPanelGeneration) with staleDies := [] }

/-- Plans have been computed at all. -/
def State.planned (s : State) : Bool := s.odGet oPlacementPanelPlanCoverageGeneration != 0

/-- A tile's plan entry is valid (R231). -/
def State.tilePlanValid (s : State) (k : Nat) : Bool := s.planned && !s.staleDies.contains (k / 64)

/-- A die's plan entry is valid: it names a spare that is still one (R231). -/
def State.diePlanValid (s : State) (g : Nat) : Bool := s.planned && s.dieSpare (s.odGet (oPlacementSiteDieTarget g))

/-- A sector's plan entry is valid: every active die of it has a target that is still a spare (R231). -/
def State.sectorPlanValid (s : State) (sec : Nat) : Bool :=
  s.planned && ((sectorDies sec).filter s.dieActive).all (fun g => s.dieSpare (s.odGet (oPlacementSiteSectorTarget g)))

/-- Valid plan entries: tiles, dies, sectors (placement.panel.plan_coverage). -/
def State.planCoverage (s : State) : Nat × Nat × Nat :=
  (sumN (computeSites.map (fun g => ((s.tilesIn g 2).filter s.tilePlanValid).length)),
   (computeSites.filter (fun g => s.dieActive g && s.diePlanValid g)).length, ((List.range 16).filter s.sectorPlanValid).length)

/-- A re-plan event (placement.panel.replan_event) and its count. -/
def State.replanEvent (s : State) (kind slot dies pauseUs : Nat) : State :=
  (s.publish24 oPlacementPanelReplanEvent ([kind, slot] ++ toLE 2 dies ++ toLE 4 pauseUs ++ toLE 8 (s.odGet oFloorPanelGeneration))).bump
    oPlacementPanelReplans

/-- The tiles of a die that carries nothing, marked for the next generation (R445): the bad ones DEFECT, the
min(2, g − 60) highest of g good ones RESERVE, the others FREE. -/
def State.markTiles (s : State) (g : Nat) (bad : List Nat) : State :=
  let good := (List.range 64).filter (fun t => !bad.contains t)
  let kept := lastN (min 2 (good.length - 60)) good
  (List.range 64).foldl (fun (s : State) t => s.recordFree (g * 64 + t) (if bad.contains t then 4 else if kept.contains t then 3 else 1)) s

/-- A critical die that has passed its run comes back as a SPARE at a re-plan, unless fewer than 48 of its tiles are good
(R357). -/
def State.rejoinDie (s : State) (g mask : Nat) : State :=
  let bad := (List.range 64).filter (fun t => mask.testBit t)
  if 64 - bad.length < 48 then s
  else ((s.markTiles g bad).stageFloor (oFloorSiteState g) 2).stageFloor (oFloorSiteCause g) 0

-- ------------------------------------------------------------------ added path latency (floor.tile.added_hop_ns)

/-- Die crossings of the paths of a seat's routes and buffers, by the tables in force (R489). -/
def State.seatPaths (s : State) (slot : Nat) (x : Placed) (q : Seat) : List Nat :=
  let b := s.bank s.activeBank
  let len (n : Nat) : Nat := ((b.nodePath q.2.2 n).map crossingsOf).getD 0
  ((tileRoutes q.1 q.2.1).map (fun r => len (s.bindRoute slot x r).node)) ++
  ((tileBufs q.1 q.2.1).map (fun r => len (s.bindBuffer slot x r).node))

/-- The paths of a slot's seats as they stand, kept as those of its full placement (log entry 92). -/
def State.keepPaths (s : State) (slot : Nat) : State :=
  let y := s.pslot slot
  match y.placed with
  | none => s
  | some x => s.setPslot slot { y with placed := some { x with paths := (s.seats slot).map (fun q => (q.2.1.coord, s.seatPaths slot x q)) } }

/-- The added path latency of a seat: 26 ns for each die crossing that its worst path has gained since then (R489). -/
def State.addedHop (s : State) (slot : Nat) (x : Placed) (q : Seat) : Nat :=
  let old := ((x.paths.find? (fun p => p.1 == q.2.1.coord)).map (·.2)).getD []
  26 * maxN (((s.seatPaths slot x q).zip old).map (fun p => p.1 - p.2))

/-- floor.tile.added_hop_ns of every placed tile, by the tables in force (log entry 92). -/
def State.settleHops (s : State) : State :=
  (List.range 8).foldl (fun s i => match (s.pslot i).placed with
    | none => s
    | some x => (s.seats i).foldl (fun s q =>
      if s.odGet (oFloorTileLogicalTile q.2.2) = q.2.1.coord then s.odSet (oFloorTileAddedHopNs q.2.2) (s.addedHop i x q) else s) s) s

/-- The new generation of a re-plan (R236), with the dies that rejoin at it. -/
def State.newGeneration (s : State) : State :=
  let s := s.rejoin.foldl (fun s p => s.rejoinDie p.1 p.2) ({ s with rejoin := [] } : State)
  (s.flip s.blockedNext.1 s.blockedNext.2 (s.odGet oFabricPanelUpdownPairs)).settleHops

/-- The new generation at which a slot is placed anew: nothing is added to its paths. -/
def State.placedGeneration (s : State) (slot : Nat) : State := (s.newGeneration.keepPaths slot).settleHops

/-- BANK_FLIP (R163): at the epoch boundary of a new generation. `pairs` is how many pairs the tables route by
up*/down* order. A flip that the idle bank's draining holds up waits. -/
def execBankFlip (dt pairs : Nat) (s : State) : Host.Outcome State Fault Refusal :=
  let s := s.tick dt
  .next (if s.idleBank && s.generationDue then (s.flip s.blockedNext.1 s.blockedNext.2 pairs).settleHops else s)

/-- LINK_ADMIT (R165): what is passable again comes into the tables. The lanes whose paths would change are held until
they have no tag outstanding; then the banks flip and the lanes are released. -/
def execLinkAdmit (dt pairs : Nat) (s : State) : Host.Outcome State Fault Refusal :=
  let s := s.tick dt
  let b := s.bank s.activeBank
  let (sites, links) := s.blockedNow
  let next : Bank := { b with blockedSites := sites, blockedLinks := links }
  let gain := b.built && (b.blockedSites.any (fun g => !sites.contains g) || b.blockedLinks.any (fun l => !links.contains l))
  let slots := s.slotsWhere (fun p => b.nodePath p.1 p.2 != next.nodePath p.1 p.2)
  let ls := (slots.map s.lanesOf).flatten
  -- Hub firmware's packets to the pairs concerned are out of the fabric before the flip.
  let clear : Bool := s.out.all (fun e => match e with
    | .pkt p => !isHubNode p.src || b.nodePath p.src p.dest == next.nodePath p.src p.dest
    | _ => true)
  .next (if !(gain && s.idleBank) then s
    else if ls.all s.laneQuiet ∧ clear then
      let s1 := { (s.flip sites links pairs).settleHops with heldLanes := s.heldLanes.filter (fun l => !ls.contains l) }
      (b.blockedLinks.filter (fun l => !links.contains l)).foldl (fun s l =>
        s.linkEvent l 5 (s.odGet (oFabricLinkLatencyPs l)) (s.odGet (oFabricLinkLatencyPs l)) (s.odGet (oFabricLinkLanesGood l))) s1
    else { s with heldLanes := s.heldLanes ++ ls.filter (fun l => !s.heldLanes.contains l) })

end Sys2Proof.Machine
end

