-- ==== Sys2Proof/Machine/Power.lean ====
section
/-!
DEFINITION. Power, pace and cooling (chapter 13): powering sectors up, set points, pace levels and their limiters, the
caps, droop, bricks, deep idle and waking, sector latches, temperatures and thermal resistance. Choices that the spec
leaves open are in log entries 46 to 48.
-/
namespace Sys2Proof.Machine

/-- A steward's state. -/
def State.sector (s : State) (i : Nat) : SectorPwr := mget {} s.sectors i
/-- The state with a steward's state replaced. -/
def State.setSector (s : State) (i : Nat) (x : SectorPwr) : State := { s with sectors := mset {} s.sectors i x }
/-- A steward's node (R23). -/
def stewardNode (i : Nat) : Nat := 0x24C0 + i
/-- A steward is in service. -/
def State.stewardGood (s : State) (i : Nat) : Bool := s.floorNow (oFloorOffgridState i) != 4

/-- A hub's word into a mailbox (R180): ACCEPTED where that is empty; else BUSY counts, and the word waits for the backoff. -/
def State.writeMail (s : State) (node mbox word : Nat) : State :=
  let k := mboxKey node mbox
  if (mlook s.mboxes k).isNone then { s with mboxes := mins s.mboxes k (BitVec.ofNat 64 word) }
  else
    let b : Backoff := ⟨node, hubNode s.actingHub, mbox, word, s.clk + s.odGet oFabricPanelBusyBackoffNs⟩
    { s.bump oFabricPanelMailboxBusy with backoffs := s.backoffs ++ [b] }
/-- A hub's word in a steward's mailbox, behind those that still wait for it, and the doorbell of its meaning (R180, R362). -/
def State.mail (s : State) (i mbox word bit : Nat) : State :=
  let b : Backoff := ⟨stewardNode i, hubNode s.actingHub, mbox, word, s.clk + s.odGet oFabricPanelBusyBackoffNs⟩
  (if s.backoffs.any (fun q => q.dest == b.dest && q.mbox == mbox) then { s with backoffs := s.backoffs ++ [b] }
    else s.writeMail (stewardNode i) mbox word).ring (stewardNode i) bit
/-- Words answered BUSY are written again, each once its backoff has passed and in order for each mailbox (R180). -/
def State.retryMail (s : State) : State :=
  let l := s.backoffs
  l.foldl (fun (s : State) b =>
    if s.clk < b.readyAt ∨ s.backoffs.any (fun q => q.dest == b.dest && q.mbox == b.mbox) then { s with backoffs := s.backoffs ++ [b] }
    else s.writeMail b.dest b.mbox b.word) { s with backoffs := [] }
/-- Bits of a word set or cleared. -/
def putBit (w n : Nat) (b : Bool) : Nat := if b then setBit w n else clrBit w n

-- ------------------------------------------------------------------ powering a sector up (R343, R432)

/-- The order in which sectors power up (R432). -/
def sectorOrder : List Nat := [5, 6, 9, 10, 1, 2, 4, 7, 8, 11, 13, 14, 0, 3, 12, 15]

/-- A sector is up or will not come up. -/
def State.sectorSettled (s : State) (i : Nat) : Bool := decide ((s.sector i).upStep ≥ 5) || s.odGet (oPowerSectorLatched i) == 1

/-- It is a sector's turn to power up: every one before it in the order has settled. -/
def State.sectorTurn (s : State) (i : Nat) : Bool := (sectorOrder.takeWhile (· != i)).all s.sectorSettled

/-- The rail that a step brings up: its bit in rails_ok. Step 1 closes the input switch. -/
def stepRail (step : Nat) : Nat := [4, 4, 2, 1, 0, 3].getD step 4

/-- Every tile of a sector in deep idle, with its state as after tile reset (R343 step 4). -/
def State.idleSector (s : State) (i : Nat) : State :=
  ((sectorDies i).map (fun g => (List.range 64).map (fun t => g * 64 + t))).flatten.foldl
    (fun s k => s.setTile k { s.tile k with idle := true }) s

/-- SECTOR_POWER_UP (R343): the rails of the step under way have settled, and the steward takes the next; `phases` is
how many phases work. -/
def execSectorPowerUp (dt : Nat) (sec : Fin 16) (phases : Nat) (s : State) : Host.Outcome State Fault Refusal :=
  let s := s.tick dt
  let i := sec.val
  let x := s.sector i
  .next (if s.odGet oDeviceStateState ≠ 2 ∨ s.odGet oBootProgressStep ≠ 4 ∨ s.sectorSettled i ∨ !s.sectorTurn i then s
    else
      let n := x.upStep + 1
      let s1 := (s.setSector i { x with upStep := n }).odSet (oPowerSectorRailsOk i) (setBit (s.odGet (oPowerSectorRailsOk i)) (stepRail n))
      let s2 := if n = 1 then s1.odSet (oPowerSectorPhasesGood i) (min phases 180) else s1
      if n = 4 then s2.idleSector i else s2)

/-- A sector latched off (R355, R432): rails gone, its input switch open. -/
def State.latchSector (s : State) (i : Nat) : State :=
  ((s.setSector i {}).odSet (oPowerSectorLatched i) 1).odSet (oPowerSectorRailsOk i) (s.odGet (oPowerSectorRailsOk i) / 16 % 2 * 16)

/-- RAIL_SETTLE_TIMEOUT (R343, R432): the sector is latched off, its sites FAILED with cause 0x0006. -/
def execRailSettleTimeout (dt : Nat) (sec : Fin 16) (s : State) : Host.Outcome State Fault Refusal :=
  let s := s.tick dt
  let i := sec.val
  .next (if s.odGet oDeviceStateState ≠ 2 ∨ s.odGet oBootProgressStep ≠ 4 ∨ s.sectorSettled i ∨ !s.sectorTurn i then s
    else
      let sites := (List.range 16).map (fun k => i * 16 + k)
      (sites.filter (fun g => siteKind g < 2)).foldl (fun (s : State) g =>
        if s.floorNow (oFloorSiteState g) = 3 then s
        else (s.stageFloor (oFloorSiteState g) 4).stageFloor (oFloorSiteCause g) 6) (s.latchSector i))

-- ------------------------------------------------------------------ set points (R344)

/-- Where a set point stands after a time on its ramp, in ns: 1 mV nearer its target each µs (R344). -/
def rampValue (old target ns : Nat) : Nat := if old ≤ target then min target (old + ns / 1000) else max target (old - ns / 1000)

/-- The supply of a domain now, where a ramp may be under way (R344). -/
def State.supplyNow (s : State) (a : Nat) : Nat :=
  match mlook s.ramps a with
  | some (target, old, t) => rampValue old target (s.clk - t)
  | none => s.odGet a

/-- A ramp to a new set point begins; a ramp under way goes on from where it stands. -/
def State.startRamp (s : State) (a target : Nat) : State := { s with ramps := mins s.ramps a (target, s.supplyNow a, s.clk) }

/-- A set point's range: VDDL 550 to 850 mV, VDDM 700 to 800 mV (R342). -/
def setpointOk (domain mv : Nat) : Bool :=
  if domain = 0 then decide (550 ≤ mv ∧ mv ≤ 850) else decide (700 ≤ mv ∧ mv ≤ 800)

/-- The object of a domain's set point: 0 VDDL, 1 VDDM. -/
def setpointObj (domain sec : Nat) : Nat := if domain = 0 then oPowerSectorVddlMv sec else oPowerSectorVddmMv sec

/-- A write of a set point: none is BAD_VALUE (R344). -/
def State.setpointWrite (s : State) (sec domain mv : Nat) : Option State :=
  if setpointOk domain mv then some (({ s.startRamp (setpointObj domain sec) mv with storeDirty := true } : State).mail sec 2 (domain * 65536 + mv) 8) else none

/-- SETPOINT_WRITE (R344). -/
def execSetpointWrite (dt : Nat) (sec : Fin 16) (domain : Fin 2) (mv : Nat) (s : State) : Host.Outcome State Fault Refusal :=
  .next (((s.tick dt).setpointWrite sec.val domain.val mv).getD (s.tick dt))

/-- How long a ramp takes, in ns: at most 10 mV per 10 µs (R344). -/
def rampNs (old target : Nat) : Nat := 1000 * (max old target - min old target)

/-- SETPOINT_REACHED (R344): a ramp that has had its time ends, and the set point is published. -/
def execSetpointReached (dt : Nat) (sec : Fin 16) (domain : Fin 2) (s : State) : Host.Outcome State Fault Refusal :=
  let s := s.tick dt
  let a := setpointObj domain.val sec.val
  .next (match mlook s.ramps a with
    | some (target, old, t) => if t + rampNs old target ≤ s.clk then ({ s with ramps := mdel s.ramps a } : State).odSet a target else s
    | none => s)

-- ------------------------------------------------------------------ bricks and caps (R345, R349, R350, R476)

/-- Bricks that work. -/
def State.bricks (s : State) : Nat := ((List.range 13).filter (fun b => s.odGet (oPowerBrickState b) == 1)).length

/-- The effective cap in W (R345). -/
def State.effectiveCap (s : State) : Nat := min (min (s.odGet oPowerPanelCapW) (s.odGet oPowerPanelHardLimitW)) (2700 * s.bricks)

/-- A power event (R345, R349, R355). -/
def State.powerEvent (s : State) (kind which : Nat) : State :=
  s.publish24 oPowerPanelEvent ([kind, which, 0, 0] ++ toLE 4 s.effectiveCap)

/-- BRICK_LOSS (R345): a brick drops off the bus: 0 removed, 2 failed, 3 over temperature. -/
def execBrickLoss (dt : Nat) (brick : Fin 13) (state : Nat) (s : State) : Host.Outcome State Fault Refusal :=
  let s := s.tick dt
  let b := brick.val
  .next (if s.odGet (oPowerBrickState b) ≠ 1 ∨ !([0, 2, 3].contains state) then s
    else
      let s1 := (s.odSet (oPowerBrickState b) state).odSet (oPowerBrickOutputW b) 0
      let s2 := if state = 0 then (s1.odSet (oPowerBrickSerial b) 0).odSet (oPowerBrickTempMc b) 0 else s1.bump (oPowerBrickFaults b)
      -- R379: with brick redundancy lost the promise lapses for a further brick.
      (s2.powerEvent 1 b).instantRepair 9 b ((s.odGet oDeviceStateCauses).testBit 7))

/-- BRICK_INSERT (R476): a brick that reports OK is inserted; one whose serial is of no Ihleth brick part reads FAILED and carries
no load (log entry 94). -/
def execBrickInsert (dt : Nat) (brick : Fin 13) (serial : Nat) (s : State) : Host.Outcome State Fault Refusal :=
  let s := s.tick dt
  let b := brick.val
  .next (if s.odGet (oPowerBrickState b) = 1 then s
    else
      let s1 := s.odSet (oPowerBrickSerial b) (serial % 2 ^ 128)
      if Config.brickPart (serial % 2 ^ 128) then (s1.odSet (oPowerBrickState b) 1).powerEvent 2 b else s1.odSet (oPowerBrickState b) 2)

/-- The mean of a list of samples. -/
def meanN (l : List Nat) : Nat := if l = [] then 0 else sumN l / l.length

/-- The common ceiling set: each steward finds it in its mailbox and its doorbell rung (R349, R362). -/
def State.setCeiling (s : State) (v : Nat) : State :=
  (List.range 16).foldl (fun (s : State) i => s.mail i 0 v 6) ({ s with ceilingAt := s.clk }.odSet oPowerPanelCeiling v)

/-- One sample of the panel's input and of what the bricks put out is recorded (R349). -/
def State.recordInput (s : State) (mv watts : Nat) (outputs : List Nat) : State :=
  let ws := lastN 1000 (s.watts ++ [watts])
  let dips : Bool := s.dev == 2 && decide (mv < 66000 ∨ 78000 < mv)
  let s0 : State := { s with watts := ws, boot.dip := s.boot.dip || dips }
  let s1 := ((s0.odSet oPowerPanelInputMv mv).odSet oPowerPanelInputW (meanN (lastN (s.odGet oPowerPanelWindowUs / 10) ws)))
  (List.range 13).foldl (fun (s : State) b => if s.odGet (oPowerBrickState b) = 1 then s.odSet (oPowerBrickOutputW b) (outputs.getD b 0) else s) s1

/-- PANEL_POWER_SAMPLE (R349): input voltage and power, what the bricks put out, and the average that the hub projects for
the current window, for which the spec gives no formula. During bring-up, input outside the operating band is remembered (R446). -/
def execPanelPowerSample (dt mv watts projected : Nat) (outputs : List Nat) (s : State) : Host.Outcome State Fault Refusal :=
  let s := s.tick dt
  let n := s.odGet oPowerPanelWindowUs / 10
  let s2 := s.recordInput mv watts outputs
  let ws := s2.watts
  let cap := s2.effectiveCap
  let short := meanN (lastN 10 ws)
  let c := s2.odGet oPowerPanelCeiling
  .next (if ws.length ≥ 10 ∧ short > s2.odGet oPowerPanelHardLimitW ∧ !s2.tripped then
      (({ s2.setCeiling 31 with tripped := true }).bump oPowerPanelHardTrips).powerEvent 3 0
    else if s2.tripped then (if short * 10 < cap * 9 then { s2 with tripped := false } else s2)
    else if projected * 100 > cap * 98 then (if c > 0 then (s2.setCeiling (c - 1)).bump oPowerPanelCapActions else s2)
    else if c < 63 ∧ ws.length ≥ n ∧ s2.ceilingAt + 1000 * s2.odGet oPowerPanelWindowUs ≤ s2.clk ∧ meanN (lastN n ws) * 100 < cap * 93 then s2.setCeiling (c + 1)
    else s2)

-- ------------------------------------------------------------------ pace levels (R346 to R348)

/-- The base level (R348): a cascade's level, the fixed level in fixed mode, else 63. -/
def State.baseLevel (s : State) : Nat :=
  if s.odGet oCascadePanelLevel < 63 then s.odGet oCascadePanelLevel
  else if s.odGet oPowerPanelPaceMode = 1 then s.odGet oPowerPanelFixedLevel else 63

/-- The fixed level in force, if the pace is fixed. -/
def State.fixedLevel (s : State) : Option Nat := if s.baseLevel < 63 then some s.baseLevel else none

/-- The limiters 0 to 3 of a sector (R347). -/
def State.limiters (s : State) (i : Nat) : List Nat :=
  [s.baseLevel, s.odGet oPowerPanelCeiling, (s.sector i).capLevel, s.odGet (oThermalSectorDerateLevel i)]

/-- The level of a sector, and that of the tiles which a wake trim spares, and the limiter's code (R347). -/
def State.levelOf (s : State) (i : Nat) : Nat × Nat × Nat :=
  let x := s.sector i
  let l := s.limiters i
  let low := l.foldl min 63
  let droop (n : Nat) : Nat := if x.droopUntil.isSome then n - 2 else n
  let wake := if x.trimFrom.isSome then low - 1 else low
  let lvl := droop wake
  let code := if lvl = low then (findIdx (· == low) l).getD 0 else if lvl = wake then 4 else 5
  (lvl, droop low, code)

/-- The pace that a sector runs at: its level, or the ceiling of an active die of its where that is lower (R347, R348). -/
def State.sectorPace (s : State) (i lvl : Nat) : Nat :=
  (((sectorDies i).filter s.dieActive).map (fun g => s.odGet (oPowerSiteCeiling g))).foldl min lvl

/-- A steward sets its sector's level (R347), and knows since when the sector runs below the fixed level (R348). -/
def State.setLevel (s : State) (i : Nat) : State :=
  let (lvl, _, code) := s.levelOf i
  let s1 := (s.odSet (oPowerSectorLevel i) lvl).odSet (oPowerSectorLimiter i) code
  let x := s1.sector i
  match s1.fixedLevel with
  | some f => s1.setSector i { x with belowFrom := if s1.sectorPace i lvl < f then (match x.belowFrom with | some t => some t | none => some s1.clk) else none }
  | none => s1.setSector i { x with belowFrom := none }

/-- The tiles of a sector. -/
def sectorTiles (i : Nat) : List Nat := ((sectorDies i).map (fun g => (List.range 64).map (fun t => g * 64 + t))).flatten

/-- A tile takes a level, its credits brought up to date first (R346). -/
def State.tileLevel (s : State) (k lvl : Nat) : State :=
  let t := (s.tile k).refill s.clk
  if t.level = lvl then s else s.setTile k ({ t with level := lvl }.refill s.clk)

/-- The tiles of a sector take its level, each no higher than its die's ceiling (R347, R357). -/
def State.applyLevel (s : State) (i : Nat) : State :=
  let (lvl, own, _) := s.levelOf i
  let spared := match (s.sector i).wakes with | w :: _ => w.own | [] => []
  (sectorTiles i).foldl (fun s k => s.tileLevel k (min (if spared.contains k then own else lvl) (s.odGet (oPowerSiteCeiling (k / 64))))) s

/-- PACE_LEVEL_CHANGE (R347): the steward's level reaches its tiles. Without a steward they keep their level (R390). -/
def execPaceLevelChange (dt : Nat) (sec : Fin 16) (s : State) : Host.Outcome State Fault Refusal :=
  let s := s.tick dt
  .next (if s.stewardGood sec.val then (s.setLevel sec.val).applyLevel sec.val else s)

/-- PACE_SHORTFALL (R348): at most one event per sector and second. -/
def execPaceShortfall (dt : Nat) (sec : Fin 16) (s : State) : Host.Outcome State Fault Refusal :=
  let s := s.tick dt
  let i := sec.val
  let x := s.sector i
  let spaced : Bool := match x.shortfallAt with | some u => decide (u + 10 ^ 9 ≤ s.clk) | none => true
  .next (match s.fixedLevel, x.belowFrom with
    | some f, some t =>
      if t + 10 ^ 6 < s.clk ∧ spaced then
        (s.setSector i { x with shortfallAt := some s.clk }).publish24 oPowerPanelPaceShortfall
          [i, s.sectorPace i (s.odGet (oPowerSectorLevel i)), f, s.odGet (oPowerSectorLimiter i)]
      else s
    | _, _ => s)

/-- SECTOR_CURRENT_SAMPLE (R350): the sector's summed phase current and its stage-2 input power, and the current that the
steward projects. -/
def execSectorCurrentSample (dt : Nat) (sec : Fin 16) (amps watts projected : Nat) (s : State) : Host.Outcome State Fault Refusal :=
  let s := s.tick dt
  let i := sec.val
  let x := s.sector i
  let l := lastN 10 (x.amps ++ [amps])
  let cap := s.odGet (oPowerSectorCapA i)
  let ok := amps * 100 < cap * 95
  let since := if ok then (match x.capOkFrom with | some t => some t | none => some s.clk) else none
  let due : Bool := match since with | some t => decide (t + 10 ^ 5 ≤ s.clk) | none => false
  let x1 := { x with amps := l, inrush := x.inrush.filter (fun p => decide (s.clk < p.1)), woken := 0, capOkFrom := since }
  let x2 := if projected > cap then { x1 with capLevel := (s.limiters i).foldl min 63 - 1, capOkFrom := none }
    else if due ∧ x1.capLevel < 63 then { x1 with capLevel := x1.capLevel + 1, capOkFrom := some s.clk } else x1
  let s1 := ((s.setSector i x2).odSet (oPowerSectorCurrentA i) (meanN l)).odSet (oPowerSectorPowerW i) watts
  let was := x.amps.getLast?.getD 0
  let s2 := if amps * 10 > cap * 9 ∧ was * 10 ≤ cap * 9 then s1.ring (stewardNode i) 2 else s1
  .next (if s.stewardGood i then s2.setLevel i else s)

-- ------------------------------------------------------------------ droop (R351)

/-- DROOP_EVENT (R351): droop trim for 20 µs from the last event. -/
def execDroopEvent (dt : Nat) (sec : Fin 16) (s : State) : Host.Outcome State Fault Refusal :=
  let s := s.tick dt
  let i := sec.val
  .next (if !s.stewardGood i then s
    else ((((s.setSector i { s.sector i with droopUntil := some (s.clk + 20000) }).bump (oPowerSectorDroops i)).ring (stewardNode i) 3).setLevel i))

/-- DROOP_TRIM_EXPIRE (R351). -/
def execDroopTrimExpire (dt : Nat) (sec : Fin 16) (s : State) : Host.Outcome State Fault Refusal :=
  let s := s.tick dt
  let i := sec.val
  .next (match (s.sector i).droopUntil with
    | some t => if t ≤ s.clk then (s.setSector i { s.sector i with droopUntil := none }).setLevel i else s
    | none => s)

-- ------------------------------------------------------------------ deep idle and waking (R352 to R354)

/-- A tile holds no token in a queue, the matching store or an emit buffer, and nothing is under way (R352). -/
def Tile.quiet (t : Tile) : Bool :=
  t.store == [] && t.queues.all (fun p => p.2.toks == []) && t.run == .run &&
  t.slots.all (fun p => p.2.emit0 == [] && p.2.emit1 == [] && p.2.busy.isNone && p.2.held.isNone && p.2.reading.isNone &&
    p.2.mat.isNone)

/-- The state with a tile in deep idle; what it holds stays (R352). -/
def State.idleTile (s : State) (k : Nat) : State := s.setTile k { s.tile k with idle := true }

/-- IDLE_ENTRY (R352): a tile that has been quiet for idle_entry_us. -/
def execIdleEntry (dt tile : Nat) (s : State) : Host.Outcome State Fault Refusal :=
  let s := s.tick dt
  let t := s.tile tile
  onTile tile s (if t.quiet ∧ !t.idle ∧ t.idleSince + 1000 * s.odGet oPowerPanelIdleEntryUs ≤ s.clk then s.idleTile tile else s)

/-- A tile that the hub puts into deep idle (R352, R390): of a spare die, FREE, of a parked slot, or of a sector whose
steward is lost. -/
def State.mayIdle (s : State) (k : Nat) : Bool :=
  s.dieSpare (k / 64) || s.odGet (oFloorTileState k) == 1 || !s.stewardGood (sectorOf (k / 64)) ||
  s.slotState (s.odGet (oFloorTileFurnish k)) == 5

/-- IDLE_COMMAND (R352): the hub's IDLE command reaches a tile. -/
def execIdleCommand (dt tile : Nat) (s : State) : Host.Outcome State Fault Refusal :=
  let s := s.tick dt
  let i := sectorOf (tile / 64)
  onTile tile s (if !s.mayIdle tile then s else if s.stewardGood i then (s.mail i 1 tile 7).idleTile tile else s.idleTile tile)

/-- A tile awake again (R353). -/
def State.wakeTile (s : State) (k : Nat) : State :=
  ({ s with wakeWaiting := s.wakeWaiting.filter (· != k) } : State).setTile k { s.tile k with idle := false, idleSince := s.clk }

/-- The tiles of a tile's region on the dies of its sector; of its die, where it carries none (R353). -/
def State.wakeScope (s : State) (k : Nat) : List Nat :=
  let f := s.odGet (oFloorTileFurnish k)
  if f = 0xFFFF then (List.range 64).map (fun t => k / 64 * 64 + t)
  else (sectorTiles (sectorOf (k / 64))).filter (fun j => s.odGet (oFloorTileFurnish j) == f && s.odGet (oFloorTileRegion j) == s.odGet (oFloorTileRegion k))

/-- A steward's headroom in tenths of an ampere (R354): the cap less the latest sample and what it has admitted since. -/
def State.headroom (s : State) (i : Nat) : Nat :=
  let x := s.sector i
  10 * s.odGet (oPowerSectorCapA i) - 10 * (x.amps.getLast?.getD 0) -
    10 * sumN ((x.inrush.filter (fun p => decide (s.clk < p.1))).map (·.2)) - 2 * x.woken

/-- Tiles wake at once: their inrush of 5 A each for 3 µs, then 0.2 A (R353). -/
def State.wakeNow (s : State) (i : Nat) (ks : List Nat) : State :=
  let s1 := ks.foldl State.wakeTile s
  let x := s1.sector i
  if ks = [] then s1 else s1.setSector i { x with inrush := x.inrush ++ [(s1.clk + 3000, 5 * ks.length)], woken := x.woken + ks.length }

/-- The wake at the head of a steward's queue is admitted, whole or staged; whole wakes let the next one follow. -/
def State.serveWakes (s : State) (i : Nat) : Nat → State
  | 0 => s
  | n + 1 =>
    let x := s.sector i
    match x.wakes with
    | [] => s
    | w :: t =>
      if w.column.isSome then s
      else
        let s1 := s.bump (oPowerSectorWakes i)
        if 50 * w.tiles.length ≤ s.headroom i then
          ((s1.wakeNow i w.tiles).setSector i { (s1.wakeNow i w.tiles).sector i with wakes := t }).serveWakes i n
        else
          ((((s1.setSector i { x with wakes := { w with column := some 0, lastAt := s.clk - 2000 } :: t, trimFrom := some s.clk }).bump
            (oPowerSectorStagedWakes i)).bump (oPowerSectorTrims i)).setLevel i)

/-- WAKE_REQUEST (R353, R354): a deep-idle tile's request reaches its steward, from the hardware or, flagged as recovery,
from the hub. Without a steward nothing wakes (R390). -/
def execWakeRequest (dt tile : Nat) (recovery : Bool) (s : State) : Host.Outcome State Fault Refusal :=
  let s := s.tick dt
  let i := sectorOf (tile / 64)
  let x := s.sector i
  let scope := s.wakeScope tile
  let w : WakeReq := { tiles := scope.filter (fun k => (s.tile k).idle), own := scope, recovery := recovery }
  let (now, later) := x.wakes.partition (fun v => v.column.isSome)
  let ws := if recovery then now ++ later.filter (·.recovery) ++ [w] ++ later.filter (fun v => !v.recovery) else x.wakes ++ [w]
  onTile tile s (if !(s.tile tile).idle ∨ s.boot.fused.contains (tile / 64) ∨ !s.stewardGood i ∨ x.wakes.any (fun v => v.tiles.contains tile) then s
    else
      let s1 := s.setSector i { x with wakes := ws }
      (if recovery then s1.mail i 1 tile 7 else s1.ring (stewardNode i) 0).serveWakes i (ws.length))

/-- WAKE_STEP (R354): the next column of the staged wake, at least 2 µs after the last and only with the headroom. -/
def execWakeStep (dt : Nat) (sec : Fin 16) (s : State) : Host.Outcome State Fault Refusal :=
  let s := s.tick dt
  let i := sec.val
  let x := s.sector i
  .next (match x.wakes with
    | [] => s
    | w :: t => match w.column with
      | none => s
      | some c =>
        let ks := w.tiles.filter (fun k => k % 8 == c)
        if s.clk < w.lastAt + 2000 ∨ s.headroom i < 50 * ks.length then s
        else
          let s1 := s.wakeNow i ks
          if c < 7 then s1.setSector i { s1.sector i with wakes := { w with column := some (c + 1), lastAt := s.clk } :: t }
          else ((s1.setSector i { s1.sector i with wakes := t, trimFrom := none }).setLevel i).serveWakes i (t.length))

/-- WAKE_TRIM_EXPIRE (R354): the trim ends 100 µs after staging began; steps that remain make it a slow wake. -/
def execWakeTrimExpire (dt : Nat) (sec : Fin 16) (s : State) : Host.Outcome State Fault Refusal :=
  let s := s.tick dt
  let i := sec.val
  let x := s.sector i
  .next (match x.trimFrom with
    | some t =>
      if t + 10 ^ 5 ≤ s.clk then
        let s1 := s.setSector i { x with trimFrom := none }
        (if x.wakes.any (fun w => w.column.isSome) then s1.bump (oPowerSectorSlowWakes i) else s1).setLevel i
      else s
    | none => s)

-- ------------------------------------------------------------------ loss of a sector's supply (R355)

/-- SECTOR_LATCH (R355): overcurrent or a collapsed rail. -/
def execSectorLatch (dt : Nat) (sec : Fin 16) (s : State) : Host.Outcome State Fault Refusal :=
  let s := s.tick dt
  .next (if (s.sector sec.val).upStep = 0 then s else (s.latchSector sec.val).ring (stewardNode sec.val) 1)

/-- Nothing of a sector is left to lose with its supply: its steward reads FAILED, its dies and stacks FAILED or FUSED (R22). -/
def State.sectorOut (s : State) (i : Nat) : Bool :=
  s.floorNow (oFloorOffgridState i) == 4 &&
  ((List.range 16).map (fun k => i * 16 + k)).all (fun g => decide (2 ≤ siteKind g) || s.boot.fused.contains g ||
    s.floorNow (oFloorSiteState g) == 4 || s.floorNow (oFloorSiteState g) == 3)

/-- SECTOR_SUPPLY_LOSS (R355): the hub's poll finds the input switch open. -/
def execSectorSupplyLoss (dt : Nat) (sec : Fin 16) (s : State) : Host.Outcome State Fault Refusal :=
  let s := s.tick dt
  let i := sec.val
  .next (if s.odGet (oPowerSectorLatched i) ≠ 1 ∨ s.sectorOut i ∨ s.faults.any (fun f => f.kind == 3 && f.ident == i) then s
    else (s.powerEvent 4 i).reportFault 3 i 0x19)

-- ------------------------------------------------------------------ temperatures (R356, R357)

/-- A hotspot's state: site × 4 + hotspot. -/
def State.spot (s : State) (k : Nat) : HotSpot := mget {} s.spots k

/-- A hotspot's dispute event (R356). -/
def State.spotEvent (s : State) (site spot kind sensor : Nat) (h : HotSpot) : State :=
  s.publish24 oThermalPanelDispute ([site, spot, kind, sensor] ++ toLE 4 (s32 h.a) ++ toLE 4 (s32 h.b) ++ toLE 4 (s32 h.est))

/-- A suspect mark and its timer after a sample that is d off the estimate: 4 °C for 1 s marks, 2 °C for 60 s clears. -/
def judgeSensor (susp : Bool) (timer : Option Nat) (d clk : Nat) : Bool × Option Nat :=
  if (if susp then decide (d ≤ 2000) else decide (d > 4000)) then
    match timer with
    | none => (susp, some clk)
    | some t => if t + (if susp then 60 * 10 ^ 9 else 10 ^ 9) ≤ clk then (!susp, none) else (susp, some t)
  else (susp, none)

/-- A changed mark is counted and published (R356). -/
def State.markEvent (s : State) (site spot sensor : Nat) (was is' both : Bool) (h : HotSpot) : State :=
  if was = is' then s
  else (s.bump (oThermalSiteSuspects site)).spotEvent site spot (if !is' then 3 else if both then 4 else 2) sensor h

/-- HOTSPOT_SAMPLE (R356): both sensors and the estimate of a hotspot, in m°C. -/
def execHotspotSample (dt : Nat) (site : Fin 256) (spot : Fin 4) (a b est : Int) (s : State) : Host.Outcome State Fault Refusal :=
  let s := s.tick dt
  let g := site.val
  let k := g * 4 + spot.val
  let h := s.spot k
  let (sa, ta) := judgeSensor h.suspA h.timerA (a - est).natAbs s.clk
  let (sb, tb) := judgeSensor h.suspB h.timerB (b - est).natAbs s.clk
  let apart : Bool := !sa && !sb && decide ((a - b).natAbs > 4000)
  let since := if apart then (match h.dispFrom with | some t => some t | none => some s.clk) else none
  let raise : Bool := match since with | some t => decide (t + 10 ^ 8 ≤ s.clk) && !h.disp | none => false
  let h1 : HotSpot := { a := a, b := b, est := est, suspA := sa, suspB := sb, disp := apart && (h.disp || raise), dispFrom := since, timerA := ta, timerB := tb }
  let s1 : State := { s with spots := mset {} s.spots k h1 }
  let s2 := (s1.markEvent g spot.val 0 h.suspA sa (sa && sb) h1).markEvent g spot.val 1 h.suspB sb (sa && sb) h1
  onDie g s (if raise then (s2.bump oThermalPanelDisputes).spotEvent g spot.val 1 0 h1 else s2)

/-- A hotspot's control temperature (R356). -/
def HotSpot.control (h : HotSpot) : Int :=
  if h.suspA ∧ h.suspB then h.est + 5000 else if h.suspA then h.b else if h.suspB then h.a else max h.a h.b

/-- A die's temperature: the highest of its hotspots (R356). -/
def State.dieTemp (s : State) (g : Nat) : Int :=
  max (max (s.spot (g * 4)).control (s.spot (g * 4 + 1)).control) (max (s.spot (g * 4 + 2)).control (s.spot (g * 4 + 3)).control)

/-- The throttling law for a temperature in m°C (R357). -/
def throttleLaw (mc : Int) : Nat := if mc < 90000 then 63 else (62 - 4 * (mc / 1000 - 90)).toNat

/-- A die's ceiling after an evaluation (R357): from the law, 2 °C on while it falls; a die that rises below 90 °C and is
not yet below 88 °C keeps the ceiling it has (log entry 47). -/
def nextCeiling (cur : Nat) (last t : Int) : Nat :=
  if t < 88000 then 63 else if t < last then throttleLaw (t + 2000)
  else if t ≥ 90000 then (if t = last then min cur (throttleLaw t) else throttleLaw t) else cur

/-- A die's ceiling has changed: the sector's level is set again, and the die's tiles take it or the ceiling, whichever is lower (R357). -/
def State.paceDie (s : State) (g ceil : Nat) : State :=
  ((List.range 64).map (fun j => g * 64 + j)).foldl (fun s k =>
    s.tileLevel k (min (s.odGet (oPowerSectorLevel (sectorOf g))) ceil)) (s.setLevel (sectorOf g))

/-- A die becomes CRITICAL (R357): its tiles go into deep idle and leave the wakes that wait; a die in use is lost. -/
def State.critDie (s : State) (g : Nat) : State :=
  let x := s.sector (sectorOf g)
  let s1 := ((List.range 64).map (fun j => g * 64 + j)).foldl State.idleTile (s.setSector (sectorOf g)
    { x with wakes := x.wakes.map (fun (w : WakeReq) => { w with tiles := w.tiles.filter (fun k => k / 64 != g) }) })
  let s2 := s1.bump oThermalPanelCritical
  if s2.dieUsable g then s2.reportFault 2 g 0x1A else s2

/-- DIE_TEMP_EVAL (R357). -/
def execDieTempEval (dt : Nat) (site : Fin 256) (s : State) : Host.Outcome State Fault Refusal :=
  let s := s.tick dt
  let g := site.val
  let t := s.dieTemp g
  let d : DieTherm := mget {} s.dieTherm g
  let old := s.odGet (oThermalSiteLevel g)
  let cur := s.odGet (oPowerSiteCeiling g)
  let ceil := nextCeiling cur d.last t
  let lvl := if t ≥ 105000 then 2 else if ceil < 63 then 1 else 0
  let cool := if t < 80000 then (match d.coolFrom with | some c => some c | none => some s.clk) else none
  let s1 := ({ s with dieTherm := mset {} s.dieTherm g { last := t, coolFrom := cool } }.odSet (oThermalSiteTempMc g) (s32 t))
  let s2 := (s1.odSet (oPowerSiteCeiling g) ceil).odSet (oThermalSiteLevel g) lvl
  let s3 := if old = 0 ∧ lvl = 1 then s2.bump (oPowerSiteThrottles g) else s2
  let s4 := if (decide (d.last < 90000) != decide (t < 90000)) || (decide (d.last < 105000) != decide (t < 105000))
    then s3.ring (stewardNode (sectorOf g)) 4 else s3
  let s5 := if ceil ≠ cur then s4.paceDie g ceil else s4
  onDie g s (if lvl = 2 ∧ old ≠ 2 then s5.critDie g else s5)

/-- CRITICAL_DIE_RETEST (R357): the known-answer run of a die lost as critical, once it has been below 80 °C for 60 s: the
tiles it finds bad, or a die that fails whole. -/
def execCriticalDieRetest (dt : Nat) (site : Fin 256) (bad : Nat) (passed : Bool) (s : State) : Host.Outcome State Fault Refusal :=
  let s := s.tick dt
  let g := site.val
  let d : DieTherm := mget {} s.dieTherm g
  let due : Bool := match d.coolFrom with | some t => decide (t + 60 * 10 ^ 9 ≤ s.clk) | none => false
  let defects := (List.range 64).foldl (fun m t => if s.floorNow (oFloorTileState (g * 64 + t)) = 4 then setBit m t else m) 0
  onDie g s (if s.floorNow (oFloorSiteState g) = 4 ∧ s.floorNow (oFloorSiteCause g) = 7 ∧ due ∧ passed ∧
      !(s.faults.any (fun f => f.kind == 2 && f.ident == g)) then
      { s with rejoin := mins s.rejoin g ((bad ||| defects) % 2 ^ 64) } else s)

-- ------------------------------------------------------------------ coolant and thermal resistance (R358 to R361)

/-- A cooling event (R358, R361). -/
def State.coolingEvent (s : State) (kind cause sec ratio : Nat) : State :=
  s.publish24 oThermalPanelCooling ([kind, cause, sec, 0] ++ toLE 4 ratio)

/-- The state of a sector for a ratio in thousandths (R360). -/
def ratioState (old ratio : Nat) : Nat :=
  if ratio ≥ 1300 ∨ (old = 3 ∧ ratio ≥ 1250) then 3 else if ratio ≥ 1150 ∨ (old ≥ 2 ∧ ratio ≥ 1100) then 2 else 1

/-- The derate limiter of a ratio (R361). -/
def derateOf (ratio : Nat) : Nat := 63 - 8 - 8 * ((ratio - 1300) / 100)

/-- One second's sample of a sector's resistance in mK/W, and the baseline that it adds to (R359). -/
def State.resistance (s : State) (i sample : Nat) : State :=
  let x := s.sector i
  let l := lastN 60 (x.rSamples ++ [sample])
  let r := meanN l
  let base := s.odGet (oThermalSectorBaselineMkw i)
  let s1 := s.odSet (oThermalSectorRMkw i) r
  if base = 0 then
    let sum := x.baseSum + r
    let n := x.baseCount + 1
    if n ≥ 86400 then
      ({ (s1.setSector i { x with rSamples := l, baseSum := 0, baseCount := 0 }).odSet (oThermalSectorBaselineMkw i) (sum / n) with storeDirty := true }.odSet
        (oThermalSectorState i) 1)
    else (s1.setSector i { x with rSamples := l, baseSum := sum, baseCount := n }).odSet (oThermalSectorState i) 0
  else
    let ratio := r * 1000 / base
    let old := s.odGet (oThermalSectorState i)
    let st := ratioState old ratio
    let s2 := (((s1.setSector i { x with rSamples := l }).odSet (oThermalSectorRatioMilli i) (min ratio 65535)).odSet (oThermalSectorState i) st).odSet
      (oThermalSectorDerateLevel i) (if st = 3 then derateOf ratio else 63)
    let s3 := if st = 3 ∧ old ≠ 3 then s2.coolingEvent 3 3 i ratio else if st ≠ 3 ∧ old = 3 then s2.coolingEvent 4 3 i ratio else s2
    s3.setLevel i

/-- THERMAL_RESISTANCE_SAMPLE (R359): each second; a sector that draws less than 40 % of its cap skips it. -/
def execThermalResistanceSample (dt : Nat) (sec : Fin 16) (s : State) : Host.Outcome State Fault Refusal :=
  let s := s.tick dt
  let i := sec.val
  let dies := (sectorDies i).filter s.dieActive
  let sum : Int := (dies.map (fun g => toSigned 32 (s.odGet (oThermalSiteTempMc g)))).foldl (· + ·) 0
  let mean := sum / (max dies.length 1 : Nat)
  let w := s.odGet (oPowerSectorPowerW i)
  .next (if !s.stewardGood i ∨ dies = [] ∨ w = 0 ∨ s.odGet (oPowerSectorCurrentA i) * 100 < s.odGet (oPowerSectorCapA i) * 40 then s
    else s.resistance i ((mean - toSigned 32 (s.odGet oThermalPlateInletMc)) / (w : Int)).toNat)

/-- The first cooling condition that holds (R358): its cause code, sector and ratio. -/
def State.coolCondition (s : State) : Option (Nat × Nat × Nat) :=
  let inlet := toSigned 32 (s.odGet oThermalPlateInletMc)
  if inlet < 20000 ∨ inlet > 40000 then some (1, 0xFF, 0)
  else if s.odGet oThermalPlateFlowMlMin < 40000 then some (2, 0xFF, 0)
  else ((List.range 16).find? (fun i => s.odGet (oThermalSectorState i) != 0 && decide (s.odGet (oThermalSectorRatioMilli i) ≥ 1150))).map
    (fun i => (3, i, s.odGet (oThermalSectorRatioMilli i)))

/-- COOLING_WARNING (R358): the plate's readings; a condition that has held for 10 s raises the warning, and its absence
for as long clears it. -/
def execCoolingWarning (dt : Nat) (inletMc outletMc : Int) (flow : Nat) (s : State) : Host.Outcome State Fault Refusal :=
  let s := s.tick dt
  let s1 := ((s.odSet oThermalPlateInletMc (s32 inletMc)).odSet oThermalPlateOutletMc (s32 outletMc)).odSet oThermalPlateFlowMlMin flow
  let c := s1.coolCondition
  .next (if c.isSome = s1.coolWarn then { s1 with coolFrom := none }
    else match s1.coolFrom with
      | none => { s1 with coolFrom := some s1.clk }
      | some t =>
        if s1.clk < t + 10 ^ 10 then s1
        else
          let s2 := { s1 with coolWarn := c.isSome, coolFrom := none }
          match c with
          | some (cause, sec, ratio) => s2.coolingEvent 1 cause sec ratio
          | none => s2.coolingEvent 2 0 0xFF 0)

end Sys2Proof.Machine
end

