-- ==== Sys2Proof/Machine/Streams.lean ====
section
/-!
DEFINITION. Streams (chapter 09): lanes, passes and their start tokens, epoch ends and aborts, the reel and its paced
release, admission and ending; with them the RT datagrams that the panel sends (R274 to R279). What the spec leaves to
the hub is in log entries 34 to 37.
-/
namespace Sys2Proof.Machine

-- ------------------------------------------------------------------ lanes

/-- A lane's stream, if the lane is not FREE. -/
def State.lane (s : State) (l : Nat) : Option LaneRec := mlook s.lanes l
/-- The state with a lane's stream replaced. -/
def State.setLane (s : State) (l : Nat) (x : LaneRec) : State := { s with lanes := mins s.lanes l x }
/-- The port number of a stream that the cascade's master carries to its host (R411). -/
def seamPort : Nat := 0xFE
/-- The lane of an active stream whose host this panel faces. -/
def State.laneOf (s : State) (stream : Nat) : Option (Nat × LaneRec) :=
  s.lanes.find? (fun p => p.2.sub.stream == stream && !p.2.ended && p.2.port != seamPort)
/-- The lane on which this panel runs a stream. -/
def State.runLane (s : State) (stream : Nat) : Option (Nat × LaneRec) :=
  s.lanes.find? (fun p => p.2.sub.stream == stream && !p.2.ended && decide (p.1 < 256))
/-- The panel is in a cascade that has formed (R408): FORMED or PARTIAL. -/
def State.inCascade (s : State) : Bool := s.odGet oCascadePanelState == 2 || s.odGet oCascadePanelState == 3
/-- The panel is the master in force of such a cascade (R409). -/
def State.cascadeMaster (s : State) : Bool := s.inCascade && s.odGet oCascadePanelRole == 1
/-- A kept terminal record. -/
def State.term (s : State) (stream : Nat) : Option TermRec := s.terms.find? (fun t => t.stream == stream)
/-- The state with a stream's terminal record replaced. -/
def State.setTerm (s : State) (t : TermRec) : State :=
  { s with terms := s.terms.map (fun u => if u.stream = t.stream then t else u) }
/-- The fill F: committed tokens not yet released (R252). -/
def LaneRec.fill (x : LaneRec) : Nat := x.reel.length
/-- Generated tokens committed. -/
def LaneRec.generated (x : LaneRec) : Nat := x.toks.length - x.sub.prompt
/-- Tokens released. -/
def LaneRec.count (x : LaneRec) : Nat := x.released - x.sub.prompt
/-- An express stream. -/
def LaneRec.express (x : LaneRec) : Bool := x.sub.cls == 0

-- ------------------------------------------------------------------ datagrams out (R271, R274, R283)

/-- A host port's own state. -/
def State.hostPort (s : State) (p : Nat) : HostPort := mget {} s.hostPorts p
/-- The state with a host port's own state replaced. -/
def State.setHostPort (s : State) (p : Nat) (x : HostPort) : State := { s with hostPorts := mset {} s.hostPorts p x }

/-- A port that carries RT: HOST and UP (R267). -/
def State.hostUp (s : State) (p : Nat) : Bool := decide (p < 16) && s.odGet (oRtPortRole p) == 1 && s.odGet (oRtPortState p) == 2

/-- A transmission out of a host port: held while the port is paused, lost where it is not UP (R283). -/
def State.txEmit (s : State) (p : Nat) (e : Emit) : State :=
  if !s.hostUp p then s
  else
    let h := s.hostPort p
    if h.pausedAt.isSome then s.setHostPort p { h with heldTx := h.heldTx ++ [e] }
    else match e with
      | .udp _ _ _ _ => (s.send e).bump (oRtPortTxDatagrams p)
      | _ => s.send e

/-- The link-local address of a MAC (RFC 4291): fe80::/64 and the interface identifier. -/
def linkLocal (mac : Nat) : Nat :=
  let m := toLE 6 mac
  ofLE ([0xFE, 0x80, 0, 0, 0, 0, 0, 0, m.headD 0 ^^^ 2] ++ sliceAt m 1 2 ++ [0xFF, 0xFE] ++ sliceAt m 3 3)

/-- The first bits of an address of n bytes, the first byte first. -/
def netPrefix (n len a : Nat) : Nat := ofLE (toLE n a).reverse / 2 ^ (8 * n - len)

/-- How a datagram goes out from an address with a prefix (R271): straight to an endpoint in that prefix, else to the gateway; one
to a link-local address comes from the link-local one. -/
def wireFor (sport mac own len gateway vlan pcp : Nat) (dst : Endpoint) : Wire :=
  let n := if dst.family = 6 then 16 else 4
  if dst.family = 6 ∧ netPrefix 16 10 dst.addr = 0x3FA then ⟨⟨6, sport, linkLocal mac⟩, dst.addr, vlan, pcp⟩
  else ⟨⟨dst.family, sport, own⟩, if netPrefix n len dst.addr = netPrefix n len own then dst.addr else gateway, vlan, pcp⟩

/-- How a datagram leaves a host port (R270, R271). -/
def State.portWire (s : State) (p sport : Nat) (dst : Endpoint) : Wire :=
  let v6 : Bool := dst.family == 6
  wireFor sport (s.odGet (oRtPortMac p)) (s.odGet (if v6 then oRtPortIpv6 p else oRtPortIpv4 p))
    (s.odGet (if v6 then oRtPortIpv6Prefix p else oRtPortIpv4Prefix p)) (s.odGet (if v6 then oRtPortGateway6 p else oRtPortGateway4 p))
    (s.odGet (oRtPortVlan p)) (s.odGet (oRtPortPcp p)) dst

/-- How a datagram leaves the management port: its priority is 0. -/
def State.mgmtWire (s : State) (dst : Endpoint) : Wire :=
  let v6 : Bool := dst.family == 6
  wireFor 49301 (s.odGet oDeviceMgmtMac) (s.odGet (if v6 then oDeviceMgmtIpv6 else oDeviceMgmtIpv4))
    (s.odGet (if v6 then oDeviceMgmtIpv6Prefix else oDeviceMgmtIpv4Prefix))
    (s.odGet (if v6 then oDeviceMgmtGateway6 else oDeviceMgmtGateway4)) (s.odGet oDeviceMgmtVlan) 0 dst

/-- An RT datagram out of a host port (R272). -/
def State.tx (s : State) (p : Nat) (dst : Endpoint) (body : List Nat) : State :=
  s.txEmit p (.udp p dst body (s.portWire p (s.odGet (oRtPortRtUdp p)) dst))

/-- What an endpoint has seen of congestion (R282). -/
def State.ceRec (s : State) (e : Endpoint) : CeRec := (s.ceRecs.find? (fun c => c.dst == e)).getD { dst := e }

/-- The state with an endpoint's congestion record replaced. -/
def State.setCe (s : State) (c : CeRec) : State := { s with ceRecs := s.ceRecs.filter (fun d => d.dst != c.dst) ++ [c] }

/-- Bulk TOKENS and retransmissions may go to an endpoint now (R282). -/
def State.ceClear (s : State) (e : Endpoint) : Bool :=
  let c := s.ceRec e
  decide (c.till ≤ s.clk) || (match c.last with
    | some t => decide (t + 1000 * s.odGet oRtPanelCeGapUs ≤ s.clk)
    | none => true)

/-- A spaced send to an endpoint has gone out. -/
def State.ceSent (s : State) (e : Endpoint) : State :=
  let c := s.ceRec e
  if c.till ≤ s.clk then s else s.setCe { c with last := some s.clk }

/-- Where a stream's messages go: the SUBMIT's source, after a failover the alternate endpoint if one was named (R269,
R285). -/
def LaneRec.dst (x : LaneRec) : Endpoint := if x.useAlt ∧ x.sub.alt.family ≠ 0 then x.sub.alt else x.reply

/-- An RT datagram (R274). -/
def rtBytes (mtype stream seq flags now : Nat) (body : List Nat) : List Nat :=
  toLE 2 0x5254 ++ [1, mtype] ++ toLE 4 stream ++ toLE 4 seq ++ toLE 2 body.length ++ [flags, 0] ++ toLE 8 now ++ toLE 8 0 ++ body

/-- The TOKENS body (R277). -/
def tokensBody (l : List TokSent) : List Nat :=
  toLE 4 ((l.map (·.index)).headD 0) ++ [l.length, 0, 0, 0] ++ (l.map (fun t => toLE 4 t.token ++ toLE 8 t.sched)).flatten

/-- The master mirrors a control message to the deputy before sending it (R411). -/
def State.mirror (s : State) (stream seq mtype : Nat) (body : List Nat) : State :=
  if s.cascadeMaster ∧ s.cas.actDeputy < 8 then s.send (.seam s.cas.actDeputy 9 ([stream, seq, mtype] ++ body)) else s

/-- A control message of a lane's stream, numbered and kept until it is acknowledged (R275, R279). -/
def State.sendCtl (s : State) (l mtype : Nat) (body : List Nat) : State :=
  match s.lane l with
  | none => s
  | some x =>
    let n := x.ctlOut + 1
    let x1 := { x with ctlOut := n, ctlSent := x.ctlSent ++ [⟨n, mtype, body, s.clk, 0⟩] }
    ((s.setLane l x1).mirror x.sub.stream n mtype body).tx x.port x.dst (rtBytes mtype x.sub.stream n 0 s.now body)

/-- A control message of a stream whose terminal record is kept. -/
def State.sendTermCtl (s : State) (stream mtype : Nat) (body : List Nat) : State :=
  match s.term stream with
  | none => s
  | some t =>
    let n := t.ctlOut + 1
    ((s.setTerm { t with ctlOut := n, ctlSent := t.ctlSent ++ [⟨n, mtype, body, s.clk, 0⟩] }).mirror stream n mtype body).tx t.port t.reply
      (rtBytes mtype stream n 0 s.now body)

/-- The panel's SACK: the host's control messages taken (R278), with the CE echo (R282). -/
def State.sendSack (s : State) (port : Nat) (dst : Endpoint) (stream cum : Nat) : State :=
  let c := s.ceRec dst
  let s1 := if c.echo then s.setCe { c with echo := false } else s
  s1.tx port dst (rtBytes 7 stream 0 (if c.echo then 2 else 0) s.now (toLE 4 0 ++ toLE 4 cum ++ toLE 8 0))

/-- The SACK of a stream on a lane. -/
def State.sackLane (s : State) (l : Nat) : State :=
  match s.lane l with
  | none => s
  | some x => s.sendSack x.port x.dst x.sub.stream x.ctlIn

-- ------------------------------------------------------------------ regions of a lane (R244, R251)

/-- The POSITION regions of a lane on a slot's tiles: tile, entry, region. -/
def State.laneRegions (s : State) (slot l : Nat) : List (Nat × Nat × Region) :=
  (((s.slotTiles slot).eraseDups).map (fun k =>
    ((s.tile k).regions.filter (fun p => rKind p.2 == 4 && rLane p.2 == l)).map (fun p => (k, p.1, p.2)))).flatten

/-- The KV and draft windows of a lane. -/
def State.windows (s : State) (slot l : Nat) : List (Nat × Nat × Region) := (s.laneRegions slot l).filter (fun p => !rConsume p.2.2)

/-- The reel of a lane. -/
def State.reelOf (s : State) (slot l : Nat) : Option (Nat × Nat × Region) := (s.laneRegions slot l).find? (fun p => rConsume p.2.2)

/-- The smallest capacity among a lane's windows (R246). -/
def State.capMin (s : State) (slot l : Nat) : Nat :=
  match (s.windows slot l).map (fun p => rCap p.2.2) with
  | [] => 264
  | c :: t => t.foldl min c

/-- What a fence carries for a lane's tiles: COMMITs at a window and a reel position, if given, and ROLLBACKs (R146). -/
def State.laneCmds (s : State) (slot l : Nat) (at' : Option (Nat × Nat)) : List TileFence :=
  let rs := s.laneRegions slot l
  ((rs.map (·.1)).eraseDups).map (fun k =>
    let mine := rs.filter (fun p => p.1 == k)
    { tile := k
      commits := match at' with
        | some (w, r) => mine.map (fun p => (p.2.1, if rConsume p.2.2 then r else w))
        | none => []
      rollbacks := mine.map (·.2.1) })

/-- The reel's drain lets go of what will not be released: the tail moves up to the commit pointer (R145). -/
def State.discardReel (s : State) (slot l : Nat) : State :=
  match s.reelOf slot l with
  | some (k, e, r) => s.setTile k ((s.tile k).setRegion e { r with tail := r.commit })
  | none => s

-- ------------------------------------------------------------------ coverage (R257)

/-- The lead and rate conditions of coverage for an express contract on a slot (R257). -/
def State.contractHolds (s : State) (slot lead rate : Nat) : Bool :=
  let est := s.odGet (oPlacementSlotEstPassUs slot)
  decide (0 < lead) && decide (s.odGet oStreamPanelCoverBaseUs + 2 * est ≤ lead) &&
  decide (rate * est * 100 ≤ s.odGet oStreamPanelContractCeilingPct * s.odGet oStreamPanelAcceptRefMilli * 1000)

/-- A stream is covered (R257). -/
def State.isCovered (s : State) (x : LaneRec) : Bool :=
  x.express && s.contractHolds x.slot x.sub.lead x.sub.rate && x.primed && !x.refilling

/-- contract_risk published for a lane. -/
def State.contractRisk (s : State) (l cause measured : Nat) (x : LaneRec) : State :=
  s.publish24 oStreamPanelContractRisk (toLE 4 x.sub.stream ++ [l, cause, 0, 0] ++ toLE 4 measured ++ toLE 4 x.sub.rate)

/-- The coverage of a lane's stream looked at again (R257): one that stops being covered because its lead or its rate no
longer suffices is published with cause 1 (log entry 37). -/
def State.coverLane (s : State) (l : Nat) : State :=
  match s.lane l with
  | none => s
  | some x =>
    let s1 := s.setLane l { x with covered := s.isCovered x }
    if x.covered && !s.contractHolds x.slot x.sub.lead x.sub.rate then s1.contractRisk l 1 x.prodCount x else s1

/-- The coverage of every stream on this panel's lanes looked at again (R257). -/
def State.coverAll (s : State) : State := ((s.lanes.map (·.1)).filter (· < 256)).foldl State.coverLane s

-- ------------------------------------------------------------------ start tokens (R94, R245)

/-- A start token's payload (R245). -/
def startPayload (x : LaneRec) (kind base drafts count origin ntok i : Nat) : Row :=
  let reel := if kind = 0 ∨ kind = 4 then 0 else x.R + base + 1 - x.sub.prompt
  rowOf (toLE 4 base ++ toLE 4 (x.B + base) ++ toLE 4 reel ++ [kind, drafts] ++ toLE 2 count ++ toLE 4 origin ++ toLE 8 x.sub.seed ++
    ((List.range 9).map (fun j =>
      let pos := origin + 9 * i + j
      toLE 4 (if pos < origin + ntok then x.toks.getD pos 0 else 0))).flatten)

/-- A list cut into runs of at most 64 (R155, R277), at most n of them. -/
def cut64 {α : Type} : Nat → List α → List (List α)
  | 0, _ => []
  | _, [] => []
  | n + 1, a :: t => (a :: t).take 64 :: cut64 n ((a :: t).drop 64)

/-- The start tokens of a pass into the entry points of some roles whose regions run in a lap (R94, R216, R245). -/
def State.startTokens (s : State) (slot l : Nat) (life : Fin 8) (base : Nat) (roles : List Nat) (lap : Nat) (payload : Nat → Row) :
    List Emit :=
  match (s.pslot slot).furn, (s.pslot slot).placed with
  | some f, some p =>
    ((f.entries.filter (fun e => roles.contains e.role && p.tiles.any (fun q => q.1 == e.ltile))).map (fun e =>
      let k := p.tileOf e.ltile
      match f.progs.find? (fun g => g.region == e.ltile / 65536 && p.variants.contains (g.region, g.variant)) with
      | none => []
      | some g =>
        if folded p.fold g && lapOf f p.fold g != lap || !folded p.fold g && lap != 0 then []
        else
          let toks := (List.range (e.last + 1 - e.first)).map (fun j =>
            let i := e.first + j
            ({
              payload := payload i, tag := BitVec.ofNat 16 (base * g.stride + i), lane := Fin.ofNat 256 l, wm := (s.pslot slot).wm,
              kind := 0, life := life } : Token))
          (cut64 5 toks).map (fun c =>
            .pkt { dest := k, src := hubNode s.actingHub, ptype := 1, vc := 0, queue := e.queue, body := tokFlits c }))).flatten
  | _, _ => []

/-- The lap completions that one pass of a slot writes in a lap (R233). -/
def State.lapWords (s : State) (slot lap : Nat) : Nat :=
  match (s.pslot slot).furn, (s.pslot slot).placed with
  | some f, some p => ((s.seats slot).filter (fun q => lapOf f p.fold q.1 == lap)).foldl (fun n q =>
      n + ((tileDescs q.1 q.2.1).filter (fun d => dKind d == 12 && bOutbound d && (match (tileRoutes q.1 q.2.1)[bRoute d]? with
        | some r => r.kind == 6
        | none => false))).length) 0
  | _, _ => 0

/-- The roles that a pass's start tokens go to: a run-ahead that was right has its drafts already (R248). -/
def passRoles (kind : Nat) (right : Bool) : List Nat :=
  if kind = 4 then [2] else if kind = 3 then [0] else if right then [0] else [0, 1]

/-- Input tokens of a pass (R245). -/
def passInputs (q : Pass) : Nat := if q.kind = 0 then q.count else if q.kind = 4 then 0 else 1

/-- The start tokens of a pass for a lap, sent; with the completions that the lap will bring. -/
def State.sendStart (s : State) (l : Nat) (x : LaneRec) (q : Pass) (right : Bool) (lap : Nat) : State :=
  let s1 := s.sendAll (s.startTokens x.slot l q.life q.base (passRoles q.kind right) lap
    (startPayload x q.kind q.base q.drafts q.count q.base (passInputs q)))
  let y := s1.pslot x.slot
  s1.setPslot x.slot { y with lapLeft := y.lapLeft + s.lapWords x.slot lap }

-- ------------------------------------------------------------------ laps (R233, R234)

/-- The fold factor of a slot. -/
def State.foldOf (s : State) (slot : Nat) : Nat := match (s.pslot slot).placed with | some p => p.fold | none => 1

/-- A slot's tiles take the configuration of a lap at the next watermark (R233): the seats of the lap and of regions that
are not folded; a tile with no seat in the lap is emptied; the queues that the hub feeds are closed. -/
def State.enterLap (s : State) (slot lap : Nat) : State :=
  match (s.pslot slot).furn, (s.pslot slot).placed with
  | some f, some p =>
    let seats := (s.seats slot).filter (fun q => !folded p.fold q.1 || lapOf f p.fold q.1 == lap)
    let idle := (s.slotTiles slot).eraseDups.filter (fun k => !(seats.any (fun q => q.2.2 == k)))
    let wm := match seats with | q :: _ => s.nextWm q.2.2 | [] => 1
    let before := (s.seats slot).filter (fun q => !folded p.fold q.1 || lapOf f p.fold q.1 == (s.pslot slot).lap)
    let s1 := seats.foldl (fun s q => s.configure slot q) s
    let s2 := idle.foldl (fun s k =>
      s.sendAll (((List.range 16).filter (fun i => dKind ((s.tile k).slot i).cur != 0)).map (fun i =>
        configPkt (hubNode s.actingHub) k wm (emptyDesc i wm)))) s1
    let s3 := (s2.closeEntries slot (before.map (fun q => q.2.1.coord)) wm lap).setPslot slot { s2.pslot slot with lap := lap, wm := wm }
    seats.foldl (fun s q =>
      (s.odSet (oFloorTileRegion q.2.2) q.1.region).odSet (oFloorTileLogicalTile q.2.2) q.2.1.coord) s3
  | _, _ => s

/-- A lap's completions are all read: the next lap is configured and the start tokens of every lane of the batch go into
it (R233). -/
def State.nextLap (s : State) (slot : Nat) : State :=
  let lap := (s.pslot slot).lap + 1
  let s1 := s.enterLap slot lap
  (s1.lanes.filter (fun p => p.2.slot == slot && p.2.pass.isSome && !p.2.aborted)).foldl (fun s p =>
    match p.2.pass with
    | some q => s.sendStart p.1 p.2 q false lap
    | none => s) s1

/-- A pass of a slot may begin at lap 0 now (R233): the batch is still open, or the laps of the last batch have ended. -/
def State.lapOpen (s : State) (slot : Nat) : Bool :=
  s.foldOf slot == 1 || (s.pslot slot).lap == 0 ||
  ((s.pslot slot).lap + 1 == s.foldOf slot && (s.lanes.all (fun p => p.2.slot != slot || p.2.pass.isNone)))

/-- Lap 0 configured again where the last batch left a later one. -/
def State.openLap (s : State) (slot : Nat) : State :=
  if (s.pslot slot).lap = 0 then s
  else
    let s1 := s.setPslot slot { s.pslot slot with lapLeft := 0 }
    s1.enterLap slot 0

-- ------------------------------------------------------------------ passes (R246, R248, R252, R279)

/-- The advances of a lane that some tile has still to apply (log entry 34). -/
def State.lifeLag (s : State) (l : Nat) : Nat :=
  (match mlook s.fences l with | some f => if f.toApply = [] then 0 else f.advance | none => 0) +
  sumN ((mget [] s.fenceQueue l).map (·.advance))

/-- Generated tokens that the stream may still produce. -/
def LaneRec.left (x : LaneRec) : Nat := x.sub.maxTokens - x.generated

/-- The next pass of a lane (R246, R247). -/
def State.nextPass (s : State) (l : Nat) (x : LaneRec) : Pass :=
  let life := s.lifeOf l
  if x.st = 1 then
    { kind := 0, base := x.p, drafts := 0, count := min (min 256 (s.capMin x.slot l - 8)) (x.sub.prompt - 1 - x.p), life := life }
  else if x.sub.cls = 2 then { kind := 4, base := x.p, drafts := 0, count := 0, life := life }
  else if x.sub.cls = 1 then { kind := 3, base := x.p, drafts := 0, count := 1, life := life }
  else
    let d := min x.sub.drafts (x.left - 1)
    { kind := 1, base := x.p, drafts := d, count := d + 1, life := life }

/-- Committed tokens not yet acknowledged (R279). -/
def LaneRec.unacked (x : LaneRec) : Nat := x.toks.length - max x.acked x.sub.prompt

/-- The panel issues the passes of a slot: it has all of it, or the first range of a deepened one (R412). -/
def State.firstMember (s : State) (slot : Nat) : Bool := match (s.pslot slot).part with | some (lo, _) => lo == 0 | none => true

/-- The hub may issue a lane's next pass (R252, R279). -/
def State.mayIssue (s : State) (l : Nat) (x : LaneRec) : Bool :=
  s.dev != 7 && x.pass.isNone && x.terminal.isNone && s.firstMember x.slot && s.slotState x.slot == 4 && !s.heldLanes.contains l && !s.abortDue.contains l &&
  decide (s.lifeLag l ≤ 1) && s.lapOpen x.slot && s.faults == [] && (s.pslot x.slot).resupply == [] &&
  (x.sub.cls == 2 || decide (s.bgHoldUntil ≤ s.clk)) &&
  (!x.express || x.st == 1 || decide (x.fill ≤ x.leadTokens)) &&
  (x.st == 1 || x.sub.cls == 2 || decide (x.unacked + (s.nextPass l x).count ≤ 4088))

/-- A pass is issued. -/
def State.issue (s : State) (l : Nat) (x : LaneRec) (q : Pass) (right : Bool) : State :=
  let s1 := s.openLap x.slot
  (s1.setLane l { x with pass := some q, aborted := false, replayDue := false, guessRight := false }).sendStart l x q right 0

/-- An adaptation pass that was aborted is issued again (R119). -/
def State.replayAdapt (s : State) (i : Nat) : State :=
  let x := s.pslot i
  if x.adaptReplay && x.adapting && s.slotState i == 4 then
    (s.setPslot i { x with adaptReplay := false }).sendAll (s.startTokens i 255 (s.lifeOf 255) 0 [2] 0 (startPayload {} 4 0 0 0 0 0))
  else s

/-- The aborted pass is issued again with the same tags and the new life (R119), once the fence has been applied and no
repair is left. -/
def State.tryReplay (s : State) (l : Nat) : State :=
  match s.lane l with
  | some x => match x.pass with
    | some q =>
      if s.dev != 7 && x.replayDue && x.terminal.isNone && s.firstMember x.slot && s.faults == [] && (s.pslot x.slot).resupply == [] && !s.abortDue.contains l && decide (s.lifeLag l ≤ 1) && s.slotState x.slot == 4 &&
         !s.heldLanes.contains l && s.lapOpen x.slot then
        s.issue l { x with replays := x.replays + 1 } { q with life := s.lifeOf l } false
      else s
    | none => s
  | none =>
    if l = 255 ∧ s.dev ≠ 7 ∧ s.faults = [] ∧ !s.abortDue.contains l ∧ s.lifeLag l ≤ 1 then (List.range 8).foldl State.replayAdapt s
    else s

/-- PASS_ISSUE (R252): a lane's next pass, or the replay that it waits for. -/
def execPassIssue (dt : Nat) (lane : Fin 256) (s : State) : Host.Outcome State Fault Refusal :=
  let s := s.tick dt
  .next (match s.lane lane.val with
    | some x =>
      if x.replayDue then s.tryReplay lane.val
      else if s.mayIssue lane.val x then s.issue lane.val x (s.nextPass lane.val x) x.guessRight
      else s
    | none => s)

/-- A lane's history allows a run-ahead (R248). -/
def State.runAheadPays (s : State) (x : LaneRec) : Bool :=
  decide (s.odGet oStreamPanelRunaheadMin ≤ (x.history.filter id).length)

/-- RUNAHEAD_ISSUE (R248): at life L + 1 while a verify pass runs. -/
def execRunaheadIssue (dt : Nat) (lane : Fin 256) (s : State) : Host.Outcome State Fault Refusal :=
  let s := s.tick dt
  let l := lane.val
  .next (match s.lane l with
    | some x => match x.pass with
      | some q =>
        if s.dev != 7 && x.express && q.kind == 1 && !x.aborted && x.runAhead.isNone && x.terminal.isNone &&
           decide (x.fill + q.drafts + 1 ≤ x.leadTokens) && s.runAheadPays x && !s.heldLanes.contains l && decide (s.lifeLag l = 0) &&
           decide (x.left > q.drafts + 1) then
          let base := q.base + q.drafts + 1
          let d := min x.sub.drafts (x.left - (q.drafts + 1) - 1)
          let life := q.life + 1
          (s.setLane l { x with runAhead := some ⟨base, q.base, d, life⟩ }).sendAll
            (s.startTokens x.slot l life base [1] 0 (startPayload x 2 base d (d + 1) q.base 1))
        else s
      | none => s
    | none => s)

-- ------------------------------------------------------------------ aborts (R119, R120, R256)

/-- An epoch abort of a lane: marked, run-ahead killed, life + 2 with ROLLBACK, REFILLING; its replay waits (R119). -/
def State.abortLane (s : State) (l : Nat) : State :=
  let s := { s with abortDue := s.abortDue.filter (· != l) }
  match s.lane l with
  | none =>
    -- The adaptation passes of lane 255 (log entry 36).
    if l = 255 ∧ s.pslots.any (fun p => p.2.adapting) then
      ({ s with pslots := s.pslots.map (fun p => (p.1, { p.2 with adaptReplay := p.2.adapting })) } : State).advanceLife 255 2 []
    else s
  | some x =>
    if x.ended ∨ 256 ≤ l then s
    else
      let refill := x.express && x.primed && x.terminal.isNone
      let x1 := { x with
        aborted := x.pass.isSome, replayDue := x.pass.isSome && x.terminal.isNone, guessRight := false, runAhead := none
        raKilled := x.raKilled + (if x.runAhead.isSome || x.guessRight then 1 else 0)
        refilling := x.refilling || refill, everRefilling := x.everRefilling || refill, covered := x.covered && !refill }
      let s1 := (s.setLane l x1).advanceLife l 2 (s.laneCmds x.slot l none)
      if x.pass.isSome then s1.bump oDataflowPanelAborts else s1

/-- The abort of a deepened pass told to the slot's other members, on channel 2 (R412). -/
def State.abortNotice (s : State) (l : Nat) : State :=
  match s.lane l with
  | some x =>
    if (s.pslot x.slot).part.isNone ∨ x.pass.isNone ∨ x.aborted then s
    else s.sendAll (((List.range 8).filter (fun p => (s.odGet (oCascadeSlotMembers x.slot)).testBit p && p != s.odGet oCascadePanelNumber)).map
      (fun p => .seam p 4 [x.sub.stream]))
  | none => s

/-- EPOCH_ABORT (R119): a lane whose epoch is to be aborted is aborted; its replay follows as soon as it may. -/
def execEpochAbort (dt : Nat) (lane : Fin 256) (s : State) : Host.Outcome State Fault Refusal :=
  let s := s.tick dt
  .next ((if s.abortDue.contains lane.val then (s.abortNotice lane.val).abortLane lane.val else s).tryReplay lane.val)

-- ------------------------------------------------------------------ the reel (R251 to R255, R264, R280)

/-- The due time of a token (R253), nearest nanosecond. -/
def LaneRec.due (x : LaneRec) (n : Nat) : Nat :=
  x.anchorT + (2 * (n - x.anchor) * 10 ^ 9 + x.sub.rate) / (2 * max 1 x.sub.rate)

/-- The token that the drain reads at the reel's tail, which then moves by one (R145, R251); the state that stands for
it where the furnish gives the lane no reel is the committed token itself. -/
def State.drain (s : State) (l : Nat) (x : LaneRec) : Nat × State :=
  match s.reelOf x.slot l with
  | some (k, e, r) =>
    if newer 32 r.tail r.commit then
      (rowBytes (s.rowAt k (64 * (rBase r + r.tail % rCap r * rEntryRows r))) 3 0, s.setTile k ((s.tile k).setRegion e { r with tail := (r.tail + 1) % 2 ^ 32 }))
    else ((x.reel.headD ⟨0, 0⟩).token, s)
  | none => ((x.reel.headD ⟨0, 0⟩).token, s)

/-- The interval of a release counted (R264). -/
def LaneRec.interval (x : LaneRec) (now tol : Nat) : LaneRec :=
  match x.lastReleaseAt with
  | none => { x with lastReleaseAt := some now, firstReleaseAt := some now, ttft := now - x.submittedAt }
  | some t =>
    let d := now - t
    let bin := min 2047 (d / max 1 x.binNs)
    { x with lastReleaseAt := some now, hist := mset 0 x.hist bin (min maxCount (mget 0 x.hist bin + 1)),
             late := x.late + (if x.express ∧ d * x.sub.rate > 10 ^ 9 + tol * x.sub.rate then 1 else 0) }

/-- Percentile x per mille of a lane's histogram: the lower edge of its bin (R264). -/
def LaneRec.percentile (x : LaneRec) (pm : Nat) : Nat :=
  let total := sumN (x.hist.map (·.2))
  let want := ceilDiv (pm * total) 1000
  if total = 0 then 0
  else (x.hist.foldl (fun (st : Nat × Option Nat) p =>
    let c := st.1 + p.2
    (c, match st.2 with | some j => some j | none => if want ≤ c then some p.1 else none)) (0, none)).2.getD 0 * x.binNs

/-- The next token of a lane below its credit limit (R280). -/
def LaneRec.credited (x : LaneRec) : Bool := newer 32 x.released x.limit

/-- One token drained and counted as released; the record of its transmission. -/
def State.releaseOne (s : State) (l sched : Nat) : State × List TokSent :=
  match s.lane l with
  | none => (s, [])
  | some x =>
    let (tok, s1) := s.drain l x
    let x1 := x.interval s.now (s.odGet oStreamPanelLateTolNs)
    let t : TokSent := { index := x.released, token := tok, sched := sched, lastTx := s.clk }
    (s1.setLane l { x1 with released := x.released + 1, reel := x.reel.drop 1, sent := x.sent ++ [t] }, [t])

/-- Up to n committed tokens released together, as far as credit goes (R255, R261, R286). -/
def State.releaseMany (s : State) (l : Nat) (sched : LaneRec → Nat) : Nat → State × List TokSent
  | 0 => (s, [])
  | n + 1 => match s.lane l with
    | none => (s, [])
    | some x =>
      if x.reel = [] ∨ !x.credited ∨ x.stopAt = some x.released then (s, [])
      else
        let r := s.releaseOne l (sched x)
        let r2 := r.1.releaseMany l sched n
        (r2.1, r.2 ++ r2.2)

/-- Tokens sent in TOKENS messages of up to 64 (R277). -/
def State.sendTokens (s : State) (l : Nat) (ts : List TokSent) : State :=
  match s.lane l with
  | none => s
  | some x =>
    if ts = [] then s
    else
      let s1 := (cut64 64 ts).foldl (fun s c => s.tx x.port x.dst (rtBytes 2 x.sub.stream 0 0 s.now (tokensBody c))) s
      if x.sub.cls = 1 then s1.ceSent x.dst else s1

-- ------------------------------------------------------------------ ending (R259 to R265)

/-- The END body (R277). -/
def endBody (reason detail : Nat) (last : Option Nat) (count : Nat) : List Nat :=
  [reason, detail, if last.isSome then 1 else 0, 0] ++ toLE 4 (last.getD 0) ++ toLE 4 count ++ toLE 4 0

/-- The END summary published (R265), and the END counted. -/
def State.endSummary (s : State) (stream reason detail cls count rate : Nat) (x : LaneRec) : State :=
  (s.publish oStreamPanelEnd (toLE 4 stream ++ [reason, detail, cls, (if x.covered then 1 else 0) + (if x.everRefilling then 2 else 0)] ++
    toLE 4 count ++ toLE 4 rate ++ toLE 8 x.ttft ++ toLE 4 (min x.underruns 0xFFFFFFFF) ++ toLE 4 x.replays ++
    toLE 4 (x.percentile 500) ++ toLE 4 (x.percentile 990) ++ toLE 4 (x.percentile 999) ++ toLE 4 (min x.late 0xFFFFFFFF) ++
    toLE 8 s.now ++ toLE 8 0)).bump oStreamPanelEnded

/-- ABORT_RESP from a kept terminal record (R261): ALREADY_COMPLETE for COMPLETE, otherwise the first answer's status. -/
def State.answerAbort (s : State) (stream seq : Nat) : State :=
  match s.term stream with
  | none => s
  | some t =>
    let status := if t.reason = 0 then 1 else match t.abortAnswer with | some a => a.2.headD 0 | none => 0
    let body := [status, t.reason, 0, 0] ++ toLE 4 t.endSeq ++ toLE 4 seq
    let s1 := (s.setTerm { t with abortAnswer := some (t.ctlOut + 1, body) }).sendTermCtl stream 5 body
    if status = 1 then s1.bump oStreamPanelAlreadyComplete else s1

/-- The END of a lane's stream is sent from its terminal record, which is kept by stream ID (R260). A stream that the master
carries has its end told to the master (R411), a couched one none (R421). -/
def State.sendEnd (s : State) (l : Nat) : State :=
  match s.lane l with
  | none => s
  | some x => match x.terminal with
    | none => s
    | some (reason, detail) =>
      if x.ended then s
      else
        let last := if x.count = 0 then none else some (x.released - 1)
        let s1 := if x.port ≠ seamPort then s.sendCtl l 3 (endBody reason detail last x.count)
          else if reason = 4 ∨ s.cas.actMaster ≥ 8 ∨ s.odGet oCascadePanelRole = 1 then s
          else s.send (.seam s.cas.actMaster 16 [x.sub.stream, reason, detail])
        match s1.lane l with
        | none => s1
        | some y =>
          let t : TermRec := {
            stream := y.sub.stream, reason := reason, detail := detail, lastIndex := last, count := y.count, endSeq := y.ctlOut,
            port := y.port, reply := y.dst, alt := y.sub.alt, ctlIn := y.ctlIn, ctlOut := y.ctlOut, ctlSent := y.ctlSent,
            sent := y.sent, at' := s.clk, lane := some l }
          let s2 := ({ s1.setLane l { y with ended := true } with terms := s1.terms ++ [t] }).endSummary y.sub.stream reason detail
            y.sub.cls y.count y.sub.rate y
          match y.abortSeq with
          | some n => s2.answerAbort y.sub.stream n
          | none => s2

/-- A stream that never had a lane ends (R259): REFUSED, or an END from the admission queue. -/
def State.endQueued (s : State) (q : QueueEnt) (reason detail : Nat) : State :=
  let t : TermRec := {
    stream := q.sub.stream, reason := reason, detail := detail, lastIndex := none, count := 0, endSeq := 1, port := q.port,
    reply := q.src, alt := q.sub.alt, ctlIn := q.ctlIn, ctlOut := 0, at' := s.clk }
  let s1 := { s with queue := s.queue.filter (fun e => e.sub.stream != q.sub.stream), terms := s.terms ++ [t] }
  (s1.sendTermCtl q.sub.stream 3 (endBody reason detail none 0)).endSummary q.sub.stream reason detail q.sub.cls 0 q.sub.rate {}

/-- The panels that run a stream for the master end it too (R411). -/
def State.remoteStop (s : State) (l stream reason detail : Nat) : State :=
  s.sendAll (((mget {} s.cas.remote l).panels.filter (· != s.odGet oCascadePanelNumber)).map (fun p => .seam p 12 [stream, reason, detail]))

/-- A terminal record of any reason but COMPLETE (R260, R261): what runs is aborted and never replayed, tokens not yet
released are discarded, the last fence goes out with + 2 and ROLLBACK, and the END is sent at once. -/
def State.terminate (s : State) (l reason detail : Nat) : State :=
  match s.lane l with
  | none => s
  | some x =>
    if x.terminal.isSome then s
    else
      let s1 := (s.setLane l { x with terminal := some (reason, detail) }).abortLane l
      match s1.lane l with
      | none => s1
      | some y => (((s1.setLane l { y with reel := [], replayDue := false, pass := none, refilling := false }).remoteStop l y.sub.stream
          reason detail).discardReel y.slot l).sendEnd l

/-- A COMPLETE stream whose last token has been released gets its END. -/
def State.flushDone (s : State) (l : Nat) : State :=
  match s.lane l with
  | some x => match x.terminal with
    | some (0, _) => if x.reel = [] then s.sendEnd l else s
    | _ => s
  | none => s

/-- A lane whose END is sent and whose fences are complete becomes FREE, its extents with it (R193, R258). -/
def State.freeLane (s : State) (l : Nat) : State :=
  match s.lane l with
  | none => s
  | some x =>
    if 256 ≤ l then (if x.ended then { s with lanes := mdel s.lanes l, cas.remote := mdel s.cas.remote l } else s) else
    if x.ended && (mlook s.fences l).isNone && mget [] s.fenceQueue l == [] then
      let s1 := (List.range 32).foldl (fun s i => s.dirClear i l) (s.freeLaneData l)
      { s1 with lanes := mdel s1.lanes l, heldLanes := s1.heldLanes.filter (· != l) }
    else s

/-- Every lane that can become FREE. -/
def State.reap (s : State) : State := (s.lanes.map (·.1)).foldl State.freeLane s

-- ------------------------------------------------------------------ epoch ends (R117, R118, R249, R250)

/-- The commit word's fields (R117). -/
def cwTag (w : Nat) : Nat := bits w 63 48
def cwLane (w : Nat) : Nat := bits w 47 40
def cwLife (w : Nat) : Nat := bits w 39 37
def cwPositions (w : Nat) : Nat := bits w 31 28

/-- The tile and region that hold a slot's pass records (R249). -/
def State.recordRegion (s : State) (slot : Nat) : Option (Nat × Region) :=
  ((s.slotTiles slot).eraseDups).findSome? (fun k =>
    ((s.tile k).regions.find? (fun p => rKind p.2 == 3 && rResident p.2 == 0xFFF0 && !rTwo p.2)).map (fun p => (k, p.2)))

/-- Where a stream ends among the tokens that a pass emits (R250 step 2): how many stand, and the detail. -/
def cutAt (x : LaneRec) (maxContext : Nat) (toks : List Nat) : Nat × Option Nat :=
  let c := toks.length
  let stop := (findIdx (fun t => (x.sub.stops.take x.sub.stopCount).contains t) toks).map (fun i => (i + 1, 1))
  let most := if x.left ≤ c then some (x.left, 2) else none
  let ctx := if maxContext < x.p + c then some (maxContext - x.p, 3) else none
  match sortBy (·.1) (stop.toList ++ most.toList ++ ctx.toList) with
  | (n, d) :: _ => (n, some d)
  | [] => (c, none)

/-- The mirrors of a lane's windows brought up to the positions just committed (R386). -/
def State.refreshMirrors (s : State) (slot l upTo n : Nat) : State :=
  (s.windows slot l).foldl (fun s p =>
    let x := s.pslot slot
    match x.placed with
    | none => s
    | some pl =>
      match pl.mirrors.find? (fun m => m.tile == p.1 && m.entry == p.2.1) with
      | none => s
      | some m =>
        let r := p.2.2
        let s1 := (List.range n).foldl (fun s i =>
          let row := (upTo - 1 - i) % rCap r * rEntryRows r
          s.putRows m.mTile (64 * (m.mRow + row)) (s.rowsAt p.1 (64 * (rBase r + row)) (rEntryRows r))) s
        s1.setPslot slot { x with placed := some { pl with mirrors := pl.mirrors.map (fun a =>
          if a.tile = m.tile ∧ a.entry = m.entry then { a with upTo := upTo } else a) } }) s

/-- The slot's sample ring and acceptance figures after a verify pass (R262, R266). -/
def State.sample (s : State) (slot p : Nat) (toks : List Nat) (a : Nat) : State :=
  let x := s.pslot slot
  let recent := (x.recent ++ [(toks.length, s.clk)]).filter (fun r => decide (s.clk ≤ r.2 + 10 ^ 10))
  s.setPslot slot { x with samples := x.samples ++ [(p, toks, a)], recent := recent }

/-- Mean positions per verify pass of the last 10 s, times 1,000 (stream.draft.accept_milli). -/
def State.acceptMilli (s : State) (slot : Nat) : Nat :=
  let recent := (s.pslot slot).recent.filter (fun r => decide (s.clk ≤ r.2 + 10 ^ 10))
  1000 * sumN (recent.map (·.1)) / max 1 recent.length

/-- Priming (R252): at the first epoch end with the lead in the reel, or at the terminal record. -/
def LaneRec.prime (x : LaneRec) (now : Nat) : LaneRec :=
  if x.express ∧ !x.primed ∧ (x.fill ≥ max x.leadTokens 1 ∨ x.terminal.isSome) ∧ x.st ≠ 1 then
    { x with primed := true, primedAt := now, anchor := x.sub.prompt, anchorT := now, st := 3 }
  else x

/-- The lane's state after a commit (R258). -/
def LaneRec.settle (x : LaneRec) : LaneRec :=
  let x := if x.st = 1 ∧ x.p + 1 ≥ x.sub.prompt then { x with st := if x.sub.cls = 1 then 3 else 2 } else x
  match x.terminal with
  | some (0, _) => { x with st := 4 }
  | _ => x

/-- The commit record of a pass (R118, R250 step 3): tokens, counters, terminal record. -/
def LaneRec.commit (x : LaneRec) (q : Pass) (a : Nat) (toks : List Nat) (clk : Nat) (fin : Option Nat) : LaneRec :=
  let n := if q.kind = 0 then q.count else toks.length
  { x with
    pass := none, aborted := false, violations := [], p := x.p + n, toks := x.toks ++ toks, passes := x.passes + 1
    reel := x.reel ++ toks.map (fun t => ⟨t, clk⟩), prodCount := x.prodCount + toks.length
    history := if q.kind = 1 then lastN 64 (x.history ++ [decide (a = q.drafts)]) else x.history
    proposed := x.proposed + q.drafts, accepted := x.accepted + a, broke := x.broke + (q.drafts - a)
    terminal := match fin with | some d => some (0, d) | none => x.terminal }

/-- A lane's port sends now: UP and not paused. -/
def State.canSend (s : State) (x : LaneRec) : Bool := s.hostUp x.port && (s.hostPort x.port).pausedAt.isNone

/-- A bulk lane's committed tokens go out in one message, as far as credit goes (R255). -/
def State.releaseBulk (s : State) (l : Nat) : State :=
  match s.lane l with
  | none => s
  | some x =>
    if s.canSend x && s.ceClear x.dst then
      let r := s.releaseMany l (fun y => s.timeAt (y.reel.headD ⟨0, s.clk⟩).at') 64
      (r.1.sendTokens l r.2).flushDone l
    else s

/-- What a commit sets free at once (R252, R255): a bulk stream's tokens, an express stream's first token at priming. -/
def State.afterCommit (s : State) (l : Nat) (wasPrimed : Bool) : State :=
  match s.lane l with
  | none => s
  | some x =>
    if x.sub.cls = 1 then s.releaseBulk l
    else
      let r := if x.primed && !wasPrimed && x.reel != [] && x.credited && s.canSend x then s.releaseOne l s.now else (s, [])
      (r.1.sendTokens l r.2).flushDone l

/-- A transient of a die (R392): one that its replay did not repeat. At the limit within one hour the die is to be vacated. -/
def State.transient (s : State) (g : Nat) : State :=
  let s1 := s.bump (oFaultSiteTransients g)
  let l := ((mget [] s.transientAt g).filter (fun t => decide (s.clk < t + 3600 * 10 ^ 9))) ++ [s.clk]
  let s2 := { s1 with transientAt := mins s1.transientAt g l }
  if s.odGet oFaultPanelTransientLimit ≤ l.length ∧ s.dieActive g ∧ (mlook s.evac g).isNone then
    { s2 with evac := mins s2.evac g 5, rebalDue := true }
  else s2

/-- The epoch of a lane ends with a pass's record (R250). -/
def State.endEpoch (s : State) (l : Nat) (x : LaneRec) (q : Pass) (row : Row) (maxContext : Nat) : State :=
  let c := rowByte row 8
  let emitted := (List.range (if q.kind = 0 ∨ q.kind = 4 then 0 else c)).map (fun i => rowBytes row (16 + 4 * i + 3) (16 + 4 * i))
  let (n, fin) := if q.kind = 1 ∨ q.kind = 3 then cutAt x maxContext emitted else (0, none)
  let toks := emitted.take n
  let a := if q.kind = 1 then c - 1 else 0
  let right := x.runAhead.isSome && (rowByte row 10).testBit 0 && q.kind == 1 && decide (c = q.drafts + 1) && fin.isNone
  let x1 := x.commit q a toks s.clk fin
  let x2 := { x1 with runAhead := none, guessRight := right, raRight := x1.raRight + (if right then 1 else 0),
                      raKilled := x1.raKilled + (if x.runAhead.isSome && !right then 1 else 0) }
  let x3 := (x2.settle.prime s.now).settle
  let x4 := if x3.refilling ∧ x3.fill ≥ x3.leadTokens then { x3 with refilling := false } else x3
  let s0 := (x.violations.filter (fun v => v.2.1 != 0)).foldl (fun s v => s.transient v.1) ((s.setLane l x4).coverLane l)
  let s1 := s0.bumpN oStreamPanelBroke (q.drafts - a)
  let cmds := s1.laneCmds x.slot l (some (x.B + x4.p, x.R + x4.toks.length - x.sub.prompt))
  let s2 := s1.advanceLife l (if x.runAhead.isSome && !right then 2 else 1) cmds
  let s3 := s2.refreshMirrors x.slot l (x.B + x4.p) (x4.p - x.p)
  let s4 := if q.kind = 1 ∧ x.express then s3.sample x.slot q.base toks a else s3
  s4.afterCommit l x.primed

/-- A mismatched pass record (R249): a fault of the commit tile, cause 0x0006; the epoch aborts. -/
def State.badRecord (s : State) (k l w : Nat) : State :=
  (s.logTile k { address := gaddr k 0, cause := causeMalformed, slot := 0xF, tag := cwTag w, lane := l, producer := k }).abortLane l

/-- The member with the commit region sends the record of an epoch to a deepened slot's other members (R412). -/
def State.sendRecord (s : State) (slot stream : Nat) (row : Row) : State :=
  if (s.pslot slot).part.isNone then s
  else s.sendAll (((List.range 8).filter (fun p => (s.odGet (oCascadeSlotMembers slot)).testBit p && p != s.odGet oCascadePanelNumber)).map
    (fun p => .seam p 5 ([stream] ++ bytesOfRow row)))

/-- A commit mailbox of the acting hub's function 0 is taken (R250): a live commit word ends its lane's epoch by the pass record. -/
def State.takeCommit (s : State) (mbox : Nat) : State :=
  let key := mboxKey (hubNode s.actingHub) mbox
  match mlook s.mboxes key with
    | none => s
    | some w =>
      let w := w.toNat
      let l := cwLane w
      let s1 := { s with mboxes := mdel s.mboxes key }
      -- A word with a reserved bit set is rejected (R11).
      if bits w 36 32 ≠ 0 ∨ bits w 27 0 ≠ 0 then s1
      else match s1.lane l with
      | none => s1
      | some x => match x.pass with
        | none => s1
        | some q =>
          if x.aborted ∨ x.terminal.isSome ∨ s1.abortDue.contains l ∨ q.life.val ≠ cwLife w then s1
          else match s1.recordRegion x.slot, (s1.pslot x.slot).furn with
            | some (k, r), some f =>
              let row := s1.rowAt k (64 * (rBase r + l))
              let t := tokenOf 0 (rowBytes row 3 0)
              -- A record with a reserved bit set is rejected too (R11).
              if t.tag.toNat ≠ cwTag w ∨ t.lane.val ≠ l ∨ t.life.val ≠ cwLife w ∨
                  rowByte row 10 > 1 ∨ rowBytes row 15 11 ≠ 0 ∨ rowBytes row 63 48 ≠ 0 then s1.badRecord k l w
              else (s1.endEpoch l x q row f.maxContext).sendRecord x.slot x.sub.stream row
            | _, _ => s1

/-- EPOCH_END (R250): the commit word in one of the slots' commit mailboxes, 0 to 15, is taken (log entry 28). -/
def execEpochEnd (dt : Nat) (mbox : Fin 64) (s : State) : Host.Outcome State Fault Refusal :=
  .next (if mbox.val < 16 then (s.tick dt).takeCommit mbox.val else s.tick dt)

-- ------------------------------------------------------------------ paced release (R253, R254, R280, R283)

/-- The token due next on a lane can go out now: released lanes, a port UP and not paused. -/
def State.mayRelease (s : State) (x : LaneRec) : Bool :=
  x.primed && !x.ended && x.reel != [] && s.canSend x && (match x.stopAt with | some n => decide (x.released < n) | none => true)

/-- A wait for credit counted once for the token that waits (R280). -/
def State.creditWait (s : State) (l : Nat) (x : LaneRec) : State :=
  if x.stallFrom.isSome then s else s.setLane l { x with stallFrom := some s.now, creditStalls := x.creditStalls + 1 }

/-- A wait for credit ends: its length is counted. -/
def LaneRec.creditEnd (x : LaneRec) (now : Nat) : LaneRec :=
  match x.stallFrom with
  | some t => { x with stallFrom := none, creditStallNs := x.creditStallNs + (now - t) }
  | none => x

/-- The tokens of a lane due by now that were committed in time, as far as credit goes (R253, R286). -/
def State.releaseDue (s : State) (l : Nat) : Nat → State × List TokSent
  | 0 => (s, [])
  | n + 1 => match s.lane l with
    | none => (s, [])
    | some x =>
      let d := x.due x.released
      let inTime := match x.reel with | t :: _ => decide (s.timeAt t.at' ≤ d) | [] => false
      if !s.mayRelease x ∨ (!x.unpaced ∧ (s.now < d ∨ !inTime)) ∨ !x.credited then (s, [])
      else
        let r := (s.setLane l (x.creditEnd s.now)).releaseOne l d
        let r2 := r.1.releaseDue l n
        (r2.1, r.2 ++ r2.2)

/-- A lane's due tokens are released, in one message if several are due together (R253, R286); a bulk lane's tokens that
waited go out as they are. -/
def State.release (s : State) (l : Nat) : State :=
  match s.lane l with
  | none => s
  | some x =>
    if x.sub.cls = 1 then s.releaseBulk l
    else
      let r := s.releaseDue l (if x.unpaced then 4096 else 64)
      let s1 := (r.1.sendTokens l r.2).flushDone l
      match s1.lane l with
      | some y => if s1.mayRelease y && decide (y.due y.released ≤ s1.now) && !y.credited then s1.creditWait l y else s1
      | none => s1

/-- TOKEN_RELEASE (R253). -/
def execTokenRelease (dt : Nat) (lane : Fin 4096) (s : State) : Host.Outcome State Fault Refusal :=
  .next ((s.tick dt).release lane.val)

/-- UNDERRUN_RELEASE (R254): the token was not committed at its due time; it goes out now and becomes the anchor. -/
def execUnderrunRelease (dt : Nat) (lane : Fin 4096) (s : State) : Host.Outcome State Fault Refusal :=
  let s := s.tick dt
  let l := lane.val
  .next (match s.lane l with
    | none => s
    | some x =>
      let d := x.due x.released
      let late := match x.reel with | t :: _ => decide (d < s.timeAt t.at') | [] => false
      if !(x.express && s.mayRelease x && late) then s
      else if !x.credited then s.creditWait l x
      else
        let x1 := { x.creditEnd s.now with anchor := x.released, anchorT := s.now, underruns := x.underruns + 1,
                                           underrunNs := x.underrunNs + (s.now - d) }
        let r := ((s.setLane l x1).bump oStreamPanelUnderruns).releaseOne l s.now
        (r.1.sendTokens l r.2).flushDone l)

/-- TERMINAL_RECORD_EXPIRE (R260). -/
def execTerminalRecordExpire (dt stream : Nat) (s : State) : Host.Outcome State Fault Refusal :=
  let s := s.tick dt
  .next (match s.term stream with
    | some t =>
      if t.at' + 10 ^ 9 * s.odGet oStreamPanelTerminalKeepS ≤ s.clk then { s with terms := s.terms.filter (fun u => u.stream != stream) }
      else s
    | none => s)

/-- PRODUCTION_CHECK (R257): each second an express stream's production over 1 s against its contracted rate. -/
def execProductionCheck (dt : Nat) (lane : Fin 256) (s : State) : Host.Outcome State Fault Refusal :=
  let s := s.tick dt
  .next (match s.lane lane.val with
    | none => s
    | some x =>
      let s1 := s.setLane lane.val { x with prodCount := 0 }
      if x.express ∧ x.primed ∧ x.terminal.isNone ∧ x.prodCount < x.sub.rate then s1.contractRisk lane.val 2 x.prodCount x else s1)

-- ------------------------------------------------------------------ admission (R258)

/-- A slot holds a furnish: PLACING, PLACED or PARKED. -/
def State.holds (s : State) (slot : Nat) (fid : List Nat) : Bool :=
  let v := s.slotState slot
  (v == 3 || v == 4 || v == 5) && (match (s.pslot slot).furn with | some f => f.fid == fid | none => false)

/-- The slots that hold a furnish, in ascending number. -/
def State.holders (s : State) (fid : List Nat) : List Nat := (List.range 8).filter (fun i => s.holds i fid)

/-- Active streams of a class, on a slot or (8 and up) on any. -/
def State.activeOf (s : State) (cls slot : Nat) : Nat :=
  (s.lanes.filter (fun p => p.2.sub.cls == cls && !p.2.ended && decide (p.1 < 256) && (decide (slot ≥ 8) || p.2.slot == slot))).length

/-- KV pages that a stream needs in each layer (R258). -/
def pagesFor (f : Furnish) (sub : Submit) : Nat := ceilDiv (min f.maxContext (sub.prompt + sub.maxTokens)) 256

/-- The extents of a stream on a lane, one in each KV layer's home stack (R193), if their space is free. -/
def State.allocExtents (s : State) (l pages : Nat) (f : Furnish) (homes : List (Nat × Nat × Nat)) : Option State :=
  f.kv.foldl (fun st kv => st.bind (fun s =>
    match homes.find? (fun h => h.1 == kv.1) with
    | none => none
    | some h => (s.allocData h.2.1 (pages * 256 * 64 * kv.2) (ownLane l kv.1)).map (fun r =>
        r.2.2.dirPut h.2.1 l h.2.2 { valid := true, base := r.2.1, entryBytes := 64 * kv.2, pages := pages, group := r.1 }))) (some s)

/-- The lowest free lane of a slot: a number below its lanes_max that no stream of the panel has (log entry 35). -/
def State.freeLaneOf (s : State) (f : Furnish) : Option Nat := (List.range f.lanesMax).find? (fun l => (s.lane l).isNone)

/-- A stream admitted to a slot, if the conditions of R258 hold there. -/
def State.admitTo (s : State) (q : QueueEnt) (slot : Nat) : Option State :=
  match (s.pslot slot).furn, (s.pslot slot).placed with
  | some f, some p =>
    match s.freeLaneOf f with
    | none => none
    | some l =>
      let ok := s.slotState slot != 3 &&
        (q.sub.cls != 0 || (decide (s.activeOf 0 8 < 48) && decide (s.activeOf 0 slot < s.odGet (oPlacementSlotExpressCapacity slot)) &&
          s.slotState slot == 4))
      if !ok then none
      else (s.allocExtents l (pagesFor f q.sub) f p.kvHome).map (fun s1 =>
        let N := q.sub.prompt
        let x : LaneRec := {
          st := if q.sub.cls = 2 then 5 else if N ≥ 2 then 1 else if q.sub.cls = 1 then 3 else 2
          sub := q.sub, slot := slot, leadTokens := ceilDiv (q.sub.lead * q.sub.rate) (10 ^ 6)
          B := serMax ((s.windows slot l).map (fun w => w.2.2.commit))
          R := match s.reelOf slot l with | some r => r.2.2.commit | none => 0
          toks := q.sub.tokens, released := N, submittedAt := q.arrived, port := q.port, reply := q.src, limit := q.limit
          ctlIn := q.ctlIn, heardAt := q.clkAt, binNs := s.odGet oStreamPanelHistBinNs }
        { (s1.setLane l x).syncLane l (s1.slotTiles slot).eraseDups with queue := s1.queue.filter (fun e => e.sub.stream != q.sub.stream) })
  | _, _ => none

/-- The first stream of a class that waits, admitted to the first slot that it fits. -/
def State.admitClass (s : State) (cls : Nat) : Option State :=
  match s.queue.find? (fun q => q.sub.cls == cls && (q.port == seamPort || !s.inCascade)) with
  | none => none
  | some q => (s.holders q.sub.furnish).findSome? (s.admitTo q)

/-- One admission: express first, then bulk, then background (R258). -/
def State.admitNext (s : State) : Option State := [0, 1, 2].findSome? s.admitClass

-- ------------------------------------------------------------------ draft adaptation (R141, R262, R263)

/-- The two-copy resident regions of a slot: tile and entry (R141). -/
def State.twoCopies (s : State) (slot : Nat) : List (Nat × Nat) :=
  (((s.slotTiles slot).eraseDups).map (fun k =>
    ((s.tile k).regions.filter (fun p => rKind p.2 == 3 && rTwo p.2)).map (fun p => (k, p.1)))).flatten

/-- The lanes of a slot are all quiet; those that are not are held until they are (R141). -/
def State.quiesce (s : State) (slot : Nat) : Bool × State :=
  let ls := s.lanesOf slot
  (ls.all s.laneQuiet, { s with heldLanes := s.heldLanes ++ ls.filter (fun l => !s.heldLanes.contains l) })

/-- Lanes of a slot let go. -/
def State.letGo (s : State) (slot : Nat) : State :=
  let ls := s.lanesOf slot
  { s with heldLanes := s.heldLanes.filter (fun l => !ls.contains l) }

/-- The swap of a slot's copies (R141): done when every lane that reads them is quiet; until then the lanes are held. -/
def State.swapSlot (s : State) (slot : Nat) : Bool × State :=
  let q := s.quiesce slot
  if q.1 then (true, ((q.2.twoCopies slot).foldl (fun s p => s.swapRegion p.1 p.2) q.2).letGo slot) else q

/-- SWAP_PROTOCOL (R141). -/
def execSwapProtocol (dt : Nat) (slot : Fin 8) (s : State) : Host.Outcome State Fault Refusal :=
  .next (((s.tick dt).swapSlot slot.val).2)

/-- ADAPT_CYCLE_START (R262): the ring is full; the cycle's background passes start (lane 255, log entry 36). -/
def execAdaptCycleStart (dt : Nat) (slot : Fin 8) (s : State) : Host.Outcome State Fault Refusal :=
  let s := s.tick dt
  let i := slot.val
  let x := s.pslot i
  .next (if s.odGet (oStreamDraftAdaptEnable i) = 1 ∧ !x.adapting ∧ s.slotState i = 4 ∧
      x.samples.length ≥ s.odGet (oStreamDraftAdaptSamples i) then
      ((s.setPslot i { x with adapting := true, adaptStart := s.clk, samples := [] }).syncLane 255 (s.slotTiles i).eraseDups).sendAll
        (s.startTokens i 255 (s.lifeOf 255) 0 [2] 0 (startPayload {} 4 0 0 0 0 0))
    else s)

/-- The bytes of a slot's live draft state: the live copies in tile order. -/
def State.liveState (s : State) (slot : Nat) : List Nat :=
  ((s.twoCopies slot).map (fun p =>
    let r := (s.tile p.1).region p.2
    let half := rRows r / 2
    s.bytesAt p.1 (64 * (rBase r + (if r.live then half else 0))) (64 * half))).flatten

/-- ADAPT_CYCLE_DONE (R263): swap, generation, digest. -/
def execAdaptCycleDone (dt : Nat) (slot : Fin 8) (s : State) : Host.Outcome State Fault Refusal :=
  let s := s.tick dt
  let i := slot.val
  .next (if !(s.pslot i).adapting then s
    else match s.swapSlot i with
      | (false, s1) => s1
      | (true, s1) =>
        let s2 := ((s1.setPslot i { s1.pslot i with adapting := false }).bump (oStreamDraftCycles i)).bump (oStreamDraftGeneration i)
        let s3 := (s2.odSet (oStreamDraftLastSwap i) s2.now).odSet (oStreamDraftStateDigest i) (ofLE (sha384 (s2.liveState i)))
        s3.publish24 (oStreamDraftSwap i) (toLE 8 (s3.odGet (oStreamDraftGeneration i)) ++ toLE 8 (s3.odGet (oStreamDraftCycles i))))

end Sys2Proof.Machine
end

