-- ==== Sys2Proof/Machine/Rt.lean ====
section
/-!
DEFINITION. Host ports and Reel Transport (chapter 10): what arrives from a host, acknowledgement and retransmission,
credit, congestion and pauses, failover, PTP, the optical modules, and the link-layer answers. Choices that the spec
leaves open are in log entries 38 to 41.
-/
namespace Sys2Proof.Machine

-- ------------------------------------------------------------------ arriving datagrams (R271, R272, R274)

/-- A datagram discarded and counted. -/
def State.discard (s : State) (d : Dgram) : State := s.bump (oRtPortDiscarded d.port)

/-- The host is heard: its silence starts again on its streams (R281). -/
def State.heard (s : State) (e : Endpoint) (stream : Nat) : State :=
  let mine (sub : Submit) (r : Endpoint) : Bool := sub.stream == stream || (r.family == e.family && r.addr == e.addr)
  { s with
    lanes := s.lanes.map (fun p => if mine p.2.sub p.2.dst then (p.1, { p.2 with heardAt := s.clk }) else p)
    queue := s.queue.map (fun q => if mine q.sub q.src then { q with clkAt := s.clk } else q) }

/-- The RT header checks of R274 on a datagram whose message is to have a type. -/
def rtOk (b : List Nat) (mtype : Nat) : Bool :=
  decide (32 ≤ b.length) && leAt b 0 2 == 0x5254 && leAt b 2 1 == 1 && leAt b 3 1 == mtype && leAt b 4 4 != 0 &&
  decide (leAt b 12 2 + 32 = b.length) && decide (leAt b 14 1 < 4) && zeroAt b 15 1 && zeroAt b 24 8

/-- A datagram counted at its host port, its CE mark kept for the sender's stream (R274, R282). -/
def State.rtCount (s : State) (d : Dgram) : State :=
  let s1 := s.bump (oRtPortRxDatagrams d.port)
  if d.ce then (s1.bump (oRtPortCeReceived d.port)).setCe { s1.ceRec d.src with echo := true } else s1

/-- A datagram reaches a host port's RT (R271, R272, R274): counted, its CE mark kept, discarded where it is malformed;
otherwise acted on with stream, control sequence, flags and body. -/
def State.rt (s : State) (d : Dgram) (mtype : Nat) (bodyOk : List Nat → Bool) (run : Nat → Nat → Nat → List Nat → State → State) : State :=
  if !s.hostUp d.port then s
  else if s.inCascade ∧ !s.cascadeMaster then (s.bump (oRtPortRxDatagrams d.port)).discard d
  else
    let s2 := s.rtCount d
    if d.frag ∨ d.udp ≠ s2.odGet (oRtPortRtUdp d.port) then s2.discard d
    else if !rtOk d.body mtype ∨ !bodyOk (d.body.drop 32) then s2.discard d
    else run (leAt d.body 4 4) (leAt d.body 8 4) (leAt d.body 14 1) (d.body.drop 32) (s2.heard d.src (leAt d.body 4 4))

-- ------------------------------------------------------------------ SUBMIT (R275, R276, R258, R259)

/-- An endpoint in a message: family, UDP port, address. -/
def endpointAt (b : List Nat) (fam port addr : Nat) : Endpoint :=
  { family := leAt b fam 1, port := leAt b port 2, addr := leAt b addr (if leAt b fam 1 = 4 then 4 else 16) }

/-- The token bytes of a fragment, and the prompt position of the first. -/
def fragTokens (b : List Nat) : Nat × List Nat :=
  if leAt b 0 2 = 0 then (leAt b 108 4, b.drop 112) else (leAt b 4 4, b.drop 8)

/-- A SUBMIT fragment's body is well formed (R276). -/
def fragOk (b : List Nat) : Bool :=
  let head := if leAt b 0 2 = 0 then 112 else 8
  decide (head ≤ b.length) && (b.length - head) % 4 == 0 && decide (leAt b 0 2 < leAt b 2 2) && decide (leAt b 2 2 ≤ 4096) &&
  (leAt b 0 2 != 0 || (zeroAt b 22 2 && zeroAt b 53 3 && zeroAt b 89 1))

/-- Bytes in the staging area. -/
def State.staged (s : State) : Nat := sumN (s.staging.map (fun e => sumN (e.frags.map (fun f => f.2.length))))

/-- Fragments of one SUBMIT. -/
def State.stageOf (s : State) (stream : Nat) (src : Endpoint) : Option StageEnt :=
  s.staging.find? (fun e => e.stream == stream && e.src == src)

/-- The state without the fragments of one SUBMIT. -/
def State.unstage (s : State) (stream : Nat) (src : Endpoint) : State :=
  { s with staging := s.staging.filter (fun e => !(e.stream == stream && e.src == src)) }

/-- SUBMIT_FRAGMENT (R276): staged over an earlier copy; nothing of its SUBMIT stays where the staging area is full. -/
def execSubmitFragment (dt : Nat) (d : Dgram) (s : State) : Host.Outcome State Fault Refusal :=
  .next ((s.tick dt).rt d 1 fragOk (fun stream _ _ b s =>
    let e := (s.stageOf stream d.src).getD ⟨stream, d.port, d.src, s.clk, s.now, []⟩
    let e1 := { e with port := d.port, arrived := s.now, frags := mins e.frags (leAt b 0 2) b }
    let s1 := s.unstage stream d.src
    let s2 := { s1 with staging := s1.staging ++ [e1] }
    if s2.staged > s2.odGet oRtPanelSubmitStagingMib * 2 ^ 20 then s1 else s2))

/-- The token ranges of fragments in order of position. -/
def StageEnt.ranges (e : StageEnt) : List (Nat × List Nat) :=
  sortBy (fun p => p.1 * 65536 + p.2.length) (e.frags.map (fun f => fragTokens f.2))

/-- The ranges follow one another from a position to the end N. -/
def coverTo (N : Nat) : Nat → List (Nat × List Nat) → Bool
  | p, [] => p == N
  | p, (o, b) :: t => o == p && coverTo N (p + b.length / 4) t

/-- Every fragment is there and their offsets cover the prompt exactly (R276). -/
def StageEnt.complete (e : StageEnt) : Bool :=
  match mlook e.frags 0 with
  | none => false
  | some b => (e.frags.map (·.1)) == List.range (leAt b 2 2) && e.frags.all (fun f => leAt f.2 2 2 == leAt b 2 2) &&
      coverTo (leAt b 36 4) 0 e.ranges

/-- U32 words of a byte string. -/
def words32 (b : List Nat) : List Nat := (List.range (b.length / 4)).map (fun i => leAt b (4 * i) 4)

/-- The SUBMIT that complete fragments spell (R276). -/
def State.readSubmit (s : State) (e : StageEnt) : Submit :=
  let b := mget [] e.frags 0
  let lead := leAt b 28 4
  { stream := e.stream, furnish := sliceAt b 4 16, cls := leAt b 20 1, drafts := leAt b 21 1, rate := leAt b 24 4,
    lead := if lead = 0xFFFFFFFF then s.odGet oStreamReelLeadUs else lead, maxTokens := leAt b 32 4, prompt := leAt b 36 4,
    seed := leAt b 40 8, credit := leAt b 48 4, stopCount := leAt b 52 1, stops := words32 (sliceAt b 56 32),
    alt := endpointAt b 88 90 92, tokens := (e.ranges.map (fun p => words32 p.2)).flatten }

/-- An express contract above the ceiling on a slot (R257). -/
def State.overCeiling (s : State) (slot rate : Nat) : Bool :=
  decide (rate * s.odGet (oPlacementSlotEstPassUs slot) * 100 >
    s.odGet oStreamPanelContractCeilingPct * s.odGet oStreamPanelAcceptRefMilli * 1000)

/-- The panel's state lets streams in: READY or SERVING (R332), and in a cascade neither FORMING, ISOLATED nor EXPELLED (R408,
R409, R425). -/
def State.serves (s : State) : Bool :=
  (s.odGet oDeviceStateState == 3 || s.odGet oDeviceStateState == 4) && !([1, 4, 5].contains (s.odGet oCascadePanelState))

/-- The refusals of R259 in the order of their detail codes. -/
def State.refusal (s : State) (u : Submit) : Option Nat :=
  let hs := s.holders u.furnish
  match hs.findSome? (fun i => (s.pslot i).furn) with
  | none => some 1
  | some f =>
    if u.cls ≤ 2 ∧ !f.classes.testBit u.cls then some 2
    else if u.prompt + u.maxTokens > f.maxContext then some 3
    else if u.cls = 0 ∧ hs.all (fun i => s.overCeiling i u.rate) then some 4
    else if u.cls = 0 ∧ ceilDiv (u.lead * u.rate) (10 ^ 6) > 1008 then some 5
    else if u.drafts > f.draftMax then some 6
    else if s.queue.length ≥ s.odGet oStreamPanelQueueMax then some 7
    else if !s.serves then some 8
    else if u.prompt = 0 ∨ u.maxTokens = 0 ∨ u.cls > 2 ∨ (u.cls = 0 ∧ u.rate = 0) ∨ (u.cls ≠ 0 ∧ u.rate ≠ 0) ∨ u.stopCount > 8 then some 9
    else none

/-- A kept END sent again (R260, R276): the message outstanding, or from the record once it was acknowledged. -/
def State.resendEnd (s : State) (t : TermRec) : State :=
  s.tx t.port t.reply (rtBytes 3 t.stream t.endSeq 1 s.now (endBody t.reason t.detail t.lastIndex t.count))

/-- SUBMIT (R258, R259, R276): a complete SUBMIT is a retransmission of a known stream, or is refused with an END, or
joins the admission queue. -/
def execRtSubmit (dt stream : Nat) (src : Endpoint) (s : State) : Host.Outcome State Fault Refusal :=
  let s := s.tick dt
  .next (match s.stageOf stream src with
    | none => s
    | some e =>
      if !e.complete then s
      else
        let s1 := s.unstage stream src
        match s1.laneOf stream, s1.queue.find? (fun q => q.sub.stream == stream), s1.term stream with
        | some (l, _), _, _ => s1.sackLane l
        | none, some q, _ => s1.sendSack q.port q.src stream q.ctlIn
        | none, none, some t => (s1.sendSack t.port t.reply stream t.ctlIn).resendEnd t
        | none, none, none =>
          let u := s1.readSubmit e
          let q : QueueEnt := { sub := u, port := e.port, src := src, arrived := e.arrived, clkAt := s1.clk, limit := u.credit }
          let s2 := { s1 with queue := s1.queue ++ [q] }
          let s3 := s2.sendSack e.port src stream 1
          match s1.refusal u with
          | some d => s3.endQueued q 3 d
          | none => s3)

/-- SUBMIT_TIMEOUT (R276). -/
def execSubmitTimeout (dt stream : Nat) (src : Endpoint) (s : State) : Host.Outcome State Fault Refusal :=
  let s := s.tick dt
  .next (match s.stageOf stream src with
    | some e =>
      if !e.complete ∧ e.firstAt + 10 ^ 6 * s.odGet oRtPanelSubmitTimeoutMs ≤ s.clk then s.unstage stream src else s
    | none => s)

-- ------------------------------------------------------------------ ABORT, SACK, CREDIT (R261, R278, R280)

/-- An ABORT decided on a lane (R261): a running stream ends ABORTED; a FLUSHING one releases what is left at once. -/
def State.abortOnLane (s : State) (l : Nat) (seq : Option Nat) : State :=
  match s.lane l with
  | none => s
  | some x =>
    let s1 := s.setLane l { x with abortSeq := seq }
    if x.terminal.isSome then ((s1.setLane l { x with abortSeq := seq, unpaced := true }).release l).flushDone l
    else s1.terminate l 1 0

/-- ABORT (R261, R275). -/
def execRtAbort (dt : Nat) (d : Dgram) (s : State) : Host.Outcome State Fault Refusal :=
  .next ((s.tick dt).rt d 4 (fun b => b.length == 8 && zeroAt b 0 8) (fun stream seq _ _ s =>
    match s.laneOf stream, s.queue.find? (fun q => q.sub.stream == stream), s.term stream with
    | some (l, x), _, _ =>
      if newer 32 x.ctlIn seq then ((s.setLane l { x with ctlIn := seq }).sackLane l).abortOnLane l (some seq)
      else s.sackLane l
    | none, some q, _ =>
      if newer 32 q.ctlIn seq then
        ((s.sendSack q.port q.src stream seq).endQueued { q with ctlIn := seq } 1 0).answerAbort stream seq
      else s.sendSack q.port q.src stream q.ctlIn
    | none, none, some t =>
      if newer 32 t.ctlIn seq then
        ((s.setTerm { t with ctlIn := seq }).sendSack t.port t.reply stream seq).answerAbort stream seq
      else
        let s1 := s.sendSack t.port t.reply stream t.ctlIn
        match t.abortAnswer with
        | some (n, body) => s1.tx t.port t.reply (rtBytes 5 stream n 1 s1.now body)
        | none => s1
    | none, none, none =>
      s.tx d.port d.src (rtBytes 5 stream 1 0 s.now ([2, 0xFF, 0, 0] ++ toLE 4 0 ++ toLE 4 seq))))

/-- The index ranges of a SACK body. -/
def sackRanges (b : List Nat) : List (Nat × Nat) :=
  (List.range (leAt b 8 1)).map (fun i => (leAt b (16 + 8 * i) 4, leAt b (20 + 8 * i) 4))

/-- A token index is covered by a SACK: below the cumulative index or in a range (R279). -/
def sackHas (b : List Nat) (i : Nat) : Bool :=
  newer 32 i (leAt b 0 4) || (sackRanges b).any (fun r => serLe 32 r.1 i && newer 32 i r.2)

/-- SACK (R278, R279, R282). -/
def execRtSack (dt : Nat) (d : Dgram) (s : State) : Host.Outcome State Fault Refusal :=
  .next ((s.tick dt).rt d 7 (fun b => decide (16 ≤ b.length) && decide (leAt b 8 1 ≤ 8) && b.length == 16 + 8 * leAt b 8 1 && zeroAt b 9 7)
    (fun stream _ flags b s =>
      let s := if flags.testBit 1 then s.setCe { s.ceRec d.src with till := s.clk + 10 ^ 6 } else s
      let keep (l : List TokSent) := l.filter (fun t => !sackHas b t.index)
      let keepC (l : List CtlSent) := l.filter (fun c => newer 32 (leAt b 4 4) c.seq)
      match s.laneOf stream, s.term stream with
      | some (l, x), _ =>
        s.setLane l { x with acked := if newer 32 x.acked (leAt b 0 4) then leAt b 0 4 else x.acked,
                             sent := keep x.sent, ctlSent := keepC x.ctlSent }
      | none, some t => s.setTerm { t with sent := keep t.sent, ctlSent := keepC t.ctlSent }
      | none, none => if s.queue.any (fun q => q.sub.stream == stream) then s else s.discard d))

/-- A lane's credit wait is over where the new limit admits its next token. -/
def LaneRec.credit (x : LaneRec) (seq limit : Nat) : LaneRec :=
  { x with ctlIn := seq, limit := if newer 32 x.limit limit then limit else x.limit }

/-- CREDIT (R280). -/
def execRtCredit (dt : Nat) (d : Dgram) (s : State) : Host.Outcome State Fault Refusal :=
  .next ((s.tick dt).rt d 6 (fun b => b.length == 8 && zeroAt b 4 4) (fun stream seq _ b s =>
    let limit := leAt b 0 4
    match s.laneOf stream, s.queue.find? (fun q => q.sub.stream == stream), s.term stream with
    | some (l, x), _, _ =>
      if newer 32 x.ctlIn seq then ((s.setLane l (x.credit seq limit)).sackLane l).release l else s.sackLane l
    | none, some q, _ =>
      let q1 := if newer 32 q.ctlIn seq then { q with ctlIn := seq, limit := if newer 32 q.limit limit then limit else q.limit } else q
      ({ s with queue := s.queue.map (fun (e : QueueEnt) => if e.sub.stream = stream then q1 else e) } : State).sendSack q.port q.src stream q1.ctlIn
    | none, none, some t =>
      let n := if newer 32 t.ctlIn seq then seq else t.ctlIn
      (s.setTerm { t with ctlIn := n }).sendSack t.port t.reply stream n
    | none, none, none => s.discard d))

-- ------------------------------------------------------------------ retransmission and silence (R279, R281)

/-- The retransmission time-out after a number of tries, in ns: doubling up to 64 times (R279). -/
def State.rto (s : State) (tries : Nat) : Nat := 1000 * s.odGet oRtPanelRtoUs * 2 ^ min tries 6

/-- A token is due for retransmission. -/
def State.tokDue (s : State) (t : TokSent) : Bool := decide (t.lastTx + s.rto t.tries ≤ s.clk)
/-- A control message is due for retransmission. -/
def State.ctlDue (s : State) (c : CtlSent) : Bool := decide (c.lastTx + s.rto c.tries ≤ s.clk)

/-- One message of a stream that is due again, control messages first: the datagram, and what is then outstanding. -/
def State.resend (s : State) (stream : Nat) (ctl : List CtlSent) (sent : List TokSent) :
    Option (List Nat × List CtlSent × List TokSent) :=
  match ctl.find? s.ctlDue with
  | some c => some (rtBytes c.mtype stream c.seq 1 s.now c.body,
      ctl.map (fun e => if e.seq = c.seq then { e with lastTx := s.clk, tries := e.tries + 1 } else e), sent)
  | none => (sent.find? s.tokDue).map (fun t => (rtBytes 2 stream 0 1 s.now (tokensBody [t]), ctl,
      sent.map (fun e => if e.index = t.index then { e with lastTx := s.clk, tries := e.tries + 1 } else e)))

/-- RT_RETRANSMIT (R279): one message of a stream that is unacknowledged past its time-out goes out again, spaced by
R282. -/
def execRtRetransmit (dt stream : Nat) (s : State) : Host.Outcome State Fault Refusal :=
  let s := s.tick dt
  .next (match s.laneOf stream, s.term stream with
    | some (l, x), _ =>
      if !s.ceClear x.dst then s
      else match s.resend stream x.ctlSent x.sent with
        | some (m, ctl, sent) =>
          ((s.setLane l { x with ctlSent := ctl, sent := sent, retransmits := x.retransmits + 1 }).tx x.port x.dst m).ceSent x.dst
        | none => s
    | none, some t =>
      if !s.ceClear t.reply then s
      else match s.resend stream t.ctlSent t.sent with
        | some (m, ctl, sent) => ((s.setTerm { t with ctlSent := ctl, sent := sent }).tx t.port t.reply m).ceSent t.reply
        | none => s
    | none, none => s)

/-- HOST_SILENCE (R281): a stream whose host is silent is aborted as by an ABORT. -/
def execHostSilence (dt stream : Nat) (s : State) : Host.Outcome State Fault Refusal :=
  let s := s.tick dt
  let silent (t : Nat) : Bool := decide (t + 10 ^ 6 * s.odGet oRtPanelHostSilenceMs ≤ s.clk)
  .next (match s.laneOf stream, s.queue.find? (fun q => q.sub.stream == stream && q.port != seamPort) with
    | some (l, x), _ => if silent x.heardAt then s.abortOnLane l x.abortSeq else s
    | none, some q => if silent q.clkAt then s.endQueued q 1 0 else s
    | none, none => s)

-- ------------------------------------------------------------------ PFC (R283)

/-- Lanes bound to a port. -/
def State.portLanes (s : State) (p : Nat) : List Nat := (s.lanes.filter (fun q => q.2.port == p && !q.2.ended)).map (·.1)

/-- The released lanes of a port send what waited. -/
def State.portReleases (s : State) (p : Nat) : State := (s.portLanes p).foldl State.release s

/-- PFC_PAUSE (R283): a pause on the port's priority, one of those that PFC serves. -/
def execPfcPause (dt : Nat) (port : Fin 16) (prio : Nat) (s : State) : Host.Outcome State Fault Refusal :=
  let s := s.tick dt
  let h := s.hostPort port.val
  .next (if prio = s.odGet (oRtPortPcp port.val) ∧ (s.odGet (oRtPortPfcMask port.val)).testBit prio ∧ s.hostUp port.val ∧ h.pausedAt.isNone then
      s.setHostPort port.val { h with pausedAt := some s.clk }
    else s)

/-- A port's pause ends: its time counted, what it held sent. -/
def State.endPause (s : State) (p : Nat) : State :=
  let h := s.hostPort p
  match h.pausedAt with
  | none => s
  | some t =>
    let s1 := (s.setHostPort p { h with pausedAt := none, heldTx := [] }).bumpN (oRtPortPauseNs p) (s.clk - t)
    (h.heldTx.foldl (fun s e => s.txEmit p e) s1).portReleases p

/-- PFC_PAUSE_END (R283). -/
def execPfcPauseEnd (dt : Nat) (port : Fin 16) (s : State) : Host.Outcome State Fault Refusal := .next ((s.tick dt).endPause port.val)

-- ------------------------------------------------------------------ PTP (R284)

/-- The port that runs PTP: the one set while it is UP, else the lowest host port that is UP and receives Announce messages. -/
def State.pickPtp (s : State) : Nat :=
  let set := s.odGet oRtPanelPtpPort
  if set ≠ 0xFF ∧ s.hostUp set then set
  else ((List.range 16).find? (fun p => s.hostUp p && (s.hostPort p).announce)).getD set

/-- PTP_MESSAGE (R284): Announce, or a delay request-response exchange that measured the offset from the master in ns;
other domains and other ports than the one that runs PTP set no time. -/
def execPtpMessage (dt : Nat) (port : Fin 16) (domain : Nat) (announce : Bool) (offsetNs : Int) (s : State) :
    Host.Outcome State Fault Refusal :=
  let s := s.tick dt
  let p := port.val
  .next (if !s.hostUp p ∨ domain ≠ s.odGet oRtPanelPtpDomain then s
    else if announce then
      let s1 := s.setHostPort p { s.hostPort p with announce := true }
      { s1 with ptpCur := s1.pickPtp }
    else if s.ptpCur = p then
      let s1 := ({ s with tbBase := s.tbBase - offsetNs }.odSet oRtPanelPtpOffsetNs (ofSigned 64 offsetNs)).odSet oRtPanelPtpState 1
      if s.boot.firstLock then s1
      else { s1 with boot := { s1.boot with firstLock := true } }.publish24 oDeviceTimeStep (toLE 8 (ofSigned 64 (-offsetNs)))
    else s)

/-- Without a PTP master the time base holds over on the reference (R284). -/
def State.ptpLost (s : State) : State :=
  if s.odGet oRtPanelPtpState = 0 then s else s.odSet oRtPanelPtpState 2

/-- PTP_MASTER_LOSS (R284): the messages of the master stop while the PTP port stays up. -/
def execPtpMasterLoss (dt : Nat) (s : State) : Host.Outcome State Fault Refusal :=
  let s := s.tick dt
  .next (if s.ptpCur ≠ 0xFF ∧ s.hostUp s.ptpCur then s.ptpLost else s)

/-- PTP_PORT_MOVE (R284): the port that ran PTP is not UP; the next one takes over, or the time base holds over. -/
def execPtpPortMove (dt : Nat) (s : State) : Host.Outcome State Fault Refusal :=
  let s := s.tick dt
  .next (if s.ptpCur ≠ 0xFF ∧ !s.hostUp s.ptpCur then
      let s1 := { s with ptpCur := s.pickPtp }
      if s1.ptpCur = 0xFF ∨ !s1.hostUp s1.ptpCur then s1.ptpLost else s1
    else s)

-- ------------------------------------------------------------------ roles and failover (R267, R268, R285 to R287)

/-- A host port's alternate is a HOST port that is UP (R268). -/
def State.altUsable (s : State) (p : Nat) : Bool := s.odGet (oRtPortAlternate p) != p && s.hostUp (s.odGet (oRtPortAlternate p))

/-- A failover event. -/
def State.failoverEvent (s : State) (p kind moved : Nat) : State :=
  s.publish24 oRtPanelFailover ([p, s.odGet (oRtPortAlternate p), kind, 0] ++ toLE 2 moved)

/-- Host ports whose alternate has just become unusable are published with kind 3 (R268). -/
def State.altLost (old s : State) : State :=
  (List.range 16).foldl (fun s p =>
    if s.odGet (oRtPortRole p) = 1 ∧ old.altUsable p ∧ !s.altUsable p ∧ s.odGet (oRtPortAlternate p) < 16 then s.failoverEvent p 3 0 else s) s

/-- Streams bound to a port (R267). -/
def State.portBusy (s : State) (p : Nat) : Bool :=
  s.portLanes p != [] || s.queue.any (fun q => q.port == p)

/-- A role write (R267): 0 done, 1 a bad value, 2 the port has streams. The role that the port has already changes nothing; outside service
the port stays held down (R332). -/
def State.setRole (s : State) (p role : Nat) : Nat × State :=
  if p ≥ 16 ∨ role > 2 ∨ s.odGet (oRtPortRole p) = 3 then (1, s)
  else if s.odGet (oRtPortRole p) = role then (0, s)
  else if role = 1 ∧ ((List.range 16).filter (fun q => q != p && s.odGet (oRtPortRole q) == 1)).length ≥ 4 then (1, s)
  else if s.portBusy p then (2, s)
  else
    let st := if role = 0 ∨ s.dev < 3 ∨ 5 < s.dev then 0 else if s.odGet (oRtModuleState p) = 3 then 1 else if s.odGet (oRtModuleState p) = 0 then 3 else 0
    let s1 := (s.odSet (oRtPortRole p) role).odSet (oRtPortState p) st
    (0, s.altLost (s1.setHostPort p {}))

/-- PORT_ROLE_WRITE (R267). -/
def execPortRoleWrite (dt : Nat) (port : Fin 16) (role : Nat) (s : State) : Host.Outcome State Fault Refusal :=
  .next (((s.tick dt).setRole port.val role).2)

/-- A lane moved to another host port: its unacknowledged tokens and control messages go out there as retransmissions, in
order (R285). -/
def State.moveLane (s : State) (l alt : Nat) : State :=
  match s.lane l with
  | none => s
  | some x =>
    let x1 := { x with
      port := alt, useAlt := true, failovers := x.failovers + 1, retransmits := x.retransmits + x.sent.length + x.ctlSent.length
      sent := x.sent.map (fun t => { t with lastTx := s.clk }), ctlSent := x.ctlSent.map (fun c => { c with lastTx := s.clk }) }
    let s1 := s.setLane l x1
    let s2 := x.sent.foldl (fun s t => s.tx alt x1.dst (rtBytes 2 x.sub.stream 0 1 s.now (tokensBody [t]))) s1
    x.ctlSent.foldl (fun s c => s.tx alt x1.dst (rtBytes c.mtype x.sub.stream c.seq 1 s.now c.body)) s2

/-- A terminal record moved to another host port. -/
def State.moveTerm (s : State) (t : TermRec) (alt : Nat) : State :=
  let dst := if t.alt.family ≠ 0 then t.alt else t.reply
  let s1 := s.setTerm { t with port := alt, reply := dst, ctlSent := t.ctlSent.map (fun c => { c with lastTx := s.clk }) }
  t.ctlSent.foldl (fun s c => s.tx alt dst (rtBytes c.mtype t.stream c.seq 1 s.now c.body)) s1

/-- A host port has failed (R285): its streams move to its alternate, or stay where it has none that is usable. -/
def State.failPort (s : State) (p : Nat) : State :=
  if s.odGet (oRtPortRole p) ≠ 1 ∨ s.odGet (oRtPortState p) ≠ 2 then s
  else
    let h := s.hostPort p
    let s1 := match h.pausedAt with | some t => s.bumpN (oRtPortPauseNs p) (s.clk - t) | none => s
    let s2 := ((s1.odSet (oRtPortState p) 0).bump (oRtPortLinkDowns p)).setHostPort p {}
    let s3 := s.altLost s2
    let alt := s3.odGet (oRtPortAlternate p)
    let ls := s3.portLanes p
    if !s3.altUsable p then
      s3.failoverEvent p (if alt ≥ 16 ∨ s3.odGet (oRtPortRole alt) ≠ 1 then 2 else 3) 0
    else
      let s4 := ls.foldl (fun s l => s.moveLane l alt) s3
      let s5 := (s4.terms.filter (fun t => t.port == p)).foldl (fun s t => s.moveTerm t alt) s4
      let rebind (q : QueueEnt) : QueueEnt := { q with port := alt, src := if q.sub.alt.family ≠ 0 then q.sub.alt else q.src }
      let s6 := { s5 with queue := s5.queue.map (fun (q : QueueEnt) => if q.port = p then rebind q else q) }
      (if ls = [] then s6 else s6.bump oRtPanelFailovers).failoverEvent p 1 ls.length

/-- HOST_PORT_FAIL (R285): the port's PCS has lost alignment for the limit, or its module or port die has failed. -/
def execHostPortFail (dt : Nat) (port : Fin 16) (s : State) : Host.Outcome State Fault Refusal := .next ((s.tick dt).failPort port.val)

/-- An LLDP frame out of a port (R273): chassis MAC, port ID, system name. -/
def State.sendLldp (s : State) (p : Nat) : State :=
  s.txEmit p (.frame p 0 (toLE 6 (s.odGet (oRtPortMac p)) ++ padTo 32 (80 :: (if p < 10 then [48 + p] else [49, 38 + p])) ++
    toLE 16 (s.odGet oFloorPanelSerial)))

/-- HOST_PORT_UP (R287): the link has trained; new SUBMITs are taken, and streams still bound to it send. -/
def execHostPortUp (dt : Nat) (port : Fin 16) (s : State) : Host.Outcome State Fault Refusal :=
  let s := s.tick dt
  let p := port.val
  .next (if s.odGet (oRtPortRole p) = 1 ∧ s.odGet (oRtPortState p) < 2 ∧ s.odGet (oRtModuleState p) = 3 then
      ((s.odSet (oRtPortState p) 2).sendLldp p).portReleases p
    else s)

-- ------------------------------------------------------------------ optical modules (R288, R289, R374)

/-- The life record of a module serial: the one that has it, else an empty one, else the one least recently seen (R374). -/
def State.lifeEntry (s : State) (serial : Nat) : Nat :=
  match (List.range 64).find? (fun e => s.odGet (oAgeingLifeSerial e) == serial) with
  | some e => e
  | none => match (List.range 64).find? (fun e => s.odGet (oAgeingLifeSerial e) == 0) with
    | some e => e
    | none => ((sortBy (fun e => s.odGet (oAgeingLifeLastSeen e)) (List.range 64)).head?).getD 0

/-- A module takes up its life record (R289, R374). -/
def State.takeLife (s : State) (p serial part : Nat) : State :=
  let e := s.lifeEntry serial
  let s1 := if s.odGet (oAgeingLifeSerial e) = serial then s
    else (List.range 9).foldl (fun s i => s.odSet (oAgeingLife e + i) 0) s
  let s2 := ((s1.odSet (oAgeingLifeSerial e) serial).odSet (oAgeingLifePart e) part).odSet (oAgeingLifeLastSeen e) s.now
  { (s2.bump (oAgeingLifeInsertions e)).odSet (oAgeingModuleEntry p) e with cages := mset {} s2.cages p {}, storeDirty := true }

/-- A module event. -/
def State.moduleEvent (s : State) (p kind refusal : Nat) : State :=
  s.publish24 oRtPanelModuleEvent ([p, kind, refusal, 0, 0, 0, 0, 0] ++ toLE 8 (s.odGet (oRtModuleSerial p)))

/-- MODULE_INSERT (R288): vendor, part, serial and revision strings, the CMIS revision, whether the module advertises the
1.6 Tb/s application, its greatest power in mW, and its high warning for laser bias. The hub identifies modules from
step 14 of bring-up on (R456); a blanked cage has no power and reads ABSENT (R481). -/
def execModuleInsert (dt : Nat) (port : Fin 16) (vendor part serial revision cmis : Nat) (app : Bool) (powerMw warnUa : Nat) (s : State) :
    Host.Outcome State Fault Refusal :=
  let s := s.tick dt
  let p := port.val
  let s1 := (((((s.odSet (oRtModuleVendor p) vendor).odSet (oRtModulePart p) part).odSet (oRtModuleSerial p) serial).odSet
    (oRtModuleRevision p) revision).odSet (oRtModuleCmisRev p) (cmis % 256)).odSet (oRtModuleInsertedAt p) s.now
  let s2 := s1.takeLife p serial part
  let s3 := ({ s2 with cages := mset {} s2.cages p { warnUa := warnUa } }).moduleEvent p 1 0
  let served : Bool := s.dev == 3 || s.dev == 4 || s.dev == 5 || (s.dev == 2 && s.odGet oBootProgressStep == 14)
  let refusal := if cmis % 256 < 0x50 then 1 else if !app then 2 else if powerMw > 30000 then 3 else 0
  .next (if !served ∨ s.odGet (oRtPortRole p) = 3 then s
    else if refusal ≠ 0 then
      (((s3.odSet (oRtModuleState p) 2).odSet (oRtModuleRefusal p) refusal).odSet (oRtPortState p)
        (if s3.odGet (oRtPortRole p) = 3 then 4 else 0)).moduleEvent p 3 refusal
    else
      (((s3.odSet (oRtModuleState p) 3).odSet (oRtModuleRefusal p) 0).odSet (oRtPortState p)
        (match s3.odGet (oRtPortRole p) with | 0 => 0 | 3 => 4 | _ => 1)).moduleEvent p 5 0)

/-- An optical module in use is gone: a single fault whose repair is the port's failure (R377, R383). The promise lapses where the port
had no alternate to go to (R379). -/
def State.moduleFault (s : State) (p : Nat) : State :=
  if [1, 2].contains (s.odGet (oRtPortRole p)) ∧ s.odGet (oRtModuleState p) = 3 then
    (s.failPort p).instantRepair 10 p (s.odGet (oRtPortRole p) == 1 && s.odGet (oRtPortState p) == 2 && !s.altUsable p)
  else s.failPort p

/-- A module has left its cage (R289): the removal is published and the cage reads ABSENT; a host port fails. -/
def State.removeModule (s : State) (p : Nat) : State :=
  let s1 := ((s.moduleFault p).moduleEvent p 2 0).odSet (oRtPortState p) (if s.odGet (oRtPortRole p) = 3 then 4 else 3)
  let s2 := (List.range 10).foldl (fun s i => if i = 0 then s else s.odSet (oRtModule p + i) 0) s1
  { s2.odSet (oAgeingModuleEntry p) 0xFF with cages := mdel s2.cages p }

/-- The end-of-life bias of a module (R375): its CMIS high warning, or 1.5 times the initial bias if that is less. -/
def State.eolBias (s : State) (p : Nat) : Nat :=
  let e := s.odGet (oAgeingModuleEntry p)
  let warn := (mget {} s.cages p).warnUa
  let first := if e < 64 then s.odGet (oAgeingLifeInitialBiasUa e) else 0
  if first = 0 then warn else min warn (first * 3 / 2)

/-- A replacement event of a module, each kind once per insertion (R375). -/
def State.replaceEvent (s : State) (p kind days bias : Nat) : State :=
  let c := mget {} s.cages p
  if c.told.contains kind then s
  else
    ({ s with cages := mset {} s.cages p { c with told := c.told ++ [kind] } } : State).publish24 oAgeingModuleReplace
      ([p, kind] ++ toLE 2 days ++ toLE 4 bias ++ toLE 8 (s.odGet (oRtModuleSerial p)))

/-- MODULE_MONITOR_READ (R288, R374): temperature, and the worst lane's laser bias of this second; a CMIS fault makes the
module FAULT, and its host port fails (R285). -/
def execModuleMonitorRead (dt : Nat) (port : Fin 16) (tempMc : Int) (biasUa : Nat) (fault : Bool) (s : State) :
    Host.Outcome State Fault Refusal :=
  let s := s.tick dt
  let p := port.val
  .next (if s.odGet (oRtModuleState p) = 0 then s
    else
      let s1 := s.odSet (oRtModuleTempMc p) (ofSigned 32 tempMc)
      let e := s.odGet (oAgeingModuleEntry p)
      let s2 := if e < 64 then
          let s2 := s1.odSet (oAgeingLifeLastSeen e) s.now
          if toSigned 32 (s2.odGet (oAgeingLifeMaxTempMc e)) < tempMc then s2.odSet (oAgeingLifeMaxTempMc e) (ofSigned 32 tempMc) else s2
        else s1
      let c := mget {} s2.cages p
      let s3 := { s2 with cages := mset {} s2.cages p { c with sum := c.sum + biasUa, count := c.count + 1 } }
      let s4 := if fault ∨ s3.eolBias p ≤ biasUa then s3.replaceEvent p 3 (s3.odGet (oAgeingModuleDaysLeft p)) biasUa else s3
      if fault ∧ s.odGet (oRtModuleState p) ≠ 4 then (((s4.moduleFault p).odSet (oRtModuleState p) 4).moduleEvent p 4 0) else s4)

-- ------------------------------------------------------------------ discovery, ARP, ND, echo (R270, R273)

/-- LLDP_RECEIVE (R273): chassis MAC, port ID and system name of the neighbour are published. -/
def execLldpReceive (dt : Nat) (port : Fin 16) (mac : Nat) (portId name : List Nat) (s : State) : Host.Outcome State Fault Refusal :=
  let s := s.tick dt
  .next (if s.hostUp port.val then
      s.odSet (oRtPortLldpNeighbor port.val) (ofLE (toLE 6 mac ++ padTo 32 portId ++ padTo 26 name))
    else s)

/-- The address is the port's own (R270, R271). -/
def State.ownAddr (s : State) (p : Nat) (v6 : Bool) (a : Nat) : Bool :=
  if v6 then (a != 0 && a == s.odGet (oRtPortIpv6 p)) || a == linkLocal (s.odGet (oRtPortMac p)) else a != 0 && a == s.odGet (oRtPortIpv4 p)

/-- ARP_REQUEST (R270): answered with the port's MAC address. -/
def execArpRequest (dt : Nat) (port : Fin 16) (target sender : Nat) (s : State) : Host.Outcome State Fault Refusal :=
  let s := s.tick dt
  let p := port.val
  .next (if s.hostUp p && s.ownAddr p false target then
      s.txEmit p (.frame p 1 (toLE 6 (s.odGet (oRtPortMac p)) ++ toLE 4 target ++ toLE 4 sender))
    else s)

/-- NEIGHBOR_DISCOVERY (R270): a solicitation of an address of the port is answered with its MAC address. -/
def execNeighborDiscovery (dt : Nat) (port : Fin 16) (target sender : Nat) (s : State) : Host.Outcome State Fault Refusal :=
  let s := s.tick dt
  let p := port.val
  .next (if s.hostUp p && s.ownAddr p true target then
      s.txEmit p (.frame p 2 (toLE 6 (s.odGet (oRtPortMac p)) ++ toLE 16 target ++ toLE 16 sender))
    else s)

/-- ICMP_ECHO (R270, R271): an echo request to an address of the port is answered with its data; one that is a fragment
or carries options or extension headers is discarded. -/
def execIcmpEcho (dt : Nat) (d : Dgram) (v6 : Bool) (target : Nat) (s : State) : Host.Outcome State Fault Refusal :=
  let s := s.tick dt
  .next (if !s.hostUp d.port then s
    else if d.frag then s.discard d
    else if s.ownAddr d.port v6 target then
      s.txEmit d.port (.frame d.port (if v6 then 4 else 3) (toLE 16 d.src.addr ++ d.body))
    else s)

end Sys2Proof.Machine
end

