-- ==== Sys2Proof/Machine/Slots.lean ====
section
/-!
DEFINITION. Furnish slots and re-planning (R220 to R241): slot commands and image writes, load checks, placement,
unloading, resupply, live moves, slices, speed factors, spare plans, weight copies and mirrors. Choices that the spec
leaves to the placer are in log entries 31 to 33.
-/
namespace Sys2Proof.Machine

-- ------------------------------------------------------------------ slot commands (R220)

/-- A slot command refused (R220): the command reads 2, load_error holds 0x0009, nothing else changes. -/
def State.slotRefuse (s : State) (i : Nat) : State := (s.odSet (oPlacementSlotCommand i) 2).odSet (oPlacementSlotLoadError i) 9

/-- A command of a slot done. -/
def State.slotDone (s : State) (i : Nat) : State := s.odSet (oPlacementSlotCommand i) 0

/-- A command of a slot is still running. -/
def State.slotRunning (s : State) (i : Nat) : Bool := s.odGet (oPlacementSlotCommand i) == 1

/-- The state with a slot's state code set. -/
def State.toSlotState (s : State) (i v : Nat) : State := s.odSet (oPlacementSlotState i) v

/-- The free ranges of a stack below its limit: ranges allocated in offset order. -/
def gapsOf (limit : Nat) : Nat → List (Nat × Nat) → List (Nat × Nat)
  | at', [] => if at' < limit then [(at', limit - at')] else []
  | at', (o, l) :: t => (if at' < o then [(at', o - at')] else []) ++ gapsOf limit (max at' (o + l)) t

/-- Staging of n bytes over the free ranges of the online stacks, in ascending stack and offset (R220). -/
def State.stagePieces (s : State) (n : Nat) : List Alloc × Nat :=
  (((List.range 32).filter s.stackOnline).map (fun i => (gapsOf (s.stackLimit i) 0 (s.rangesOn i)).map (fun g => (i, g)))).flatten.foldl
    (fun (st : List Alloc × Nat) p =>
      if st.2 = 0 then st else (st.1 ++ [⟨p.1, p.2.1, min p.2.2 st.2, 0⟩], st.2 - min p.2.2 st.2)) ([], n)

/-- BEGIN (R220). -/
def State.slotBegin (s : State) (i : Nat) : State :=
  let n := s.odGet (oPlacementSlotImageLength i)
  let (pieces, short) := s.stagePieces n
  if (s.slotState i ≠ 0 ∧ s.slotState i ≠ 7) ∨ n = 0 ∨ short ≠ 0 then s.slotRefuse i
  else
    let s1 := { s.setPslot i {} with allocs := s.allocs ++ pieces.map (fun (a : Alloc) => { a with owner := ownStaging i }) }
    (((s1.odSet (oPlacementSlotCursor i) 0).odSet (oPlacementSlotLoadError i) 0).toSlotState i 1).slotDone i

/-- Writes to cursor and image are accepted (R220). -/
def State.imageOpen (s : State) (i : Nat) : Bool :=
  let v := s.slotState i
  v == 1 || ((v == 4 || v == 5) && (s.pslot i).resupply != [])

/-- An image write at the cursor (R220): none is BAD_VALUE. -/
def State.slotImage (s : State) (i : Nat) (b : List Nat) : Option State :=
  let c := s.odGet (oPlacementSlotCursor i)
  if !s.imageOpen i ∨ b = [] ∨ b.length > 1024 ∨ c + b.length > s.odGet (oPlacementSlotImageLength i) then none
  else
    let x := s.pslot i
    some ((s.setPslot i { x with image := overlay x.image c b }).odSet (oPlacementSlotCursor i) (c + b.length))

/-- A cursor write (R220): none is BAD_VALUE. -/
def State.slotCursor (s : State) (i v : Nat) : Option State :=
  if !s.imageOpen i ∨ v > s.odGet (oPlacementSlotImageLength i) then none else some (s.odSet (oPlacementSlotCursor i) v)

/-- COMMIT (R220): the checks start, and the command runs until they end. -/
def State.slotCommit (s : State) (i : Nat) : State :=
  if s.slotState i ≠ 1 ∨ s.odGet (oPlacementSlotCursor i) ≠ s.odGet (oPlacementSlotImageLength i) then s.slotRefuse i
  else (s.toSlotState i 2).odSet (oPlacementSlotCommand i) 1

/-- Everything that a slot holds in stack space freed. -/
def State.freeSlotSpace (s : State) (i : Nat) : State :=
  let mine (o : Nat) : Bool := o == ownStaging i || (o / 2 ^ 40 == 2 && o % 2 ^ 40 / 2 ^ 34 == i) || (o / 2 ^ 40 == 4 && o % 2 ^ 40 / 2 ^ 20 == i)
  { s with
    allocs := s.allocs.filter (fun a => !mine a.owner)
    pgroups := s.pgroups.map (fun p => (p.1, { p.2 with used := p.2.used.filter (fun u => !mine u.2.2.2) })) }

/-- A slot back to EMPTY: its objects at their defaults but for the hints. -/
def State.slotEmpty (s : State) (i : Nat) : State :=
  let s1 := (s.freeSlotSpace i).setPslot i {}
  ((List.range 20).foldl (fun s j => if j = 0 ∨ j = 0x0C then s else s.odSet (oPlacementSlot i + j) 0) s1).odSet (oCascadeSlotEstPassUs i) 0

/-- CANCEL (R220). -/
def State.slotCancel (s : State) (i : Nat) : State :=
  if s.slotState i = 1 ∨ s.slotState i = 7 then s.slotEmpty i else s.slotRefuse i

/-- UNLOAD (R220): refused while a stream of the slot is admitted; queued streams whose furnish no other slot holds end. -/
def State.slotUnload (s : State) (i : Nat) : State :=
  let v := s.slotState i
  if (v ≠ 4 ∧ v ≠ 5) ∨ s.lanes.any (fun p => p.2.slot == i && !p.2.ended) then s.slotRefuse i
  else
    let s1 := (s.toSlotState i 6).odSet (oPlacementSlotCommand i) 1
    (s1.queue.filter (fun q => s1.holders q.sub.furnish == [])).foldl (fun s q => s.endQueued q 3 1) s1

-- ------------------------------------------------------------------ weight copies and resupply (R203, R222)

/-- Sections with one copy left (stack.panel.single_copy_sections). -/
def State.singleCopies (s : State) : Nat :=
  sumN (s.pslots.map (fun p => match p.2.placed with
    | some x => (x.copies.filter (fun c => (liveCopies c.2).length == 1)).length
    | none => 0))

/-- The resupply event of a slot's section: ID, image offset, length; asked again it starts no new wait (R222). -/
def State.askResupply (s : State) (i sec : Nat) : State :=
  let x := s.pslot i
  let e := ((x.furn.map (·.sects)).getD []).find? (fun t => t.id == sec)
  let s1 := s.publish (oPlacementSlotResupply i) (toLE 4 sec ++ toLE 8 ((e.map (·.off)).getD 0) ++ toLE 8 ((e.map (·.len)).getD 0) ++ toLE 4 0)
  s1.setPslot i { x with resupply := if x.resupply.any (fun r => r.1 == sec) then x.resupply else x.resupply ++ [(sec, s.clk)] }

/-- Every section of a slot that has no copy left is asked for, once (R222). -/
def State.askLost (s : State) (i : Nat) : State :=
  match (s.pslot i).placed with
  | some p => (p.copies.filter (fun c => liveCopies c.2 == [] && !((s.pslot i).resupply.any (fun r => r.1 == c.1)))).foldl
      (fun s c => s.askResupply i c.1) s
  | none => s

/-- A section of a slot's furnish. -/
def State.sectionOf (s : State) (i sec : Nat) : Option Sect := ((s.pslot i).furn.map (·.sects)).bind (fun l => l.find? (fun t => t.id == sec))

/-- One section of a RESUPPLY (R222): where its bytes' digest is the recorded one, two copies are restored; else, or where no
stack has room, it is asked for again. -/
def State.resupplySection (s : State) (i sec : Nat) : State :=
  let x := s.pslot i
  match s.sectionOf i sec, x.placed with
  | some e, some p =>
    let b := sectBytes x.image e
    if (x.digests.find? (fun d => d.1 == sec)).map (·.2) ≠ some (sha384 b) ∨ b.length ≠ e.len then s.askResupply i sec
    else
      let s1 := s.setPslot i { x with placed := some { p with copies := p.copies.filter (fun c => c.1 != sec) } }
      match s1.putCopies i (s1.seats i) e with
      | some s2 => s2.setPslot i { s2.pslot i with resupply := (s2.pslot i).resupply.filter (fun r => r.1 != sec) }
      | none => s.askResupply i sec
  | _, _ => s

/-- RESUPPLY (R222): each section asked for is looked at, the bytes written are used up, and the buffers that name the sections
are bound to the new copies. -/
def State.slotResupply (s : State) (i : Nat) : State :=
  let x := s.pslot i
  if x.resupply = [] ∨ (s.slotState i ≠ 4 ∧ s.slotState i ≠ 5) then s.slotRefuse i
  else
    let s1 := x.resupply.foldl (fun s r => s.resupplySection i r.1) s
    ((s1.setPslot i { s1.pslot i with image := [] }).rebindSlot i).slotDone i

/-- A write of a command to a slot: none is BAD_VALUE, while another runs or for an unknown code (R220, R320), and for BEGIN on
a cascade's member (R410). -/
def State.slotCommand (s : State) (i cmd : Nat) : Option State :=
  if s.slotRunning i ∨ (cmd = 1 ∧ s.inCascade ∧ !s.cascadeMaster) then none
  else match cmd with
    | 1 => some (s.slotBegin i)
    | 2 => some (s.slotCommit i)
    | 3 => some (s.slotCancel i)
    | 4 => some (s.slotUnload i)
    | 5 => some (s.slotResupply i)
    | _ => none

/-- SLOT_BEGIN (R220). -/
def execSlotBegin (dt : Nat) (slot : Fin 8) (s : State) : Host.Outcome State Fault Refusal :=
  .next (((s.tick dt).slotCommand slot.val 1).getD (s.tick dt))
/-- SLOT_IMAGE_WRITE (R220). -/
def execSlotImageWrite (dt : Nat) (slot : Fin 8) (b : List Nat) (s : State) : Host.Outcome State Fault Refusal :=
  .next (((s.tick dt).slotImage slot.val b).getD (s.tick dt))
/-- SLOT_CURSOR_WRITE (R220). -/
def execSlotCursorWrite (dt : Nat) (slot : Fin 8) (v : Nat) (s : State) : Host.Outcome State Fault Refusal :=
  .next (((s.tick dt).slotCursor slot.val v).getD (s.tick dt))
/-- SLOT_COMMIT (R220). -/
def execSlotCommit (dt : Nat) (slot : Fin 8) (s : State) : Host.Outcome State Fault Refusal :=
  .next (((s.tick dt).slotCommand slot.val 2).getD (s.tick dt))
/-- SLOT_CANCEL (R220). -/
def execSlotCancel (dt : Nat) (slot : Fin 8) (s : State) : Host.Outcome State Fault Refusal :=
  .next (((s.tick dt).slotCommand slot.val 3).getD (s.tick dt))
/-- SLOT_UNLOAD (R220). -/
def execSlotUnload (dt : Nat) (slot : Fin 8) (s : State) : Host.Outcome State Fault Refusal :=
  .next (((s.tick dt).slotCommand slot.val 4).getD (s.tick dt))
/-- RESUPPLY (R222). -/
def execResupply (dt : Nat) (slot : Fin 8) (s : State) : Host.Outcome State Fault Refusal :=
  .next (((s.tick dt).slotCommand slot.val 5).getD (s.tick dt))

/-- A stack's weight copies are lost (R203): reloads use the other copy; a section with none is asked of the host. -/
def State.loseCopies (s : State) (i : Nat) : State :=
  let s1 : State := { s with
    allocs := s.allocs.filter (fun a => !(a.stack == i && a.owner / 2 ^ 40 == 2))
    pslots := s.pslots.map (fun (p : Nat × PSlot) => (p.1, { p.2 with placed := p.2.placed.map (fun x =>
      { x with copies := x.copies.map (fun c =>
        (c.1, (c.2.filter (fun e => e.1 != i)) ++ (c.2.filter (fun e => e.1 == i)).map (fun e => (0x100 + e.1, 0)))) }) })) }
  (List.range 8).foldl State.askLost s1

/-- A section's bytes copied from its one copy to a new place on a stack, its second copy from then on (R203). -/
def State.secondCopy (s : State) (i sec : Nat) (a : Nat × Nat) (k o len : Nat) : State :=
  let s1 := s.putBytes (stackNode k) o (s.bytesAt (stackNode a.1) a.2 len)
  let x := s1.pslot i
  s1.setPslot i { x with placed := x.placed.map (fun p =>
    { p with copies := p.copies.map (fun d => if d.1 = sec then (sec, [a, (k, o)]) else d) }) }

/-- WEIGHT_COPY_RESTORE (R203): a section with one copy gets its second again, as near its readers as a stack outside
the surviving copy's sector allows, best in a sector that held neither. Buffers are then bound to the nearer copy. -/
def execWeightCopyRestore (dt : Nat) (slot : Fin 8) (sec : Nat) (s : State) : Host.Outcome State Fault Refusal :=
  let s := s.tick dt
  let i := slot.val
  .next (match (s.pslot i).placed.bind (fun x => x.copies.find? (fun c => c.1 == sec)), s.sectionOf i sec with
    | some c, some e => match liveCopies c.2 with
      | [a] =>
        let g := mostDie (readersOf (s.seats i) 0 sec)
        let was := (c.2.filter (fun d => decide (0x100 ≤ d.1))).map (fun d => (d.1 - 0x100) / 2)
        let cands := s.nearStacks g (fun k => k / 2 != a.1 / 2 && (s.fit k e.len).isSome)
        match cands.filter (fun k => !was.contains (k / 2)) ++ cands with
        | k :: _ =>
          match s.allocate k e.len (ownCopy i sec (if s.allocs.any (fun b => b.owner == ownCopy i sec 0) then 1 else 0)) with
          | some (o, s1) => (s1.secondCopy i sec a k o e.len).rebindSlot i
          | none => s
        | [] => s
      | _ => s
    | _, _ => s)

-- ------------------------------------------------------------------ mirrors (R385)

/-- Rows of a tile that its furnish uses: the most of its logical tiles (R212). -/
def State.rowsUsed (s : State) (k : Nat) : Nat :=
  maxN ((List.range 8).map (fun i => maxN (((s.seats i).filter (fun q => q.2.2 == k)).map (fun q => q.2.1.rowsM1 + 1))))

/-- Rows of mirrors on a tile. -/
def State.mirrorEnd (s : State) (k : Nat) : Nat :=
  maxN (s.pslots.map (fun p => match p.2.placed with
    | some x => maxN ((x.mirrors.filter (fun m => m.mTile == k)).map (fun m => m.mRow + rRows ((s.tile m.tile).region m.entry)))
    | none => 0))

/-- The KV windows of a seat: entry, region as configured. -/
def windowEntries (q : Seat) : List (Nat × Region) :=
  let l := tileRegions q.1 q.2.1
  ((List.range l.length).filterMap (fun e => (l[e]?).map (fun g => (e, ({ g0 := g.1, g1 := g.2 } : Region))))).filter
    (fun p => rKind p.2 == 4 && !rConsume p.2)

/-- The mirror of one window: the partner tile of the same number, else the nearest on its die with room (R385). -/
def State.addMirror (s : State) (slot k : Nat) (p : Nat × Region) : State :=
  let g := (s.partnerOf (k / 64)).getD 256
  let n := rRows p.2
  let base (j : Nat) : Nat := max (s.rowsUsed j) (s.mirrorEnd j)
  let room := (s.goodTiles g).filter (fun j => decide (base j + n ≤ 65536))
  let j := if room.contains (g * 64 + k % 64) then some (g * 64 + k % 64)
    else (sortBy (fun j => dieHops (g * 64 + k % 64) j * 64 + j % 64) room).head?
  let x := s.pslot slot
  if g ≥ 256 then s
  else match j, x.placed with
    | some j, some pl =>
      let at' := ((s.tile k).region p.1).commit
      let m : Mirror := ⟨k, p.1, j, base j, at'⟩
      (s.setPslot slot { x with placed := some { pl with mirrors := pl.mirrors ++ [m] } }).putRows j (64 * base j) (s.rowsAt k (64 * rBase p.2) n)
    | _, _ => s

/-- The mirrors of a slot assigned anew, and filled from its windows (R385). -/
def State.assignMirrors (s : State) (slot : Nat) : State :=
  let x := s.pslot slot
  let s1 := s.setPslot slot { x with placed := x.placed.map (fun p => { p with mirrors := [] }) }
  (s.seats slot).foldl (fun s q => (windowEntries q).foldl (fun s p => s.addMirror slot q.2.2 p) s) s1

/-- The pairing of a re-plan (R226): who is unpaired is paired again, and every placed slot's mirrors follow. -/
def State.rematch (s : State) : State :=
  ((List.range 8).filter (fun i => s.slotState i == 4)).foldl State.assignMirrors s.pairRest

/-- The tiles of a die that hold a KV window, and those that have a mirror. -/
def State.windowTiles (s : State) (g : Nat) : List (Nat × Nat) :=
  (((List.range 8).map (fun i => ((s.seats i).filter (fun q => q.2.2 / 64 == g)).map (fun q => (windowEntries q).map (fun p => (q.2.2, p.1))))).flatten).flatten

/-- fault.site.mirror_state of a die: 0 no window, 1 mirrored, 2 unmirrored, 3 partner lost. -/
def State.mirrorState (s : State) (g : Nat) : Nat :=
  let ws := s.windowTiles g
  let ms := (s.pslots.map (fun p => match p.2.placed with | some x => x.mirrors | none => [])).flatten
  if ws = [] then 0
  else if (s.partnerOf g).any (fun q => !s.dieUsable q) then 3
  else if ws.all (fun w => ms.any (fun m => m.tile == w.1 && m.entry == w.2)) then 1
  else 2

-- ------------------------------------------------------------------ checks and placement (R220, R221, R227, R235)

/-- The state as it would be with spares designated, for the first placement (R225). -/
def State.withSpares (s : State) : State := if s.sparesChosen then s else s.designateSpares

/-- Check 9 (R221): the furnish fits at a supported fold factor on the panel alone, and its copies and state in the
stacks (log entry 31). -/
def State.check9 (s : State) (f : Furnish) : Bool :=
  let share := ((s.withSpares).curve).length
  let len (k : Nat) : Nat := sumN ((f.sects.filter (fun x => x.kind == k)).map (·.len))
  let space := sumN (((List.range 32).filter s.stackOnline).map s.stackLimit)
  (chooseFold f 1 f.refContext share).isSome && decide (2 * len 3 + ceilDiv (12 * len 4) 10 ≤ space)

/-- The bytes of load_error (R221). -/
def errBytes (e : LoadErr) : Nat := ofLE (toLE 2 e.1 ++ toLE 4 e.2.1 ++ toLE 2 e.2.2.1 ++ toLE 2 e.2.2.2)

/-- A slot is pinned (R235): it holds an admitted express stream, or its pin hint is followed. -/
def State.pinned (s : State) (i : Nat) : Bool :=
  s.lanes.any (fun p => p.2.slot == i && p.2.sub.cls == 0) ||
  (s.slotState i == 4 && (s.odGet (oPlacementSlotHintsHonoured i)).testBit 2)

/-- A slot's place in the placement order (R235): pinned, then with a queued express stream, then by number. -/
def State.placeRank (s : State) (i : Nat) : Nat :=
  let pinned := s.pinned i || (s.hints i).pin
  let wants := match (s.pslot i).furn with
    | some f => s.queue.any (fun q => q.sub.cls == 0 && q.sub.furnish == f.fid)
    | none => false
  (if pinned then 0 else if wants then 8 else 16) + i

/-- Which hints a placement followed (R224): bit n is field .0n+1. -/
def State.honoured (s : State) (i n : Nat) (seats : List Seat) : Nat :=
  let h := s.hints i
  let out := (seats.filter (fun q => q.1.role == 3)).map (fun q => q.2.2 / 64)
  (if h.context ≠ 0 then 1 else 0) + (if h.ports ≠ 0 ∧ out.all (fun g => (egressSites h.ports).contains g) then 2 else 0) +
  (if h.pin then 4 else 0) + (if h.minFold > 1 ∧ h.minFold ≤ n then 8 else 0) + (if h.weight > 1 then 16 else 0)

/-- Weight copies and state sections of a slot placed in stack space, its staging freed (R220, R229). -/
def State.placeData (s : State) (i : Nat) (f : Furnish) (seats : List Seat) : Option State :=
  let s0 := s.freeOwner (ownStaging i)
  let s1 := (f.sects.filter (fun x => x.kind == 3)).foldl (fun st x => st.bind (fun s => s.putCopies i seats x)) (some s0)
  (f.sects.filter (fun x => x.kind == 4)).foldl (fun st x => st.bind (fun s => s.putState i seats x)) s1

/-- Seats of a slot put in place: floor-plan records, multicast groups, homes, mirrors, configuration of lap 0 (R229). -/
def State.seatSlot (s : State) (i n : Nat) (seats : List Seat) (f : Furnish) : State :=
  let x := s.pslot i
  let coords := seats.map (fun q => (q.2.1.coord, q.2.2))
  let vars := ((seats.map (fun q => (q.1.region, q.1.variant))).eraseDups)
  let s1 := s.setPslot i { x with lap := 0, lapLeft := 0, placed := x.placed.map (fun p => { p with variants := vars, tiles := coords, fold := n }) }
  let s2 := if ((s1.pslot i).placed.map (·.kvHome)).getD [] = [] then f.kv.foldl (fun s kv => s.addHome i seats kv) s1 else s1
  let s3 := if ((s2.pslot i).placed.map (·.groups)).getD [] = [] then s2.numberGroups i f else s2
  let s4 := (seats.filter (fun q => lapOf f n q.1 == 0)).foldl (fun s q => s.recordSeat i q) s3
  s4.assignMirrors i

/-- What a slot's placement was decided for (R224). -/
def State.decided (s : State) (i : Nat) (f : Furnish) : State :=
  s.setPslot i { s.pslot i with decidedFor := (sizedContext f (s.hints i), (s.hints i).minFold) }

/-- The objects of a slot that has been placed; in a cascade its estimate is the cascade's too (R427, log entry 33). -/
def State.slotPlaced (s : State) (i n ctx est cap bulk : Nat) (l : List RegionProg) (f : Furnish) : State :=
  let s1 := ((s.odSet (oPlacementSlotFoldFactor i) n).odSet (oPlacementSlotBottleneck i)
    (ceilDiv (maxN (l.map (bottleneckOf f ctx))) 1024)).odSet (oPlacementSlotEstPassUs i) est
  let s1 := s1.odSet (oCascadeSlotEstPassUs i) (if s.inCascade then est else 0)
  let s2 := ((s1.odSet (oPlacementSlotExpressCapacity i) cap).odSet (oPlacementSlotBulkRate i) bulk).odSet (oPlacementSlotPlacedAt i) s.now
  (s2.odSet (oPlacementSlotHintsHonoured i) (s.honoured i n (s.seats i))).toSlotState i 4

/-- The configuration of a slot's lap 0, started (R113). Its tiles were empty, so that no queue of theirs is to be closed (R110). -/
def State.startSlot (s : State) (i : Nat) : State :=
  match (s.pslot i).furn, (s.pslot i).placed with
  | some f, some p =>
    let seats := (s.seats i).filter (fun q => lapOf f p.fold q.1 == 0)
    let wm := match seats with | q :: _ => s.nextWm q.2.2 | [] => 1
    let s1 := seats.foldl (fun s q => s.configure i q) s
    s1.setPslot i { s1.pslot i with wm := wm }
  | _, _ => s

/-- A placement that the stacks have no room for fails the slot with error 7, and gives up what it holds (R220, R221). -/
def State.placeFails (s : State) (i : Nat) : State :=
  (((s.freeSlotSpace i).odSet (oPlacementSlotLoadError i) 7).toSlotState i 7).setPslot i {}

/-- The image of a slot whose data lies in the stacks is dropped, but for the initial contents of its states (R220, R398). -/
def State.keepInitial (s : State) (i : Nat) (f : Furnish) : State :=
  let x := s.pslot i
  s.setPslot i { x with image := [], initial := (f.sects.filter (fun t => t.kind == 4)).map (fun t => (t.id, sectBytes x.image t)) }

/-- PLACEMENT_DONE (R220, R225 to R229, R235, R240): the best-ranked slot that waits in PLACING gets its place, or is
PARKED where it fits only later; the estimates come with the event. -/
def execPlacementDone (dt : Nat) (slot : Fin 8) (est cap bulk : Nat) (s : State) : Host.Outcome State Fault Refusal :=
  let s := s.tick dt
  let i := slot.val
  .next (match (s.pslot i).furn with
    | none => s
    | some f =>
      let waiting := (List.range 8).filter (fun j => s.slotState j == 3)
      if s.slotState i ≠ 3 ∨ s.faults ≠ [] ∨ !s.idleBank ∨ waiting.any (fun j => decide (s.placeRank j < s.placeRank i)) then s
      else
        let s0 := if s.sparesChosen then s else { s.designateSpares.pairAll with sparesChosen := true }
        let h := s0.hints i
        let ctx := sizedContext f h
        let s1 := s0.setPslot i { s0.pslot i with placed := some {} }
        match chooseFold f h.minFold ctx s1.freeCurve.length with
        | none => match s1.placeData i f [] with
          | none => s.placeFails i
          | some s2 => (s2.keepInitial i f).toSlotState i 5
        | some (n, l) =>
          let seats := seatsFor f n h.ports l s1.freeCurve
          match (s1.placeData i f seats).bind (fun s => s.putSeams i seats) with
          | none => s.placeFails i
          | some s2 =>
            let s3 := ((s2.keepInitial i f).seatSlot i n seats f).slotPlaced i n ctx est cap bulk l f
            let s5 := (((s3.decided i f).placedGeneration i).plantTrees i).startSlot i
            { s5.publishPlans.replanEvent 5 i 0 0 with fullDue := true })

/-- The tiles of a slot given up. -/
def State.leaveTiles (s : State) (i : Nat) : State :=
  ((s.slotTiles i).eraseDups).foldl (fun s k => (s.vacate k).recordFree k 1) s

/-- UNLOAD_DONE (R220): the slot's lanes are FREE; its tiles and stack space are given up and the slot is EMPTY. -/
def execUnloadDone (dt : Nat) (slot : Fin 8) (s : State) : Host.Outcome State Fault Refusal :=
  let s := (s.tick dt).reap
  let i := slot.val
  .next (if s.slotState i ≠ 6 ∨ s.lanesOf i ≠ [] ∨ !s.idleBank then s
    else
      let s1 := ((s.leaveTiles i).slotEmpty i).newGeneration
      { s1.replanEvent 5 i 0 0 with fullDue := true })

/-- The KV layer that a seat's windows hold, by its routes or buffers (R213, R214). -/
def seatLayer (q : Seat) : Option Nat :=
  match (tileRoutes q.1 q.2.1).find? (fun r => r.kind == 5) with
  | some r => some (r.target % 65536)
  | none => ((tileBufs q.1 q.2.1).find? (fun b => b.kind == 2)).map (·.layer)

/-- The pointers of a POSITION region of a lane at its last commit, and for a window the committed entries that a replay
reads, by COPY from the home extent (R384, R386, log entry 52). -/
def State.restoreRegion (s : State) (i : Nat) (q : Seat) (e : Nat) (g : BitVec 64 × BitVec 64) : State :=
  let r : Region := { g0 := g.1, g1 := g.2 }
  let e := (s.tile q.2.2).entryLike e g
  match s.lane (rLane r), (s.pslot i).placed with
  | some x, some p =>
    if x.slot ≠ i ∨ rKind r ≠ 4 then s
    else if rConsume r then s.send (.cmd q.2.2 (.regionSet e g.1 g.2 (x.R + x.toks.length - x.sub.prompt)))
    else
      let s1 := s.send (.cmd q.2.2 (.regionSet e g.1 g.2 (x.B + x.p)))
      let n := min (rCap r - 8) x.p
      match (seatLayer q).bind (fun l => p.kvHome.find? (fun h => h.1 == l)) with
      | none => s1
      | some h =>
        let ent := mget {} s1.kv (kvKey h.2.1 (rLane r) h.2.2)
        if !ent.valid then s1
        else s1.sendAll ((List.range n).map (fun j =>
          let pos := x.p - n + j
          .cmd (stackNode h.2.1) (.stackCopy (ent.base + pos * ent.entryBytes) (rEntryRows r) q.2.2
            (64 * (rBase r + (x.B + pos) % rCap r * rEntryRows r)))))
  | _, _ => s

/-- The windows and reels of a slot's lanes restored on its tiles after they have been configured afresh. -/
def State.restoreLanes (s : State) (i : Nat) : State :=
  (s.seats i).foldl (fun s q =>
    let l := tileRegions q.1 q.2.1
    (List.range l.length).foldl (fun s e => match l[e]? with | some g => s.restoreRegion i q e g | none => s) s) s

/-- A slot placed anew on its own good and the FREE tiles, at the fold factor and with the variants that its hints ask for now
(R224, R241). -/
def State.resizeSlot (s : State) (i est cap bulk : Nat) : Option State :=
  match (s.pslot i).furn with
  | none => none
  | some f =>
    let h := s.hints i
    let ctx := sizedContext f h
    let s1 := s.leaveTiles i
    (chooseFold f h.minFold ctx s1.freeCurve.length).map (fun c =>
      let seats := seatsFor f c.1 h.ports c.2 s1.freeCurve
      let s2 := ((s1.seatSlot i c.1 seats f).slotPlaced i c.1 ctx est cap bulk c.2 f).decided i f
      ((((s2.putSeams i seats).getD s2).plantTrees i).startSlot i).restoreLanes i)

/-- The hints that a placed slot follows, as a re-plan leaves it (R224). -/
def State.rehonour (s : State) (i : Nat) : State :=
  match (s.pslot i).placed with
  | some p => s.odSet (oPlacementSlotHintsHonoured i) (s.honoured i p.fold (s.seats i))
  | none => s

/-- A re-plan reads a slot's hints (R224): where the context or the least fold factor that they ask for is another than its
placement was decided for, the decision is made again, and another outcome is put in place. -/
def State.redecide (s : State) (i : Nat) : State :=
  match (s.pslot i).furn, (s.pslot i).placed with
  | some f, some p =>
    let h := s.hints i
    let s := s.rehonour i
    if (s.pslot i).decidedFor = (sizedContext f h, h.minFold) then s
    else
      let s1 := s.decided i f
      match chooseFold f h.minFold (sizedContext f h) (s.freeCurve.length + (s.slotTiles i).eraseDups.length) with
      | none => s1
      | some c =>
        if c.1 = p.fold ∧ c.2.map (fun q => (q.region, q.variant)) = p.variants then s1
        else (s1.resizeSlot i (s.odGet (oPlacementSlotEstPassUs i)) (s.odGet (oPlacementSlotExpressCapacity i))
          (s.odGet (oPlacementSlotBulkRate i))).getD s1
  | _, _ => s

-- ------------------------------------------------------------------ re-plans (R236 to R239)

/-- Every express reel of some lanes is at its lead (R238). -/
def State.atLead (s : State) (ls : List Nat) : Bool :=
  ls.all (fun l => match s.lane l with
    | some x => !(x.express && x.primed && x.terminal.isNone) || decide (x.leadTokens ≤ x.fill)
    | none => true)

/-- A couch point of the lanes of some slots (R237, R238): no recovery, the reels at their lead; the lanes are held until
each is quiet. True once they are. -/
def State.couch (s : State) (slots : List Nat) : Bool × State :=
  let ls := (slots.map s.lanesOf).flatten
  if s.faults ≠ [] ∨ !s.idleBank ∨ (!(ls.all s.heldLanes.contains) ∧ !s.atLead ls) then (false, s)
  else (ls.all (fun l => s.laneQuiet l && (mlook s.fences l).isNone && mget [] s.fenceQueue l == []) && slots.all (fun i => (s.slotTiles i).all (fun k => (List.range 16).all (fun j =>
      ((s.tile k).slot j).busy.isNone && ((s.tile k).slot j).reading.isNone))), { s with heldLanes := s.heldLanes ++ ls.filter (fun l => !s.heldLanes.contains l) })

/-- The slots that hold tiles on some dies. -/
def State.slotsOn (s : State) (dies : List Nat) : List Nat :=
  (List.range 8).filter (fun i => (s.slotTiles i).any (fun k => dies.contains (k / 64)))

/-- The slots that are placed. -/
def State.placedSlots (s : State) : List Nat := (List.range 8).filter (fun i => s.slotState i == 4)

/-- Every tile of a die that reads FAILED reads FAILED (R32). -/
def State.failTiles (s : State) (g : Nat) : State := (List.range 64).foldl (fun s t => s.recordFree (g * 64 + t) 6) s

/-- Moves carried out at a couch point as one new generation (R236, R237). -/
def State.carryOut (s : State) (moves : List (Nat × Nat)) (kind slot dies pauseUs : Nat) : State :=
  let s0 := (s.moveTiles moves).recordMoves moves 1
  let s1 := ((computeSites.filter (fun g => s0.floorNow (oFloorSiteState g) == 4)).foldl State.failTiles s0).newGeneration
  let s2 := s.placedSlots.foldl (fun s i => ((s.assignMirrors i).plantTrees i).rehonour i) s1
  let s3 := s2.replanEvent kind slot dies pauseUs
  s.placedSlots.foldl State.letGo s3

/-- The dies that moves leave. -/
def movedDies (moves : List (Nat × Nat)) : Nat := ((moves.map (fun m => m.1 / 64)).eraseDups).length

/-- The positions that every placed slot would take on the curve (R228, R235): current tile and target. -/
def State.targets (s : State) : List (Nat × Nat) :=
  let order := sortBy s.placeRank s.placedSlots
  (order.foldl (fun (st : List Nat × List (Nat × Nat)) i =>
    match (s.pslot i).furn, (s.pslot i).placed with
    | some f, some p =>
      let l := p.variants.filterMap (fun v => f.progs.find? (fun q => q.region == v.1 && q.variant == v.2))
      let seats := seatsFor f p.fold (s.hints i).ports l st.1
      let ks := seats.map (fun q => q.2.2)
      (st.1.filter (fun k => !ks.contains k), st.2 ++ (seats.map (fun q => (p.tileOf q.2.1.coord, q.2.2))).eraseDups)
    | _, _ => st) (s.curve, [])).2

/-- One step of the moves towards target positions: exchanges in curve order, over at most n dies. -/
def stepMoves (targets : List (Nat × Nat)) (n : Nat) : List (Nat × Nat) :=
  let now (perm : List (Nat × Nat)) (k : Nat) : Nat := ((perm.find? (fun p => p.1 == k)).map (·.2)).getD k
  let occ := targets.map (·.1)
  let done := targets.foldl (fun (st : List (Nat × Nat) × List Nat) t =>
    let p := now st.1 t.1
    let dies := ([p / 64, t.2 / 64].filter (fun d => !st.2.contains d)).eraseDups
    if p = t.2 ∨ st.2.length + dies.length > n + 1 then st
    else
      let other := occ.find? (fun k => now st.1 k == t.2)
      let base := st.1.filter (fun q => q.1 != t.1 && some q.1 != other)
      (base ++ [(t.1, t.2)] ++ (match other with | some k => [(k, p)] | none => []), st.2 ++ dies)) ([], [])
  done.1.filter (fun p => p.1 != p.2)

/-- placement.panel.replan_force written 1 (R236): none while one is pending (R320). -/
def State.replanForce (s : State) : Option State :=
  if s.odGet oPlacementPanelReplanForce = 1 then none else some (s.odSet oPlacementPanelReplanForce 1)

/-- REPLAN_FORCE (R236). -/
def execReplanForce (dt : Nat) (s : State) : Host.Outcome State Fault Refusal := .next ((s.tick dt).replanForce.getD (s.tick dt))

/-- The bottleneck of each placed slot under the speed factors (R227, R239): divided by that of its slowest die. -/
def State.rebottleneck (s : State) : State :=
  s.placedSlots.foldl (fun s i =>
    match (s.pslot i).furn, (s.pslot i).placed with
    | some f, some p =>
      let l := p.variants.filterMap (fun v => f.progs.find? (fun q => q.region == v.1 && q.variant == v.2))
      let worst := maxN ((s.seats i).map (fun q =>
        ceilDiv (bottleneckOf f (sizedContext f (s.hints i)) q.1 * 1000) (max 1 (s.odGet (oPlacementSiteSpeedPermille (q.2.2 / 64))))))
      if l = [] then s else s.odSet (oPlacementSlotBottleneck i) (ceilDiv worst 1024)
    | _, _ => s) s

/-- The next dies to be vacated, each with its spare (R371, R390, R392). -/
def State.evacPairs (s : State) (n : Nat) : List (Nat × Nat) :=
  ((s.evac.filter (fun p => s.dieActive p.1)).foldl (fun (st : List Nat × List (Nat × Nat)) p =>
    if st.2.length ≥ n then st
    else match s.dieTarget p.1 (st.1.filter (fun h => p.2 != 9 || sectorOf h != sectorOf p.1)) with
      | some h => (st.1.filter (· != h), st.2 ++ [(p.1, h)])
      | none => st) (s.spares, [])).2

/-- A die vacated (R390, R392): FAILED with its cause, or a SPARE; the spare takes its place and, of another sector than
the partner's, its partner (R226). -/
def State.swapDie (s : State) (g h cause : Nat) : State :=
  let s1 := if cause = 0 then s.stageFloor (oFloorSiteState g) 2
    else (s.stageFloor (oFloorSiteState g) 4).stageFloor (oFloorSiteCause g) cause
  let s2 := s1.stageFloor (oFloorSiteState h) 1
  let s3 := s2.unpair g
  match s.partnerOf g with
  | some q => if sectorOf q = sectorOf h then s3 else s3.pairDies (h, q)
  | none => s3

/-- REBALANCE (R236, R238 to R240): a step at a couch point. Dies to be vacated come first, then moves towards the
curve's positions. -/
def execRebalance (dt pauseUs : Nat) (s : State) : Host.Outcome State Fault Refusal :=
  let s := s.tick dt
  let n := s.odGet oPlacementPanelReplanMaxDies
  let pairs := s.evacPairs n
  .next (if pairs ≠ [] then
      match s.couch (s.slotsOn (pairs.map (·.1))) with
      | (false, s1) => s1
      | (true, s1) =>
        let moves := (pairs.map (fun p => s1.dieMoves p.1 p.2)).flatten
        let s2 := pairs.foldl (fun s p => s.swapDie p.1 p.2 (mget 0 s.evac p.1)) s1
        let s3 := { s2 with evac := s2.evac.filter (fun e => !(pairs.any (fun p => p.1 == e.1))) }
        s3.carryOut moves 2 0xFF (movedDies moves) pauseUs
    else if s.rebalDue then
      match s.couch s.placedSlots with
      | (false, s1) => s1
      | (true, s1) =>
        let s1 := (s1.placedSlots.foldl State.redecide s1).rematch
        let moves := stepMoves s1.targets n
        if moves = [] then
          let s2 : State := { s1.rebottleneck with rebalDue := false }
          if s2.floorDue = [] then s1.placedSlots.foldl State.letGo s2 else s2.carryOut [] 2 0xFF 0 pauseUs
        else s1.rebottleneck.carryOut moves 2 0xFF (movedDies moves) pauseUs
    else s)

/-- RESPARE (R236): a sector without a spare, while 16 or more spares remain, takes one from a sector holding two. -/
def execRespare (dt pauseUs : Nat) (s : State) : Host.Outcome State Fault Refusal :=
  let s := s.tick dt
  let inSec (sec : Nat) : List Nat := s.spares.filter (fun g => sectorOf g == sec)
  let bare := (List.range 16).find? (fun sec => inSec sec == [] && (sectorDies sec).any s.dieActive)
  .next (match bare with
    | none => s
    | some sec =>
      let g := (sortBy (fun g => (s.goodTiles g).length * 256 + (255 - g)) ((sectorDies sec).filter s.dieActive)).head?.getD 0
      let donors := s.spares.filter (fun h => (inSec (sectorOf h)).length == 2)
      match (sortBy (fun h => s.distance g h * 256 + h) donors).head? with
      | none => s
      | some h =>
        if s.spares.length < 16 then s
        else match s.couch (s.slotsOn [g]) with
          | (false, s1) => s1
          | (true, s1) =>
            let moves := s1.dieMoves g h
            (s1.swapDie g h 0).carryOut moves 3 0xFF 1 pauseUs)

/-- The placed tiles of a die moved to FREE tiles of the dies nearest to it, in curve order of each: none where there are too
few. -/
def State.vacateMoves (s : State) (g : Nat) : Option (List (Nat × Nat)) :=
  let placed := s.tilesIn g 2
  let free := ((sortBy (fun d => s.distance g d * 256 + d) (computeSites.filter (fun d => s.dieActive d && d != g))).map
    (fun d => (s.placeable d).filter (fun k => s.floorNow (oFloorTileState k) == 1))).flatten
  if placed.length ≤ free.length then some (placed.zip free) else none

/-- An active die made a SPARE without another in its place; it and its partner are unpaired (R225, R226). -/
def State.makeSpare (s : State) (g : Nat) : State :=
  (s.stageFloor (oFloorSiteState g) 2).unpair g

/-- One step towards the spares that R225 designates at a FULL re-plan: the moves that it takes, and the change. An active die
that is to be a spare changes places with a spare that is to be active, of its sector if one is; where none is left its work
goes to FREE tiles; a spare too many becomes active. -/
def State.spareStep (s : State) : Option (List (Nat × Nat) × State) :=
  let want := s.sparesFor
  let extra := s.spares.filter (fun h => !want.contains h)
  let near (g : Nat) : List Nat := extra.filter (fun h => sectorOf h == sectorOf g) ++ extra.filter (fun h => sectorOf h != sectorOf g)
  match (want.filter s.dieActive).findSome? (fun g => match near g with
      | h :: _ => some (s.dieMoves g h, s.swapDie g h 0)
      | [] => (s.vacateMoves g).map (fun m => (m, s.makeSpare g))) with
  | some r => some r
  | none => extra.head?.map (fun h => ([], s.stageFloor (oFloorSiteState h) 1))

/-- FULL_REPLAN (R236): one step of a FULL re-plan at a couch point; the last leaves no added latency. -/
def execFullReplan (dt pauseUs : Nat) (s : State) : Host.Outcome State Fault Refusal :=
  let s := s.tick dt
  .next (if !s.fullDue ∧ s.odGet oPlacementPanelReplanForce = 0 then s
    else match s.couch s.placedSlots with
      | (false, s1) => s1
      | (true, s1) => match s1.spareStep with
        | some (moves, s2) => s2.carryOut moves 5 0xFF 1 pauseUs
        | none =>
          let s1 := (s1.placedSlots.foldl State.redecide s1).rematch
          let moves := stepMoves s1.targets (s1.odGet oPlacementPanelReplanMaxDies)
          if moves ≠ [] then s1.rebottleneck.carryOut moves 5 0xFF (movedDies moves) pauseUs
          else
            let s2 := ({ s1.rebottleneck with fullDue := false }.odSet oPlacementPanelReplanForce 0).newGeneration
            let s3 := (s1.placedSlots.foldl State.keepPaths s2).settleHops
            s1.placedSlots.foldl State.letGo (s3.replanEvent 5 0xFF 0 pauseUs))

-- ------------------------------------------------------------------ slices (R235)

/-- The images of a slot's tiles saved in data slabs (R235): none where there is no room. -/
def State.saveTiles (s : State) (i : Nat) : Option State :=
  ((s.slotTiles i).eraseDups).foldl (fun st k => st.bind (fun s =>
    let s := s.holdTiles [k]
    let img := s.imagesOf k
    let rows := img.1 ++ img.2
    (s.nearStacks (k / 64) (fun _ => true)).findSome? (fun j =>
      (s.allocData j (64 * rows.length) (ownSaved i)).map (fun r =>
        let s1 := r.2.2.stackWriteRows j r.2.1 rows
        let x := s1.pslot i
        s1.setPslot i { x with placed := x.placed.map (fun p =>
          { p with saved := p.saved ++ [((((p.tiles.find? (fun q => q.2 == k)).map (·.1)).getD 0), j, r.2.1)] }) })))) (some s)

/-- A slot parked at the end of its slice (R235): its images saved, its tiles given up. -/
def State.park (s : State) (i : Nat) : Option State :=
  (s.saveTiles i).map (fun s1 =>
    let s2 := s1.leaveTiles i
    let x := s2.pslot i
    ((s2.setPslot i { x with placed := x.placed.map (fun p => { p with tiles := [], mirrors := [] }) }).odSet (oPlacementSlotFoldFactor i) 0).toSlotState i 5)

/-- The seats that a parked slot would take on the free tiles: with the variants that it had, where its hints ask for no other
decision (R224), else chosen now. -/
def State.sliceSeats (s : State) (i : Nat) (f : Furnish) : Option (Nat × List RegionProg × List Seat) :=
  let h := s.hints i
  let old : Nat × List RegionProg := match (s.pslot i).placed with
    | some p => (p.fold, p.variants.filterMap (fun v => f.progs.find? (fun q => q.region == v.1 && q.variant == v.2)))
    | none => (1, [])
  let pick := if old.2 ≠ [] ∧ (s.pslot i).decidedFor = (sizedContext f h, h.minFold) then (if choiceTiles f old.1 old.2 ≤ s.freeCurve.length then some old else none)
    else chooseFold f h.minFold (sizedContext f h) s.freeCurve.length
  pick.map (fun c => (c.1, c.2, seatsFor f c.1 h.ports c.2 s.freeCurve))

/-- A parked slot placed for its slice (R235): its images restored where it has them, else configured afresh. -/
def State.unpark (s : State) (i est cap bulk : Nat) : Option State :=
  match (s.pslot i).furn with
  | none => none
  | some f => (s.sliceSeats i f).map (fun c =>
      -- Images fit only the variants that they were saved from.
      let saved := match (s.pslot i).placed with
        | some p => if p.fold = c.1 ∧ p.variants = c.2.1.map (fun q => (q.region, q.variant)) then p.saved else []
        | none => []
      let s1 := (s.seatSlot i c.1 c.2.2 f).slotPlaced i c.1 (sizedContext f (s.hints i)) est cap bulk c.2.1 f
      let imgs (v : Nat × Nat × Nat) : List Row × List Row :=
        (s1.rowsAt (stackNode v.2.1) v.2.2 2304, s1.rowsAt (stackNode v.2.1) (v.2.2 + 64 * 2304) (17 + 128 + 65536))
      let s1 := ((s1.putSeams i c.2.2).getD s1).decided i f
      let s2 := if saved = [] ∨ saved.any (fun v => !(imgOk (imgs v).1 && saveOk (imgs v).2)) then (s1.startSlot i).restoreLanes i
        else
          let put := saved.filterMap (fun v => (c.2.2.find? (fun q => q.2.1.coord == v.1)).map (fun q => (q.2.2, imgs v)))
          ((put.foldl (fun s p => (s.imagesInto p.1 p.2).syncTile i p.1) (s1.holdTiles (put.map (·.1)))).reloadOn (put.map (·.1))).runTiles
            (put.map (·.1))
      let x := s2.pslot i
      ((s2.setPslot i { x with placed := x.placed.map (fun p => { p with saved := [] }) }).freeData (ownSaved i)).plantTrees i)

/-- SLICE (R235): a slice ends; a parked slot takes the tiles of the slot whose time is over, if one is named. -/
def execSlice (dt : Nat) (out in' : Fin 9) (est cap bulk pauseUs : Nat) (s : State) : Host.Outcome State Fault Refusal :=
  let s := s.tick dt
  let o := out.val
  let i := in'.val
  let onto := o = 8 || (s.slotState o == 4 && !s.pinned o &&
    decide (s.odGet (oPlacementSlotPlacedAt o) + 10 ^ 6 * s.odGet oPlacementPanelSliceMs * (s.hints o).weight ≤ s.now))
  let onTiles : Bool := match (s.pslot i).placed with | some p => p.tiles != [] | none => false
  .next (if i = 8 ∨ s.slotState i ≠ 5 ∨ !onto ∨ onTiles then s
    else match s.couch (if o = 8 then [] else [o]) with
      | (false, s1) => s1
      | (true, s1) =>
        match (if o = 8 then some s1 else s1.park o).bind (fun s2 => s2.unpark i est cap bulk) with
        | some s3 => ((s3.placedGeneration i).replanEvent 4 i 0 pauseUs).letGo i
        | none => s)

-- ------------------------------------------------------------------ speed factors and plans (R231, R239)

/-- A die's speed factor against the median rate (R239): below the straggler limit for the whole window it is a straggler, and a
rebalance is due. -/
def State.sampleSpeed (s : State) (median : Nat) (r : Nat × Nat) : State :=
  let f := r.2 * 1000 / median
  let s1 := s.odSet (oPlacementSiteSpeedPermille r.1) (min f 65535)
  if f ≥ 1000 - 10 * s.odGet oPlacementPanelStragglerPct then
    ({ s1 with slowSince := mdel s1.slowSince r.1 }).odSet (oPlacementSiteStraggler r.1) 0
  else match mlook s1.slowSince r.1 with
    | none => { s1 with slowSince := mins s1.slowSince r.1 s.clk }
    | some t =>
      if t + 10 ^ 9 * s.odGet oPlacementPanelStragglerWindowS ≤ s.clk ∧ (mlook s.evac r.1).isNone then
        { s1.odSet (oPlacementSiteStraggler r.1) 1 with rebalDue := true }
      else s1

/-- SPEED_SAMPLE (R239): each second, the matrix handshake rate of the busy tiles of dies. -/
def execSpeedSample (dt : Nat) (rates : List (Nat × Nat)) (s : State) : Host.Outcome State Fault Refusal :=
  let s := s.tick dt
  let live := rates.filter (fun r => s.dieActive r.1)
  let sorted := sortBy id (live.map (·.2))
  let median := sorted.getD (sorted.length / 2) 0
  .next (if median = 0 then s else live.foldl (fun s r => s.sampleSpeed median r) s)

/-- PLAN_RECOMPUTE_DONE (R231). -/
def execPlanRecomputeDone (dt : Nat) (s : State) : Host.Outcome State Fault Refusal := .next (s.tick dt).publishPlans

end Sys2Proof.Machine
end

