-- ==== Sys2Proof/Machine/Faults.lean ====
section
/-!
DEFINITION. Faults and recovery (R377 to R402): heartbeats, containment, repairs and restore, the loss of stacks, hubs,
port dies and stewards, violations and stalls, background classes, and lost state. What the spec leaves to the hub is in
log entries 50 to 53.
-/
namespace Sys2Proof.Machine

-- ------------------------------------------------------------------ heartbeats (R381)

/-- The heartbeat counters of a die's tiles. -/
def State.beatsOf (s : State) (g : Nat) : List Nat := (List.range 64).map (fun t => (s.tile (g * 64 + t)).heartbeat)

/-- DIE_HEARTBEAT_READ (R381): a die whose counters have all stood still for three reads is lost, cause 0x0018. -/
def execDieHeartbeatRead (dt : Nat) (site : Fin 256) (s : State) : Host.Outcome State Fault Refusal :=
  let s := s.tick dt
  let g := site.val
  let now := s.beatsOf g
  onDie g s (if !s.dieUsable g ∨ !s.stewardGood (sectorOf g) then s
    else match mlook s.beats g with
      | none => { s with beats := mins s.beats g (now, 0) }
      | some (old, n) =>
        if old ≠ now then ({ s with beats := mins s.beats g (now, 0) }).bumpN oFaultPanelHeartbeatMisses n
        else if n + 1 < 3 then { s with beats := mins s.beats g (now, n + 1) }
        else ({ s with beats := mdel s.beats g }).reportFault 2 g 0x18)

/-- A hub is lost: its sites read FAILED (R31). -/
def State.hubLost (s : State) (h : Nat) : Bool := s.floorNow (oFloorSiteState (if h = 0 then 95 else 108)) == 4

/-- HUB_HEARTBEAT (R381): a 5 µs period of a hub, with its peer's ring of doorbell bit 9 or without. Four missed rings
lose the peer, cause 0x001C. -/
def execHubHeartbeat (dt : Nat) (hub : Fin 2) (rung : Bool) (s : State) : Host.Outcome State Fault Refusal :=
  let s := s.tick dt
  let h := hub.val
  let n := mget 0 s.hubMiss h
  .next (if s.hubLost h ∨ s.hubLost (1 - h) then s
    else if rung then (({ s with hubMiss := mset 0 s.hubMiss h 0 }).ring (hubNode h) 9).bumpN oFaultPanelHeartbeatMisses n
    else if n + 1 < 4 then { s with hubMiss := mset 0 s.hubMiss h (n + 1) }
    else ({ s with hubMiss := mset 0 s.hubMiss h 0 }).reportFault 6 (1 - h) 0x1C)

/-- OFFGRID_HEARTBEAT_POLL (R381): the hub reads the flag of a steward (functions 0 to 15) or a port die (16 to 19).
Three stale reads lose it, cause 0x001D. -/
def execOffgridHeartbeatPoll (dt : Nat) (fn : Fin 20) (fresh : Bool) (s : State) : Host.Outcome State Fault Refusal :=
  let s := s.tick dt
  let f := fn.val
  let n := mget 0 s.offMiss f
  .next (if s.floorNow (oFloorOffgridState f) = 4 then s
    else if fresh then ({ s with offMiss := mset 0 s.offMiss f 0 }).bumpN oFaultPanelHeartbeatMisses n
    else if n + 1 < 3 then { s with offMiss := mset 0 s.offMiss f (n + 1) }
    else
      let s1 := { s with offMiss := mset 0 s.offMiss f 0 }
      if f < 16 then s1.reportFault 8 f 0x1D else s1.reportFault 7 (f - 16) 0x1D)

-- ------------------------------------------------------------------ what a fault takes with it (R22, R377)

/-- The sites that a fault takes. -/
def FaultJob.sites (f : FaultJob) : List Nat :=
  match f.kind with
  | 2 => [f.ident]
  | 3 => ((List.range 16).map (fun i => f.ident * 16 + i)).filter (fun g => decide (siteKind g < 2))
  | 4 => [f.ident]
  | 6 => if f.ident = 0 then [95, 147] else [108, 160]
  | _ => []

/-- A node is gone with a fault. -/
def FaultJob.takes (f : FaultJob) (n : Nat) : Bool :=
  match nodeKind n with
  | .tile k => (f.kind == 1 && f.ident == k) || f.sites.contains (k / 64)
  | .stack i _ => f.sites.contains (stackSite i)
  | .hub h _ => f.kind == 6 && f.ident == h
  | .steward i => (f.kind == 8 || f.kind == 3) && f.ident == i
  | .portDie p => f.kind == 7 && f.ident == p
  | .nothing => false

/-- A message goes to a node that is gone. -/
def FaultJob.takesEmit (f : FaultJob) : Emit → Bool
  | .pkt p => f.takes p.dest
  | .ctl c => f.takes c.dest
  | .cmd n _ => f.takes n
  | .install n _ => f.takes n
  | _ => false

/-- A pair of a tile and a node that it sends to or reaches is hit: an end is gone, or the path crosses a lost die
(R119, R166). -/
def State.pairHit (s : State) (f : FaultJob) (p : Nat × Nat) : Bool :=
  f.takes p.1 || f.takes p.2 ||
  (f.sites != [] && (match (s.bank s.activeBank).nodePath p.1 p.2 with
    | some l => l.any f.sites.contains
    | none => false))

/-- Stacks that a fault takes. -/
def FaultJob.stackIdxs (f : FaultJob) : List Nat := (f.sites.filter isStackSite).map stackIdx

/-- The lanes of streams whose epochs a fault aborts (R119, R166, R174, R388). Those that a failed link names are aborted
at the failure. -/
def State.lanesHit (s : State) (f : FaultJob) : List Nat :=
  let slots := (List.range 8).filter (fun i => (s.slotTiles i).any f.takes || (s.slotPairs i).any (s.pairHit f))
  let bound := (s.kv.filter (fun p => p.2.valid && f.stackIdxs.contains (p.1 / 16384))).map (fun p => p.1 / 64 % 256)
  let all := (s.lanes.filter (fun p => !p.2.ended)).map (·.1)
  if f.kind = 5 ∨ f.kind = 7 ∨ f.kind = 8 then []
  else if f.kind = 6 ∧ f.ident = s.actingHub then all ++ (if s.pslots.any (fun p => p.2.adapting) then [255] else [])
  else all.filter (fun l => (match s.lane l with | some x => slots.contains x.slot | none => false) || bound.contains l) ++
    (if slots.any (fun i => (s.pslot i).adapting) then [255] else [])

/-- A packet of a unit that crosses a lost die is lost with it; hub firmware's is sent again (R166). -/
def State.lostOnTheWay (s : State) (f : FaultJob) : Emit → Bool
  | .pkt p => isTile p.src && decide (p.dest < 32768) && s.pairHit f (p.src, p.dest)
  | _ => false

/-- The last copy of some weight section stands on one of some stacks (R379). -/
def State.lastCopyOn (s : State) (is : List Nat) : Bool :=
  s.pslots.any (fun p => match p.2.placed with
    | some x => x.copies.any (fun c => liveCopies c.2 != [] && (liveCopies c.2).all (fun l => is.contains l.1))
    | none => false)

/-- The promise lapses for a fault on account of what is degraded already (R379). -/
def State.lapses (s : State) (f : FaultJob) : Bool :=
  match f.kind with
  | 1 => s.odGet (oFloorTileState f.ident) == 2 && (s.tileTarget f.ident).isNone && (s.dieTarget (f.ident / 64) s.spares).isNone
  | 2 => s.dieActive f.ident && (s.dieTarget f.ident s.spares).isNone
  | 3 => decide ((s.sectorTargets f.ident).length < ((sectorDies f.ident).filter s.dieActive).length) || s.lastCopyOn f.stackIdxs
  | 4 => s.lastCopyOn f.stackIdxs
  | 6 => s.hubLost (1 - f.ident)
  | 7 => (List.range 4).any (fun i => s.odGet (oRtPortRole (4 * f.ident + i)) == 1 && s.odGet (oRtPortState (4 * f.ident + i)) == 2 &&
      !s.altUsable (4 * f.ident + i))
  | _ => false

/-- One fault contained (R382): its lanes to be aborted, and nothing sent to the lost part any more. -/
def State.contain (s : State) (f : FaultJob) : State :=
  let ls := s.lanesHit f
  let second := s.amidRecovery
  let lapsed := second || s.lapses f
  let f1 := { f with lanes := if f.kind = 5 then f.lanes else ls, second := second, lapsed := lapsed, contained := true }
  let s1 := { s with
    faults := s.faults.map (fun (x : FaultJob) => if x.kind = f.kind ∧ x.ident = f.ident then f1 else x)
    out := s.out.filter (fun e => !f.takesEmit e && !s.lostOnTheWay f e)
    backoffs := s.backoffs.filter (fun b => !f.takes b.dest) }
  (s1.abortLanes ls).odSet oFaultPanelRecovering 1

/-- FAULT_CONTAINMENT (R382): every fault decided and not yet contained. -/
def execFaultContainment (dt : Nat) (s : State) : Host.Outcome State Fault Refusal :=
  let s := s.tick dt
  .next ((s.faults.filter (fun f => !f.contained)).foldl State.contain s)

-- ------------------------------------------------------------------ restore (R384, R386)

/-- Rows of a tile, with their tags, written to another tile. -/
def State.copyRows (s : State) (k j first n : Nat) : State :=
  let s1 := s.putRows j (64 * first) (s.rowsAt k (64 * first) n)
  (List.range n).foldl (fun s i => s.setTag j (first + i) (s.tagAt k (first + i))) s1

/-- A POSITION region as a replacement tile has it (R384): a window's tail at commit − e, its head at the commit pointer;
a reel from its first unreleased entry. FLAT and RING pointers are 0. -/
def State.restored (s : State) (r : Region) : Region :=
  if rKind r ≠ 4 then { r with head := 0, tail := 0, commit := 0 }
  else if rConsume r then { r with head := r.commit }
  else
    let e := match s.lane (rLane r) with | some x => min (rCap r - 8) x.p | none => 0
    { r with head := r.commit, tail := (r.commit + 2 ^ 32 - e) % 2 ^ 32 }

/-- The mirror of a window, where the tile that holds it is neither lost nor about to be (R386, R387). -/
def State.mirrorOf (s : State) (k entry : Nat) : Option Mirror :=
  let ms := (s.pslots.map (fun p => match p.2.placed with | some x => x.mirrors | none => [])).flatten
  ms.find? (fun m => m.tile == k && m.entry == entry && s.goodTile m.mTile && !s.faults.any (fun f => f.contained && f.takes m.mTile))

/-- The rows of a restored region: the whole of a resident region, and the committed entries of a POSITION region; a window's come from
its mirror up to the recorded position, and beyond that as the home extent has them (R386, log entry 52). -/
def State.restoreRows (s : State) (k j entry : Nat) (r : Region) : State :=
  if rKind r = 3 then s.copyRows k j (rBase r) (rRows r)
  else if rKind r = 4 then
    (List.range (serDist 32 r.tail r.commit)).foldl (fun s i =>
      let pos := (r.tail + i) % 2 ^ 32
      let at' := pos % rCap r * rEntryRows r
      let s1 := s.copyRows k j (rBase r + at') (rEntryRows r)
      match s.mirrorOf k entry with
      | some m => if newer 32 pos m.upTo then s1.putRows j (64 * (rBase r + at')) (s.rowsAt m.mTile (64 * (m.mRow + at')) (rEntryRows r)) else s1
      | none => s1) s
  else s

/-- A replacement tile as its logical tile stood at the last epoch end (R384), with its configuration and tables. -/
def State.recoverTile (s : State) (k j : Nat) : State :=
  let o := s.tile k
  let t := (s.tile j).vacated
  let regs := o.regions.map (fun p => (p.1, s.restored p.2))
  let t1 : Tile := { t with
    run := .run, wm := o.wm, confId := o.confId
    slots := o.slots.map (fun p => (p.1, ({ wm := p.2.wm, cur := p.2.cur, shadow := p.2.shadow, tagCtr := p.2.tagCtr } : Slot)))
    queues := o.queues.map (fun p => (p.1, { p.2 with toks := p.2.toks.filter (fun r => r.tok.kind == 2 || r.tok.kind == 3) }))
    routes := o.routes, buffers := o.buffers, prog := o.prog, regions := regs, idle := false, idleSince := s.clk }
  let consts := ((List.range 8).map (fun i => ((s.seats i).filter (fun q => q.2.2 == k)).map (fun q => (q.2.1.constRow, q.2.1.nConst)))).flatten
  let s1 := s.setTile j t1
  let s2 := consts.foldl (fun s c => s.copyRows k j c.1 c.2) s1
  regs.foldl (fun s p => s.restoreRows k j p.1 p.2) s2

/-- Tiles that took over from lost ones (R384): restored, the lost ones empty, the producers' tables rewritten. -/
def State.recoverTiles (s : State) (moves : List (Nat × Nat)) : State :=
  let s1 := moves.foldl (fun s m => s.recoverTile m.1 m.2) s
  let s2 := moves.foldl (fun s m => s.vacate m.1) (moves.foldl (fun s m =>
    ((List.range 8).filter (fun i => (s.slotTiles i).contains m.1)).foldl (fun s i => s.syncTile i m.2) s) s1)
  let to' (k : Nat) : Nat := ((moves.find? (fun m => m.1 == k)).map (·.2)).getD k
  let swap (t : Tile) : Tile :=
    { t with routes := t.routes.map (fun p => (p.1, p.2.map (fun r => { r with node := to' r.node }))),
             buffers := t.buffers.map (fun p => (p.1, p.2.map (fun b => { b with node := to' b.node }))) }
  ({ s2 with tiles := s2.tiles.map (fun (p : Nat × Tile) => (p.1, swap p.2)) } : State).renameTiles to'

/-- Some window on tiles that are lost has no mirror on a good die (R386). -/
def State.mirrorless (s : State) (f : FaultJob) (ks : List Nat) : Bool :=
  let ms := (s.pslots.map (fun p => match p.2.placed with | some x => x.mirrors | none => [])).flatten
  ks.any (fun k => (s.windowTiles (k / 64)).any (fun w => w.1 == k &&
    !(ms.any (fun m => m.tile == w.1 && m.entry == w.2 && s.goodTile m.mTile && !f.takes m.mTile))))

-- ------------------------------------------------------------------ lost stacks (R201 to R203, R398)

/-- One KV home moved to another stack: its directory entries that meet a test, under a free key there, at a base that a
function gives (R201, R202). -/
def State.moveHome (s : State) (slot : Nat) (h : Nat × Nat × Nat) (to' : Nat) (ok : KvEnt → Bool) (base : KvEnt → Nat) : State :=
  match s.freeKey to', (s.pslot slot).placed with
  | some key, some p =>
    let mine := s.kv.filter (fun e => e.1 / 16384 == h.2.1 && e.1 % 64 == h.2.2 && e.2.valid)
    let go := mine.filter (fun e => ok e.2)
    if go = [] && mine != [] then s
    else
      let kv' := go.foldl (fun (m : SMap KvEnt) e => mset {} (mdel m e.1) (kvKey to' (e.1 / 64 % 256) key) { e.2 with base := base e.2 }) s.kv
      let p1 : Placed := { p with kvHome := p.kvHome.map (fun x => if x = h then (h.1, to', key) else x) }
      ({ s with kv := kv' } : State).setPslot slot { s.pslot slot with placed := some p1 }
  | _, _ => s

/-- The KV homes of all slots that a stack holds: slot and home. -/
def State.homesOn (s : State) (i : Nat) : List (Nat × (Nat × Nat × Nat)) :=
  ((List.range 8).map (fun slot => match (s.pslot slot).placed with
    | some p => (p.kvHome.filter (fun h => h.2.1 == i)).map (fun h => (slot, h))
    | none => [])).flatten

/-- The stack that serves a lost stack's extents of a home: its group's reconstructor; a home with no extent yet goes to the
nearest stack (R201). -/
def State.homeTarget (s : State) (i : Nat) (h : Nat × Nat × Nat) : Option Nat :=
  match s.kv.find? (fun e => e.1 / 16384 == i && e.1 % 64 == h.2.2 && e.2.valid) with
  | some e => stackOfNode (s.pgroup e.2.group).reconstructor
  | none => (s.nearStacks (stackSite i) (fun j => j != i && (s.freeKey j).isSome)).head?

/-- A state section of a lost stack is read at its group's reconstructor, at the same base (R201). -/
def State.moveStates (s : State) (i : Nat) (gs : List Nat) : State :=
  let stackFor (off : Nat) : Nat := match gs.find? (fun g => (s.lostAt g off (fun o => o / 2 ^ 40 == 4)).isSome) with
    | some g => (stackOfNode (s.pgroup g).reconstructor).getD i
    | none => i
  { s with pslots := s.pslots.map (fun (p : Nat × PSlot) => (p.1, { p.2 with placed := p.2.placed.map (fun x =>
      { x with states := x.states.map (fun c => if c.2.1 = i then (c.1, stackFor c.2.2, c.2.2) else c) }) })) }

/-- A stream with a KV extent in a group that is LOST ends STATE_LOST (R398). -/
def State.endLost (s : State) (ls : List Nat) : State :=
  ls.foldl (fun s l => match s.lane l with
    | some x => if x.terminal.isSome then s else (s.terminate l 2 0).bump oFaultPanelStateLost
    | none => s) s

/-- A state section's rows written into its resident regions' live copies, in tile order. -/
def State.putLive (s : State) (slot : Nat) (b : List Nat) : State :=
  ((s.twoCopies slot).foldl (fun (st : State × List Nat) p =>
    let r := (st.1.tile p.1).region p.2
    let half := rRows r / 2
    (st.1.putRows p.1 (64 * (rBase r + (if r.live then half else 0))) (rowsOfBytes st.2 half), st.2.drop (64 * half))) (s, b)).1

/-- Draft or adapter state of a LOST group returns to its furnish's STATE section (R398). -/
def State.resetState (s : State) (slot sec : Nat) : State :=
  match s.sectionOf slot sec, (s.pslot slot).placed with
  | some e, some p =>
    let b := (((s.pslot slot).initial.find? (fun d => d.1 == sec)).map (·.2)).getD []
    let p1 : Placed := { p with states := p.states.filter (fun c => c.1 != sec) }
    let s1 := (s.freeData (ownSeam slot (2 ^ 19 + sec))).setPslot slot { s.pslot slot with placed := some p1 }
    let g := mostDie (readersOf (s1.seats slot) 1 sec)
    let s2 := ((s1.nearStacks g (fun _ => true)).findSome? (fun i =>
      (s1.allocData i e.len (ownSeam slot (2 ^ 19 + sec))).map (fun r =>
        let s3 := r.2.2.stackWriteRows i r.2.1 (rowsOfBytes b (ceilDiv e.len 64))
        let x := s3.pslot slot
        s3.setPslot slot { x with placed := x.placed.map (fun p => { p with states := p.states ++ [(sec, i, r.2.1)] }) }))).getD s1
    (s2.putLive slot b).bump (oStreamDraftGeneration slot)
  | _, _ => s

/-- The data slab that holds an owner's space lies in a group. -/
def State.ownsIn (s : State) (g owner : Nat) : Bool := (s.pgroup g).used.any (fun u => u.2.2.2 == owner)

/-- The consequences of a group that is LOST (R398). -/
def State.groupLost (s : State) (g : Nat) : State :=
  let ls := ((s.kv.filter (fun p => p.2.valid && p.2.group == g)).map (fun p => p.1 / 64 % 256)).eraseDups
  let s1 := s.endLost ls
  (List.range 8).foldl (fun s slot =>
    match (s.pslot slot).placed with
    | none => s
    | some p =>
      let s2 := (p.states.map (·.1)).foldl (fun s sec => if s.ownsIn g (ownSeam slot (2 ^ 19 + sec)) then s.resetState slot sec else s) s
      if p.saved ≠ [] ∧ s2.ownsIn g (ownSaved slot) then
        let x := s2.pslot slot
        ((s2.setPslot slot { x with placed := x.placed.map (fun p => { p with saved := [] }) }).freeData (ownSaved slot)).endLost (s2.lanesOf slot)
      else s2) s1

/-- A stack that reads FAILED (R31). -/
def State.failStack (s : State) (i cause : Nat) : State :=
  (s.stageFloor (oFloorSiteState (stackSite i)) 4).stageFloor (oFloorSiteCause (stackSite i)) cause

/-- A stack is lost (R201 to R203): its groups lose a member, its extents are named at the reconstructors, rebuilds start,
weight copies go to the other copy. -/
def State.loseStack (s : State) (i : Nat) : State :=
  let node := stackNode i
  let gs := (List.range 256).filter (fun g => (s.pgroup g).members.contains node)
  let s0 := s.setStack i { s.stackUnit i with offline := true }
  let s1 := gs.foldl (fun s g => s.loseMember g node) s0
  -- A rebuild into the lost stack is dropped and starts anew elsewhere (R202).
  let cut := (List.range 256).filter (fun g => (s1.pgroup g).rebuild.any (fun r => r.target == node))
  let again := (cut.map (fun g => ((s1.pgroup g).rebuild.filter (fun r => r.target == node)).map (fun r => (g, r.lost)))).flatten
  let s1 := cut.foldl (fun s g => s.setPgroup g { s.pgroup g with rebuild := (s.pgroup g).rebuild.filter (fun r => r.target != node) })
    { s1 with allocs := s1.allocs.filter (fun a => !(a.stack == i && again.any (fun p => a.owner == ownSlab p.1 p.2))) }
  let dead := gs.filter (fun g => (s1.pgroup g).state == 5)
  let s2 := dead.foldl State.groupLost s1
  let s3 := (s2.homesOn i).foldl (fun s p => match s.homeTarget i p.2 with
    | some r => s.moveHome p.1 p.2 r (fun e => !dead.contains e.group) (·.base)
    | none => s) s2
  let s4 := s3.moveStates i gs
  let s5 := gs.foldl (fun s g => match findIdx (· == node) (s0.pgroup g).members with
    | some m => if dead.contains g then s else s.startRebuild g m
    | none => s) s4
  let s6 := (again.filter (fun p => !dead.contains p.1)).foldl (fun s p => s.startRebuild p.1 p.2) s5
  (s6.loseCopies i).rebindAll

/-- A rebuilt data member's entries and states follow its slab to the target (R202): every entry of a home goes with it; an
extent of another group is reached from there (log entry 51). -/
def State.followSlab (s : State) (g : Nat) (x : PGroup) (r : Rebuild) : State :=
  let old := x.bases.getD r.lost 0
  let inSlab (b : Nat) : Bool := decide (old ≤ b) && decide (b < old + 64 * x.slabRows)
  match stackOfNode x.reconstructor, stackOfNode r.target with
  | some from', some to' =>
    if r.lost ≥ 10 then s
    else
      let mine (e : KvEnt) : Bool := e.group == g && inSlab e.base
      let homes := (s.homesOn from').filter (fun p => s.kv.any (fun e => e.1 / 16384 == from' && e.1 % 64 == p.2.2.2 && e.2.valid && mine e.2))
      let s2 := homes.foldl (fun s p =>
        s.moveHome p.1 p.2 to' (fun _ => true) (fun e => if mine e then r.base + (e.base - old) else e.base)) s
      let s3 : State := { s2 with pslots := s2.pslots.map (fun (p : Nat × PSlot) => (p.1, { p.2 with placed := p.2.placed.map (fun y =>
        { y with states := y.states.map (fun c => if c.2.1 = from' ∧ inSlab c.2.2 then (c.1, to', r.base + (c.2.2 - old)) else c) }) })) }
      s3.rebindAll
  | _, _ => s

/-- REBUILD_COMPLETE (R202): the rebuild of a group's lost member is done, and the directory and buffers name the target; a
row that is open holds it up. -/
def execRebuildComplete (dt : Nat) (group : Fin 256) (member : Fin 12) (s : State) : Host.Outcome State Fault Refusal :=
  let s := s.tick dt
  let g := group.val
  let x := s.pgroup g
  .next (match x.rebuild.find? (fun r => r.lost == member.val) with
    | none => s
    | some r =>
      if (List.range x.slabRows).any (fun j => s.rowOpen g j) then s
      else (s.completeRebuild g r).followSlab g x r)

-- ------------------------------------------------------------------ dies and tiles (R230, R231, R241)

/-- The slots with a tile among some tiles. -/
def State.slotsWith (s : State) (ks : List Nat) : List Nat := (List.range 8).filter (fun i => (s.slotTiles i).any ks.contains)

/-- A slot parked without its tiles' images, which are lost. -/
def State.parkBare (s : State) (i : Nat) : State :=
  let x := s.pslot i
  (((s.leaveTiles i).odSet (oPlacementSlotFoldFactor i) 0).toSlotState i 5).setPslot i { x with placed := x.placed.map (fun p => { p with tiles := [], mirrors := [], saved := [] }) }

/-- Non-pinned slots parked, the last in the placement order first, until a slot fits (R241); where it fits then neither,
it is parked itself. -/
def State.resizeOrPark (s : State) (i est cap bulk : Nat) : Nat → State
  | 0 => s.parkBare i
  | n + 1 => match s.resizeSlot i est cap bulk with
    | some s1 => s1
    | none =>
      let others := (sortBy (fun j => 1000 - s.placeRank j) (s.placedSlots.filter (fun j =>
        j != i && !s.pinned j && !(s.hints j).pin)))
      match others with
      | j :: _ => match s.park j with
        | some s1 => s1.resizeOrPark i est cap bulk n
        | none => s.parkBare i
      | [] => s.parkBare i

/-- Slots re-sized after a loss (R241), one re-plan event each. -/
def State.resize (s : State) (slots : List Nat) (est cap bulk : Nat) : State :=
  slots.foldl (fun s i => (s.resizeOrPark i est cap bulk 9).replanEvent 1 i 0 0) s

/-- A compute die that is lost: every tile of it reads FAILED (R31, R32). -/
def State.failDie (s : State) (g cause : Nat) : State :=
  ((s.stageFloor (oFloorSiteState g) 4).stageFloor (oFloorSiteCause g) cause).failTiles g

/-- Plan entries taken for lost dies (R230): each die with its spare and its moves, recorded in the floor plan one after the
other; the second part lists the tiles for which there was no room. -/
def State.planDies (s : State) (pairs : List (Nat × Nat)) : State × List (Nat × Nat) × List Nat :=
  pairs.foldl (fun (st : State × List (Nat × Nat) × List Nat) p =>
    let placed := st.1.tilesIn p.1 2
    let moves := st.1.dieMoves p.1 p.2
    let left := placed.filter (fun k => !(moves.any (fun m => m.1 == k)))
    (st.1.recordMoves moves 6, st.2.1 ++ moves, st.2.2 ++ left)) (s, [], [])

/-- Lost dies replaced (R230, R384): the plan's moves carried out, slots without room re-sized. -/
def State.replaceDies (s : State) (dies : List Nat) (pairs : List (Nat × Nat)) (cause est cap bulk : Nat) : State :=
  let bare := dies.filter (fun g => !(pairs.any (fun p => p.1 == g)))
  let (s1, moves, left) := s.planDies pairs
  let s2 := s1.recoverTiles moves
  let stuck := s2.slotsWith (left ++ (bare.map (fun g => s.tilesIn g 2)).flatten)
  let s3 := pairs.foldl (fun s p => s.swapDie p.1 p.2 cause) s2
  let s4 := dies.foldl (fun s g => s.failDie g cause) s3
  let s5 := s4.resize stuck est cap bulk
  (s5.slotsWith (moves.map (·.2))).foldl (fun s i => s.assignMirrors i) s5

/-- A loss that meets no valid plan entry is planned on demand (R231). -/
def State.onDemand (s : State) (valid : Bool) : State := if valid then s else s.bump oPlacementPanelOnDemandPlans

/-- The repair of a lost die (R383). -/
def State.repairDie (s : State) (g cause est cap bulk : Nat) : State :=
  if !s.dieActive g then (if s.dieUsable g then s.failDie g cause else s)
  else
    let valid := s.diePlanValid g
    let h := if valid then some (s.odGet (oPlacementSiteDieTarget g)) else s.dieTarget g s.spares
    (s.onDemand valid).replaceDies [g] (h.toList.map (fun h => (g, h))) cause est cap bulk

/-- The repair of a lost tile (R230, R383). With neither a RESERVE nor a FREE tile on its die, the die plan is taken; the
die then becomes a SPARE, or, with fewer than 48 good tiles, reads FAILED. -/
def State.repairTile (s : State) (k est cap bulk : Nat) : State :=
  let g := k / 64
  if s.floorNow (oFloorTileState k) ≠ 2 then (if s.goodTile k then s.recordFree k 6 else s)
  else match s.tileTarget k with
    | some j =>
      let s1 := ((s.onDemand (s.tilePlanValid k)).recordMoves [(k, j)] 6).recoverTiles [(k, j)]
      (s1.slotsWith [j]).foldl (fun s i => s.assignMirrors i) s1
    | none =>
      let valid := s.diePlanValid g
      match (if valid then some (s.odGet (oPlacementSiteDieTarget g)) else s.dieTarget g s.spares) with
      | none => ((s.onDemand valid).recordFree k 6).resize (s.slotsWith [k]) est cap bulk
      | some h =>
        let (s1, moves, left) := (s.onDemand valid).planDies [(g, h)]
        let s2 := (moves.filter (fun m => m.1 != k)).foldl (fun s m => s.recordFree m.1 1) (s1.recoverTiles moves)
        let stuck := s2.slotsWith left
        let s3 := (s2.recordFree k 6).swapDie g h 0
        let s4 := if (s3.goodTiles g).length < 48 then s3.failDie g 5 else s3
        let s5 := s4.resize stuck est cap bulk
        (s5.slotsWith (moves.map (·.2))).foldl (fun s i => s.assignMirrors i) s5

/-- An off-grid die that is lost. -/
def State.failOffgrid (s : State) (fn cause : Nat) : State :=
  (s.stageFloor (oFloorOffgridState fn) 4).stageFloor (oFloorOffgridCause fn) cause

/-- The repair of a sector whose supply is lost (R383): dies by the sector plan, spares, stacks and steward. -/
def State.repairSector (s : State) (sec est cap bulk : Nat) : State :=
  let dies := (sectorDies sec).filter s.dieActive
  let valid := s.sectorPlanValid sec
  let pairs := if valid then dies.map (fun g => (g, s.odGet (oPlacementSiteSectorTarget g))) else s.sectorTargets sec
  -- Spares, and in BRINGUP the dies whose state is not known yet.
  let rest := (sectorDies sec).filter (fun g => !dies.contains g && !s.boot.fused.contains g &&
    s.floorNow (oFloorSiteState g) != 3 && s.floorNow (oFloorSiteState g) != 4)
  let s1 := [2 * sec, 2 * sec + 1].foldl (fun s i =>
    if s.floorNow (oFloorSiteState (stackSite i)) = 4 then s
    else if s.stackOnline i then (s.failStack i 6).loseStack i else s.failStack i 6) (s.onDemand valid)
  let s2 := s1.replaceDies dies pairs 6 est cap bulk
  (rest.foldl (fun s g => s.failDie g 6) s2).failOffgrid sec 6

-- ------------------------------------------------------------------ hubs, port dies, stewards (R388 to R390)

/-- The step of the power-on sequence under way begins again, with what it had done so far undone (R456). A chunk that a die holds
stays held: sent again, it is discarded unchecked (R440). -/
def State.repeatStep (s : State) : State :=
  let b := s.boot
  let b1 : BootState := match s.odGet oBootProgressStep with
    | 3 => { b with loads := [] }
    | 7 => { b with found := [] }
    | 9 => { b with berDone := [] }
    | 10 => { b with sent := [], round := 0 }
    | 11 => { b with stacksDone := [] }
    | 12 => { b with katBad := [], katDone := [] }
    | _ => b
  (({ s with boot := b1 } : State).odSet oBootProgressStepStarted s.now)

/-- A hub lost (R388): the survivor takes sessions, clock reference and mailboxes; what was bound to the lost hub is bound
to its function 0, and what lay unread there is gone. With both lost nothing is left to act. -/
def State.loseHub (s : State) (h : Nat) : State :=
  if s.hubLost h ∨ s.hubLost (1 - h) then s
  else
    let sites := if h = 0 then [95, 147] else [108, 160]
    let ls := if h = s.actingHub then (s.lanes.filter (fun p => !p.2.ended)).map (·.1) else []
    let s1 := sites.foldl (fun s g => (s.stageFloor (oFloorSiteState g) 4).stageFloor (oFloorSiteCause g) 5) s
    let s2 := { (s1.setNotices h []) with
      mboxes := s1.mboxes.filter (fun p => !(isHubNode (p.1 / 256) && (match nodeKind (p.1 / 256) with | .hub x _ => x == h | _ => false))) }
    let s3 := (s2.odSet oDeviceMgmtHub (1 - h)).renodeAll (hubNode h) (hubNode (1 - h))
    let s4 := (s3.abortLanes ls).clockHubLost h
    -- R456: the survivor repeats the step of bring-up under way.
    if s.dev = 2 ∧ h = s.actingHub then s4.repeatStep else s4

/-- HUB_LOSS (R388). -/
def execHubLoss (dt : Nat) (hub : Fin 2) (s : State) : Host.Outcome State Fault Refusal :=
  let s := s.tick dt
  .next (if s.faults.any (fun f => f.kind == 6 && f.ident == hub.val) then s.loseHub hub.val else s)

/-- A port die lost (R389): its host ports fail over; its ports are unusable. -/
def State.losePortDie (s : State) (p : Nat) : State :=
  let s1 := (List.range 4).foldl (fun s i => s.failPort (4 * p + i)) s
  let s2 := (List.range 4).foldl (fun s i => s.odSet (oRtPortState (4 * p + i)) 0) s1
  (s2.failOffgrid (16 + p) 5).stageFloor (oFloorOffgridPortsUsable (16 + p)) 0

/-- A steward lost (R390): spares FAILED at once, active dies to be evacuated, the tiles without work in deep idle. -/
def State.loseSteward (s : State) (i : Nat) : State :=
  if s.floorNow (oFloorOffgridState i) = 4 then s
  else
    let s1 := s.failOffgrid i 5
    let s2 := ((sectorDies i).filter s.dieSpare).foldl (fun s g => s.failDie g 9) s1
    let act := (sectorDies i).filter s.dieActive
    let s3 := { s2 with evac := act.foldl (fun m g => mins m g 9) s2.evac, rebalDue := true }
    ((sectorTiles i).filter (fun k => s.floorNow (oFloorTileState k) ≠ 2)).foldl State.idleTile s3

/-- STEWARD_LOSS (R390). -/
def execStewardLoss (dt : Nat) (sec : Fin 16) (s : State) : Host.Outcome State Fault Refusal :=
  let s := s.tick dt
  .next (if s.faults.any (fun f => f.kind == 8 && f.ident == sec.val) then s.loseSteward sec.val else s)

-- ------------------------------------------------------------------ repair (R382, R383)

/-- The kind in a recovery record, and the node ID or global site that it names (R402). -/
def FaultJob.named (f : FaultJob) : Nat × Nat :=
  match f.kind with
  | 1 => (1, f.ident)
  | 2 => (2, f.ident)
  | 3 => (3, f.ident * 16)
  | 4 => (5, f.ident)
  | 5 => (4, f.ident / 4)
  | 6 => (6, hubNode f.ident)
  | 7 => (7, 0x24D0 + f.ident)
  | _ => (8, stewardNode f.ident)

/-- The recovery record of a fault (R402). -/
def State.recoveryRecord (s : State) (f : FaultJob) : List Nat :=
  [f.named.1, (if f.second then 1 else 0) + (if f.noMirror then 2 else 0) + (if f.lapsed then 4 else 0)] ++ toLE 2 f.cause ++
  toLE 2 f.named.2 ++ toLE 2 f.lanes.length ++ toLE 4 ((s.clk - f.at') / 1000) ++ toLE 4 0 ++ toLE 8 f.time

/-- A repair's end: record, log, counts, the coverage of the streams (R257); with the last one the replays go out. -/
def State.endRepair (s : State) (f : FaultJob) : State :=
  let r := s.recoveryRecord f
  let s3 := ({ s with faults := s.faults.tail } : State).recordRepair r f.second
  let s4 : State := f.sites.foldl (fun (s : State) g =>
    if isCompute g then (s.odSet (oFaultSiteLastCause g) f.cause).odSet (oFaultSiteLastFault g) f.time else s) s3.coverAll
  if s4.faults ≠ [] then s4
  else (255 :: s4.lanes.map (·.1)).foldl State.tryReplay (s4.odSet oFaultPanelRecovering 0)

/-- What a repair does, by the kind of its fault (R383). -/
def State.repairWork (s : State) (f : FaultJob) (est cap bulk : Nat) : State :=
  match f.kind with
  | 1 => s.repairTile f.ident est cap bulk
  | 2 => s.repairDie f.ident (if f.cause = 0x1A then 7 else if f.cause = 0x16 then 4 else 5) est cap bulk
  | 3 => s.repairSector f.ident est cap bulk
  -- A base die that is lost while its site reads ACTIVE reads FAILED, an in-service fault (R31, R377).
  | 4 => (if s.floorNow (oFloorSiteState f.ident) = 1 then s.failStack (stackIdx f.ident) 5 else s).loseStack (stackIdx f.ident)
  | 6 => s.loseHub f.ident
  | 7 => s.losePortDie f.ident
  | 8 => s.loseSteward f.ident
  | _ => s

/-- The tiles that a fault takes and that carried work. -/
def State.tilesTaken (s : State) (f : FaultJob) : List Nat :=
  if f.kind = 1 then [f.ident] else (f.sites.map (fun g => s.tilesIn g 2)).flatten

/-- A repair's new generation (R383); before floor-plan assembly there is none to follow (R445, R456). -/
def State.repairGeneration (s : State) : State := if s.odGet oFloorPanelGeneration = 0 then s else s.newGeneration

/-- The first fault's repair can run: it is contained, its lanes are aborted, and the idle bank can be written (R382, R383). -/
def State.mayRepair (s : State) (f : FaultJob) : Bool := s.dev != 7 && f.contained && !f.lanes.any s.abortDue.contains && s.idleBank

/-- A fault's repair (R382 to R384): fences forgotten, the work of its kind, a new generation, trees planted again, a re-plan where
tiles were taken, and the dies to reload noted. -/
def State.repairFirst (s : State) (f : FaultJob) (est cap bulk : Nat) : State :=
  let ks := s.tilesTaken f
  let f1 := { f with noMirror := s.mirrorless f ks }
  let lost := if f.kind = 1 then ks else (f.sites.map (fun g => (List.range 64).map (fun t => g * 64 + t))).flatten
  let s1 := ((s.fenceForget lost).repairWork f est cap bulk).repairGeneration
  let s2 := (List.range 8).foldl (fun s i => if s.slotState i = 4 then s.plantTrees i else s) s1
  let s3 := if ks = [] then s2 else { s2.replanEvent 1 0xFF ((ks.map (· / 64)).eraseDups).length 0 with rebalDue := true }
  let stale := computeSites.filter (fun g => f.sites.contains (s3.odGet (oPlacementSiteDieTarget g)) ||
    !(s3.dieSpare (s3.odGet (oPlacementSiteDieTarget g))) && s3.dieActive g)
  ({ s3 with staleDies := (s3.staleDies ++ stale).eraseDups }).endRepair f1

/-- REPAIR (R382 to R384): the repair of the first fault, once its lanes are aborted and the idle bank can be written; the
estimates of a re-sizing come with the event. -/
def execRepair (dt est cap bulk : Nat) (s : State) : Host.Outcome State Fault Refusal :=
  let s := s.tick dt
  .next (match s.faults with
    | [] => s
    | f :: _ => if s.mayRepair f then s.repairFirst f est cap bulk else s)

-- ------------------------------------------------------------------ violations and stalls (R391 to R393)

/-- A deterministic violation or stall (R391, R393): the stream ends ABORTED, and the furnish fault is published. -/
def State.furnishFault (s : State) (k l cause unit tag : Nat) : State :=
  match s.lane l with
  | none => s
  | some x =>
    (s.publish24 oFaultPanelFurnishFault ([x.slot, 0] ++ toLE 2 cause ++ toLE 2 unit ++ toLE 2 tag ++ toLE 4 x.sub.stream ++
      toLE 4 (s.odGet (oFloorTileRegion k)))).terminate l 1 0

/-- The waiting time of a background class in seconds (R394): of the scrub, by how far the stack furthest behind is. -/
def State.bgWaiting (s : State) (c : Nat) : Nat :=
  if c = 2 then 3600 * maxN (((List.range 32).filter s.stackOnline).map (fun i =>
    (s.clk - (s.stackUnit i).scrubStart) / (3600 * 10 ^ 9) - s.odGet oStackPanelScrubPeriodH))
  else match mlook s.bgFrom c with
    | some t => (s.clk - t) / 10 ^ 9
    | none => 0

/-- fault.bg.health of a class. -/
def State.bgHealth (s : State) (c : Nat) : State :=
  s.publish24 oFaultBgHealth ([c, s.odGet (oFaultBgState c), 0, 0] ++ toLE 4 (s.bgWaiting c) ++ toLE 4 (s.odGet (oFaultBgDeadlineS c)))

/-- A deterministic violation of an adaptation pass stops its slot's adaptation, and the health event goes out (chapter 15,
When happenings meet). -/
def State.stopAdapting (s : State) (k : Nat) : State :=
  let i := s.odGet (oFloorTileFurnish k)
  if i ≥ 8 then s
  else ((s.setPslot i { s.pslot i with adapting := false }).odSet (oStreamDraftAdaptEnable i) 0).bgHealth 3

/-- A violation's mark: die, cause, logical unit and tag. -/
abbrev ViolKey := Nat × Nat × Nat × Nat

/-- The same cause at the same logical unit and tag (R391). -/
def sameViol (a b : ViolKey) : Bool := a.2 == b.2

/-- The refused configuration of a tile, sent once more (R391). -/
def State.resendConfig (s : State) (k : Nat) : State :=
  match (List.range 8).findSome? (fun i => (((s.seats i).find? (fun q => q.2.2 == k)).map (fun q => (i, q)))) with
  | some (i, q) => s.configure i q
  | none => s

/-- A violation on a lane (R391): its epoch is aborted and replayed; one that its replay repeats is a furnish fault. -/
def State.violationAt (s : State) (k : Nat) (e : FaultEntry) : State :=
  let v : ViolKey := (k / 64, e.cause, e.logicalUnit, e.tag)
  if e.cause = 7 then
    if s.resent.contains k then ({ s with resent := s.resent.filter (· != k) }).reportFault 1 k 7
    else ({ s with resent := s.resent ++ [k] }).resendConfig k
  else match s.lane e.lane with
    | none =>
      if e.lane ≠ 255 then s
      else if mget [] s.bgViol k == [e.cause, e.logicalUnit, e.tag] then s.stopAdapting k
      else ({ s with bgViol := mins s.bgViol k [e.cause, e.logicalUnit, e.tag] }).abortLanes [255]
    | some x =>
      if x.terminal.isSome then s
      else if x.violations.any (sameViol v) then
        let s1 := s.furnishFault k e.lane e.cause e.logicalUnit e.tag
        if x.sub.cls = 2 then s1.bgHealth 3 else s1
      else
        ((s.setLane e.lane { x with violations := x.violations ++ [v] }).abortLanes [e.lane]).bump oFaultPanelViolationReplays

/-- A violation entry as the hub drains it (R471). -/
def State.keepViolation (s : State) (e : FaultEntry) : State :=
  if e.cause < 1 ∨ e.cause > 10 then s
  else ({ s with dump.violations := lastN 256 (s.dump.violations ++ [entryBytes e]) } : State).bump oDiagViolationCount

/-- A fault notice as the hub acts on it: kept where it is a violation's (R471); the die's record (R402), a violation (R391), or a tile that
is lost (R380). In FATAL the hub only keeps it. -/
def State.takeNotice (s0 : State) (n : Notice) : State :=
  let e := n.entry
  let s := match nodeKind n.src with | .tile _ => s0.keepViolation e | _ => s0
  if s.dev = 7 then s
  else match nodeKind n.src with
  | .tile k =>
    let s1 := (s.odSet (oFaultSiteLastCause (k / 64)) e.cause).odSet (oFaultSiteLastFault (k / 64)) e.time
    if 1 ≤ e.cause ∧ e.cause ≤ 9 then s1.violationAt k e
    else if 0x10 ≤ e.cause ∧ e.cause ≤ 0x12 then
      let s2 := match s1.lane e.lane with
        | some x => s1.setLane e.lane { x with violations := x.violations ++ [(k / 64, e.cause, e.logicalUnit, e.tag)] }
        | none => s1
      s2.reportFault 1 k e.cause
    else s1
  | .stack i _ => if e.cause = 0x14 then s.reportFault 4 (stackSite i) 0x14 else s
  | _ => s

/-- VIOLATION_NOTICE (R391): the first notice with a violation cause in the acting hub's queue. -/
def execViolationNotice (dt : Nat) (s : State) : Host.Outcome State Fault Refusal :=
  let s := s.tick dt
  let h := s.actingHub
  .next (match (s.notices h).find? (fun n => decide (1 ≤ n.entry.cause ∧ n.entry.cause ≤ 9)) with
    | some n => (s.setNotices h (dropFirst (· == n) (s.notices h))).takeNotice n
    | none => s)

/-- The stalled slots of a lane: tile, logical unit, tag (R106). -/
def State.stallsOf (s : State) (l : Nat) : List (Nat × Nat × Nat) :=
  (s.tiles.map (fun p => p.2.slots.filterMap (fun q => match q.2.stall with
    | some r => if r.lane = l then some (p.1, dUnit q.2.cur, r.tag) else none
    | none => none))).flatten

/-- A lane whose replay stalls again at the same unit and tag: a fault of the furnish (R393). -/
def State.stallAgain (s : State) (l : Nat) : State :=
  match s.lane l with
  | none => s
  | some x =>
    match (s.stallsOf l).find? (fun t => x.violations.any (sameViol (0, 0, t.2.1, t.2.2))) with
    | some t => if x.terminal.isNone ∧ !x.replayDue ∧ !x.aborted ∧ !s.abortDue.contains l then s.furnishFault t.1 l 0 t.2.1 t.2.2 else s
    | none => s

/-- A write of a lane to fault.panel.stall_abort (R393): read 0 done, 2 the lane is not stalled. -/
def State.stallAbort (s : State) (l : Nat) : State :=
  match s.lane l, s.stallsOf l with
  | some x, t :: ts =>
    if x.pass.isNone ∨ x.aborted then s.odSet oFaultPanelStallAbort 2
    else
      let ks : List ViolKey := (t :: ts).map (fun t => (t.1 / 64, 0, t.2.1, t.2.2))
      let s1 := (s.setLane l { x with violations := x.violations ++ ks }).abortLanes [l]
      let clear (u : Tile) : Tile := { u with slots := u.slots.map (fun q => match q.2.stall with
        | some r => if r.lane = l then (q.1, { q.2 with stall := none }) else q
        | none => q) }
      ({ s1 with tiles := s1.tiles.map (fun (p : Nat × Tile) => (p.1, clear p.2)) } : State).odSet oFaultPanelStallAbort 0
  | _, _ => s.odSet oFaultPanelStallAbort 2

/-- STALL_ABORT (R393): a lane written to fault.panel.stall_abort. -/
def execStallAbort (dt : Nat) (lane : Fin 256) (s : State) : Host.Outcome State Fault Refusal :=
  .next (((s.tick dt).stallAgain lane.val).stallAbort lane.val)

-- ------------------------------------------------------------------ background work (R394 to R396)

/-- The re-plan is due: the period has passed since the last one (R369). -/
def State.marginDue (s : State) : Bool :=
  decide (s.odGet oAgeingPanelLastReplan + 3600 * 10 ^ 9 * s.odGet oAgeingPanelPeriodH ≤ s.now)

/-- Work of a background class exists: rebuilds, weight copies, scrub behind, an adaptation cycle, a margin re-plan. -/
def State.bgDue (s : State) (c : Nat) : Bool :=
  match c with
  | 0 => decide (s.groupsDegraded > 0)
  | 1 => decide (s.singleCopies > 0)
  | 2 => decide (s.bgWaiting 2 > 0)
  | 3 => s.pslots.any (fun p => p.2.adapting)
  | _ => s.marginPlan.isSome || (s.marginDue && (s.dev == 3 || s.dev == 4 || s.dev == 5))

/-- The state of a class for a waiting time and a deadline (R394). -/
def bgStateFor (wait deadline : Nat) : Nat :=
  if 10 * deadline ≤ wait then 4 else if deadline ≤ wait then 3 else if deadline ≤ 2 * wait then 2 else 1

/-- BG_ESCALATE (R394): a background class is looked at. -/
def execBgEscalate (dt : Nat) (cls : Fin 5) (s : State) : Host.Outcome State Fault Refusal :=
  let s := s.tick dt
  let c := cls.val
  .next (if !s.bgDue c then ({ s with bgFrom := mdel s.bgFrom c }).odSet (oFaultBgState c) 0
    else
      let s1 := if (mlook s.bgFrom c).isSome then s else { s with bgFrom := mins s.bgFrom c s.clk }
      let old := s1.odGet (oFaultBgState c)
      let new' := bgStateFor (s1.bgWaiting c) (s1.odGet (oFaultBgDeadlineS c))
      let s2 := (s1.odSet (oFaultBgState c) new').bumpN (oFaultBgEscalations c) (new' - max old 1)
      if old < 4 ∧ new' = 4 then s2.bgHealth c else s2)

/-- BG_SLOT_HOLD (R395): an URGENT class holds the issue of other lanes' next passes; 200 µs at most, 2 ms in 100 ms. -/
def execBgSlotHold (dt : Nat) (cls : Fin 5) (us : Nat) (s : State) : Host.Outcome State Fault Refusal :=
  let s := s.tick dt
  let c := cls.val
  let l := s.bgHolds.filter (fun h => decide (s.clk < h.1 + 10 ^ 8))
  .next (if s.odGet (oFaultBgState c) < 3 ∨ us > 200 ∨ s.clk < s.bgHoldUntil ∨ sumN (l.map (·.2)) + us > 2000 then s
    else ({ s with bgHoldUntil := s.clk + 1000 * us, bgHolds := l ++ [(s.clk, us)] }).bumpN (oFaultBgSlotUs c) us)

/-- SCRUB_FORCED_PAUSE (R396): an overdue scrub gets 1 ms in each second at a stack. -/
def execScrubForcedPause (dt site : Nat) (s : State) : Host.Outcome State Fault Refusal :=
  let s := s.tick dt
  let i := stackIdx site
  let u := s.stackUnit i
  let period := s.odGet oStackPanelScrubPeriodH
  let behind : Bool := decide ((s.clk - u.scrubStart) / (3600 * 10 ^ 9) - period ≥ period)
  onStack site s (if (s.odGet (oFaultBgState 2) ≠ 4 ∧ u.pauseUntil = 0) ∨ !behind ∨ (u.pauseUntil ≠ 0 ∧ s.clk < u.pauseUntil + 999000000) ∨
      !s.stackOnline i then s
    else (s.setStack i { u with pauseUntil := s.clk + 10 ^ 6 }).bump (oFaultBgForcedPauses 2))

-- ------------------------------------------------------------------ lost weights and the end (R399, R401)

/-- RESUPPLY_TIMEOUT (R399): the bytes asked for have not come; the slot's streams end STATE_LOST. -/
def execResupplyTimeout (dt : Nat) (slot : Fin 8) (s : State) : Host.Outcome State Fault Refusal :=
  let s := s.tick dt
  .next (if (s.pslot slot.val).resupply.any (fun r => decide (r.2 + 10 ^ 9 * s.odGet oFaultPanelResupplyWaitS ≤ s.clk)) then
      s.endLost (s.lanesOf slot.val) else s)

/-- HUBS_LOST_IDLE (R401): both hub heartbeats have stopped for 100 µs. Every tile goes into deep idle, the rails hold,
nothing answers EOP any more: FATAL without a dump. -/
def execHubsLostIdle (dt : Nat) (s : State) : Host.Outcome State Fault Refusal :=
  let s := s.tick dt
  let ks := ((computeSites.filter s.dieUsable).map (fun g => (List.range 64).map (fun t => g * 64 + t))).flatten
  .next (if s.dev = 0 then s else { (ks.foldl State.idleTile s).odSet oDeviceStateState 7 with hubsLost := true })

end Sys2Proof.Machine
end

