-- ==== Sys2Proof/Machine/Ageing.lean ====
section
/-!
DEFINITION. Ageing and margin re-planning (chapter 14): margin and eye reads, the stack's rate of corrected rows, the
margin re-plan, and the life of optical modules. Choices that the spec leaves open are in log entry 49.
-/
namespace Sys2Proof.Machine

/-- The median of a list: the lower middle value (log entry 49). -/
def medianN (l : List Nat) : Nat := (sortBy id l).getD ((l.length - 1) / 2) 0

/-- A margin event (R365, R366, R367, R368). -/
def State.marginEvent (s : State) (kind which node margin : Nat) : State :=
  s.publish24 oAgeingPanelMarginEvent ([kind, which] ++ toLE 2 node ++ toLE 2 margin)

/-- Byte n of an octet object. -/
def State.octet (s : State) (a n : Nat) : Nat := s.odGet a >>> (8 * n) % 256

/-- Byte n of an octet object set. -/
def State.setOctet (s : State) (a n v : Nat) : State := s.odSet a (s.odGet a - s.octet a n * 2 ^ (8 * n) + v % 256 * 2 ^ (8 * n))

/-- A tile's trim code (R365). -/
def State.trim (s : State) (k : Nat) : Nat := s.octet (oAgeingSiteTrims (k / 64)) (k % 64)

/-- A tile's trim code set. -/
def State.setTrim (s : State) (k c : Nat) : State := s.setOctet (oAgeingSiteTrims (k / 64)) (k % 64) c

/-- What a margin read does to a tile that is out of service below the floor (R366): its trim rises until the margin is at
the target; from then on the least margin is kept. -/
def State.lowTile (s : State) (k m : Nat) : State :=
  match mlook s.lowTiles k with
  | none => s
  | some (reached, least) =>
    if !reached ∧ m < 100 ∧ s.trim k < 63 then s.setTrim k (s.trim k + 1)
    else { s with lowTiles := mins s.lowTiles k (true, min least m) }

/-- A tile's margin as read (R364 to R366). -/
def State.readMargin (s : State) (k m : Nat) : State :=
  let old := (mlook s.margins k).getD 0xFFFF
  let s1 := ({ s with margins := mins s.margins k (min old m) } : State).setOctet (oAgeingSiteMargins (k / 64)) (k % 64) (min (min old m) 255)
  let st := s1.floorNow (oFloorTileState k)
  if (mlook s1.lowTiles k).isSome then s1.lowTile k m
  else if m < 40 ∧ 1 ≤ st ∧ st ≤ 3 ∧ s1.dieUsable (k / 64) then
    let s2 := ({ s1 with lowTiles := mins s1.lowTiles k (false, 0xFFFF), floorTaken := s1.floorTaken + 1 } : State).bump (oAgeingSiteFloorEvents (k / 64))
    (s2.marginEvent 2 (k % 64) k m).reportFault 1 k 0x1B
  else if m < 60 ∧ old ≥ 60 then s1.marginEvent 1 (k % 64) k m
  else s1

/-- MARGIN_READ (R364): the least margins of a die's tiles since the last read, in permille, and its ring-oscillator
slowing. -/
def execMarginRead (dt : Nat) (site : Fin 256) (margins : List Nat) (slowing : Nat) (s : State) : Host.Outcome State Fault Refusal :=
  let s := s.tick dt
  let g := site.val
  onDie g s (((List.range (min 64 margins.length)).foldl (fun s t => s.readMargin (g * 64 + t) (margins.getD t 0)) s).odSet
    (oAgeingSiteRoSlowing g) slowing)

/-- A lane is weak (R367). -/
def weakLane (p : Nat × Nat) : Bool := decide (p.1 < 150) || decide (p.2 < 15)

/-- EYE_MARGIN_READ (R364, R367): the horizontal and vertical margin of every lane of a link. -/
def execEyeMarginRead (dt link : Nat) (lanes : List (Nat × Nat)) (s : State) : Host.Outcome State Fault Refusal :=
  let s := s.tick dt
  let low (l : List Nat) : Nat := l.foldl min 0xFFFF
  let weak := (List.range lanes.length).filter (fun i => weakLane (lanes.getD i (0, 0)))
  let old := (mlook s.weakLanes link).getD 0
  let s1 := (((s.odSet (oAgeingLinkEyeHMui link) (low (lanes.map (·.1)))).odSet (oAgeingLinkEyeVMv link) (low (lanes.map (·.2)))).odSet
    (oAgeingLinkWeakLanes link) (popcount (weak.foldl setBit old) 256)).odSet (oAgeingLinkMeasuredAt link) s.now
  let s2 := { s1 with weakLanes := mset 0 s1.weakLanes link (weak.foldl setBit old) }
  onLink link s (if lanes = [] then s else (weak.filter (fun i => !old.testBit i)).foldl (fun s i =>
    s.marginEvent 3 i (siteNode (link / 4)) (lanes.getD i (0, 0)).1) s2)

/-- STACK_ECC_RATE_CHECK (R368): each hour; above 1,000 corrected rows in each of 24 hours in a row publishes once. -/
def execStackEccRateCheck (dt site : Nat) (s : State) : Host.Outcome State Fault Refusal :=
  let s := s.tick dt
  let i := stackIdx site
  let r : EccRate := mget {} s.eccRates i
  let n := s.odGet (oStackUnitEccCorrected i)
  let h := if (if n < r.count then n else n - r.count) > 1000 then r.hours + 1 else 0
  let s1 := { s with eccRates := mset {} s.eccRates i { count := n, since := s.clk, hours := h } }
  onStack site s (if s.clk < r.since + 3600 * 10 ^ 9 then s else if h = 24 then s1.marginEvent 4 0 (siteNode site) 0 else s1)

-- ------------------------------------------------------------------ the margin re-plan (R369 to R373)

/-- The smallest trim code whose projected margin reaches the target (R370): never below the factory's, never more than
one below the present one. A step adds 125/8 permille. -/
def newTrim (code factory least : Nat) : Nat :=
  let lowest := max factory (code - 1)
  ((List.range 64).find? (fun c => decide (lowest ≤ c) && decide (8 * least + 125 * c ≥ 800 + 125 * code))).getD 63

/-- A margin after a trim. -/
def projected (code new' least : Nat) : Nat := (8 * least + 125 * new' - 125 * code) / 8

/-- The trims that change: tile and code, for tiles read in the period. -/
def State.newTrims (s : State) : List (Nat × Nat) :=
  (s.margins.map (fun p => (p.1, newTrim (s.trim p.1) ((mlook s.factoryTrims p.1).getD 0) p.2))).filter (fun p => p.2 != s.trim p.1)

/-- Steps 1 to 3 (R369): the trims computed, those of tiles without work applied. -/
def State.marginStart (s : State) : State :=
  let trims := s.newTrims
  let busy (p : Nat × Nat) : Bool := s.odGet (oFloorTileState p.1) == 2 && !(s.tile p.1).idle
  let s1 := (trims.filter (fun p => !busy p)).foldl (fun s p => s.setTrim p.1 p.2) s
  { s1 with marginPlan := some { trims := trims.filter busy, done := (trims.filter (fun p => !busy p)).length,
                                 least := (s.margins.map (·.2)).foldl min 0xFFFF, median := medianN (s.margins.map (·.2)),
                                 codes := trims.foldl (fun m p => mins m p.1 (s.trim p.1)) [] } }

/-- The median margin of a sector's tiles after trimming. -/
def State.sectorMedian (s : State) (i : Nat) (codes : SMap Nat) : Nat :=
  medianN ((s.margins.filter (fun p => sectorOf (p.1 / 64) == i)).map (fun p => projected ((mlook codes p.1).getD (s.trim p.1)) (s.trim p.1) p.2))

/-- The history record of a re-plan (R372). -/
def State.historyRecord (s : State) (m : MarginPlan) : List Nat :=
  let links := (List.range 1024).filter (fun l => s.odGet (oAgeingLinkMeasuredAt l) != 0)
  let low (f : Nat → Nat) : Nat := (links.map (fun l => s.odGet (f l))).foldl min 0xFFFF
  toLE 8 s.now ++ toLE 4 s.poweredH ++ toLE 2 m.least ++ toLE 2 m.median ++ toLE 2 m.done ++ toLE 2 s.floorTaken ++
  toLE 2 (medianN ((computeSites.filter s.dieActive).map (fun g => s.odGet (oAgeingSiteRoSlowing g)))) ++
  toLE 2 (low oAgeingLinkEyeHMui) ++ toLE 2 (low oAgeingLinkEyeVMv) ++
  ((List.range 16).map (fun i => toLE 2 (match mlook s.ramps (oPowerSectorVddlMv i) with | some r => r.1 | none => s.odGet (oPowerSectorVddlMv i)))).flatten ++
  List.replicate 6 0

/-- Tiles below the floor that have held come back FREE (R366). -/
def State.lowReturn (s : State) : State :=
  let back := s.lowTiles.filter (fun p => p.2.1 && decide (p.2.2 ≥ 60) && p.2.2 != 0xFFFF && s.dieUsable (p.1 / 64) && s.floorNow (oFloorTileState p.1) == 6)
  let s1 : State := { s with lowTiles := s.lowTiles.filter (fun p => !(back.any (fun q => q.1 == p.1))) }
  back.foldl (fun s p => s.recordFree p.1 1) s1

/-- Steps 5 and 6 (R369): set points raised, weak links retrained, trims and history to be stored, the new period begun. -/
def State.marginFinish (s : State) (m : MarginPlan) : State :=
  let raise := (List.range 16).filter (fun i => s.margins.any (fun p => sectorOf (p.1 / 64) == i) && decide (s.sectorMedian i m.codes < 80) &&
    s.odGet oAgeingPanelVddlRaiseMaxMv != 0 && decide (s.odGet (oPowerSectorVddlMv i) < 850))
  let s1 := raise.foldl (fun s i =>
    let mv := min 850 (s.odGet (oPowerSectorVddlMv i) + s.odGet oAgeingPanelVddlRaiseMaxMv)
    (s.startRamp (oPowerSectorVddlMv i) mv).mail i 2 mv 8) s
  let weak := (s1.weakLanes.map (·.1)).filter s1.linkPassable
  let s2 := weak.foldl (fun (s : State) l => s.startRetrain l true) s1
  let s3 := s2.publish24 oAgeingPanelReplan (toLE 2 m.done ++ toLE 2 weak.length ++ [raise.length])
  let s4 : State := { s3 with ageHistory := lastN 2560 (s3.ageHistory ++ [s3.historyRecord m]), storeDirty := true, rebalDue := true,
                              marginPlan := none, margins := [], floorTaken := 0 }
  let s5 := computeSites.foldl (fun (s : State) g => s.odSet (oAgeingSiteMargins g) 0) s4
  ((s5.odSet oAgeingPanelLastReplan s5.now).odSet oAgeingPanelReplanNow 0).lowReturn

/-- A computed trim applied; that of a tile which has fallen below the floor since is computed again (R373). -/
def State.applyTrim (s : State) (p : Nat × Nat) : State :=
  s.setTrim p.1 (if (mlook s.lowTiles p.1).isSome
    then newTrim (s.trim p.1) ((mlook s.factoryTrims p.1).getD 0) ((mlook s.margins p.1).getD 0xFFFF) else p.2)

/-- MARGIN_REPLAN (R369): the re-plan's next step: its start, when it is due; the trims of one group of dies with work, at
a couch point; its end, at one too (R367). A recovery holds it up. -/
def execMarginReplan (dt : Nat) (s : State) : Host.Outcome State Fault Refusal :=
  let s := s.tick dt
  let n := s.odGet oPlacementPanelReplanMaxDies
  .next (if s.faults ≠ [] ∨ !(s.dev == 3 || s.dev == 4 || s.dev == 5) then s
    else match s.marginPlan with
      | none => if s.marginDue then s.marginStart else s
      | some m =>
        let dies := ((m.trims.map (fun p => p.1 / 64)).eraseDups).take n
        if dies = [] then (match s.couch s.placedSlots with
          | (false, s1) => s1
          | (true, s1) => s.placedSlots.foldl State.letGo (s1.marginFinish m))
        else match s.couch (s.slotsOn dies) with
          | (false, s1) => s1
          | (true, s1) =>
            let now := m.trims.filter (fun p => dies.contains (p.1 / 64))
            let s2 := now.foldl State.applyTrim s1
            let m2 : MarginPlan := { m with trims := m.trims.filter (fun p => !dies.contains (p.1 / 64)), done := m.done + now.length }
            (s2.slotsOn dies).foldl State.letGo ({ s2 with marginPlan := some m2 } : State))

/-- ageing.panel.replan_now written 1 (R373): pending when the period has passed, refused within it; none while one is pending (R320). -/
def State.replanNow (s : State) : Option State :=
  if s.odGet oAgeingPanelReplanNow = 1 then none else some (s.odSet oAgeingPanelReplanNow (if s.marginDue then 1 else 2))

/-- REPLAN_NOW (R373). -/
def execReplanNow (dt : Nat) (s : State) : Host.Outcome State Fault Refusal := .next ((s.tick dt).replanNow.getD (s.tick dt))

-- ------------------------------------------------------------------ module life (R374, R375)

/-- Days until the least-squares line through daily means reaches a bias: none below 7 days of data or where the line
does not rise (R375). -/
def daysLeft (l : List (Nat × Nat)) (eol : Nat) : Option Nat :=
  let n : Int := l.length
  let sum (f : Nat × Nat → Nat) : Int := (sumN (l.map f) : Nat)
  let sx := sum (·.1)
  let sy := sum (·.2)
  let num := n * sum (fun p => p.1 * p.2) - sx * sy
  let den := n * sum (fun p => p.1 * p.1) - sx * sx
  let x : Int := ((l.getLast?.map (·.1)).getD 0 : Nat)
  if l.length < 7 ∨ num ≤ 0 then none
  else some (((eol * n - sy) * den - num * (n * x - sx)) / (n * num)).toNat

/-- MODULE_LIFE_DAILY (R374, R375): a module's day ends: its mean, its record, and the line through the last 30 days. -/
def execModuleLifeDaily (dt : Nat) (port : Fin 16) (s : State) : Host.Outcome State Fault Refusal :=
  let s := s.tick dt
  let p := port.val
  let c := mget {} s.cages p
  let e := s.odGet (oAgeingModuleEntry p)
  .next (if e ≥ 64 ∨ c.count = 0 then s
    else
      let mean := c.sum / c.count
      let days := lastN 30 (c.days ++ [(c.day, mean)])
      let s1 : State := { s with cages := mset {} s.cages p { c with sum := 0, count := 0, days := days, day := c.day + 1 }, storeDirty := true }
      let s2 := if s1.odGet (oAgeingLifeInitialBiasUa e) = 0 then s1.odSet (oAgeingLifeInitialBiasUa e) mean else s1
      let s3 := ((s2.odSet (oAgeingLifeLastBiasUa e) mean).bumpN (oAgeingLifeOnHours e) 24).odSet (oAgeingModuleBiasUa p) mean
      let eol := s3.eolBias p
      let s4 := s3.odSet (oAgeingModuleEolUa p) eol
      let s5 := match daysLeft days eol with
        | none => (s4.odSet (oAgeingModuleDaysLeft p) 0xFFFF).odSet (oAgeingModulePredictedEol p) 0
        | some n => (s4.odSet (oAgeingModuleDaysLeft p) (min n 0xFFFE)).odSet (oAgeingModulePredictedEol p) (s4.now + n * 86400 * 10 ^ 9)
      let left := s5.odGet (oAgeingModuleDaysLeft p)
      let s6 := if left < s5.odGet oAgeingModuleWarnDays then s5.replaceEvent p 1 left mean else s5
      let s7 := if left < s6.odGet oAgeingModuleUrgentDays then s6.replaceEvent p 2 left mean else s6
      if eol ≤ mean then s7.replaceEvent p 3 left mean else s7)

end Sys2Proof.Machine
end

