-- ==== Sys2Proof/Machine/Eop.lean ====
section
/-!
DEFINITION. The Ezesque Object Protocol (chapter 11) but for reading and writing objects: datagrams and fragments,
opening a session, protected messages, the response cache, subscriptions and events, the quorum checks, and enrolment
(R337 to R339). Choices that the spec leaves open are in log entries 42 to 45.
-/
namespace Sys2Proof.Machine

-- ------------------------------------------------------------------ codes (R306)

def stOk : Nat := 0
def stAbsent : Nat := 1
def stBadValue : Nat := 2
def stBadLength : Nat := 3
def stAccess : Nat := 4
def stLevel : Nat := 5
def stBusy : Nat := 6
def stState : Nat := 7
def stTooBig : Nat := 8
def stOffset : Nat := 9
def stMalformed : Nat := 0xA
def stSignature : Nat := 0xB
def stSession : Nat := 0xC
def stQuorum : Nat := 0xD
def stExpired : Nat := 0xE
def stTarget : Nat := 0xF
def stStarted : Nat := 0x10
def stDuplicate : Nat := 0x11

/-- The bytes of an ASCII string. -/
def ascii (t : String) : List Nat := t.toList.map Char.toNat

/-- The directory's row for an index and subindex (R331). -/
def dirRow (ix sub : Nat) : Option DirRow := directory.find? (fun r => decide (r.first ≤ ix ∧ ix ≤ r.last) && r.sub == sub)

/-- The address of an object as four bytes on the wire (R302). -/
def addrBytes (a : Nat) : List Nat := toLE 3 (a / 256) ++ [a % 256]

-- ------------------------------------------------------------------ identity keys (R451, R452)

/-- The DeviceID keys, derived from the fused secret (handle 0). -/
def deviceIdHandle : Nat := Config.deriveKey 0 (ascii "topator deviceid v1")

/-- The alias keys of an image measurement and security version. -/
def aliasHandleOf (measurement version : Nat) : Nat :=
  Config.deriveKey (Config.deriveKey 0 (toLE 48 measurement ++ ascii "topator cdi v1" ++ toLE 4 version)) (ascii "topator alias v1")

/-- The alias keys of the running image. -/
def State.aliasHandle (s : State) : Nat := aliasHandleOf (s.odGet oFwRunningMeasurement) (s.odGet oFwRunningSecurityVersion)

/-- The keys that sign a CHALLENGE: the alias keys, or the DeviceID keys where no image verifies (R450, R453). -/
def State.identHandle (s : State) : Nat := if s.recovery then deviceIdHandle else s.aliasHandle

/-- A key ID: the first 8 bytes of SHA-384 over both public keys (R452). -/
def keyIdOf (h : Nat) : List Nat := (sha384 (padTo 32 (Config.publicKey 0 h) ++ padTo 1952 (Config.publicKey 65 h))).take 8

-- ------------------------------------------------------------------ datagrams (R291 to R293)

/-- In-band EOP is served: READY, SERVING and HELD, and RETIRED while a RETIRE waits for its ENDs (R291, R336). -/
def State.inBand (s : State) : Bool :=
  s.dev == 3 || s.dev == 4 || s.dev == 5 || (s.dev == 6 && (match s.quorumQueue with | q :: _ => q.cmd == 2 && q.phase == 1 | [] => false))

/-- An endpoint is served: the management port from STANDBY on, a host port in-band (R291). -/
def State.eopServed (s : State) (port : Nat) : Bool :=
  if s.hubsLost then false
  else if port ≥ 16 then s.recovery || s.dev != 0 else s.inBand && s.hostUp port

/-- The clear header of a datagram of a kind is well formed (R292). -/
def eopHeadOk (kind : Nat) (b : List Nat) : Bool :=
  decide (24 ≤ b.length) && leAt b 0 2 == 0x4F45 && leAt b 2 1 == 1 && leAt b 3 1 == kind && decide (leAt b 16 2 < leAt b 18 2) &&
  decide (leAt b 18 2 ≤ 64) && leAt b 20 2 + 24 == b.length && zeroAt b 22 2

/-- A silent discard, counted (R307). -/
def State.eopDiscard (s : State) : State := { s with eopDiscards := s.eopDiscards + 1 }

/-- A datagram reaches EOP (R271, R272, R291, R292): counted on a host port, discarded where it is malformed. -/
def State.eop (s : State) (d : Dgram) (kind : Nat) (run : State → State) : State :=
  if d.port ≥ 16 then
    if d.udp ≠ 49301 ∨ !s.eopServed d.port then s else if !eopHeadOk kind d.body then s.eopDiscard else run s
  else if !s.hostUp d.port then s
  else
    let s1 := s.bump (oRtPortRxDatagrams d.port)
    if d.frag ∨ d.udp ≠ s1.odGet (oRtPortEopUdp d.port) then s1.bump (oRtPortDiscarded d.port)
    else if !s1.eopServed d.port then s1
    else if !eopHeadOk kind d.body then s1.eopDiscard else run s1

/-- Bytes 0 to 15 of a header. -/
def eopHead (kind session seq : Nat) : List Nat := toLE 2 0x4F45 ++ [1, kind] ++ toLE 4 session ++ toLE 8 seq

/-- Message bytes that one datagram to an endpoint holds (R293). -/
def State.eopRoom (s : State) (port : Nat) (dst : Endpoint) : Nat :=
  (if port ≥ 16 then 1500 else s.odGet (oRtPortMtu port)) - (if dst.family = 6 then 40 else 20) - 8 - 24

/-- A datagram out of an endpoint. -/
def State.eopOut (s : State) (port : Nat) (dst : Endpoint) (b : List Nat) : State :=
  if port ≥ 16 then s.send (.udp port dst b (s.mgmtWire dst))
  else s.txEmit port (.udp port dst b (s.portWire port (s.odGet (oRtPortEopUdp port)) dst))

/-- A message sent in as few fragments as the path allows (R293). -/
def State.eopSend (s : State) (port : Nat) (dst : Endpoint) (kind session seq : Nat) (msg : List Nat) : State :=
  let n := s.eopRoom port dst
  let k := max 1 (ceilDiv msg.length n)
  (List.range k).foldl (fun (s : State) i =>
    let part := sliceAt msg (n * i) n
    s.eopOut port dst (eopHead kind session seq ++ toLE 2 i ++ toLE 2 k ++ toLE 2 part.length ++ [0, 0] ++ part)) s

-- ------------------------------------------------------------------ the protocol log (R307)

/-- An entry of the protocol error log. -/
def State.logEntry (s : State) (session : Nat) (who : List Nat) (op code addr : Nat) : State :=
  let e := toLE 4 session ++ padTo 8 who ++ [op, code, 0, 0] ++ addrBytes addr ++ toLE 4 0 ++ toLE 8 s.now
  ({ s with protoLog := lastN 256 (s.protoLog ++ [e]) } : State).bump oOdLogProtocolCount

/-- A status that is logged: any but OK, STARTED and DUPLICATE. -/
def loggedStatus (code : Nat) : Bool := code != 0 && code != 0x10 && code != 0x11

/-- A status of a session's request, logged where R307 says so. -/
def State.protLog (s : State) (x : Session) (op addr code : Nat) : State :=
  if loggedStatus code then s.logEntry x.id (toLE 8 x.keyId) op code addr else s

/-- REFUSE in clear (R297, R299), logged with the source address. -/
def State.refuse (s : State) (port : Nat) (dst : Endpoint) (session op code : Nat) : State :=
  (s.eopSend port dst 4 session 0 [code, 0, 0, 0]).logEntry session (toLE 16 dst.addr) op code 0

-- ------------------------------------------------------------------ opening a session (R294 to R298)

/-- A session ID that is free, drawn at random (R295, log entry 7). -/
def State.newSessionId (s : State) : Nat :=
  let v := s.fresh 1
  let used (i : Nat) : Bool := s.sessions.any (fun x => x.id == i) || s.halfOpen.any (fun h => h.id == i)
  (((List.range 64).map (fun i => 1 + (v + i) % (2 ^ 32 - 1))).find? (fun i => !used i)).getD 1

/-- The four keys of a session (R296). -/
def sessKeys (transcript secret : List Nat) : SessKeys :=
  let prk := hkdfExtract transcript secret
  { rxKey := hkdfExpand prk (ascii "eop c2p key") 32, rxIv := hkdfExpand prk (ascii "eop c2p iv") 12,
    txKey := hkdfExpand prk (ascii "eop p2c key") 32, txIv := hkdfExpand prk (ascii "eop p2c iv") 12 }

/-- The half-open session that a HELLO makes (R294 to R296). -/
def State.makeHalfOpen (s : State) (d : Dgram) (hello : List Nat) : HalfOpen :=
  let key := s.fresh 3
  let ans := padTo 1120 (Config.kemAnswer key hello)
  let clear := ans.take 32 ++ toLE 32 (s.fresh 2) ++ ans.drop 32 ++ keyIdOf s.identHandle
  let h := sha384 (hello ++ clear)
  let msg := ascii "eop challenge v1" ++ h
  { id := s.newSessionId, port := d.port, src := d.src, at' := s.clk, hello := hello,
    challenge := clear ++ padTo 64 (Config.ed25519Sign s.identHandle msg) ++ padTo 3309 (Config.mldsaSign 65 s.identHandle msg),
    keys := sessKeys h (padTo 64 (Config.sharedSecret key (hello.take 32) (sliceAt hello 64 1184))), transcript := h }

/-- Half-open sessions that are 10 s old are gone (R295). -/
def State.dropHalfOpen (s : State) : State := { s with halfOpen := s.halfOpen.filter (fun h => decide (s.clk < h.at' + 10 ^ 10)) }

/-- HELLO (R294, R295): a new half-open session and its CHALLENGE, or the same CHALLENGE again. -/
def execHello (dt : Nat) (d : Dgram) (s : State) : Host.Outcome State Fault Refusal :=
  .next ((s.tick dt).eop d 1 (fun s =>
    let s := s.dropHalfOpen
    let hello := d.body.drop 24
    if hello.length ≠ 1252 ∨ leAt d.body 18 2 ≠ 1 ∨ !zeroAt d.body 4 12 ∨ !zeroAt hello 1248 4 then s.eopDiscard
    else match s.halfOpen.find? (fun h => h.hello == hello) with
      | some h => s.eopSend d.port d.src 2 h.id 0 h.challenge
      | none =>
        let h := s.makeHalfOpen d hello
        (({ s with halfOpen := lastN 32 (s.halfOpen ++ [h]) } : State).burn).eopSend d.port d.src 2 h.id 0 h.challenge))

/-- HALF_OPEN_EXPIRE (R295). -/
def execHalfOpenExpire (dt : Nat) (s : State) : Host.Outcome State Fault Refusal := .next (s.tick dt).dropHalfOpen

/-- A session by its ID. -/
def State.session (s : State) (id : Nat) : Option Session := s.sessions.find? (fun x => x.id == id)

/-- The state with a session's record replaced. -/
def State.setSession (s : State) (x : Session) : State :=
  { s with sessions := s.sessions.map (fun (y : Session) => if y.id = x.id then x else y) }

/-- The nonce of a message (R299). -/
def gcmNonce (iv : List Nat) (seq : Nat) : List Nat := (List.range 12).map (fun i => (iv.getD i 0) ^^^ ((toLE 4 0 ++ toLE 8 seq).getD i 0))

/-- The associated data of a message (R299). -/
def gcmAad (session seq total : Nat) : List Nat := eopHead 3 session seq ++ toLE 4 total

/-- A plaintext: header and body (R300). -/
def eopPt (op rid : Nat) (body : List Nat) : List Nat := [op, 0, 0, 0] ++ toLE 4 rid ++ body

/-- A protected message of a session goes out (R299). -/
def State.sendSec (s : State) (id : Nat) (pt : List Nat) : State :=
  match s.session id with
  | none => s
  | some x =>
    let seq := x.txSeq + 1
    let ct := Config.gcmSeal x.keys.txKey (gcmNonce x.keys.txIv seq) (gcmAad id seq (pt.length + 16)) pt
    (s.setSession { x with txSeq := seq }).eopSend x.port x.src 3 id seq (padTo (pt.length + 16) ct)

/-- A session closes (R298): CLOSE with its reason, then it is gone with its subscriptions. -/
def State.closeSession (s : State) (id reason : Nat) : State :=
  let s1 := s.sendSec id (eopPt 3 0 [reason])
  { s1 with sessions := s1.sessions.filter (fun x => x.id != id) }

/-- Several sessions close. -/
def State.closeAll (s : State) (ids : List Nat) (reason : Nat) : State := ids.foldl (fun s i => s.closeSession i reason) s

/-- Sessions whose endpoint is no longer served close with reason 4 (R298). -/
def State.closeUnserved (s : State) : State := s.closeAll ((s.sessions.filter (fun x => !s.eopServed x.port)).map (·.id)) 4

/-- Sessions that enrolment or session.close ends, once the response under way has gone (R339). -/
def State.closeDueNow (s : State) : State := ({ s with closeDue := [] } : State).closeAll s.closeDue 4

/-- The principal slot that a key ID occupies. -/
def State.principalOf (s : State) (keyId : Nat) : Option Nat :=
  if keyId = 0 then none else (List.range 16).find? (fun i => s.odGet (oSessionPrincipalKeyId i) == keyId)

/-- Both signatures of a message verify under a pair of public keys. -/
def bothVerify (ed ml : Nat) (msg sigEd sigMl : List Nat) : Bool :=
  Config.ed25519Verify (toLE 32 ed) msg sigEd && Config.mldsaVerify 65 (toLE 1952 ml) msg sigMl

/-- What refuses a PROOF (R297, R298, R450), if anything: its code. -/
def State.proofRefused (s : State) (h : HalfOpen) (pt : List Nat) : Option Nat :=
  let b := pt.drop 8
  let level := leAt b 8 1
  if pt.length ≠ 8 + 3389 ∨ !zeroAt pt 1 3 ∨ !zeroAt b 9 7 then some stMalformed
  else match s.principalOf (leAt b 0 8) with
    | none => some stSignature
    | some i =>
      let msg := ascii "eop proof v1" ++ h.transcript ++ sliceAt h.challenge 32 32
      if !bothVerify (s.odGet (oSessionPrincipalEd25519 i)) (s.odGet (oSessionPrincipalMldsa i)) msg (sliceAt b 16 64) (sliceAt b 80 3309) then some stSignature
      else if level > s.odGet (oSessionPrincipalLevel i) ∨ (level = 3 ∧ h.port < 16) ∨ (s.recovery ∧ s.odGet (oSessionPrincipalLevel i) < 2) then some stLevel
      else if s.sessions.length ≥ (if s.recovery then 1 else 16) then some stBusy
      else none

/-- PROOF (R297): the session opens with OPENED, or REFUSE discards the half-open session. -/
def execProof (dt session : Nat) (s : State) : Host.Outcome State Fault Refusal :=
  let s := s.tick dt
  .next (match s.halfOpen.find? (fun h => h.id == session) with
    | none => s
    | some h => match h.proof with
      | none => s
      | some (seq, pt) =>
        let s1 := { s with halfOpen := s.halfOpen.filter (fun g => g.id != session) }
        match s1.proofRefused h pt with
        | some code => s1.refuse h.port h.src session 1 code
        | none =>
          let level := leAt pt 16 1
          let rid := leAt pt 4 4
          let pt2 := eopPt 2 rid ([level, 0, 0, 0] ++ toLE 4 60 ++ toLE 8 (s1.now + 12 * 3600 * 10 ^ 9))
          let x : Session :=
            { id := session, port := h.port, src := h.src, level := level, keyId := leAt pt 8 8, keys := h.keys, openedAt := s1.now,
              lastMsg := s1.now, startClk := s1.clk, lastClk := s1.clk, rxHigh := seq, rxSeen := [seq], cache := [(rid, some pt2)] }
          ({ s1 with sessions := s1.sessions ++ [x] } : State).sendSec session pt2)

-- ------------------------------------------------------------------ protected messages (R299 to R301)

/-- Fragments of messages that are still incomplete after 100 ms are gone (R293). -/
def State.dropParts (s : State) : State := { s with eopParts := s.eopParts.filter (fun p => decide (s.clk < p.firstAt + 10 ^ 8)) }

/-- A fragment joins its message; a message is answered when it is whole (R293). -/
def State.eopJoin (s : State) (d : Dgram) : State × Option (List Nat) :=
  let s := s.dropParts
  let sess := leAt d.body 4 4
  let seq := leAt d.body 8 8
  let n := leAt d.body 18 2
  let mine (p : EopPart) : Bool := p.src == d.src && p.port == d.port && p.session == sess && p.seq == seq
  let p := (s.eopParts.find? mine).getD ⟨d.src, d.port, sess, seq, n, s.clk, []⟩
  let q := { p with parts := mins p.parts (leAt d.body 16 2) (d.body.drop 24) }
  let rest := s.eopParts.filter (fun e => !mine e)
  if p.frags ≠ n then (s.eopDiscard, none)
  else if q.parts.length < n then ({ s with eopParts := rest ++ [q] }, none)
  else
    let m := (q.parts.map (·.2)).flatten
    let s1 := { s with eopParts := rest }
    if m.length > 32768 + 16 then (s1.eopDiscard, none) else (s1, some m)

/-- EOP_FRAGMENT_TIMEOUT (R293). -/
def execEopFragmentTimeout (dt : Nat) (s : State) : Host.Outcome State Fault Refusal := .next (s.tick dt).dropParts

/-- A sequence number is acceptable (R299). -/
def Session.accepts (x : Session) (seq : Nat) : Bool :=
  decide (seq > x.rxHigh) || (decide (seq + 128 ≥ x.rxHigh) && decide (0 < seq) && !x.rxSeen.contains seq)

/-- The session with a sequence number taken. -/
def Session.took (x : Session) (seq now clk : Nat) : Session :=
  let high := max x.rxHigh seq
  { x with rxHigh := high, rxSeen := (x.rxSeen ++ [seq]).filter (fun q => decide (q + 128 ≥ high)), lastMsg := now, lastClk := clk }

/-- The session with a request's response kept; none while it is outstanding (R301). -/
def Session.cached (x : Session) (rid : Nat) (r : Option (List Nat)) : Session :=
  { x with cache := lastN 64 (if x.cache.any (fun e => e.1 == rid) then x.cache.map (fun e => if e.1 = rid then (rid, r) else e) else x.cache ++ [(rid, r)]) }

/-- A request is answered: the response kept and sent (R301). -/
def State.respond (s : State) (id rid : Nat) (pt : List Nat) : State :=
  match s.session id with
  | none => s
  | some x => (s.setSession (x.cached rid (some pt))).sendSec id pt

/-- The op of the message that answers a request; a request without one is answered under its own op. -/
def respOp (op : Nat) : Nat := if [0x10, 0x12, 0x14, 0x20, 0x30].contains op then op + 1 else if op = 0x22 then 0x21 else op

/-- A request is answered with a code alone (log entry 43). -/
def State.respondCode (s : State) (x : Session) (op rid code : Nat) : State :=
  (s.protLog x op 0 code).respond x.id rid (eopPt (respOp op) rid [code, 0, 0, 0])

/-- Requests of a session that are outstanding (R301). -/
def Session.outstanding (x : Session) : Nat := (x.cache.filter (fun e => e.2.isNone)).length

/-- A plaintext of an open session (R300, R301). -/
def State.takePt (s : State) (x : Session) (pt : List Nat) : State :=
  let op := leAt pt 0 1
  let rid := leAt pt 4 4
  let inbox := s.setSession { x with inbox := x.inbox ++ [pt] }
  if pt.length < 8 ∨ !zeroAt pt 1 3 then s.respondCode x op rid stMalformed
  else if op = 3 ∨ op = 0x24 then inbox
  else match x.cache.find? (fun e => e.1 == rid) with
    | some (_, some r) => s.sendSec x.id r
    | some (_, none) => s
    | none =>
      if !([4, 0x10, 0x12, 0x14, 0x20, 0x22, 0x30].contains op) then s.respondCode x op rid stMalformed
      else if x.outstanding ≥ 8 then s.respondCode x op rid stBusy
      else s.setSession ({ x with inbox := x.inbox ++ [pt] }.cached rid none)

/-- A whole protected message (R299). -/
def State.takeProtected (s : State) (sess seq : Nat) (m : List Nat) : State :=
  match s.session sess with
  | some x =>
    if !x.accepts seq then s.eopDiscard
    else match Config.gcmOpen x.keys.rxKey (gcmNonce x.keys.rxIv seq) (gcmAad sess seq m.length) m with
      | none => s.eopDiscard
      | some pt =>
        let x1 := x.took seq s.now s.clk
        (s.setSession x1).takePt x1 pt
  | none => match s.halfOpen.find? (fun h => h.id == sess) with
    | none => s
    | some h =>
      match Config.gcmOpen h.keys.rxKey (gcmNonce h.keys.rxIv seq) (gcmAad sess seq m.length) m with
      | none => s.eopDiscard
      | some pt =>
        if leAt pt 0 1 ≠ 1 ∨ h.proof.isSome then s.eopDiscard
        else { s with halfOpen := s.halfOpen.map (fun (g : HalfOpen) => if g.id = sess then { g with proof := some (seq, pt) } else g) }

/-- PROTECTED_RECEIVE (R299): accepted by sequence number and tag, discarded in silence, or answered with REFUSE
SESSION, at most once a second to one source address. -/
def execProtectedReceive (dt : Nat) (d : Dgram) (s : State) : Host.Outcome State Fault Refusal :=
  .next ((s.tick dt).eop d 3 (fun s =>
    let s := s.dropHalfOpen
    let sess := leAt d.body 4 4
    let known := (s.session sess).isSome || s.halfOpen.any (fun h => h.id == sess)
    if known then
      match s.eopJoin d with
      | (s1, some m) => s1.takeProtected sess (leAt d.body 8 8) m
      | (s1, none) => s1
    else
      let src : Endpoint := { d.src with port := 0 }
      let recent := s.refusedAt.filter (fun e => decide (s.clk < e.2 + 10 ^ 9))
      if recent.any (fun e => e.1 == src) then s
      else ({ s with refusedAt := recent ++ [(src, s.clk)] } : State).refuse d.port d.src sess 0 stSession))

/-- The oldest request of a session is served, where it has an op: its request ID and its body. -/
def State.serve (s : State) (id op : Nat) (run : State → Session → Nat → List Nat → State) : State :=
  match s.session id with
  | none => s
  | some x => match x.inbox with
    | [] => s
    | pt :: t =>
      if leAt pt 0 1 ≠ op then s
      else
        let x1 := { x with inbox := t }
        run (s.setSession x1) x1 (leAt pt 4 4) (pt.drop 8)

/-- CLOSE (R298): by the client, reason 1. -/
def execCloseSession (dt session : Nat) (s : State) : Host.Outcome State Fault Refusal :=
  .next ((s.tick dt).serve session 3 (fun s x _ _ => s.closeSession x.id 1))

/-- KEEPALIVE (R300). -/
def execKeepalive (dt session : Nat) (s : State) : Host.Outcome State Fault Refusal :=
  .next ((s.tick dt).serve session 4 (fun s x rid _ => s.respond x.id rid (eopPt 4 rid [])))

/-- SESSION_IDLE_TIMEOUT (R298). -/
def execSessionIdleTimeout (dt session : Nat) (s : State) : Host.Outcome State Fault Refusal :=
  let s := s.tick dt
  .next (match s.session session with
    | some x => if x.lastClk + 60 * 10 ^ 9 ≤ s.clk then s.closeSession session 2 else s
    | none => s)

/-- SESSION_LIFETIME_END (R298). -/
def execSessionLifetimeEnd (dt session : Nat) (s : State) : Host.Outcome State Fault Refusal :=
  let s := s.tick dt
  .next (match s.session session with
    | some x => if x.startClk + 12 * 3600 * 10 ^ 9 ≤ s.clk then s.closeSession session 3 else s
    | none => s)

-- ------------------------------------------------------------------ subscriptions and events (R308, R309)

/-- The oldest event number in the ring. -/
def State.oldestEvent (s : State) : Nat := match s.events with | e :: _ => e.num | [] => s.nextEvent

/-- The SUB_RESP of a status and a subscription. -/
def State.subResp (s : State) (x : Session) (op rid code num : Nat) : State :=
  (s.protLog x op 0 code).respond x.id rid (eopPt 0x21 rid ([code, num, 0, 0, 0, 0, 0, 0] ++ toLE 8 s.oldestEvent))

/-- The filters of a SUBSCRIBE. -/
def subFilters (b : List Nat) : List (Nat × Nat) := (List.range (leAt b 0 1)).map (fun i => (leAt b (16 + 8 * i) 3, leAt b (20 + 8 * i) 3))

/-- A SUBSCRIBE's body is well formed. -/
def subOk (b : List Nat) : Bool :=
  let n := leAt b 0 1
  decide (1 ≤ n) && decide (n ≤ 16) && b.length == 16 + 8 * n && zeroAt b 1 7 &&
  (List.range n).all (fun i => zeroAt b (19 + 8 * i) 1 && zeroAt b (23 + 8 * i) 1)

/-- SUBSCRIBE (R308). -/
def execSubscribe (dt session : Nat) (s : State) : Host.Outcome State Fault Refusal :=
  .next ((s.tick dt).serve session 0x20 (fun s x rid b =>
    if !subOk b then s.subResp x 0x20 rid stMalformed 0
    else match (List.range 4).find? (fun n => !x.subs.any (fun u => u.num == n)) with
      | none => s.subResp x 0x20 rid stBusy 0
      | some n =>
        if sumN (s.sessions.map (fun y => y.subs.length)) ≥ 32 then s.subResp x 0x20 rid stBusy 0
        else
          let start := leAt b 8 8
          let u : Sub := { num := n, filters := subFilters b, nxt := if start = 0 then s.nextEvent else start }
          (s.setSession { x with subs := x.subs ++ [u] }).subResp x 0x20 rid stOk n))

/-- UNSUBSCRIBE (R308). -/
def execUnsubscribe (dt session : Nat) (s : State) : Host.Outcome State Fault Refusal :=
  .next ((s.tick dt).serve session 0x22 (fun s x rid b =>
    let n := leAt b 0 1
    if b = [] then s.respondCode x 0x22 rid stMalformed
    else if x.subs.any (fun u => u.num == n) then
      (s.setSession { x with subs := x.subs.filter (fun u => u.num != n) }).subResp x 0x22 rid stOk n
    else s.subResp x 0x22 rid stBadValue n))

/-- EVENT_ACK (R309). -/
def execEventAck (dt session : Nat) (s : State) : Host.Outcome State Fault Refusal :=
  .next ((s.tick dt).serve session 0x24 (fun s x _ b =>
    let upTo := leAt b 0 8
    let cut (m : EvMsg) : EvMsg := { m with entries := m.entries.filter (fun e => decide (upTo < e.1)) }
    if b.length < 9 then s
    else s.setSession { x with subs := x.subs.map (fun (u : Sub) =>
      if u.num = leAt b 8 1 then { u with sent := (u.sent.map cut).filter (fun m => m.entries != []) } else u) }))

/-- An event entry on the wire (R309). -/
def evEntry (num time addr : Nat) (val : List Nat) : List Nat :=
  toLE 8 num ++ toLE 8 time ++ addrBytes addr ++ [0, 0] ++ toLE 2 val.length ++ padTo ((val.length + 3) / 4 * 4) val

/-- An EVENT message of a subscription. -/
def evMessage (num : Nat) (l : List (Nat × List Nat)) : List Nat := eopPt 0x23 0 ([num, l.length, 0, 0, 0, 0, 0, 0] ++ (l.map (·.2)).flatten)

/-- A session may see an event of a subscription (R308). -/
def Session.matches (x : Session) (u : Sub) (e : EvRec) : Bool :=
  u.filters.any (fun f => decide (f.1 ≤ e.addr / 256 ∧ e.addr / 256 ≤ f.2)) &&
  (match dirRow (e.addr / 256) (e.addr % 256) with | some r => decide (r.readLevel ≤ x.level) | none => false)

/-- Events outstanding on a subscription. -/
def Sub.outstanding (u : Sub) : Nat := sumN (u.sent.map (fun m => m.entries.length))

/-- The entries that a subscription is due now, and the event number it then waits for (R309). -/
def State.dueEntries (s : State) (x : Session) (u : Sub) : List (Nat × List Nat) × Nat :=
  let room := 64 - u.outstanding
  let old := s.oldestEvent
  let gap : List (Nat × List Nat) := if u.nxt < old then [(old - 1, evEntry (old - 1) s.now 0 (toLE 8 u.nxt ++ toLE 8 (old - 1)))] else []
  let l := s.events.filter (fun e => decide (u.nxt ≤ e.num) && x.matches u e)
  let picked := l.take (room - gap.length)
  if room = 0 then ([], u.nxt)
  else (gap ++ picked.map (fun e => (e.num, evEntry e.num e.time e.addr e.val)),
    if picked.length < l.length then (match picked.getLast? with | some e => e.num + 1 | none => max u.nxt old) else max u.nxt s.nextEvent)

/-- A subscription's due events go out, at most 16 to a message. -/
def State.deliverSub (s : State) (id num : Nat) : State :=
  match s.session id with
  | none => s
  | some x => match x.subs.find? (fun u => u.num == num) with
    | none => s
    | some u =>
      let (l, nxt) := s.dueEntries x u
      let cut (i : Nat) : List (Nat × List Nat) := (l.drop (16 * i)).take 16
      let msgs := (List.range (ceilDiv l.length 16)).map cut
      let u1 := { u with nxt := nxt, sent := u.sent ++ msgs.map (fun m => ⟨m, s.clk, 0⟩) }
      let s1 := s.setSession { x with subs := x.subs.map (fun (v : Sub) => if v.num = num then u1 else v) }
      msgs.foldl (fun s m => s.sendSec id (evMessage num m)) s1

/-- Every subscription's due events go out. -/
def State.deliverEvents (s : State) : State :=
  if s.recovery then s
  else ((s.sessions.map (fun x => x.subs.map (fun u => (x.id, u.num)))).flatten).foldl (fun s p => s.deliverSub p.1 p.2) s

/-- EVENT_RESEND (R309): unacknowledged EVENTs of a subscription past their interval, 200 ms doubling to 3.2 s. -/
def execEventResend (dt session sub : Nat) (s : State) : Host.Outcome State Fault Refusal :=
  let s := s.tick dt
  .next (match s.session session with
    | none => s
    | some x => match x.subs.find? (fun u => u.num == sub) with
      | none => s
      | some u =>
        let due (m : EvMsg) : Bool := decide (m.lastTx + 2 * 10 ^ 8 * 2 ^ min m.tries 4 ≤ s.clk)
        let u1 := { u with sent := u.sent.map (fun (m : EvMsg) => if due m then { m with lastTx := s.clk, tries := m.tries + 1 } else m) }
        let s1 := s.setSession { x with subs := x.subs.map (fun (v : Sub) => if v.num = sub then u1 else v) }
        (u.sent.filter due).foldl (fun s m => s.sendSec session (evMessage sub m.entries)) s1)

-- ------------------------------------------------------------------ quorum commands (R310 to R313)

/-- The fleet entry that a key ID names. -/
def State.fleetOf (s : State) (keyId : Nat) : Option Nat :=
  (List.range (s.odGet oSessionQuorumN)).find? (fun i => s.odGet (oSessionFleetKeyId i) == keyId)

/-- The public keys that a key ID names, among the fleet managers and the principals. -/
def State.keysOf (s : State) (keyId : Nat) : Option (Nat × Nat) :=
  match s.fleetOf keyId with
  | some i => some (s.odGet (oSessionFleetEd25519 i), s.odGet (oSessionFleetMldsa i))
  | none => (s.principalOf keyId).map (fun i => (s.odGet (oSessionPrincipalEd25519 i), s.odGet (oSessionPrincipalMldsa i)))

/-- Signature i of a QUORUM body: key ID, Ed25519, ML-DSA-65. -/
def quorumSig (b : List Nat) (i : Nat) : Nat × List Nat × List Nat :=
  (leAt b (136 + 3381 * i) 8, sliceAt b (144 + 3381 * i) 64, sliceAt b (208 + 3381 * i) 3309)

/-- A quorum command is allowed in a device state (R336). -/
def quorumAllowed (cmd dev : Nat) : Bool := dev == 3 || dev == 4 || dev == 5 || (cmd == 2 && dev == 1)

/-- Check 1 of R312. -/
def quorumForm (b : List Nat) : Bool :=
  decide (136 ≤ b.length) && leAt b 0 2 == 1 && decide (1 ≤ leAt b 2 1) && decide (leAt b 2 1 ≤ 3) && zeroAt b 3 1 &&
  (leAt b 2 1 != 2 || zeroAt b 36 16) && (leAt b 2 1 == 3 || zeroAt b 68 4) && zeroAt b 72 56 && zeroAt b 129 7 &&
  decide (leAt b 128 1 ≤ 7) && b.length == 136 + 3381 * leAt b 128 1

/-- The first failing check of R312 after the duplicate check, if any. -/
def State.quorumFault (s : State) (b : List Nat) : Option Nat :=
  let sigs := (List.range (leAt b 128 1)).map (quorumSig b)
  let msg := ascii "eop quorum v1" ++ b.take 128
  let ok (g : Nat × List Nat × List Nat) : Bool :=
    match s.keysOf g.1 with | some k => bothVerify k.1 k.2 msg g.2.1 g.2.2 | none => false
  let ids := (sigs.map (·.1)).eraseDups
  if leAt b 20 16 ≠ s.odGet oFloorPanelSerial then some stTarget
  else if leAt b 60 8 > leAt b 52 8 + 300 * 10 ^ 9 ∨ s.now < leAt b 52 8 ∨ leAt b 60 8 < s.now ∨ leAt b 52 8 ≤ s.readyAt then some stExpired
  else if s.odGet oSessionQuorumN = 0 then some stQuorum
  else if !sigs.all ok then some stSignature
  else if ids.length < s.odGet oSessionQuorumK ∨ ids.any (fun i => (s.fleetOf i).isNone) then some stQuorum
  else if !quorumAllowed (leAt b 2 1) s.dev then some stState
  else none

/-- The QUORUM_RESP of a command (R313). -/
def quorumResp (rid code cmd : Nat) (cid : List Nat) (time : Nat) : List Nat :=
  eopPt 0x31 rid ([code, cmd, 0, 0, 0, 0, 0, 0] ++ padTo 16 cid ++ toLE 8 time)

/-- QUORUM (R312): the first failing check answers; an accepted command waits for its turn and is answered when its
execution starts (R313). -/
def execQuorum (dt session : Nat) (s : State) : Host.Outcome State Fault Refusal :=
  .next ((s.tick dt).serve session 0x30 (fun s x rid b =>
    let cid := sliceAt b 4 16
    let fail (code time : Nat) : State := (s.protLog x 0x30 0 code).respond x.id rid (quorumResp rid code (leAt b 2 1) cid time)
    if x.level < 1 then fail stLevel s.now
    else if !quorumForm b then fail stMalformed s.now
    else match s.quorumTaken.find? (fun q => q.id == cid) with
      | some q => s.respond x.id rid (quorumResp rid stDuplicate (leAt b 2 1) cid q.decidedAt ++ [q.status, 0, 0, 0])
      | none => match s.quorumFault b with
        | some code => fail code s.now
        | none =>
          let q : QCmd :=
            { cmd := leAt b 2 1, id := cid, subject := leAt b 36 16, stream := leAt b 68 4, notAfter := leAt b 60 8,
              decidedAt := s.now, session := session, request := rid }
          { s with quorumTaken := s.quorumTaken ++ [q], quorumQueue := s.quorumQueue ++ [q] }))

/-- QUORUM_ID_EXPIRE (R313). -/
def execQuorumIdExpire (dt : Nat) (s : State) : Host.Outcome State Fault Refusal :=
  let s := s.tick dt
  .next { s with quorumTaken := s.quorumTaken.filter (fun q => decide (s.now ≤ q.notAfter)) }

/-- The command whose turn it is starts, where its device state and its own rule allow it, or fails check 7 (R313, R314, R425): the
state, and whether it started. -/
def State.quorumStart (s : State) (q : QCmd) (may : Bool) : State × Bool :=
  let ok := quorumAllowed q.cmd s.dev && may
  let code := if ok then stStarted else stState
  let s1 : State := { s with
    quorumQueue := if ok then ({ q with phase := 1, startClk := s.clk } :: s.quorumQueue.tail) else s.quorumQueue.tail
    quorumTaken := s.quorumTaken.map (fun (t : QCmd) => if t.id = q.id then { t with status := code } else t) }
  let s2 := match s1.session q.session with | some x => s1.protLog x 0x30 0 code | none => s1
  (s2.respond q.session q.request (quorumResp q.request code q.cmd q.id q.decidedAt), ok)

/-- The quorum command under way is done. -/
def State.quorumDone (s : State) : State := { s with quorumQueue := s.quorumQueue.tail }

-- ------------------------------------------------------------------ enrolment and session control (R337 to R340)

/-- One step of reading UTF-8: continuation bytes still due and the range of the next. -/
def utf8Step (st : Option (Nat × Nat × Nat)) (b : Nat) : Option (Nat × Nat × Nat) :=
  match st with
  | none => none
  | some (0, _, _) =>
    if b < 0x80 then some (0, 0, 0)
    else if 0xC2 ≤ b ∧ b ≤ 0xDF then some (1, 0x80, 0xBF)
    else if b = 0xE0 then some (2, 0xA0, 0xBF)
    else if b = 0xED then some (2, 0x80, 0x9F)
    else if 0xE1 ≤ b ∧ b ≤ 0xEF then some (2, 0x80, 0xBF)
    else if b = 0xF0 then some (3, 0x90, 0xBF)
    else if 0xF1 ≤ b ∧ b ≤ 0xF3 then some (3, 0x80, 0xBF)
    else if b = 0xF4 then some (3, 0x80, 0x8F)
    else none
  | some (n + 1, lo, hi) => if lo ≤ b ∧ b ≤ hi then some (n, 0x80, 0xBF) else none

/-- A byte string is valid UTF-8 (R318). -/
def utf8Ok (b : List Nat) : Bool :=
  match b.foldl utf8Step (some (0, 0, 0)) with
  | some (0, _, _) => true
  | _ => false

/-- A slot's principal written or emptied. -/
def State.putPrincipal (s : State) (slot : Nat) (b : List Nat) : State :=
  let key := leAt b 4 8
  let old := s.odGet (oSessionPrincipalKeyId slot)
  let s1 := ((s.odSet (oSessionPrincipalKeyId slot) key).odSet (oSessionPrincipalLevel slot) (leAt b 1 1)).odSet
    (oSessionPrincipalEd25519 slot) (leAt b 12 32)
  let s2 := ((s1.odSet (oSessionPrincipalMldsa slot) (leAt b 44 1952)).odSet (oSessionPrincipalLabel slot) (leAt b 1996 32)).odSet
    (oSessionPrincipalEnrolledAt slot) (if key = 0 then 0 else s1.now)
  { s2 with storeDirty := true, closeDue := s2.closeDue ++ (s2.sessions.filter (fun x => x.keyId == old && old != 0)).map (·.id) }

/-- A write of session.principal_set by a session of a level (R337, R339): none is BAD_VALUE. -/
def State.principalSet (s : State) (level : Nat) (b : List Nat) : Option State :=
  let slot := leAt b 0 1
  let key := leAt b 4 8
  let others := (List.range 16).filter (fun i => i != slot)
  let empty := key == 0
  if b.length ≠ 2028 ∨ slot ≥ 16 ∨ !zeroAt b 2 2 ∨ leAt b 1 1 > level ∨ (slot = 0 ∧ level < 3) then none
  else if empty ∧ !zeroAt b 1 2027 then none
  else if !empty ∧ (others.any (fun i => s.odGet (oSessionPrincipalKeyId i) == key) ∨
      !Config.keyDecodes 0 (sliceAt b 12 32) ∨ !Config.keyDecodes 1 (sliceAt b 44 1952) ∨ !utf8Ok (sliceAt b 1996 32)) then none
  else
    let s1 := s.putPrincipal slot b
    if (List.range 16).any (fun i => i != 0 && s1.odGet (oSessionPrincipalKeyId i) != 0 && s1.odGet (oSessionPrincipalLevel i) == 2) then some s1 else none

/-- PRINCIPAL_SET (R337). -/
def execPrincipalSet (dt level : Nat) (b : List Nat) (s : State) : Host.Outcome State Fault Refusal :=
  .next (((s.tick dt).principalSet level b).getD (s.tick dt))

/-- One entry of the fleet-manager set. -/
def State.putFleet (s : State) (n : Nat) (b : List Nat) (i : Nat) : State :=
  let o := 4 + 2024 * i
  (((((s.odSet (oSessionFleetKeyId i) (leAt b o 8)).odSet (oSessionFleetEd25519 i) (leAt b (o + 8) 32)).odSet
    (oSessionFleetMldsa i) (leAt b (o + 40) 1952)).odSet (oSessionFleetLabel i) (leAt b (o + 1992) 32)).odSet
    (oSessionFleetEnrolledAt i) (if i < n then s.now else 0))

/-- A write of session.quorum_set (R338): none is BAD_VALUE. -/
def State.quorumSet (s : State) (b : List Nat) : Option State :=
  let k := leAt b 0 1
  let n := leAt b 1 1
  let ids := (List.range n).map (fun i => leAt b (4 + 2024 * i) 8)
  let labels := (List.range n).all (fun i => utf8Ok (sliceAt b (4 + 2024 * i + 1992) 32))
  if b.length ≠ 18220 ∨ n > 9 ∨ !zeroAt b 2 2 ∨ (n ≠ 0 ∧ (k < 1 ∨ k > min n 7)) ∨ ids.eraseDups.length ≠ n ∨ !labels ∨
      !zeroAt b (4 + 2024 * n) (2024 * (9 - n)) then none
  else
    let s1 := (List.range 9).foldl (fun s i => s.putFleet n b i) s
    some { (s1.odSet oSessionQuorumK k).odSet oSessionQuorumN n with storeDirty := true }

/-- QUORUM_SET (R338). -/
def execQuorumSet (dt : Nat) (b : List Nat) (s : State) : Host.Outcome State Fault Refusal :=
  .next (((s.tick dt).quorumSet b).getD (s.tick dt))

/-- A write of session.close (R339): the session is closed once the response under way has gone. -/
def State.sessionCloseCmd (s : State) (id : Nat) : State :=
  if (s.session id).isSome then { s.odSet oSessionClose 0 with closeDue := s.closeDue ++ [id] } else s.odSet oSessionClose 1

/-- SESSION_CLOSE (R339). -/
def execSessionClose (dt id : Nat) (s : State) : Host.Outcome State Fault Refusal := .next (((s.tick dt).sessionCloseCmd id).closeDueNow)

/-- A write to a management address field (R340), which waits for its response: none is BAD_VALUE. -/
def State.mgmtWrite (s : State) (sub v : Nat) : Option State :=
  let size := [4, 1, 4, 16, 1, 16, 2].getD (sub - 4) 0
  if sub < 4 ∨ sub > 0xA ∨ v ≥ 256 ^ size ∨ (sub = 5 ∧ (v < 1 ∨ v > 32)) ∨ (sub = 8 ∧ (v < 1 ∨ v > 128)) then none
  else some { s with mgmtDue := s.mgmtDue ++ [(oDeviceMgmt + sub, v)], storeDirty := true }

/-- MGMT_ADDRESS_WRITE (R340). -/
def execMgmtAddressWrite (dt sub v : Nat) (s : State) : Host.Outcome State Fault Refusal :=
  .next (((s.tick dt).mgmtWrite sub v).getD (s.tick dt))

-- ------------------------------------------------------------------ the store (R325)

/-- A STORED object (R324). -/
def isStored (a : Nat) : Bool := match dirRow (a / 256) (a % 256) with | some r => r.persist == 2 | none => false

/-- The trim codes as the store holds them: while a margin re-plan runs, those of the last completed one (R373). -/
def State.storedTrims (s : State) (m : SMap Nat) : SMap Nat :=
  match s.marginPlan with
  | none => m
  | some p => p.codes.foldl (fun m q =>
      let a := oAgeingSiteTrims (q.1 / 64)
      let v := mget 0 m a
      mins m a (v - v >>> (8 * (q.1 % 64)) % 256 * 2 ^ (8 * (q.1 % 64)) + q.2 % 256 * 2 ^ (8 * (q.1 % 64)))) m

/-- The STORED values, with what waits for its response and the set points that are on their way (R344). -/
def State.storedVals (s : State) : SMap Nat :=
  s.ramps.foldl (fun m p => mins m p.1 p.2.1) (s.mgmtDue.foldl (fun m p => mins m p.1 p.2) (s.storedTrims (s.od.filter (fun p => isStored p.1))))

/-- The STORED values written to the older copy (R325). -/
def State.writeStore (s : State) : State :=
  let s := s.addHours
  let g := max s.store0.gen s.store1.gen + 1
  let c : StoreCopy := ⟨g, true, mins s.storedVals oDeviceStoreGeneration g, s.ageHistory⟩
  let s1 : State := if s.store0.gen ≤ s.store1.gen then { s with store0 := c } else { s with store1 := c }
  ({ s1 with storeDirty := false }.odSet oDeviceStoreGeneration g).odSet oDeviceStoreLastCommit s.now

/-- Writes to the management addresses take effect, and the management sessions close (R340). -/
def State.mgmtNow (s : State) : State :=
  if s.mgmtDue = [] then s
  else
    let s1 := s.mgmtDue.foldl (fun s p => s.odSet p.1 p.2) ({ s with mgmtDue := [] } : State)
    s1.closeAll ((s1.sessions.filter (fun x => decide (x.port ≥ 16))).map (·.id)) 4

/-- The responses of a session that waited for the commit. -/
def State.sendHeld (s : State) (id : Nat) : State :=
  match s.session id with
  | none => s
  | some x => x.held.foldl (fun s r => s.respond id r.1 r.2) (s.setSession { x with held := [] })

/-- STORE_COMMIT (R325): the new copy is written, and the responses that waited for it go out; then what enrolment and
management writes still have to do. -/
def execStoreCommit (dt : Nat) (s : State) : Host.Outcome State Fault Refusal :=
  let s := s.tick dt
  .next (if !s.storeDirty then s
    else
      let s1 := s.writeStore
      (((s1.sessions.map (·.id)).foldl State.sendHeld s1).mgmtNow).closeDueNow)

end Sys2Proof.Machine
end

