-- ==== Sys2Proof/Machine/Cascade.lean ====
section
/-!
DEFINITION. Cascades (chapter 16): seam links, members and roles, the host face, deepened passes, pace, exact reduction,
couching between panels, and the fleet's commands. What another panel sends is the operand of MEMBER_HEARTBEAT (log
entry 55); choices that the spec leaves open are in log entries 54 to 58.
-/
namespace Sys2Proof.Machine

-- ------------------------------------------------------------------ the record and the members (R407)

/-- Serial i of the member list, 0 unused. -/
def State.cfgSerial (s : State) (i : Nat) : Nat := s.odGet oCascadeConfigMembers / 2 ^ (128 * i) % 2 ^ 128

/-- The configured members. -/
def State.memberList (s : State) : List Nat := (List.range 8).filter (fun i => s.cfgSerial i != 0)

/-- This panel's number (R407). -/
def State.panelNo (s : State) : Nat := s.odGet oCascadePanelNumber

/-- The other configured members. -/
def State.others (s : State) : List Nat := s.memberList.filter (· != s.panelNo)

/-- The encoding of cascade.config (R302, R407). -/
def State.configBytes (s : State) : List Nat :=
  toLE 4 (s.odGet oCascadeConfigCascadeId) ++ toLE 128 (s.odGet oCascadeConfigMembers) ++
  [s.odGet oCascadeConfigMaster, s.odGet oCascadeConfigDeputy, s.odGet oCascadeConfigPaceLevel, s.odGet oCascadeConfigReamMib] ++
  toLE 4 (s.odGet oCascadeConfigReamDeadlineUs) ++ [s.odGet oCascadeConfigBackupRemote, s.odGet oCascadeConfigStragglerPct] ++
  toLE 2 (s.odGet oCascadeConfigStragglerWindowS)

/-- cascade.panel.digest (R407). -/
def State.seamDigest (s : State) : Nat := ofLE (sha384 s.configBytes)

/-- The state of a member (area 0x65): 0 absent, 1 forming, 2 up, 3 lost, 4 expelled, 5 isolated. -/
def State.memberState (s : State) (p : Nat) : Nat := s.odGet (oCascadeMemberState p)

/-- The MEMBER links to a panel, in ascending port: its bundle (R406). -/
def State.bundle (s : State) (p : Nat) : List Nat :=
  (List.range 16).filter (fun q => s.odGet (oCascadeLinkState q) == 2 && s.odGet (oCascadeLinkPeerPanel q) == p)

/-- The link counts of the members brought up to date. -/
def State.relink (s : State) : State := (List.range 8).foldl (fun s i => s.odSet (oCascadeMemberLinks i) (s.bundle i).length) s

/-- cascade.panel.event. -/
def State.cascadeEvent (s : State) (kind panel port lvl latency : Nat) : State :=
  s.publish24 oCascadePanelEvent ([kind, panel, port, lvl] ++ toLE 4 latency)

/-- The record's panel number and member serials written to their objects, and the roles and state with them (R407): the
panel forms if its cascade ID is nonzero and it is in service. -/
def State.takeRecord (s : State) : State :=
  let me := s.odGet oFloorPanelSerial
  let id := s.odGet oCascadeConfigCascadeId
  let n := ((List.range 8).find? (fun i => s.cfgSerial i == me && me != 0)).getD 0xFF
  let on := decide (id ≠ 0) && decide (n < 8)
  let s1 := (List.range 8).foldl (fun s i => (s.odSet (oCascadeMemberSerial i) (s.cfgSerial i)).odSet (oCascadeMemberState i)
    (if on ∧ s.cfgSerial i ≠ 0 then 1 else 0)) s
  let role := if !on then 0 else if n = s.odGet oCascadeConfigMaster then 1 else if n = s.odGet oCascadeConfigDeputy then 2 else 3
  let serving := decide (3 ≤ s.dev) && decide (s.dev ≤ 5)
  let s2 := ((s1.odSet oCascadePanelNumber (if on then n else 0xFF)).odSet oCascadePanelRole role).odSet oCascadePanelState
    (if on && serving then 1 else 0)
  ({ s2.odSet oCascadePanelLevel 63 with
    cas.actMaster := if on then s.odGet oCascadeConfigMaster else 0xFF
    cas.actDeputy := if on then s.odGet oCascadeConfigDeputy else 0xFF
    cas.formAt := s.clk, cas.memberHeard := [], cas.memberBeats := [], cas.expelling := [] } : State).relink

/-- The rules of a cascade.config record (R407): distinct master and deputy among the members, a strap where it is this
panel; a record that breaks them is BAD_VALUE. Another panel's strap is not known here (log entry 54). -/
def State.configOk (s : State) : Bool :=
  let id := s.odGet oCascadeConfigCascadeId
  let ma := s.odGet oCascadeConfigMaster
  let de := s.odGet oCascadeConfigDeputy
  let mine := ((List.range 8).find? (fun i => s.cfgSerial i == s.odGet oFloorPanelSerial)).getD 0xFF
  id == 0 || (ma != de && s.cfgSerial ma != 0 && s.cfgSerial de != 0 && decide (ma < 8) && decide (de < 8) &&
    (s.odGet oCascadePanelStrap == 1 || (mine != ma && mine != de)))

-- ------------------------------------------------------------------ what goes out on the seam (R405, R406)

/-- A control packet to a panel on channel 2. -/
def State.seamCtl (s : State) (p kind : Nat) (body : List Nat) : State :=
  if p = s.panelNo ∨ p ≥ 8 then s else s.send (.seam p kind body)

/-- A control packet to every other member that is not expelled. -/
def State.seamAll (s : State) (kind : Nat) (body : List Nat) : State :=
  (s.others.filter (fun p => s.memberState p != 4)).foldl (fun s p => s.seamCtl p kind body) s

/-- A transfer to a panel: numbered, on link (ID mod links) and sub-channel ((ID div links) mod 8) of the bundle (R406);
where the pair has no MEMBER link it goes through the master's stack space (R426). -/
def State.seamSend (s : State) (p kind : Nat) (body : List Nat) : State :=
  if p = s.panelNo ∨ p ≥ 8 then s
  else
    let id := s.cas.nextXfer
    let l := s.bundle p
    let s1 := { s with cas.nextXfer := (id + 1) % 2 ^ 32 }
    if l = [] then s1.send (.seam s.cas.actMaster 0x7F ([id, p, kind] ++ body))
    else
      let port := l.getD (id % l.length) 0
      ({ s1 with cas.xfers := s1.cas.xfers ++ [⟨id, p, kind, body, port, s.clk⟩] } : State).send
        (.seam p kind ([id, port, id / l.length % 8] ++ body))

/-- A transfer issued again on another link of its bundle (R406). -/
def State.reissue (s : State) (x : Xfer) : State :=
  let l := s.bundle x.panel
  match (l.filter (· != x.port) ++ l).head? with
  | none => ({ s with cas.xfers := s.cas.xfers.filter (fun y => y.id != x.id) } : State).send (.seam s.cas.actMaster 0x7F ([x.id, x.panel, x.kind] ++ x.body))
  | some port =>
    ({ s with cas.xfers := s.cas.xfers.map (fun (y : Xfer) => if y.id = x.id then { y with port := port, sentAt := s.clk } else y) } : State).send
      (.seam x.panel x.kind ([x.id, port, x.id / l.length % 8] ++ x.body))

/-- TRANSFER_REISSUE (R406): a transfer not acknowledged within 10 ms, or whose link carries nothing any more. -/
def execTransferReissue (dt id : Nat) (s : State) : Host.Outcome State Fault Refusal :=
  let s := s.tick dt
  .next (match s.cas.xfers.find? (fun x => x.id == id) with
    | some x => if x.sentAt + 10 ^ 7 ≤ s.clk ∨ s.odGet (oCascadeLinkState x.port) ≠ 2 then s.reissue x else s
    | none => s)

/-- Every pair of members that are up shares a MEMBER link (R408). -/
def State.joined (s : State) (ms : List Nat) : Bool :=
  ms.all (fun i => s.bundle i != [] && ms.all (fun j => i == j || (mget {} s.cas.memberBeats i).peers.testBit j))

/-- FORMED or PARTIAL, by whether a pair of members has lost its last MEMBER link (R426). -/
def State.judgeCascade (s : State) : State :=
  if !s.inCascade then s
  else s.odSet oCascadePanelState (if s.joined (s.others.filter (fun p => s.memberState p == 2)) then 2 else 3)

-- ------------------------------------------------------------------ seam links (R403, R404, R408)

/-- A panel number from a serial. -/
def State.panelOf (s : State) (serial : Nat) : Option Nat := (List.range 8).find? (fun i => serial != 0 && s.cfgSerial i == serial)

/-- The state that a hello gives its link (R408). -/
def State.linkClass (s : State) (h : Hello) : Nat :=
  let own := s.odGet oCascadeConfigCascadeId
  match s.panelOf h.serial with
  | none => 3
  | some p =>
    if s.memberState p = 4 then 5
    else if own = 0 ∨ h.cid = 0 then 3
    else if h.cid = own ∧ h.digest = s.seamDigest then 2 else 4

/-- The calibrated latency of a seam link in ps (R404). -/
def seamLatency (minPs : Nat) : Nat := (minPs + 10000 + 999) / 1000 * 1000

/-- The flit threshold of a seam link (R403): θ = 1,024 − ⌈F⌉ − 4 with F as in R159. -/
def seamTheta (latency : Nat) : Nat := 1024 - ceilDiv (2 * latency + 2 * 2780) 2780 - 4

/-- A link's state follows from the hello kept of its peer. -/
def State.reclass (s : State) (q : Nat) : State :=
  if !([2, 3, 4, 5].contains (s.odGet (oCascadeLinkState q))) then s
  else s.odSet (oCascadeLinkState q) (s.linkClass (mget {} s.cas.hellos q))

/-- SEAM_LINK_UP (R404): training, hello, calibration, and the link's state. -/
def execSeamLinkUp (dt : Nat) (port : Fin 16) (serial cid digest panel peerPort minPs : Nat) (s : State) : Host.Outcome State Fault Refusal :=
  let s := s.tick dt
  let q := port.val
  .next (if s.odGet (oRtPortRole q) ≠ 2 ∨ s.odGet (oRtModuleState q) ≠ 3 ∨ s.odGet oCascadePanelState = 5 ∨ s.dev < 3 ∨ 5 < s.dev then s
    else
      let lat := seamLatency minPs
      let h : Hello := ⟨serial, cid, digest, panel, peerPort⟩
      let s1 := (({ s with cas.hellos := mset {} s.cas.hellos q h }.odSet (oCascadeLinkPeerSerial q) serial).odSet (oCascadeLinkPeerPanel q)
        ((s.panelOf serial).getD 0xFF)).odSet (oCascadeLinkPeerPort q) peerPort
      let s2 := ((s1.odSet (oCascadeLinkLatencyPs q) lat).odSet (oCascadeLinkXoffThreshold q) (seamTheta lat)).cascadeEvent 8
        ((s.panelOf serial).getD 0xFF) q 0 lat
      if 800000 < lat then (s2.odSet (oCascadeLinkState q) 6).odSet (oCascadeLinkRetrain q) 2
      else
        let s3 := ((s2.odSet (oCascadeLinkState q) (s2.linkClass h)).odSet (oCascadeLinkRetrain q) 0).relink
        (s3.cascadeEvent 6 ((s.panelOf serial).getD 0xFF) q 0 lat).judgeCascade)

/-- A link carries nothing any more: transfers on it go to another link of the bundle, if there is one (R406, R426). -/
def State.linkGone (s : State) (q st : Nat) : State :=
  let p := s.odGet (oCascadeLinkPeerPanel q)
  let s1 := (s.odSet (oCascadeLinkState q) st).relink
  ((s1.cas.xfers.filter (fun x => x.port == q)).foldl State.reissue (s1.cascadeEvent 7 p q 0 0)).judgeCascade

/-- SEAM_LINK_LOSS_OF_SIGNAL (R424). -/
def execSeamLinkLossOfSignal (dt : Nat) (port : Fin 16) (s : State) : Host.Outcome State Fault Refusal :=
  let s := s.tick dt
  .next (if s.odGet (oRtPortRole port.val) = 2 ∧ s.odGet (oCascadeLinkState port.val) ≠ 0 then s.linkGone port.val 0 else s)

/-- MODULE_REMOVE (R289): a host port fails, a cascade port's link is lost. -/
def execModuleRemove (dt : Nat) (port : Fin 16) (s : State) : Host.Outcome State Fault Refusal :=
  let s := s.tick dt
  let q := port.val
  .next (if s.odGet (oRtModuleState q) = 0 then s
    else
      let s1 := s.removeModule q
      if s1.odGet (oRtPortRole q) = 2 ∧ s1.odGet (oCascadeLinkState q) ≠ 0 then s1.linkGone q 0 else s1)

/-- A write of cascade.link.retrain (R403): the link carries nothing until it is up again; none is BAD_VALUE. -/
def State.seamRetrain (s : State) (q v : Nat) : Option State :=
  if v ≠ 1 ∨ s.odGet (oCascadeLinkState q) < 2 then none
  else some (((s.bump (oCascadeLinkRetrains q)).odSet (oCascadeLinkRetrain q) 1).linkGone q 1)

-- ------------------------------------------------------------------ forming (R408, R414)

/-- Every sector takes its level. -/
def State.setLevels (s : State) : State := (List.range 16).foldl (fun s i => s.setLevel i) s

/-- The cascade is FORMED, with the configured roles and level; the master publishes it (R408, R414). -/
def State.nowFormed (s : State) : State :=
  let s1 := (((s.memberList.filter (fun p => s.memberState p != 4)).foldl (fun s p => s.odSet (oCascadeMemberState p) 2) s).odSet
    oCascadePanelState 2).odSet oCascadePanelLevel (s.odGet oCascadeConfigPaceLevel)
  let s2 := ({ s1 with cas.levelAt := s1.clk, cas.levelDue := none } : State).setLevels
  if s.panelNo = s.odGet oCascadeConfigMaster then s2.cascadeEvent 1 s.cas.actMaster 0xFF (s.odGet oCascadeConfigPaceLevel) 0 else s2

/-- A member is READY and PTP-locked in the master's domain (R408). -/
def State.memberReady (s : State) (p : Nat) : Bool :=
  let b := mget {} s.cas.memberBeats p
  (mlook s.cas.memberBeats p).isSome && b.ready && b.locked && b.domain == s.odGet oRtPanelPtpDomain

/-- The conditions of formation (R408). -/
def State.canForm (s : State) : Bool :=
  s.others.all s.memberReady && s.joined s.others && (s.odGet oRtPanelPtpState == 1 || s.odGet oRtPanelPtpState == 2) &&
  (s.dev == 3 || s.dev == 4)

/-- CASCADE_FORM (R408): the designated master declares the cascade FORMED and tells the members. -/
def execCascadeForm (dt : Nat) (s : State) : Host.Outcome State Fault Refusal :=
  let s := s.tick dt
  .next (if s.odGet oCascadePanelState = 1 ∧ s.panelNo = s.odGet oCascadeConfigMaster ∧ s.canForm then s.nowFormed.seamAll 2 [] else s)

/-- CASCADE_FORMING_REPORT (R408): every 10 s while the cascade is forming, the first missing member is named. The spec gives
this event no kind (a free value, log entry 56). -/
def execCascadeFormingReport (dt : Nat) (s : State) : Host.Outcome State Fault Refusal :=
  let s := s.tick dt
  .next (if s.odGet oCascadePanelState = 1 ∧ s.panelNo = s.odGet oCascadeConfigMaster ∧ s.cas.formAt + 10 ^ 10 ≤ s.clk then
      let kind := s.fresh 7 % 256
      ({ s.burn with cas.formAt := s.clk }).cascadeEvent kind ((s.others.find? (fun p => !s.memberReady p || s.bundle p == [])).getD 0xFF) 0xFF 0 0
    else s)

-- ------------------------------------------------------------------ heartbeats and what this panel says (R409, R411)

/-- Streams of a class that this panel can still take (R258, R411). -/
def State.ownRoom (s : State) (cls : Nat) : Nat :=
  let waiting := (s.queue.filter (fun q => q.port == seamPort && q.sub.cls == cls)).length
  let free := 256 - (s.lanes.filter (fun p => decide (p.1 < 256))).length
  let room := if cls = 0 then min (48 - s.activeOf 0 8) (sumN ((List.range 8).map (fun i =>
      if s.slotState i = 4 then s.odGet (oPlacementSlotExpressCapacity i) - s.activeOf 0 i else 0))) else free
  (min room free) - waiting

/-- The heartbeat that this panel sends: its body (log entry 55). -/
def State.beatBody (s : State) : List Nat :=
  let mask (l : List Nat) : Nat := sumN (l.map (fun p => 2 ^ p))
  [if s.serves || s.dev == 3 || s.dev == 4 then 1 else 0, s.odGet oRtPanelPtpState, s.odGet oRtPanelPtpDomain, s.odGet oCascadePanelStrap,
   mask ((List.range 8).filter (fun p => s.bundle p != [])), mask ((List.range 8).filter (fun p => s.memberState p == 3)),
   s.odGet oCascadePanelRole, mask ((List.range 8).filter (fun i => s.slotState i == 4))] ++ [0, 1, 2].map s.ownRoom ++ [if s.odGet oCascadePanelState = 4 then 1 else 0]

/-- Heartbeats go out on every MEMBER link every 10 µs (R409), from a panel that retires until its streams have ended (R426); the master mirrors acknowledgements and credit limits to the
deputy every 1 ms (R411). -/
def State.heartbeats (s : State) : State :=
  let retiring : Bool := s.dev == 6 && s.quorumQueue.any (fun q => q.cmd == 2)
  if s.odGet oCascadePanelNumber ≥ 8 ∨ !(s.dev == 3 || s.dev == 4 || s.dev == 5 || retiring) then s
  else
    let s1 := if s.cas.beatAt + 10000 ≤ s.clk then
        (List.range 8).foldl (fun s p => (s.bundle p).foldl (fun s q => s.seamCtl p 1 (q :: s.beatBody)) s) { s with cas.beatAt := s.clk }
      else s
    if s1.cascadeMaster ∧ s1.cas.mirrorAt + 10 ^ 6 ≤ s1.clk then
      (s1.lanes.filter (fun l => decide (256 ≤ l.1))).foldl (fun s l => s.seamCtl s.cas.actDeputy 17 [l.2.sub.stream, l.2.acked, l.2.limit])
        { s1 with cas.mirrorAt := s1.clk }
    else s1

/-- A heartbeat is heard (R409): a lost member joins again, one that is ISOLATED reads so; a master that isolated itself and hears a master
rejoins as a member. Members that are ISOLATED for want of master and deputy stay so (R426). -/
def State.memberHeardNow (s : State) (p : Nat) (b : Beat) : State :=
  let s1 := { s with cas.memberHeard := mins s.cas.memberHeard p s.clk, cas.memberBeats := mins s.cas.memberBeats p b }.odSet (oCascadeMemberLastHeard p) s.now
  let s2 := if b.isolated ∧ s1.memberState p ≠ 4 then s1.odSet (oCascadeMemberState p) 5
    else if s1.inCascade ∧ (s1.memberState p = 3 ∨ s1.memberState p = 1 ∨ s1.memberState p = 5) then
      (s1.odSet (oCascadeMemberState p) 2).cascadeEvent 3 p 0xFF 0 0 else s1
  let s3 := if s2.odGet oCascadePanelState = 4 ∧ b.role = 1 ∧ s2.cas.actMaster = s2.panelNo then
      (({ s2 with cas.actMaster := p }.odSet oCascadePanelState 2).odSet oCascadePanelRole 3).odSet (oCascadeMemberState p) 2
    else s2
  s3.judgeCascade

-- ------------------------------------------------------------------ the host face (R410, R411, R413)

/-- A member may be given streams of a class of a slot: up, ready, not being expelled, the slot PLACED there, with room. -/
def State.mayTake (s : State) (slot cls p : Nat) : Bool :=
  if p = s.panelNo ∨ p ≥ 8 then s.slotState slot == 4 && decide (0 < s.ownRoom cls) && (s.dev == 3 || s.dev == 4)
  else
    let b := mget {} s.cas.memberBeats p
    s.memberState p == 2 && b.ready && !s.cas.expelling.contains p && b.placed.testBit slot && decide (0 < b.room.getD cls 0)

/-- The free capacity of a member for a class. -/
def State.roomAt (s : State) (cls p : Nat) : Nat := if p = s.panelNo then s.ownRoom cls else (mget {} s.cas.memberBeats p).room.getD cls 0

/-- The members that are to run a stream (R411 to R413, R423): the one with the most room, the lower number first; two of
them for an express stream in MULTIPLY; all the slot's members in DEEPEN. Stragglers only where no other has room. -/
def State.chooseMembers (s : State) (slot cls : Nat) : List Nat :=
  let mode := s.odGet (oCascadeSlotMode slot)
  let l := s.memberList.filter (s.mayTake slot cls)
  let ranked (xs : List Nat) : List Nat := sortBy (fun p => (65536 - min 65535 (s.roomAt cls p)) * 8 + p) xs
  let slow (p : Nat) : Bool := s.odGet (oCascadeMemberStraggler p) == 1
  let order := ranked (l.filter (fun p => !slow p)) ++ ranked (l.filter slow)
  if mode = 1 then
    let all := s.memberList.filter (fun p => (s.odGet (oCascadeSlotMembers slot)).testBit p)
    if all.all (fun p => l.contains p) then all else []
  else if mode = 2 ∧ cls = 0 then order.take 2
  else order.take 1

/-- A stream is given to a panel: this one's queue, or a SUBMIT over the seam (R411). -/
def State.giveTo (s : State) (q : QueueEnt) (p : Nat) : State :=
  if p = s.panelNo then { s with queue := s.queue ++ [{ q with port := seamPort }] }
  else
    let b := mget {} s.cas.memberBeats p
    ({ s with cas.memberBeats := mins s.cas.memberBeats p { b with room := b.room.set q.sub.cls (b.room.getD q.sub.cls 0 - 1) } } : State).seamSend
      p 0x41 [q.sub.stream]

/-- The lowest lane key that the master has free for a stream of the cascade. -/
def State.freeRemote (s : State) : Nat := 256 + ((List.range 3840).find? (fun k => (mlook s.lanes (256 + k)).isNone)).getD 3839

/-- The master's record of a stream that members run (R411). -/
def carried (q : QueueEnt) (binNs : Nat) : LaneRec :=
  { st := 2, sub := q.sub, slot := 8, leadTokens := 1, toks := q.sub.tokens, released := q.sub.prompt, p := q.sub.prompt,
    submittedAt := q.arrived, port := q.port, reply := q.src, limit := q.limit, ctlIn := q.ctlIn, heardAt := q.clkAt, binNs := binNs }

/-- The first region index of a member in a deepened slot (R412). -/
def State.cutOf (s : State) (i p : Nat) : Nat := s.odGet (oCascadeSlotCuts i) / 65536 ^ p % 65536

/-- The egress region of a slot's furnish, whose member has the reels. -/
def State.egressOf (s : State) (i : Nat) : Nat := ((s.pslot i).furn.map (·.egress)).getD 0

/-- The first stream of a class that waits at the master, admitted to the members that are to run it. -/
def State.admitCascade (s : State) (cls : Nat) : Option State :=
  match s.queue.find? (fun q => q.sub.cls == cls && q.port != seamPort) with
  | none => none
  | some q => (s.holders q.sub.furnish).findSome? (fun slot =>
      let ps := s.chooseMembers slot cls
      if ps = [] then none
      else
        let k := s.freeRemote
        let s1 := { s with queue := s.queue.filter (fun e => e.sub.stream != q.sub.stream) }
        let reel := if s.odGet (oCascadeSlotMode slot) = 1 then ((ps.filter (fun p => decide (s.cutOf slot p ≤ (s.egressOf slot)))).getLast?).toList else []
        let s2 := { s1.setLane k (carried q (s.odGet oStreamPanelHistBinNs)) with cas.remote := mset {} s1.cas.remote k { panels := ps, reel := reel } }
        some (ps.foldl (fun s p => s.giveTo q p) s2))

/-- ADMIT (R258, R411): at a dispatch point the next stream that can be admitted is; the panel must be READY or SERVING. -/
def execAdmitStream (dt : Nat) (s : State) : Host.Outcome State Fault Refusal :=
  let s := (s.tick dt).reap
  .next (if !s.serves then s
    else match (if s.cascadeMaster then [0, 1, 2].findSome? s.admitCascade else none) with
      | some s1 => s1
      | none => s.admitNext.getD s)

/-- Once a carried stream has reached its switch token, the panels that take over there run it (R421). -/
def State.settleSwitch (s : State) (k : Nat) : State :=
  let r := mget {} s.cas.remote k
  match s.lane k, r.switch with
  | some y, some (x, ps) =>
    if x ≤ y.toks.length then { s with cas.remote := mset {} s.cas.remote k { panels := ps, reads := r.reads.filter ps.contains } } else s
  | _, _ => s

/-- A token of a carried stream comes in (R411, R413): the one that is next is taken, another copy of it is discarded; the
first starts the release. -/
def State.takeToken (s : State) (k : Nat) (x : LaneRec) (index token : Nat) : State :=
  if index ≠ x.toks.length ∨ x.terminal.isSome then s
  else
    let x1 := { x with toks := x.toks ++ [token], reel := x.reel ++ [⟨token, s.clk⟩], p := index + 1, prodCount := x.prodCount + 1 }
    let x2 := if x1.primed then x1
      else { x1 with primed := true, primedAt := s.now, anchor := index, anchorT := s.now, st := 3 }
    ((s.setLane k x2).settleSwitch k).afterCommit k x.primed

/-- The panels that a carried stream's next token is read from (R413, R421). -/
def Remote.sources (r : Remote) (next : Nat) : List Nat :=
  match r.switch with
  | some (x, ps) => if x ≤ next then ps else r.panels
  | none => if r.reel = [] then r.panels else r.reel

/-- In a deepened slot the other members hear how far a stream has been released, for the hold rule (R252, R412). -/
def State.tellReleased (s : State) (x : LaneRec) : State :=
  if (s.pslot x.slot).part.isNone then s
  else (s.others.filter (fun p => (s.odGet (oCascadeSlotMembers x.slot)).testBit p)).foldl (fun s p => s.seamCtl p 11 [x.sub.stream, x.released]) s

/-- A reel entry read by the master's drain on this panel (R411, R413): entries below the index are discarded, the one at it
is answered; none is there until the lane is primed. -/
def State.popReel (s : State) (l index : Nat) : Nat → State × Option Nat
  | 0 => (s, none)
  | n + 1 => match s.lane l with
    | none => (s, none)
    | some x =>
      if x.reel = [] ∨ (x.express ∧ !x.primed) ∨ index < x.released then (s, none)
      else
        let r := s.releaseOne l s.now
        let done (s : State) : State := match s.lane l with
          | some y => ((s.setLane l { y with sent := [], acked := y.released }).tellReleased y).flushDone l
          | none => s
        if x.released = index then (done r.1, (r.2.head?).map (·.token)) else (done r.1).popReel l index n

/-- The end of a carried stream, as a panel that runs it tells it (R411): COMPLETE once its tokens are out. -/
def State.carriedEnd (s : State) (k reason detail : Nat) : State :=
  match s.lane k with
  | none => s
  | some x =>
    if x.terminal.isSome then s
    else if reason = 0 then (s.setLane k { x with terminal := some (0, detail), st := 4 }).flushDone k
    else s.terminate k reason detail

/-- The master's own copy of a carried stream: its reel is read here, and its end taken; where the stream has ended, so does
it. -/
def State.crossLocal (s : State) (k : Nat) : State :=
  match s.lane k with
  | none => s
  | some x => match s.runLane x.sub.stream with
    | none => s
    | some (l, _) =>
      let gone : Bool := match x.terminal with | some (r, _) => r != 0 | none => false
      if gone then (match x.terminal with | some (r, d) => s.terminate l r d | none => s)
      else if x.reel.length ≥ 2 ∨ !((mget {} s.cas.remote k).sources x.toks.length).contains s.panelNo then s
      else match s.popReel l x.toks.length 4096 with
        | (s1, some t) =>
          let s2 := s1.takeToken k x x.toks.length t
          match s1.lane l with
          | some y => (match y.ended, y.terminal with | true, some (r, d) => s2.carriedEnd k r d | _, _ => s2)
          | none => s2
        | (s1, none) => s1

/-- The master's drain reads the reels of carried streams (R411): one read at a time to a panel, a token ahead. -/
def State.drainReads (s : State) : State :=
  ((s.lanes.filter (fun p => decide (256 ≤ p.1) && !p.2.ended && p.2.terminal.isNone && decide (p.2.reel.length < 2))).map (·.1)).foldl
    (fun s k => match s.lane k with
      | none => s
      | some x =>
        let r := mget {} s.cas.remote k
        let ps := (r.sources x.toks.length).filter (fun p => p != s.panelNo && !r.reads.contains p)
        let s1 := { s with cas.remote := mset {} s.cas.remote k { r with reads := r.reads ++ ps } }
        ps.foldl (fun s p => s.seamSend p 0x42 [x.sub.stream, x.toks.length]) s1) s

/-- What the master does for carried streams at each dispatch point. -/
def State.carry (s : State) : State :=
  if !s.cascadeMaster then s
  else (((s.lanes.map (·.1)).filter (fun k => decide (256 ≤ k))).foldl State.crossLocal s).drainReads

-- ------------------------------------------------------------------ deepening (R410, R412)

/-- A furnish cut to a region range: at a cut only the seam variants stand, which then need no further flag (R412). -/
def cutFurnish (f : Furnish) (lo hi : Nat) : Furnish :=
  let want (r : Nat) : Nat := (if r = lo ∧ 0 < lo then 1 else 0) + (if r + 1 = hi ∧ hi < f.regionCount then 2 else 0)
  let progs := (f.progs.filter (fun p => decide (lo ≤ p.region) && decide (p.region < hi) &&
    (want p.region == 0 || p.seam == want p.region))).map (fun (p : RegionProg) => if want p.region = 0 then p else { p with seam := 0 })
  let used (k id : Nat) : Bool := progs.any (fun p => p.bufs.any (fun b => b.kind == k && b.target == id))
  { f with
    progs := progs
    kv := f.kv.filter (fun kv => progs.any (fun p => p.layer == kv.1))
    sects := f.sects.filter (fun x => (x.kind != 3 || used 0 x.id) && (x.kind != 4 || used 1 x.id)) }

/-- Where a furnish may be cut: before a region with a seam_in variant, after one with a seam_out variant (R412). -/
def cutPoints (f : Furnish) : List Nat :=
  (List.range f.regionCount).filter (fun r => decide (0 < r) && f.progs.any (fun p => p.region == r && p.seam % 2 == 1) &&
    f.progs.any (fun p => p.region + 1 == r && p.seam / 2 == 1))

/-- The ways to choose n cut points in ascending order. -/
def cutSets : Nat → List Nat → List (List Nat)
  | 0, _ => [[]]
  | _ + 1, [] => []
  | n + 1, a :: t => (cutSets n t).map (a :: ·) ++ cutSets (n + 1) t

/-- The bottleneck of a range on one panel with so many free tiles, 0 where it does not fit. -/
def rangeCost (f : Furnish) (minFold ctx share lo hi : Nat) : Nat :=
  match chooseFold (cutFurnish f lo hi) minFold ctx share with
  | some (n, l) => n * (1 + maxN (l.map (bottleneckOf f ctx)))
  | none => 0

/-- The cuts of a furnish over members in order (R412): the permitted cuts with the smallest largest bottleneck, each panel
taken to have the master's free tiles (log entry 57); the first region index of each member. -/
def State.cutsFor (s : State) (i : Nat) (f : Furnish) (ms : List Nat) : Option (List Nat) :=
  let h := s.hints i
  let share := s.freeCurve.length
  let cost (l : List Nat) : Nat :=
    let cs := (l.zip (l.drop 1 ++ [f.regionCount])).map (fun p => rangeCost f h.minFold (sizedContext f h) share p.1 p.2)
    if cs.contains 0 then 0 else maxN cs
  let sets := ((cutSets (ms.length - 1) (cutPoints f)).map (fun l => 0 :: l)).filter (fun l => cost l != 0)
  (sortBy cost sets).head?

/-- The region range of this panel in a deepened slot, from the cuts. -/
def State.partOf (s : State) (i : Nat) (f : Furnish) : Option (Nat × Nat) :=
  if s.odGet (oCascadeSlotMode i) ≠ 1 ∨ !s.inCascade then none
  else
    let ms := s.memberList.filter (fun p => (s.odGet (oCascadeSlotMembers i)).testBit p)
    match ms.find? (fun p => decide (s.panelNo < p)) with
    | some p => some (s.cutOf i s.panelNo, s.cutOf i p)
    | none => some (s.cutOf i s.panelNo, f.regionCount)

/-- The master hands a furnish that has passed its checks to every member, cut where the slot is deepened (R410, R412). -/
def State.shareFurnish (s : State) (i : Nat) (f : Furnish) (img : List Nat) : State :=
  if !s.cascadeMaster then s
  else
    let ms := s.memberList.filter (fun p => p == s.panelNo || s.memberState p == 2)
    let mode := s.odGet (oCascadeSlotMode i)
    let cuts := if mode = 1 then ((s.cutsFor i f ms).getD []) else []
    let word := sumN ((ms.zip cuts).map (fun p => p.2 * 65536 ^ p.1))
    let s1 := (s.odSet (oCascadeSlotMembers i) (sumN (ms.map (fun p => 2 ^ p)))).odSet (oCascadeSlotCuts i) word
    (ms.filter (· != s.panelNo)).foldl (fun s p => s.seamSend p 0x40 ([i, mode, word, img.length] ++ img)) s1

/-- LOAD_CHECKS_DONE (R221, R240, R410, R412): the checks' outcome, which waits while a recovery is under way. -/
def execLoadChecksDone (dt : Nat) (slot : Fin 8) (s : State) : Host.Outcome State Fault Refusal :=
  let s := s.tick dt
  let i := slot.val
  let x := s.pslot i
  .next (if s.slotState i ≠ 2 ∨ s.faults ≠ [] then s
    else
      let f := readFurnish x.image
      let s0 := s.shareFurnish i f x.image
      let part := s0.partOf i f
      let g := match part with | some (lo, hi) => cutFurnish f lo hi | none => f
      match (match s.loadError x.image with | some e => some e | none => if s.check9 g then none else some (7, 0, 0, 0)) with
      | some e => ((((s.freeOwner (ownStaging i)).setPslot i { x with image := [] }).odSet (oPlacementSlotLoadError i) (errBytes e)).toSlotState i 7).slotDone i
      | none =>
        let s1 := s0.setPslot i { x with
          furn := some g, part := part, digest := sha384 x.image
          digests := f.sects.map (fun t => (t.id, sha384 (sectBytes x.image t))) }
        let s2 := ((s1.odSet (oPlacementSlotFurnishId i) (ofLE f.fid)).odSet (oPlacementSlotSigned i) (if f.keyId.isSome then 1 else 0)).odSet
          (oPlacementSlotKeyId i) (ofLE (f.keyId.getD []))
        ((s2.odSet (oPlacementSlotLoadError i) 0).toSlotState i 3).slotDone i)

/-- A member loads the master's image into the same slot (R410). -/
def State.loadImage (s : State) (i mode cuts : Nat) (img : List Nat) : State :=
  if i ≥ 8 ∨ !s.inCascade ∨ s.cascadeMaster then s
  else
    let ms := sumN (s.memberList.map (fun p => if p = s.panelNo ∨ s.memberState p = 2 then 2 ^ p else 0))
    let s1 := (((s.odSet (oPlacementSlotImageLength i) img.length).odSet (oCascadeSlotMode i) mode).odSet (oCascadeSlotCuts i) cuts).odSet
      (oCascadeSlotMembers i) ms
    let s2 := s1.slotBegin i
    if s2.slotState i ≠ 1 then s2
    else (((s2.setPslot i { s2.pslot i with image := img }).odSet (oPlacementSlotCursor i) img.length).slotCommit i)

/-- The next member of a deepened slot. -/
def State.nextMember (s : State) (i : Nat) : Option Nat :=
  (s.memberList.filter (fun p => (s.odGet (oCascadeSlotMembers i)).testBit p)).find? (fun p => decide (s.panelNo < p))

/-- The seam buffers of a slot: target and bytes. -/
def State.seamData (s : State) (i : Nat) : List Nat :=
  ((seamBuffers (s.seats i)).map (fun b => match s.seamAt i b.1 with
    | some (node, off) => b.1 :: s.bytesAt node off b.2
    | none => [])).flatten

/-- A deepened slot's lap completions are all read: its seam buffers cross to the next member, once for each pass of the
batch (R412). -/
def State.crossOut (s : State) (i : Nat) : State :=
  match s.nextMember i with
  | none => s
  | some p => (s.lanes.filter (fun l => l.2.slot == i && l.2.pass.isSome && !l.2.aborted)).foldl (fun s l => match l.2.pass with
      | some q => s.seamSend p 0x43 ([i, l.2.sub.stream, q.kind, q.base, q.drafts, q.count] ++ s.seamData i)
      | none => s) s

/-- A crossing arrives (R412): the seam buffers are written, and the pass's start tokens go in under this panel's own life. -/
def State.crossIn (s : State) (i stream : Nat) (q : Pass) (bufs : List (Nat × List Row)) : State :=
  match s.runLane stream with
  | none => s
  | some (l, x) =>
    if x.slot ≠ i ∨ x.terminal.isSome ∨ (s.pslot i).part.isNone then s
    else
      let s1 := bufs.foldl (fun s b => match s.seamAt i b.1 with
        | some (node, off) => (match stackOfNode node with | some st => s.stackWriteRows st off b.2 | none => s)
        | none => s) s
      let q1 := { q with life := s.lifeOf l }
      (s1.setLane l { x with pass := some q1, aborted := false, replayDue := false }).sendStart l x q1 false 0

/-- DEEPEN_COMMIT_RECORD (R412): the commit record of the member that holds the commit region; this panel ends the epoch of
its lane by it, applies COMMIT and ROLLBACK, and keeps no reel. -/
def execDeepenCommitRecord (dt : Nat) (port : Fin 16) (stream : Nat) (record : Row) (s : State) : Host.Outcome State Fault Refusal :=
  let s := s.tick dt
  .next (match s.runLane stream with
    | none => s
    | some (l, x) => match x.pass, (s.pslot x.slot).furn with
      | some q, some f =>
        if s.odGet (oCascadeLinkState port.val) ≠ 2 ∨ (s.pslot x.slot).part.isNone ∨ x.aborted ∨ x.terminal.isSome then s
        else s.endEpoch l x q record f.maxContext
      | _, _ => s)

/-- Tokens of a deepened stream that have been released leave the reels kept for the hold rule. -/
def State.dropReleased (s : State) (stream upTo : Nat) : State :=
  match s.runLane stream with
  | none => s
  | some (l, x) =>
    if (s.pslot x.slot).part.isNone ∨ upTo ≤ x.released then s
    else (s.setLane l { x with reel := x.reel.drop (upTo - x.released), released := upTo, acked := upTo }).flushDone l

-- ------------------------------------------------------------------ pace (R414)

/-- The master orders a level: applied on every member 1 ms later by the PTP clock. -/
def State.orderLevel (s : State) (lvl : Nat) : State :=
  ({ s with cas.levelDue := some (lvl, s.now + 10 ^ 6), cas.levelAt := s.clk } : State).seamAll 6 [lvl, s.now + 10 ^ 6]

/-- CASCADE_LEVEL_CHANGE (R414): a level change is applied at its PTP time. -/
def execCascadeLevelChange (dt : Nat) (s : State) : Host.Outcome State Fault Refusal :=
  let s := s.tick dt
  .next (match s.cas.levelDue with
    | some (lvl, t) =>
      if t ≤ s.now ∧ s.inCascade then
        ((({ s with cas.levelDue := none }).odSet oCascadePanelLevel lvl).setLevels).cascadeEvent 10 s.panelNo 0xFF lvl 0
      else s
    | none => s)

-- ------------------------------------------------------------------ exact reduction (R415 to R419)

/-- The key of a reduction of a slot. -/
def reamKey (slot red : Nat) : Nat := slot * 65536 + red

/-- The contributions of a reduction on this panel (R415): the partials that the placed furnish gives it (log entry 58). -/
def State.contributions (s : State) (slot red : Nat) : Nat :=
  match (s.pslot slot).furn with
  | some f => ((f.progs.map (·.reds)).flatten.find? (fun r => r.id == red)).map (·.partials) |>.getD 0
  | none => 0

/-- The members that hold a reduction, this panel among them. -/
def State.reamMembers (s : State) (slot : Nat) : List Nat :=
  if !s.inCascade then [s.panelNo]
  else s.memberList.filter (fun p => p == s.panelNo || ((s.odGet (oCascadeSlotMembers slot)).testBit p && s.memberState p == 2))

/-- The fields of a scale word that the largest is taken of: nonfinite and max_abs (R417). -/
def scaleOf (w : Nat) : Nat := w % 2 ^ 45

/-- The scale word of this panel for a ream (R417). -/
def State.panelWord (s : State) (num : Nat) (taken : List (List Nat)) : Nat :=
  (num % 65536) * 2 ^ 48 + (if s.panelNo < 8 then s.panelNo else 0) * 2 ^ 45 + maxN (taken.map (fun c => scaleOf (c.headD 0)))

/-- A copy of a contribution is present. -/
def Ream.has (r : Ream) (i copy : Nat) : Bool := (mlook r.copies (2 * i + copy)).isSome

/-- Reduction starts (R416, R418): A where present, else B, each B counted; the panel word goes to every member. -/
def State.startReam (s : State) (slot red n : Nat) (r : Ream) : State :=
  let picked := (List.range n).map (fun i => mget [] r.copies (2 * i + (if r.has i 0 then 0 else 1)))
  let bs := ((List.range n).filter (fun i => !r.has i 0)).length
  let ms := s.reamMembers slot
  let w := s.panelWord r.num picked
  let r1 := { r with started := some s.clk, taken := picked, members := ms, words := mins r.words s.panelNo w }
  let s1 := { s with cas.reams := mset {} s.cas.reams (reamKey slot red) r1, cas.seenA := s.cas.seenA + n, cas.lateA := s.cas.lateA + bs }
  (ms.foldl (fun s p => s.seamCtl p 7 [slot, red, w]) s1).bumpN oCascadeReamBackupsTaken bs

/-- The ream starts where the rules let it: every A present, or past the deadline a copy of every contribution (R416). -/
def State.tryReam (s : State) (slot red : Nat) : State :=
  let r := mget {} s.cas.reams (reamKey slot red)
  let n := s.contributions slot red
  let full := (List.range n).all (fun i => r.has i 0)
  let past := decide (r.firstAt + 1000 * s.odGet oCascadeConfigReamDeadlineUs ≤ s.clk) && (List.range n).all (fun i => r.has i 0 || r.has i 1)
  if r.started.isNone ∧ r.copies ≠ [] ∧ 0 < n ∧ (full || past) then s.startReam slot red n r else s

/-- REAM_CONTRIBUTION (R416, R417): a producer's completion with its scale word and its array; a copy for another ream, or
after the start, is discarded. -/
def execReamContribution (dt : Nat) (slot : Fin 8) (red index : Nat) (copy : Fin 2) (word : BitVec 64) (values : List Nat) (s : State) :
    Host.Outcome State Fault Refusal :=
  let s := s.tick dt
  let key := reamKey slot.val red
  let num := mget 0 s.cas.reamNext key
  let r := (mlook s.cas.reams key).getD { num := num }
  .next (if r.started.isSome ∨ s.contributions slot.val red ≤ index ∨ word.toNat / 2 ^ 48 ≠ num % 65536 ∨ word.toNat / 2 ^ 32 % 4096 ≠ 0 then s
    else
      let r1 := { r with copies := mins r.copies (2 * index + copy.val) (word.toNat :: values), firstAt := if r.copies = [] then s.clk else r.firstAt }
      ({ s with cas.reams := mset {} s.cas.reams key r1 } : State).tryReam slot.val red)

/-- REAM_DEADLINE (R416). -/
def execReamDeadline (dt : Nat) (slot : Fin 8) (red : Nat) (s : State) : Host.Outcome State Fault Refusal :=
  .next ((s.tick dt).tryReam slot.val red)

/-- A ream's cycle is abandoned: the owning background class, draft adaptation, starts it again (R394, R416). -/
def State.abandonReam (s : State) (key : Nat) : State :=
  let i := key / 65536
  let x := s.pslot i
  ({ s.setPslot i { x with adapting := false } with
    cas.reams := mdel s.cas.reams key, bgFrom := if (mlook s.bgFrom 3).isSome then s.bgFrom else mins s.bgFrom 3 s.clk } : State).bump oCascadeReamAbandoned

/-- REAM_ABANDON (R416): at 4 × deadline some contribution still has no copy. -/
def execReamAbandon (dt : Nat) (slot : Fin 8) (red : Nat) (s : State) : Host.Outcome State Fault Refusal :=
  let s := s.tick dt
  .next (match mlook s.cas.reams (reamKey slot.val red) with
    | some r =>
      let missing := (List.range (s.contributions slot.val red)).any (fun i => !(r.has i 0 || r.has i 1))
      if r.started.isNone ∧ r.copies ≠ [] ∧ missing ∧ r.firstAt + 4000 * s.odGet oCascadeConfigReamDeadlineUs ≤ s.clk then s.abandonReam (reamKey slot.val red) else s
    | none => s)

/-- Every ream under way is abandoned, as a member is lost or expelled (R425, R426). -/
def State.abandonReams (s : State) : State := (s.cas.reams.map (·.1)).foldl State.abandonReam s

/-- Elements of one of P segments of n elements (R415). -/
def segLen (n P : Nat) : Nat := ceilDiv n (max 1 P)

/-- Segment j of a list. -/
def segment (n P j : Nat) (l : List Nat) : List Nat := (l.drop (j * segLen n P)).take (segLen n P)

/-- The exponent lane of a ream from its panel words (R418 step 2). -/
def Ream.expo (r : Ream) : Nat := sieOf (maxN (r.words.map (fun p => scaleOf p.2)) % 2 ^ 32)

/-- Some panel word is nonfinite. -/
def Ream.nonfinite (r : Ream) : Bool := r.words.any (fun p => p.2.testBit 44)

/-- Elements of a ream. -/
def Ream.length (r : Ream) : Nat := maxN (r.taken.map (fun c => c.length - 1))

/-- The partials of this panel: each copy quantised by QSI, summed in 64 bits by ISUM (R418 step 3). -/
def Ream.sums (r : Ream) : List Nat :=
  (List.range r.length).map (fun k =>
    ofSigned 64 ((r.taken.map (fun c => toSigned 32 (qsiOf (c.getD (k + 1) 0) r.expo))).foldl (· + ·) 0))

/-- Step 3 of R418, once every panel word is there. -/
def State.reamSum (s : State) (slot red : Nat) (r : Ream) : State :=
  let P := r.members.length
  let n := r.length
  let sums := r.sums
  let mine := (findIdx (· == s.panelNo) r.members).getD 0
  let r1 := { r with summed := true, partials := mins r.partials s.panelNo (segment n P mine sums) }
  (r.members.zip (List.range P)).foldl (fun s p => s.seamSend p.1 0x44 ([slot, red] ++ segment n P p.2 sums))
    { s with cas.reams := mset {} s.cas.reams (reamKey slot red) r1 }

/-- The FP32 segment of this panel from the P partials (R418 step 4). -/
def Ream.convert (r : Ream) : List Nat :=
  let parts := r.partials.map (·.2)
  (List.range (maxN (parts.map List.length))).map (fun k =>
    if r.nonfinite then nan32 else dsiOf (sumN (parts.map (fun p => p.getD k 0)) % 2 ^ 64) r.expo)

/-- Step 5 of R418. -/
def State.reamSegment (s : State) (slot red : Nat) (r : Ream) : State :=
  let seg := r.convert
  r.members.foldl (fun s p => s.seamSend p 0x45 ([slot, red] ++ seg))
    { s with cas.reams := mset {} s.cas.reams (reamKey slot red) { r with segs := mins r.segs s.panelNo seg } }

/-- Owner key of a reduction's ream buffer. -/
def ownReam (key : Nat) : Nat := 7 * 2 ^ 40 + key

/-- The finished ream stands in its buffer in stack space, and is counted (R415, R427). -/
def State.reamDone (s : State) (slot red : Nat) (r : Ream) : State :=
  let key := reamKey slot red
  let bytes := ((r.members.map (fun p => mget [] r.segs p)).flatten.map (toLE 4)).flatten
  let n := ceilDiv bytes.length 64
  let s1 := match s.allocs.find? (fun a => a.owner == ownReam key) with
    | some a => s.stackWriteRows a.stack a.off (rowsOfBytes bytes n)
    | none => match ((List.range 32).filter s.stackOnline).findSome? (fun i => (s.allocate i (64 * n) (ownReam key)).map (fun a => (i, a))) with
      | some (i, off, s1) => s1.stackWriteRows i off (rowsOfBytes bytes n)
      | none => s
  let next : Ream := { num := r.num + 1, words := r.early.filter (fun w => w.2 / 2 ^ 48 == (r.num + 1) % 65536) }
  let s2 := { s1 with
    cas.reams := if next.words = [] then mdel s1.cas.reams key else mset {} s1.cas.reams key next
    cas.reamNext := mset 0 s1.cas.reamNext key (r.num + 1) }
  (s2.bump oCascadeReamCompleted).odSet oCascadeReamLastUs (match r.started with | some t => (s.clk - t) / 1000 | none => 0)

/-- A ream goes as far as what has arrived lets it (R418). -/
def State.reduce (s : State) (slot red : Nat) : State :=
  let get (s : State) : Ream := mget {} s.cas.reams (reamKey slot red)
  let r := get s
  if r.started.isNone then s
  else
    let s1 := if !r.summed ∧ r.members.all (fun p => (mlook r.words p).isSome) then s.reamSum slot red r else s
    let r1 := get s1
    let s2 := if r1.summed ∧ (mlook r1.segs s.panelNo).isNone ∧ r1.members.all (fun p => (mlook r1.partials p).isSome) then
        s1.reamSegment slot red r1 else s1
    let r2 := get s2
    if r2.members.all (fun p => (mlook r2.segs p).isSome) then s2.reamDone slot red r2 else s2

/-- REAM_REDUCE (R418). -/
def execReamReduce (dt : Nat) (slot : Fin 8) (red : Nat) (s : State) : Host.Outcome State Fault Refusal :=
  .next ((s.tick dt).reduce slot.val red)

/-- What another member has sent for a ream is kept. -/
def State.reamPut (s : State) (slot red : Nat) (f : Ream → Ream) : State :=
  let key := reamKey slot red
  { s with cas.reams := mset {} s.cas.reams key (f ((mlook s.cas.reams key).getD { num := mget 0 s.cas.reamNext key })) }

-- ------------------------------------------------------------------ couching between panels (R420, R421)

/-- cascade.panel.couch_event. -/
def State.couchEvent (s : State) (stream kind dst x holdUs : Nat) : State :=
  s.publish24 oCascadePanelCouchEvent (toLE 4 stream ++ [kind, s.panelNo, dst, 0] ++ toLE 4 x ++ toLE 4 holdUs)

/-- A couch ended: out of the list; the object and the event say how. A lane that was held for it goes on. -/
def State.couchEnd (s : State) (c : Couch) (kind : Nat) : State :=
  let hold := if c.heldAt = 0 then 0 else (s.clk - c.heldAt) / 1000
  let free := match s.runLane c.stream with | some (l, _) => s.heldLanes.filter (· != l) | none => s.heldLanes
  ((({ s with cas.couches := s.cas.couches.filter (fun d => d.stream != c.stream), heldLanes := free }).odSet oCascadePanelCouch
    (if kind = 1 then 0 else if kind = 3 then 2 else 3)).couchEvent c.stream kind c.panel c.x hold)

/-- The link that a couch would use: a MEMBER bundle, or a FOREIGN link to the serial (R420). -/
def State.couchLink (s : State) (c : Couch) : Bool :=
  if c.panel < 8 then s.bundle c.panel != [] || s.inCascade
  else (List.range 16).any (fun q => s.odGet (oCascadeLinkState q) == 3 && s.odGet (oCascadeLinkPeerSerial q) == c.serial)

/-- A transfer to the receiving panel of a couch: kinds 0x46 extents, 0x47 record. -/
def State.couchSend (s : State) (c : Couch) (kind : Nat) (body : List Nat) : State :=
  if c.panel < 8 then s.seamSend c.panel kind body
  else { s.send (.seam 0xFF kind ([s.cas.nextXfer] ++ body)) with cas.nextXfer := (s.cas.nextXfer + 1) % 2 ^ 32 }

/-- The bytes of positions [a, b) of a lane's extents, layer by layer (R420). -/
def State.extentBytes (s : State) (l slot a b : Nat) : List (Nat × List Nat) :=
  match (s.pslot slot).placed with
  | none => []
  | some p => p.kvHome.map (fun h =>
      let e := mget {} s.kv (kvKey h.2.1 l h.2.2)
      (h.1, s.bytesAt (stackNode h.2.1) (e.base + a * e.entryBytes) ((b - a) * e.entryBytes)))

/-- One round of a couch: the positions committed and not yet copied, in whole pages for the first round (R420). -/
def State.couchRound (s : State) (c : Couch) (l : Nat) (x : LaneRec) (whole : Bool) : State :=
  let b := if whole then x.p / 256 * 256 else x.p
  let s1 := (s.extentBytes l x.slot c.upTo b).foldl (fun s e => s.couchSend c 0x46 ([c.stream, e.1, c.upTo] ++ e.2)) s
  { s1 with cas.couches := s1.cas.couches.map (fun (d : Couch) => if d.stream = c.stream then { d with upTo := max b c.upTo, phase := 1 } else d) }

/-- The master has passed a couch on to the panel that runs the stream. -/
def State.couchPassed (s : State) (stream : Nat) : State :=
  { s with cas.couches := s.cas.couches.filter (fun d => d.stream != stream) }.odSet oCascadePanelCouch 0

/-- A lane issues no further pass (R242). -/
def State.holdLane (s : State) (l : Nat) : State := { s with heldLanes := if s.heldLanes.contains l then s.heldLanes else s.heldLanes ++ [l] }

/-- At the couch point the rest of the extents and the stream's record go out, and the lane is held (R420). -/
def State.couchHand (s : State) (c : Couch) (l : Nat) (x : LaneRec) : State :=
  let s1 := s.couchRound c l x false
  let s2 := (s1.couchSend c 0x47 ([c.stream, x.p, x.released, x.anchor, x.anchorT, x.ctlIn, x.ctlOut] ++ x.toks)).holdLane l
  { s2 with cas.couches := s2.cas.couches.map (fun (d : Couch) => if d.stream = c.stream then { d with phase := 2, heldAt := s.clk } else d) }

/-- COUCH_START (R420): the first couch in line does its next step: the first round while the lane runs; at the couch point,
the lane held and quiet, the second round and the stream's record. -/
def execCouchStart (dt : Nat) (s : State) : Host.Outcome State Fault Refusal :=
  let s := s.tick dt
  .next (match s.cas.couches.head? with
    | none => s
    | some c => match s.runLane c.stream with
      | none =>
        -- the master passes the command on to the panel that runs the stream
        (match s.laneOf c.stream with
        | some (k, _) => (((mget {} s.cas.remote k).panels.foldl (fun s p => s.seamCtl p 20 [c.stream, c.panel, c.serial]) s) :
            State).couchPassed c.stream
        | none => s.couchEnd c 2)
      | some (l, x) =>
        if x.terminal.isSome then s.couchEnd c 2
        else if !s.couchLink c ∧ c.phase < 3 then s.couchEnd c (if c.phase = 0 then 3 else 2)
        else if c.phase = 0 then s.couchRound c l x true
        else if c.phase = 1 then
          if s.faults ≠ [] ∨ !s.idleBank then s
          else if !s.laneQuiet l ∨ x.pass.isSome then s.holdLane l
          else s.couchHand c l x
        else s)

/-- The first token due at least 200 µs from now (R421). -/
def State.switchToken (s : State) (x : LaneRec) : Nat :=
  x.released + ((List.range 4096).find? (fun n => decide (s.now + 200000 ≤ x.due (x.released + n)))).getD 4095

/-- An RT COUCH to the host (R421): the address that takes the stream over, and X; then the source's serial. -/
def State.sendCouch (s : State) (l x : Nat) (dst : Endpoint) : State :=
  s.sendCtl l 8 ([dst.family, 0] ++ toLE 2 dst.port ++ toLE 16 dst.addr ++ toLE 4 x ++ toLE 16 (s.odGet oFloorPanelSerial))

/-- The master changes reels from a source panel's to the receiving panel's at X (R421), and tells the source; in MULTIPLY
the stream's other panel stays. -/
def State.switchAt (s : State) (stream x panel source : Nat) : State :=
  match s.laneOf stream with
  | some (k, y) =>
    let r := mget {} s.cas.remote k
    let X := if x = 0 then max (s.switchToken y) y.toks.length else x
    let s1 := { s with cas.remote := mset {} s.cas.remote k { r with switch := some (X, r.panels.filter (· != source) ++ [panel]) } }
    let s2 := (s1.settleSwitch k).seamCtl source 21 [stream, X, panel]
    { s2 with cas.couches := s2.cas.couches.map (fun (c : Couch) => if c.stream = stream then { c with x := X } else c) }
  | none => s

/-- The receiving panel is ready (R421): in a cascade the master sets X; towards a foreign panel the source does, and tells
the host. -/
def State.couchIsReady (s : State) (stream : Nat) (dst : Endpoint) : State :=
  match s.cas.couches.find? (fun c => c.stream == stream), s.runLane stream with
  | some c, some (l, x) =>
    if c.phase ≠ 2 then s
    else
      let to3 (X : Nat) (s : State) : State :=
        { s with cas.couches := s.cas.couches.map (fun (d : Couch) => if d.stream = stream then { d with phase := 3, x := X } else d) }
      if c.panel < 8 then
        if s.cascadeMaster then (to3 0 s).switchAt stream 0 c.panel s.panelNo else (to3 0 s).seamCtl s.cas.actMaster 21 [stream, 0, c.panel]
      else
        let X := s.switchToken x
        ((to3 X (s.setLane l { x with stopAt := some X })).sendCouch l X dst).couchSend c 0x48 [stream, X]
  | _, _ => s

/-- The source of a couch has released its stream below the switch: on its own lane, or on the carried one (R421). -/
def State.releasedTo (s : State) (c : Couch) (x : LaneRec) : Bool :=
  decide (c.x ≤ x.released) || (match s.laneOf c.stream with
    | some (k, y) => decide (c.x ≤ y.toks.length) && decide (256 ≤ k)
    | none => false)

/-- A couch is done: the lane's stream reads COUCHED here, a carried stream settles on its new panel (R421). -/
def State.couchDone (s : State) (c : Couch) (l : Nat) : State :=
  let s1 := (s.couchEnd c 1).terminate l 4 0
  let s2 := match s1.laneOf c.stream with
    | some (k, _) => if 256 ≤ k then s1.settleSwitch k else s1
    | none => s1
  s2.bump oCascadePanelCouches

/-- COUCH_SWITCH (R421): the source has released below X; its record reads COUCHED, its lane is fenced, and a foreign couch's
END names X − 1. -/
def execCouchSwitch (dt : Nat) (s : State) : Host.Outcome State Fault Refusal :=
  let s := s.tick dt
  .next (match s.cas.couches.head? with
    | none => s
    | some c => match s.runLane c.stream with
      | none => s
      | some (l, x) =>
        if c.phase ≠ 3 ∨ c.x = 0 ∨ !s.releasedTo c x then s
        else s.couchDone c l)

/-- A couch of a stream joins the line (R420); false where the stream is not here or is being couched already. -/
def State.couchAdd (s : State) (stream panel serial : Nat) (quorum : Bool) : State × Bool :=
  if s.cas.couches.any (fun c => c.stream == stream) ∨ ((s.runLane stream).isNone ∧ (s.laneOf stream).isNone) then (s, false)
  else ({ s with cas.couches := s.cas.couches ++ [{ stream := stream, panel := panel, serial := serial, quorum := quorum }] }, true)

/-- A write of cascade.panel.couch (R420): none is BAD_VALUE. -/
def State.couchWrite (s : State) (b : List Nat) : Option State :=
  let panel := leAt b 4 1
  if b.length ≠ 24 ∨ !sliceAt b 5 3 == [0, 0, 0] ∨ (8 ≤ panel ∧ panel ≠ 0xFF) then none
  else
    let r := s.couchAdd (leAt b 0 4) panel (leAt b 8 16) false
    some (r.1.odSet oCascadePanelCouch (if r.2 then 1 else 2))

/-- CASCADE_COUCH_CMD (R420). -/
def execCascadeCouchCmd (dt : Nat) (b : List Nat) (s : State) : Host.Outcome State Fault Refusal :=
  .next (((s.tick dt).couchWrite b).getD (s.tick dt))

/-- The windows and the reel of one lane restored (R384, R421). -/
def State.restoreLane (s : State) (i l : Nat) : State :=
  (s.seats i).foldl (fun s q =>
    let rs := tileRegions q.1 q.2.1
    (List.range rs.length).foldl (fun s e => match rs[e]? with
      | some g => if rLane { g0 := g.1, g1 := g.2 } = l then s.restoreRegion i q e g else s
      | none => s) s) s

/-- The extents of a couch written to their places. -/
def State.putExtents (s : State) (l slot stream : Nat) : State :=
  match (s.pslot slot).placed with
  | none => s
  | some p =>
    let s1 := (s.cas.couchIn.filter (fun e => e.1 == stream)).foldl (fun s e =>
      match p.kvHome.find? (fun h => h.1 == e.2.1) with
      | some h =>
        let ent := mget {} s.kv (kvKey h.2.1 l h.2.2)
        s.stackWriteRows h.2.1 (ent.base + e.2.2.1 * ent.entryBytes) (rowsOfBytes e.2.2.2 (ceilDiv e.2.2.2.length 64))
      | none => s) s
    { s1 with cas.couchIn := s1.cas.couchIn.filter (fun e => e.1 != stream) }

/-- A couched stream's record arrives (R420): where the same furnish stands placed, with a free lane and capacity, the stream
goes on here from its committed position; none refuses it. -/
def State.couchTake (s : State) (x : LaneRec) (fid digest : List Nat) (foreign : Bool) : Option State :=
  let ok (i : Nat) : Bool := s.slotState i == 4 && (s.pslot i).digest == digest &&
    (x.sub.cls != 0 || (decide (s.activeOf 0 8 < 48) && decide (s.activeOf 0 i < s.odGet (oPlacementSlotExpressCapacity i))))
  match (s.holders fid).find? ok with
  | none => none
  | some i => match (s.pslot i).furn, (s.pslot i).placed with
    | some f, some p => match s.freeLaneOf f with
      | none => none
      | some l =>
        if !s.serves ∨ (foreign ∧ s.odGet oCascadePanelAcceptForeign ≠ 1) ∨ (s.runLane x.sub.stream).isSome then none
        else (s.allocExtents l (pagesFor f x.sub) f p.kvHome).map (fun s1 =>
          let y : LaneRec := { x with
            slot := i, pass := none, runAhead := none, aborted := false, replayDue := false, guessRight := false
            B := serMax ((s.windows i l).map (fun w => w.2.2.commit))
            R := match s.reelOf i l with | some r => r.2.2.commit | none => 0
            reel := (x.toks.drop x.released).map (fun t => ⟨t, s.clk⟩)
            port := if foreign then ((List.range 16).find? s.hostUp).getD 0xFF else seamPort
            stopAt := if foreign then some x.released else none }
          ((s1.setLane l y).putExtents l i x.sub.stream).restoreLane i l)
    | _, _ => none

-- ------------------------------------------------------------------ expulsion, replacement and losses (R409, R424 to R426)

/-- Couches to a panel that can be reached no more fail: their streams stay here (R421). -/
def State.failCouches (s : State) (p : Nat) : State := (s.cas.couches.filter (fun c => c.panel == p)).foldl (fun s c => s.couchEnd c 2) s

/-- This panel has been expelled (R425): its lanes end without RT messages, and its cascade ports stay down. -/
def State.beExpelled (s : State) : State :=
  let mute (x : LaneRec) : LaneRec := { x with port := seamPort, ctlSent := [], sent := [] }
  let s1 : State := { s with lanes := s.lanes.map (fun (p : Nat × LaneRec) => (p.1, mute p.2)), queue := [], cas.actMaster := 0xFF, cas.xfers := [], cas.couches := [] }
  let s2 := (s1.lanes.map (·.1)).foldl (fun s l => s.terminate l 5 2) s1
  let s3 := ((List.range 16).filter (fun q => s2.odGet (oRtPortRole q) == 2)).foldl (fun s q => s.odSet (oCascadeLinkState q) 0) s2
  (((s3.odSet oCascadePanelState 5).odSet oCascadePanelLevel 63).setLevels.relink).cascadeEvent 9 s.panelNo 0xFF 0 0

/-- The expulsion notice (R425): links to the subject go EXPELLED. -/
def State.expelled (s : State) (p : Nat) : State :=
  if p = s.panelNo then s.beExpelled
  else
    let s1 := (s.bundle p).foldl (fun s q => s.odSet (oCascadeLinkState q) 5) (s.odSet (oCascadeMemberState p) 4)
    (({ s1 with cas.xfers := s1.cas.xfers.filter (fun x => x.panel != p), cas.expelling := s1.cas.expelling.filter (· != p) } :
      State).relink.abandonReams.failCouches p |>.cascadeEvent 9 p 0xFF 0 0).judgeCascade

/-- A panel runs carried streams no more: each goes on at its other panel, or ends (R413, R425, R426). -/
def State.dropPanel (s0 : State) (p reason detail : Nat) : State :=
  let stay (r : Remote) : Remote := match r.switch with
    | some (_, ps) => if ps.contains p && !r.panels.contains p then { r with switch := none } else r
    | none => r
  let s : State := { s0 with cas.remote := s0.cas.remote.map (fun (r : Nat × Remote) => (r.1, stay r.2)) }
  (s.cas.remote.filter (fun r => r.2.panels.contains p)).foldl (fun (s : State) (r : Nat × Remote) =>
    let left := r.2.panels.filter (· != p)
    let deep : Bool := match s.lane r.1 with
      | some x => (s.holders x.sub.furnish).any (fun i => s.odGet (oCascadeSlotMode i) == 1)
      | none => false
    let s1 := { s with cas.remote := mset {} s.cas.remote r.1 { r.2 with panels := left, reads := r.2.reads.filter (· != p) } }
    if left = [] ∨ (deep = true ∧ reason ≠ 2) then s1.terminate r.1 reason detail
    else if deep = true then { s1 with cas.remote := mset {} s1.cas.remote r.1 r.2 } else s1) s

/-- DEEPEN slots that span a panel park until it returns or is replaced (R426): their passes are aborted. -/
def State.parkDeep (s : State) (p : Nat) : State :=
  ((List.range 8).filter (fun i => s.slotState i == 4 && s.odGet (oCascadeSlotMode i) == 1 && (s.odGet (oCascadeSlotMembers i)).testBit p)).foldl
    (fun s i => (s.abortLanes ((s.lanes.filter (fun l => l.2.slot == i && l.2.pass.isSome)).map (·.1))).toSlotState i 5) s

/-- DEEPEN slots that stand parked on their tiles run again once every member is up. -/
def State.unparkDeep (s : State) : State :=
  ((List.range 8).filter (fun i => s.slotState i == 5 && (s.pslot i).part.isSome && s.slotTiles i != [] &&
    s.others.all (fun p => !(s.odGet (oCascadeSlotMembers i)).testBit p || s.memberState p == 2))).foldl (fun s i => s.toSlotState i 4) s

/-- The lowest-numbered member whose strap is set becomes acting deputy (R409). -/
def State.nameDeputy (s : State) : State :=
  let d := (s.others.find? (fun p => s.memberState p == 2 && (mget {} s.cas.memberBeats p).strap)).getD 0xFF
  ({ s with cas.actDeputy := d } : State).seamAll 3 [s.cas.actMaster, d]

/-- A member not heard for 100 µs on any link. -/
def State.silent (s : State) (p : Nat) : Bool := decide (mget s.cas.formAt s.cas.memberHeard p + 100000 ≤ s.clk)

/-- A member is lost (R409, R426): its reams, deepened slots and couches with it; the master drops it from its streams. Without master
and deputy the panel is ISOLATED. -/
def State.memberGone (s : State) (p : Nat) : State :=
  let s1 := ((s.odSet (oCascadeMemberState p) 3).cascadeEvent 2 p 0xFF 0 0).abandonReams.parkDeep p |>.failCouches p
  let s2 := if s1.cascadeMaster then
      let s2 := s1.dropPanel p 2 0
      if p = s2.cas.actDeputy then s2.nameDeputy else s2
    else s1
  let lost (q : Nat) : Bool := q != s2.panelNo && (q == 0xFF || s2.memberState q == 3)
  if lost s2.cas.actMaster ∧ lost s2.cas.actDeputy then
    let s3 := s2.abortLanes ((s2.lanes.filter (fun l => decide (l.1 < 256))).map (·.1))
    ((s3.odSet oCascadePanelState 4).odSet oCascadePanelLevel 63).setLevels.cascadeEvent 5 s.panelNo 0xFF 0 0
  else s2

/-- MEMBER_LOSS (R409, R426): a member heard on no link for 100 µs is lost. Without master and deputy the rest is ISOLATED. -/
def execMemberLoss (dt : Nat) (panel : Fin 8) (s : State) : Host.Outcome State Fault Refusal :=
  let s := s.tick dt
  let p := panel.val
  .next (if !s.inCascade ∨ p = s.panelNo ∨ s.memberState p ≠ 2 ∨ !s.silent p then s else s.memberGone p)

/-- The deputy takes the master role (R409, R426): what was mirrored becomes its own; streams that ran on the old master alone
end STATE_LOST. -/
def State.takeOver (s : State) : State :=
  let old := s.cas.actMaster
  let s1 := ({ s with cas.actMaster := s.panelNo, cas.mirrored := [] }.odSet oCascadePanelRole 1).bump oCascadePanelTakeovers
  let s2 := s.cas.mirrored.foldl (fun (s : State) m =>
    let k := s.freeRemote
    let ps := m.2.2.filter (fun p => p != old && (p == s.panelNo || s.memberState p == 2))
    let port := if s.hostUp m.2.1.port then m.2.1.port else ((List.range 16).find? s.hostUp).getD 0xFF
    let s1 := s.setLane k { m.2.1 with slot := 8, port := port, heardAt := s.clk }
    let s2 := { s1 with cas.remote := mset {} s1.cas.remote k { panels := ps } }
    if ps = [] then s2.terminate k 2 0 else s2) s1
  (s2.cascadeEvent 4 s.panelNo 0xFF 0 0).nameDeputy

/-- DEPUTY_TAKEOVER (R409): the master is lost and a majority reports it lost; in a cascade of two, every link to it reports
loss of signal. -/
def execDeputyTakeover (dt : Nat) (s : State) : Host.Outcome State Fault Refusal :=
  let s := s.tick dt
  let n := s.memberList.length
  let ma := s.cas.actMaster
  let votes := 1 + (s.others.filter (fun p => s.memberState p == 2 && (mget {} s.cas.memberBeats p).lost.testBit ma)).length
  let dark := (List.range 16).all (fun q => s.odGet (oCascadeLinkPeerPanel q) != ma || s.odGet (oCascadeLinkState q) == 0)
  .next (if s.inCascade ∧ s.odGet oCascadePanelRole = 2 ∧ ma < 8 ∧ s.memberState ma = 3 ∧ (if n = 2 then dark else decide (n < 2 * votes)) then
      s.takeOver
    else s)

/-- A master that hears only `near` gives up the role (R409). -/
def State.giveUp (s : State) (near : List Nat) : State :=
  let gone := s.cas.remote.filter (fun r => r.2.panels.all (fun p => p != s.panelNo && !near.contains p))
  let s1 := gone.foldl (fun (s : State) r => { s with lanes := mdel s.lanes r.1, cas.remote := mdel s.cas.remote r.1 }) s
  ((((s1.odSet oCascadePanelState 4).odSet oCascadePanelRole 3).odSet oCascadePanelLevel 63).setLevels).cascadeEvent 5 s.panelNo 0xFF 0 0

/-- MASTER_ISOLATE (R409): a master that for 100 µs hears fewer than a majority gives up the role: it admits nothing, and
stops serving streams on members that it cannot reach. -/
def execMasterIsolate (dt : Nat) (s : State) : Host.Outcome State Fault Refusal :=
  let s := s.tick dt
  let n := s.memberList.length
  let near := s.others.filter (fun p => !s.silent p)
  .next (if !s.cascadeMaster ∨ n ≤ 2 ∨ n < 2 * (near.length + 1) then s
    else s.giveUp near)

/-- A record from the master is stored on this member (R424): its fields in order. -/
def State.storeConfig (s : State) (fields : List Nat) : State :=
  let s1 := (List.range 10).foldl (fun s i => s.odSet (oCascadeConfig + 1 + i) (fields.getD i 0)) s
  let s2 := (List.range 8).foldl (fun s i =>
    let was := s.odGet (oCascadeMemberSerial i)
    let s1 := s.odSet (oCascadeMemberSerial i) (s.cfgSerial i)
    if was = s.cfgSerial i then s1 else s1.odSet (oCascadeMemberState i) (if s.cfgSerial i = 0 then 0 else 1)) s1
  (((List.range 16).foldl State.reclass { s2 with storeDirty := true })).relink

/-- A write of cascade.panel.replace (R424): none is BAD_VALUE; refused where the panel is not the master, the member is not
lost or expelled, or no hello shows the new panel with the digest of the record as replaced. -/
def State.replaceWrite (s : State) (b : List Nat) : Option State :=
  let p := leAt b 0 1
  let serial := leAt b 4 16
  if b.length ≠ 20 ∨ !sliceAt b 1 3 == [0, 0, 0] ∨ 8 ≤ p ∨ serial = 0 then none
  else
    let ms := s.odGet oCascadeConfigMembers
    let cut := ms - s.cfgSerial p * 2 ^ (128 * p) + serial * 2 ^ (128 * p)
    let s1 := s.odSet oCascadeConfigMembers cut
    let seen := s.cas.hellos.any (fun h => h.2.serial == serial && h.2.digest == s1.seamDigest)
    if !s.cascadeMaster ∨ (s.memberState p ≠ 3 ∧ s.memberState p ≠ 4) ∨ !seen then some (s.odSet oCascadePanelReplace 2)
    else
      let fields := (List.range 10).map (fun i => s1.odGet (oCascadeConfig + 1 + i))
      let s2 := (((List.range 16).foldl (fun (s : State) q =>
        if (mget {} s.cas.hellos q).serial = serial then s.odSet (oCascadeLinkPeerPanel q) p else s) (s1.odSet (oCascadeMemberState p) 1)).storeConfig fields)
      let s3 := s2.seamAll 13 fields
      some (((List.range 8).filter (fun i => s3.odGet (oCascadeSlotMembers i) != 0)).foldl (fun s i =>
        s.seamSend p 0x40 ([i, s.odGet (oCascadeSlotMode i), s.odGet (oCascadeSlotCuts i), (s.pslot i).image.length] ++ (s.pslot i).image))
        (s3.odSet oCascadePanelReplace 0))

/-- CASCADE_REPLACE (R424). -/
def execCascadeReplace (dt : Nat) (b : List Nat) (s : State) : Host.Outcome State Fault Refusal :=
  .next (((s.tick dt).replaceWrite b).getD (s.tick dt))

/-- A member that can take a stream over from those that run it: it runs the slot, with the most room, and is no straggler. -/
def State.couchTarget (s : State) (x : LaneRec) (runs : List Nat) : Option Nat :=
  let slots := (s.holders x.sub.furnish).filter (fun i => s.odGet (oCascadeSlotMode i) != 1)
  (sortBy (fun p => (65536 - min 65535 (s.roomAt x.sub.cls p)) * 8 + p) (s.memberList.filter (fun p =>
    !runs.contains p && s.odGet (oCascadeMemberStraggler p) == 0 && slots.any (fun i => s.mayTake i x.sub.cls p)))).head?

/-- A stream that a member runs is to be couched away from it, where another member can take it (R425). -/
def State.couchOff (s : State) (p : Nat) (r : Nat × Remote) : State :=
  match s.lane r.1 with
  | some x => match s.couchTarget x r.2.panels with
    | some t => s.seamCtl p 20 [x.sub.stream, t, s.cfgSerial t]
    | none => s
  | none => s

/-- EXPEL (R425): the master, or the deputy where the subject is the master, stops admission to the subject and couches its
streams; after 10 ms, or once it has none, the rest end WITHDRAWN and the notice goes out. -/
def execExpel (dt : Nat) (s : State) : Host.Outcome State Fault Refusal :=
  let s := s.tick dt
  .next (match s.quorumQueue.head? with
    | none => s
    | some q =>
      if q.cmd ≠ 1 then s
      else
        let p := (s.panelOf q.subject).getD 0xFF
        if q.phase = 0 then
          let may := s.inCascade && decide (p < 8) && p != s.panelNo &&
            (s.odGet oCascadePanelRole == 1 || (s.odGet oCascadePanelRole == 2 && p == s.cas.actMaster))
          match s.quorumStart q may with
          | (s1, false) => s1
          | (s1, true) =>
            let s2 := if s1.odGet oCascadePanelRole = 2 then s1.takeOver else s1
            let s3 := { s2 with cas.expelling := s2.cas.expelling ++ [p] }
            (s3.cas.remote.filter (fun r => r.2.panels.contains p)).foldl (fun s r => s.couchOff p r) s3
        else if q.startClk + 10 ^ 7 ≤ s.clk ∨ !(s.cas.remote.any (fun r => r.2.panels.contains p)) then
          let s1 := (s.dropPanel p 5 2).seamAll 8 [p]
          (s1.expelled p).quorumDone
        else s)

/-- FORCED_HANDOVER (R422): the named stream, or every one in ascending stream ID, is couched to the subject panel, one at a
time; done once the line is empty. -/
def execForcedHandover (dt : Nat) (s : State) : Host.Outcome State Fault Refusal :=
  let s := s.tick dt
  .next (match s.quorumQueue.head? with
    | none => s
    | some q =>
      if q.cmd ≠ 3 then s
      else if q.phase = 0 then
        match s.quorumStart q true with
        | (s1, false) => s1
        | (s1, true) =>
          let p := (s1.panelOf q.subject).getD 0xFF
          let ids := sortBy id (((s1.lanes.filter (fun l => !l.2.ended)).map (fun l => l.2.sub.stream)).eraseDups)
          let due := if q.stream = 0 then ids else [q.stream]
          due.foldl (fun s i => (s.couchAdd i p q.subject true).1) s1
      else if s.cas.couches.any (fun c => c.quorum) then s else s.quorumDone)

-- ------------------------------------------------------------------ reports (R414, R423)

/-- The median of the placed dies' speed factors (R239, R423). -/
def State.ownSpeed (s : State) : Nat :=
  let l := sortBy id ((computeSites.filter s.dieActive).map (fun g => s.odGet (oPlacementSitePermille g)))
  l.getD (l.length / 2) 1000
where
  oPlacementSitePermille (g : Nat) : Nat := oPlacementSiteSpeedPermille g

/-- A straggler condition of a member, by cause (R423): held over the window it marks the member, once. -/
def State.lag (s : State) (p cause : Nat) (bad : Bool) (speed late : Nat) : State :=
  let key := cause * 8 + p
  if !bad then { s with cas.lagSince := mdel s.cas.lagSince key }
  else match mlook s.cas.lagSince key with
    | none => { s with cas.lagSince := mins s.cas.lagSince key s.clk }
    | some t =>
      if t + 10 ^ 9 * s.odGet oCascadeConfigStragglerWindowS ≤ s.clk ∧ s.odGet (oCascadeMemberStraggler p) = 0 then
        (s.odSet (oCascadeMemberStraggler p) 1).publish24 oCascadePanelStraggler ([p, cause] ++ toLE 2 speed ++ toLE 2 late)
      else s

/-- Express streams of a straggler are couched away at their couch points while others have room, in WIDEN and MULTIPLY
(R423). -/
def State.couchAway (s : State) (p : Nat) : State :=
  if s.odGet (oCascadeMemberStraggler p) = 0 then s
  else match s.cas.remote.find? (fun r => r.2.panels.contains p && r.2.switch.isNone &&
      (match s.lane r.1 with | some x => x.express && !(s.cas.couches.any (fun c => c.stream == x.sub.stream)) | none => false)) with
    | none => s
    | some r => match s.lane r.1 with
      | none => s
      | some x => match s.couchTarget x r.2.panels with
        | some t => if p = s.panelNo then (s.couchAdd x.sub.stream t (s.cfgSerial t) false).1 else s.seamCtl p 20 [x.sub.stream, t, s.cfgSerial t]
        | none => s

/-- The pace level by the members' shortfalls (R414): down one after a member has had two seconds in a row, up one after 60 s
without any, never above the configured level. -/
def State.moveLevel (s : State) (p : Nat) (short : Bool) : State :=
  let again := short && s.cas.shortMembers.contains p
  let s1 := { s with cas.shortMembers := s.cas.shortMembers.filter (· != p) ++ (if short then [p] else []) }
  let lvl := s1.odGet oCascadePanelLevel
  if s1.cas.levelDue.isSome then s1
  else if again then if 0 < lvl then s1.orderLevel (lvl - 1) else s1
  else if short then { s1 with cas.levelAt := s1.clk }
  else if lvl < s1.odGet oCascadeConfigPaceLevel ∧ s1.cas.levelAt + 60 * 10 ^ 9 ≤ s1.clk then s1.orderLevel (lvl + 1) else s1

/-- The master judges a member's report: the pace level, the straggler conditions against the median rate, the mark (R414, R423). -/
def State.judgeMember (s : State) (p speed late rate : Nat) (short : Bool) : State :=
  let s0 := { s with cas.memberRates := mins s.cas.memberRates p rate }
  let s1 := ((s0.odSet (oCascadeMemberSpeedPermille p) speed).odSet (oCascadeMemberLatePermille p) late).moveLevel p short
  let rates := sortBy id (s1.cas.memberRates.map (·.2))
  let median := rates.getD (rates.length / 2) 0
  let pct := s1.odGet oCascadeConfigStragglerPct
  let s2 := (s1.lag p 1 (decide (10 * pct < late)) speed late).lag p 2 (decide (rate * 100 < (100 - pct) * median)) speed late
  let calm := (mlook s2.cas.lagSince (8 + p)).isNone && (mlook s2.cas.lagSince (16 + p)).isNone
  if calm then s2.odSet (oCascadeMemberStraggler p) 0 else s2.couchAway p

/-- MEMBER_REPORT (R423): each second, a member's median speed factor, whether it had a pace shortfall, its late permille and
its pass rate. On a member its own report goes to the master; on the master it is judged. -/
def execMemberReport (dt : Nat) (panel : Fin 8) (speed late rate : Nat) (short : Bool) (s : State) : Host.Outcome State Fault Refusal :=
  let s := s.tick dt
  let p := panel.val
  .next (if !s.inCascade then s
    else if p = s.panelNo ∧ !s.cascadeMaster then
      ({ s with cas.lateA := 0, cas.seenA := 0 } : State).seamCtl s.cas.actMaster 10
        [s.ownSpeed, (if short then 1 else 0), s.cas.lateA * 1000 / max 1 s.cas.seenA, rate]
    else if !s.cascadeMaster ∨ s.memberState p ≠ 2 then s
    else s.judgeMember p speed late rate short)

-- ------------------------------------------------------------------ what arrives (R405, R409)

/-- A drain read of this panel's reel (R406, R411): answered from the store where the transfer was answered before. -/
def State.answerDrain (s : State) (p id stream index : Nat) : State :=
  let answer (s : State) (i t : Nat) : State := s.seamSend p 0x49 [id, stream, i, t]
  match s.cas.drainStore.find? (fun d => d.1 == id) with
  | some (_, st, i, t) => if st = stream then answer s i t else s
  | none => match s.runLane stream with
    | none => s
    | some (l, _) => match s.popReel l index 4096 with
      | (s1, some t) =>
        answer { s1 with cas.drainStore := lastN 64 (s1.cas.drainStore ++ [(id, stream, index, t)]) } index t
      | (s1, none) => s1

/-- An action on the carried stream of a stream ID. -/
def State.onCarried (s : State) (stream : Nat) (f : Nat → LaneRec → State) : State :=
  match s.laneOf stream with
  | some (k, x) => if 256 ≤ k then f k x else s
  | none => s

/-- A message of a member, on a MEMBER link from panel p (R405 to R426). -/
def State.memberMsg (s : State) (p : Nat) (m : SeamMsg) : State :=
  match m with
  | .ack id => { s with cas.xfers := s.cas.xfers.filter (fun x => x.id != id) }
  | .formed => if s.odGet oCascadePanelState = 1 ∧ p = s.odGet oCascadeConfigMaster then s.nowFormed else s
  | .roles ma de =>
    if !s.inCascade then s
    else { s with cas.actMaster := ma, cas.actDeputy := de }.odSet oCascadePanelRole
      (if s.panelNo = ma then 1 else if s.panelNo = de then 2 else 3)
  | .image i mode cuts b => s.loadImage i mode cuts b
  | .config fields => if p = s.cas.actMaster then s.storeConfig fields else s
  | .submit u =>
    if s.inCascade ∧ (s.runLane u.stream).isNone ∧ !(s.queue.any (fun q => q.sub.stream == u.stream)) then
      { s with queue := s.queue ++ [{ sub := u, port := seamPort, src := {}, arrived := s.now, clkAt := s.clk, limit := u.credit }] }
    else s
  | .terminate stream r d =>
    let s1 := { s with queue := s.queue.filter (fun q => q.sub.stream != stream || q.port != seamPort) }
    (match s1.runLane stream with | some (l, _) => s1.terminate l r d | none => s1)
  | .drainRead id stream index => s.answerDrain p id stream index
  | .drained stream index token => s.onCarried stream (fun k x =>
      let r := mget {} s.cas.remote k
      ({ s with cas.remote := mset {} s.cas.remote k { r with reads := r.reads.filter (· != p) } } : State).takeToken k x index token)
  | .ended stream r d => s.onCarried stream (fun k _ =>
      let rec' := mget {} s.cas.remote k
      if rec'.panels.length > 1 ∧ r ≠ 0 then
        { s with cas.remote := mset {} s.cas.remote k { rec' with panels := rec'.panels.filter (· != p) } }
      else s.carriedEnd k r d)
  | .mirror x ps =>
    if s.odGet oCascadePanelRole ≠ 2 then s
    else { s with cas.mirrored := if x.ended then mdel s.cas.mirrored x.sub.stream else mins s.cas.mirrored x.sub.stream (x, ps) }
  | .cross i stream q bufs => s.crossIn i stream q bufs
  | .abortPass stream => (match s.runLane stream with
      | some (l, x) => if x.pass.isSome ∧ !x.aborted then s.abortLane l else s
      | none => s)
  | .released stream n => s.dropReleased stream n
  | .level lvl t => if p = s.cas.actMaster then { s with cas.levelDue := some (lvl, t) } else s
  | .word slot red w => if w / 2 ^ 32 % 4096 ≠ 0 then s else (s.reamPut slot red (fun r =>
      if w / 2 ^ 48 = r.num % 65536 then { r with words := mins r.words (w / 2 ^ 45 % 8) w }
      else { r with early := mins r.early (w / 2 ^ 45 % 8) w })).reduce slot red
  | .partials slot red q l => (s.reamPut slot red (fun r => { r with partials := mins r.partials q l })).reduce slot red
  | .segment slot red q l => (s.reamPut slot red (fun r => { r with segs := mins r.segs q l })).reduce slot red
  | .couchCmd stream panel serial => (s.couchAdd stream panel serial false).1
  | .extents stream layer first b => { s with cas.couchIn := s.cas.couchIn ++ [(stream, layer, first, b)] }
  | .couch x fid digest => (match s.couchTake x fid digest false with
      | some s1 => s1.seamCtl p 14 [x.sub.stream]
      | none => s.seamCtl p 15 [x.sub.stream])
  | .couchReady stream dst => s.couchIsReady stream dst
  | .couchRefused stream => (match s.cas.couches.find? (fun c => c.stream == stream) with | some c => s.couchEnd c 3 | none => s)
  | .couchSwitch stream x panel =>
    if s.cascadeMaster then s.switchAt stream x panel p
    else { s with cas.couches := s.cas.couches.map (fun (c : Couch) => if c.stream = stream then { c with x := x } else c) }
  | .expelled q => s.expelled q

/-- A message on a FOREIGN link: couch transfers alone (R408, R420). -/
def State.foreignMsg (s : State) (m : SeamMsg) : State :=
  match m with
  | .extents stream layer first b =>
    if s.odGet oCascadePanelAcceptForeign = 1 then { s with cas.couchIn := s.cas.couchIn ++ [(stream, layer, first, b)] } else s
  | .couch x fid digest => (match s.couchTake x fid digest true with
      | some s1 => s1.send (.seam 0xFF 14 [x.sub.stream])
      | none => s.send (.seam 0xFF 15 [x.sub.stream]))
  | .couchReady stream dst => s.couchIsReady stream dst
  | .couchRefused stream => (match s.cas.couches.find? (fun c => c.stream == stream) with | some c => s.couchEnd c 3 | none => s)
  | .couchSwitch stream x _ => (match s.runLane stream with
      | some (l, y) => s.setLane l { y with stopAt := none, released := max x y.released, reel := y.reel.drop (x - y.released) }
      | none => s)
  | _ => s

/-- MEMBER_HEARTBEAT (R409): a heartbeat on a seam link, and the control packets, answers and transfers that came with it
(log entry 55). Links that are not MEMBER or FOREIGN carry nothing (R408). -/
def execMemberHeartbeat (dt : Nat) (port : Fin 16) (beat : Option Beat) (msgs : List SeamMsg) (s : State) : Host.Outcome State Fault Refusal :=
  let s := s.tick dt
  let q := port.val
  let p := s.odGet (oCascadeLinkPeerPanel q)
  .next (match s.odGet (oCascadeLinkState q) with
    | 2 =>
      let s1 := match beat with | some b => (s.memberHeardNow p b).unparkDeep | none => s
      msgs.foldl (fun s m => s.memberMsg p m) s1
    | 3 => msgs.foldl State.foreignMsg s
    | _ => s)

end Sys2Proof.Machine
end

