-- ==== Sys2Proof/Machine/ObjRead.lean ====
section
/-!
DEFINITION. Reading the object dictionary: the objects that the panel computes, their encodings (R302), the directory
(R331), which objects exist and which a device state serves (R317, R321, R323, R470), and READ and BULK_READ (R303, R304).
-/
namespace Sys2Proof.Machine

-- ------------------------------------------------------------------ the directory (R331)

/-- Bytes of an array's element. -/
def elemSize (ix sub : Nat) : Nat :=
  if ix = 0x120005 then 4
  else if ix = 0x120010 ∨ (0x330000 ≤ ix ∧ ix < 0x334000) ∨ ix = 0x630001 ∨ ix = 0x750003 then 24
  else if ix = 0x400002 then 1992
  else if 0x460000 ≤ ix ∧ ix < 0x460100 ∧ sub = 11 then 8
  else if 0x550000 ≤ ix ∧ ix < 0x550100 then 16
  else if ix = 0x580006 then 64
  else 32

/-- Encoded bytes of an object or field that is not a whole RECORD: of an ARRAY its element. -/
def rowSize (r : DirRow) : Nat :=
  if r.type = 13 then elemSize r.first r.sub
  else if r.type = 12 ∧ r.sub ≠ 0 then 9
  else r.size

/-- The field rows of a record. -/
def fieldsOf (r : DirRow) : List DirRow := directory.filter (fun q => q.first == r.first && q.last == r.last && q.sub != 0)

/-- The size field of a directory record: of a RECORD the sum of its fields. -/
def dirSize (r : DirRow) : Nat := if r.type = 12 ∧ r.sub = 0 then sumN ((fieldsOf r).map rowSize) else rowSize r

/-- A directory record. -/
def dirRecord (r : DirRow) : List Nat :=
  toLE 3 r.first ++ [r.sub] ++ toLE 3 r.last ++ [r.type, r.access, r.readLevel, r.writeLevel, r.persist, r.flags, 0, 0, 0] ++
  toLE 4 (dirSize r) ++ toLE 4 0

/-- An array's encoding: the count, then the elements. -/
def arrayBytes (l : List (List Nat)) : List Nat := toLE 4 l.length ++ l.flatten

/-- od.directory as it reads. -/
def dirBytes : List Nat := arrayBytes (directory.map dirRecord)

-- ------------------------------------------------------------------ computed objects, by area

/-- The name of the panel's part (R4). -/
def partName (variant : Nat) : List Nat := ascii (if variant = 1 then "T220-M" else if variant = 2 then "T220-S" else "T220-X")

/-- One or zero. -/
def bit01 (b : Bool) : Nat := if b then 1 else 0

/-- An entry of session.list. -/
def Session.listed (x : Session) : List Nat :=
  toLE 4 x.id ++ toLE 8 x.keyId ++ [x.level, if x.port ≥ 16 then 0 else x.port + 1, 0, 0] ++ toLE 8 x.openedAt ++ toLE 8 x.lastMsg

/-- An entry of session.quorum_taken. -/
def QCmd.listed (q : QCmd) : List Nat := padTo 16 q.id ++ [q.cmd, q.status, 0, 0, 0, 0, 0, 0] ++ toLE 8 q.decidedAt

/-- Computed objects of areas 0x10 to 0x12. -/
def State.readDevice (s : State) (a : Nat) : Option (List Nat) :=
  if a = oDeviceIdManufacturer then some (padTo 16 (ascii "Ihleth"))
  else if a = oDeviceIdFamily then some (padTo 16 (ascii "Topator"))
  else if a = oDeviceIdPart then some (padTo 16 (partName s.variant))
  else if a = oDeviceIdOdFormat then some (toLE 2 1)
  else if a = oDeviceTimeNow then some (toLE 8 s.now)
  else if a = oDeviceTimeSource then
    some [if s.odGet oRtPanelPtpState = 1 then 1 else if s.boot.firstLock then 2 else 0]
  else if a = oDeviceTimeStandbyNs then some (toLE 8 (if s.tbOn then s.clk - s.boot.standbyAt else 0))
  else if a = oSessionList then some (arrayBytes (s.sessions.map Session.listed))
  else if a = oSessionQuorumTaken then some (arrayBytes (s.quorumTaken.map QCmd.listed))
  else if a = oOdEventsNext then some (toLE 8 s.nextEvent)
  else if a = oOdEventsOldest then some (toLE 8 s.oldestEvent)
  else if a = oOdEventsSubscriptions then some [sumN (s.sessions.map (fun x => x.subs.length))]
  else if a = oOdLogProtocol then some (arrayBytes s.protoLog)
  else if a = oOdCounterSaturatedList then some (arrayBytes (s.satList.map addrBytes))
  else if a = oOdDirectory then some dirBytes
  else if a = oOdDirectoryDigest then some (sha384 dirBytes)
  else none

/-- How many sites of a list read a state. -/
def State.sitesIn (s : State) (l : List Nat) (v : Nat) : Nat := (l.filter (fun g => s.odGet (oFloorSiteState g) == v)).length

/-- floor.panel.counts (R34). -/
def State.floorCount (s : State) (n : Nat) : List Nat :=
  let bases := (List.range 256).filter isStackSite
  match n with
  | 1 => toLE 2 (s.sitesIn computeSites 1)
  | 2 => toLE 2 (s.sitesIn computeSites 2)
  | 3 => toLE 2 (s.sitesIn computeSites 4)
  | 4 => toLE 2 (s.sitesIn computeSites 3)
  | 5 => [s.sitesIn bases 1]
  | 6 => [s.sitesIn bases 4 + s.sitesIn bases 5]
  | 7 => toLE 4 (sumN ((computeSites.filter (fun g => s.odGet (oFloorSiteState g) == 1)).map (fun g =>
      min 60 ((List.range 64).filter (fun t => [1, 2, 3].contains (s.odGet (oFloorTileState (g * 64 + t))))).length)))
  | 8 => [sumN ((List.range 4).map (fun p => popcount (s.odGet (oFloorOffgridPortsUsable (16 + p))) 8))]
  | _ => [s.sitesIn [95, 108] 1]

/-- The mask of a site's tiles that read one of some states. -/
def State.tileMask (s : State) (g : Nat) (vs : List Nat) : Nat :=
  if isCompute g then sumN (((List.range 64).filter (fun t => vs.contains (s.odGet (oFloorTileState (g * 64 + t))))).map (2 ^ ·)) else 0

/-- Sites to which an off-grid die attaches (R20, R21). -/
def attachBytes (fn : Nat) : List Nat := if fn < 16 then [fn * 16 + 10, 0xFF, 0xFF, 0xFF] else portAttach (fn - 16)

/-- Computed objects of areas 0x20 to 0x23. -/
def State.readFloor (s : State) (ix sub : Nat) : Option (List Nat) :=
  let g := ix % 256
  if ix = 0x200006 then some ((List.range 256).map (fun g => s.odGet (oFloorSiteState g)))
  else if ix = 0x200007 then some (s.floorCount sub)
  else if 0x210000 ≤ ix ∧ ix < 0x210100 then
    match sub with
    | 1 => some [siteKind g]
    | 3 => some (toLE 2 (siteNode g))
    | 4 => some [siteX g]
    | 5 => some [siteY g]
    | 7 => some [popcount (s.tileMask g [1, 2, 3]) 64]
    | 8 => some (toLE 8 (s.tileMask g [2]))
    | 9 => some (toLE 8 (s.tileMask g [3]))
    | 10 => some (toLE 8 (s.tileMask g [4, 6]))
    | _ => none
  else if 0x230000 ≤ ix ∧ ix < 0x230014 then
    match sub with
    | 1 => some [if g < 16 then 4 else 5]
    | 3 => some (toLE 2 (0x24C0 + g))
    | 4 => some (attachBytes g)
    | _ => none
  else none

/-- dataflow.tile.watermark: the tile watermark, and whether a reconfiguration is in progress. -/
def Tile.watermarkByte (t : Tile) : Nat :=
  t.wm.val + (if t.slots.any (fun p => p.2.shadow.isSome || (dKind p.2.cur != 0 && p.2.wm != t.wm)) then 4 else 0)

/-- Computed objects of areas 0x30 to 0x34. -/
def State.readTile (s : State) (ix sub : Nat) : Option (List Nat) :=
  let k := ix % 65536
  let t := s.tile k
  if ix < 0x304000 ∧ sub = 10 then
    some (toLE 2 (sumN (((List.range 16).filter (fun i => dKind (t.slot i).cur != 0 && (t.slot i).wm == t.wm)).map (2 ^ ·))))
  else if 0x310000 ≤ ix ∧ ix < 0x314000 ∧ sub = 3 then some (arrayBytes (t.log.map entryBytes))
  else if 0x330000 ≤ ix ∧ ix < 0x334000 then
    match sub with
    | 1 => some [match t.run with | .run => 0 | .hold => 1 | .scanOut => 2 | .scanIn => 3]
    | 2 => some [t.watermarkByte]
    | 3 => some (toLE 4 (sumN ((List.range 16).map (fun i => (t.slot i).wm.val * 4 ^ i))))
    | 5 => some [t.store.length]
    | 11 => some (arrayBytes (t.slots.filterMap (fun p => p.2.stall.map (stallBytes k p.1))))
    | 12 => some ((List.range 256).map (fun l => (t.life l).val))
    | _ => none
  else if 0x340000 ≤ ix ∧ ix < 0x344000 then
    match sub with
    | 1 => some (arrayBytes ((List.range 32).map (fun e => regionBytes (t.region e))))
    | 2 => some ((List.range 8192).map (fun b => sumN (((List.range 8).filter (fun i => s.tagAt k (8 * b + i))).map (2 ^ ·))))
    | _ => none
  else if ix = 0x34F005 then some (toLE 8 (ofLE (s.floorCount 7) * 2 ^ 22))
  else none

/-- Computed objects of areas 0x35 to 0x37. -/
def State.readStack (s : State) (ix sub : Nat) : Option (List Nat) :=
  let i := ix % 256
  if 0x350000 ≤ ix ∧ ix < 0x350020 then
    match sub with
    | 1 => some (toLE 2 (stackNode i))
    | 5 => some (toLE 8 (sumN ((s.allocs.filter (fun a => a.stack == i)).map (·.len))))
    | 6 => some [(s.groupsOf i).length]
    | 12 => some (toLE 4 (if s.stackOnline i then (s.clk - (s.stackUnit i).scrubStart) / (3600 * 10 ^ 9) - s.odGet oStackPanelScrubPeriodH else 0))
    | _ => none
  else if ix = 0x35F004 then
    some (((List.range 256).map (fun g => [(s.pgroup g).state, if (s.pgroup g).members = [] then 0 else min 3 (s.pgroup g).lost.length])).flatten)
  else if ix = 0x35F005 then some (toLE 2 s.groupsDegraded)
  else if ix = 0x35F006 then some (toLE 4 s.singleCopies)
  else if 0x35F100 ≤ ix ∧ ix < 0x35F200 then
    let x := s.pgroup i
    match sub with
    | 1 => some [x.state]
    | 2 => some (if x.members = [] then List.replicate 24 0 else ((List.range 12).map (fun m => toLE 2 (x.members.getD m 0xFFFF))).flatten)
    | _ => some (toLE 4 x.slabRows)
  else if ix = 0x36000D then some (toLE 2 (sumN (s.pslots.map (fun p => match p.2.placed with | some x => x.groups.length | none => 0))))
  else if 0x360100 ≤ ix ∧ ix < 0x360200 then some (arrayBytes ((mget [] s.nodeLogs i).map entryBytes))
  else if 0x360200 ≤ ix ∧ ix < 0x360214 then some (arrayBytes ((mget [] s.nodeLogs (0x100 + i)).map entryBytes))
  else if 0x370000 ≤ ix ∧ ix < 0x370400 ∧ sub = 2 then some (toLE 2 (linkPeer (ix - 0x370000)))
  else none

/-- The seats of a region of a slot. -/
def State.regionSeats (s : State) (slot r : Nat) : List Seat := (s.seats slot).filter (fun q => q.1.region == r)

/-- A region's record in area 0x43: variant, width, first site, layer position, KV home, added path latency. -/
def State.readRegion (s : State) (slot r sub : Nat) : Option (List Nat) :=
  match (s.pslot slot).furn, (s.pslot slot).placed, s.regionSeats slot r with
  | some f, some x, q :: qs =>
    let ks := (q :: qs).map (·.2.2)
    match sub with
    | 1 => some [q.1.variant]
    | 2 => some (toLE 2 (q :: qs).length)
    | 3 => some [(curveSites.find? (fun g => ks.any (fun k => k / 64 == g))).getD (q.2.2 / 64)]
    | 4 => some (toLE 2 (if folded x.fold q.1 then (foldAt f x.fold q.1).1 else 0xFFFF))
    | 5 => some (toLE 2 (match (seatLayer q).bind (fun l => x.kvHome.find? (fun h => h.1 == l)) with
        | some h => stackNode h.2.1
        | none => 0xFFFF))
    | _ => some (toLE 4 (maxN (ks.map (fun k => s.odGet (oFloorTileAddedHopNs k)))))
  | _, _, _ => none

/-- Computed objects of areas 0x40 to 0x43. -/
def State.readPlace (s : State) (ix sub : Nat) : Option (List Nat) :=
  if ix = 0x400002 then some (arrayBytes (s.furnishKeys.map (fun k => k.1 ++ k.2.1 ++ k.2.2)))
  else if ix = 0x400007 ∧ sub < 4 then
    let c := s.planCoverage
    some (match sub with | 1 => toLE 4 c.1 | 2 => toLE 2 c.2.1 | _ => [c.2.2])
  else if ix = 0x40000C then some (toLE 4 s.freeCurve.length)
  else if 0x410000 ≤ ix ∧ ix < 0x410008 ∧ sub = 11 then some (toLE 4 (s.slotTiles (ix % 8)).length)
  else if 0x410000 ≤ ix ∧ ix < 0x410008 ∧ sub = 0x12 then some [if s.pinned (ix % 8) then 1 else 0]
  else if 0x420000 ≤ ix ∧ ix < 0x420100 ∧ sub = 6 then some [s.siteSlot (ix % 256)]
  else if 0x430000 ≤ ix ∧ ix < 0x438000 then s.readRegion (ix / 4096 % 8) (ix % 4096) sub
  else none

/-- A lane's record in area 0x45, fields in order. -/
def LaneRec.laneField (x : LaneRec) (sub : Nat) : List Nat :=
  match sub with
  | 1 => [x.st]
  | 2 => toLE 4 x.sub.stream
  | 3 => [x.sub.cls]
  | 4 => [x.slot]
  | 5 => toLE 4 x.sub.rate
  | 6 => toLE 4 x.sub.lead
  | 7 => toLE 2 x.leadTokens
  | 8 => [x.sub.drafts]
  | 9 => [bit01 x.covered]
  | 10 => [bit01 x.refilling]
  | 11 => toLE 4 x.p
  | 12 => toLE 4 x.B
  | 13 => toLE 4 x.R
  | 14 => toLE 4 x.sub.prompt
  | 15 => toLE 4 (if x.count = 0 then 0 else x.released - 1)
  | 16 => toLE 2 x.fill
  | 17 => toLE 8 x.submittedAt
  | 18 => toLE 8 x.primedAt
  | _ => [match x.terminal with | some t => t.1 | none => 0xFF]

/-- A counter on the wire: it sticks at its greatest value (R328). -/
def counterBytes (n : Nat) : List Nat := toLE 8 (min n maxCount)

/-- A lane's telemetry in area 0x46, fields in order (R264). -/
def LaneRec.telField (x : LaneRec) (sub : Nat) : List Nat :=
  match sub with
  | 1 => counterBytes x.passes
  | 2 => counterBytes x.proposed
  | 3 => counterBytes x.accepted
  | 4 => counterBytes x.broke
  | 5 => counterBytes x.raRight
  | 6 => counterBytes x.raKilled
  | 7 => counterBytes x.replays
  | 8 => counterBytes x.underruns
  | 9 => counterBytes x.underrunNs
  | 10 => counterBytes x.late
  | 11 => arrayBytes ((List.range 2048).map (fun b => counterBytes (mget 0 x.hist b)))
  | 12 => toLE 4 (x.percentile 500)
  | 13 => toLE 4 (x.percentile 990)
  | 14 => toLE 4 (x.percentile 999)
  | _ => toLE 8 x.ttft

/-- An endpoint as rt.lane shows it. -/
def endpointBytes (e : Endpoint) : List Nat := [e.family, 0] ++ toLE 2 e.port ++ toLE 16 e.addr

/-- A lane's RT record in area 0x49, fields in order. -/
def LaneRec.rtField (x : LaneRec) (sub : Nat) : List Nat :=
  match sub with
  | 1 => [x.port]
  | 2 => endpointBytes x.reply
  | 3 => endpointBytes x.sub.alt
  | 4 => toLE 4 x.limit
  | 5 => toLE 4 x.acked
  | 6 => toLE 2 x.unacked
  | 7 => counterBytes x.retransmits
  | 8 => counterBytes x.creditStalls
  | 9 => counterBytes x.creditStallNs
  | _ => counterBytes x.failovers

/-- Streams of a class on the panel's lanes. -/
def State.classCount (s : State) (express : Bool) : Nat := (s.lanes.filter (fun p => decide (p.1 < 256) && p.2.express == express)).length

/-- Computed objects of areas 0x44 to 0x49. -/
def State.readStream (s : State) (ix sub : Nat) : Option (List Nat) :=
  let l := ix % 256
  if ix * 256 = oStreamPanelExpressActive then some [s.classCount true]
  else if ix * 256 = oStreamPanelBulkActive then some (toLE 2 (s.classCount false))
  else if ix * 256 = oStreamPanelQueued then some (toLE 2 s.queue.length)
  else if ix * 256 + sub = oStreamReelLeadMaxTokens then some (toLE 2 1008)
  else if 0x450000 ≤ ix ∧ ix < 0x450100 then (s.lane l).map (fun x => x.laneField sub)
  else if 0x460000 ≤ ix ∧ ix < 0x460100 then
    match s.lane l with
    | some x => some (x.telField sub)
    | none => if sub = 11 then some (({} : LaneRec).telField 11) else none
  else if 0x480000 ≤ ix ∧ ix < 0x480010 ∧ sub = 2 ∧ s.odGet (oRtPortRole (ix % 16)) = 2 ∧ s.odGet (oRtPortState (ix % 16)) = 1 ∧
      [2, 3, 4, 5].contains (s.odGet (oCascadeLinkState (ix % 16))) then some [2]
  else if 0x470000 ≤ ix ∧ ix < 0x470008 ∧ sub = 7 then some (toLE 2 (min 65535 (s.acceptMilli (ix % 8))))
  else if 0x480000 ≤ ix ∧ ix < 0x480010 ∧ sub = 17 then some (toLE 2 (s.portLanes (ix % 16)).length)
  else if 0x490000 ≤ ix ∧ ix < 0x490100 then (s.lane l).map (fun x => x.rtField sub)
  else none

/-- A hotspot as thermal.site.hotspots shows it. -/
def HotSpot.bytes (h : HotSpot) : List Nat :=
  toLE 4 (s32 h.a) ++ toLE 4 (s32 h.b) ++ toLE 4 (s32 h.est) ++ [bit01 h.suspA + 2 * bit01 h.suspB + 4 * bit01 h.disp, 0, 0, 0]

/-- The partner site that holds a die's mirrors, 0xFF none. -/
def State.mirrorSite (s : State) (g : Nat) : Nat :=
  let ms := (s.pslots.map (fun p => match p.2.placed with | some x => x.mirrors | none => [])).flatten
  match ms.find? (fun m => m.tile / 64 == g) with
  | some m => m.mTile / 64
  | none => 0xFF

/-- The highest die temperature, 0 where none has been read. -/
def State.hottest (s : State) : Int :=
  match s.dieTherm with
  | [] => 0
  | (_, d) :: t => t.foldl (fun m p => max m p.2.last) d.last

/-- Computed objects of areas 0x50 to 0x67. -/
def State.readPower (s : State) (ix sub : Nat) : Option (List Nat) :=
  let g := ix % 256
  if ix * 256 = oPowerPanelEffectiveCapW then some (toLE 4 s.effectiveCap)
  else if 0x530000 ≤ ix ∧ ix < 0x530100 ∧ sub = 1 then
    some (toLE 8 (sumN (((List.range 64).filter (fun t => (s.tile (g * 64 + t)).idle)).map (2 ^ ·))))
  else if ix * 256 = oThermalPanelHottestMc then some (toLE 4 (s32 s.hottest))
  else if 0x550000 ≤ ix ∧ ix < 0x550100 ∧ sub = 2 then some (arrayBytes ((List.range 4).map (fun n => (s.spot (g * 4 + n)).bytes)))
  else if ix * 256 = oAgeingPanelPoweredH then some (toLE 8 s.poweredH)
  else if ix * 256 = oAgeingPanelHistory then some (arrayBytes s.ageHistory)
  else if 0x610000 ≤ ix ∧ ix < 0x610100 ∧ sub = 3 then some [s.mirrorState g]
  else if 0x610000 ≤ ix ∧ ix < 0x610100 ∧ sub = 4 then some [s.mirrorSite g]
  else if 0x620000 ≤ ix ∧ ix < 0x620005 ∧ ix * 256 + sub = oFaultBgWaitingS (ix % 8) then some (toLE 4 (s.bgWaiting (ix % 8)))
  else if ix * 256 = oFaultLog then some (arrayBytes s.faultLog)
  else if ix * 256 = oCascadePanelDigest then some (toLE 48 s.seamDigest)
  else if 0x650000 ≤ ix ∧ ix < 0x650008 ∧ ix * 256 + sub = oCascadeMemberLanes (ix % 8) then
    some (toLE 2 (s.cas.remote.filter (fun p => p.2.panels.contains (ix % 8))).length)
  else none

/-- A public key or certificate of an identity layer (R451, R452): .01 key ID, .02 Ed25519, .03 ML-DSA-65. -/
def identKey (h sub : Nat) : List Nat :=
  match sub with
  | 1 => keyIdOf h
  | 2 => padTo 32 (Config.publicKey 0 h)
  | _ => padTo 1952 (Config.publicKey 65 h)

/-- A layer's certificates (R452): .01 Ed25519, .02 ML-DSA-65, zero-padded. -/
def identCert (h measurement version sub : Nat) : List Nat :=
  if sub = 1 then padTo 1024 (Config.certificate 0 h measurement version) else padTo 8192 (Config.certificate 65 h measurement version)

/-- Bytes of stack space below the dump area (R460). -/
def dumpBase (variant : Nat) : Nat := stackBytesOf variant - 2 ^ 32

/-- n bytes of the dump area from a dump offset (R460). A half that is not written reads as nothing was ever written there. -/
def State.dumpBytes (s : State) (d n : Nat) : List Nat :=
  (List.range n).map (fun i =>
    let o := d + i
    let node := if o < 2 ^ 32 then s.dump.half0 else s.dump.half1
    if node = 0xFFFF then 0 else (memByte s.mem (gaddr node (dumpBase s.variant + o % 2 ^ 32))).toNat)

/-- Computed objects of areas 0x70 to 0x75. -/
def State.readBoot (s : State) (ix sub : Nat) : Option (List Nat) :=
  if ix = 0x730001 then some (identKey deviceIdHandle sub)
  else if ix = 0x730002 then some (identCert deviceIdHandle 0 0 sub)
  else if ix = 0x730003 then some (identKey s.aliasHandle sub)
  else if ix = 0x730004 then
    some (identCert s.aliasHandle (s.odGet oFwRunningMeasurement) (s.odGet oFwRunningSecurityVersion) sub)
  else if ix * 256 = oSecAttestReport then some (padTo 4277 s.boot.report)
  else if ix * 256 = oDumpHeader then some (if s.odGet oDumpState = 0 ∨ s.odGet oDumpState = 4 then List.replicate 4096 0 else s.dumpBytes 0 4096)
  else if ix * 256 = oDiagViolations then some (arrayBytes s.dump.violations)
  else if ix * 256 = oDiagStalls then some (arrayBytes s.dump.stalls)
  else none

/-- What an object that the panel computes reads as; none for one that the object table holds. -/
def State.computed (s : State) (ix sub : Nat) : Option (List Nat) :=
  let area := ix / 65536
  if area < 0x20 then s.readDevice (ix * 256 + sub)
  else if area < 0x30 then s.readFloor ix sub
  else if area < 0x35 then s.readTile ix sub
  else if area < 0x40 then s.readStack ix sub
  else if area < 0x44 then s.readPlace ix sub
  else if area < 0x50 then s.readStream ix sub
  else if area < 0x70 then s.readPower ix sub
  else s.readBoot ix sub

-- ------------------------------------------------------------------ encodings (R302)

/-- The encoding of a field or simple object. -/
def State.fieldBytes (s : State) (ix : Nat) (r : DirRow) : List Nat :=
  if r.access = 4 then padTo (rowSize r) (mget [] s.lastEvent (ix * 256 + r.sub))
  else if r.access = 2 then List.replicate (rowSize r) 0
  else match s.computed ix r.sub with
    | some b => b
    | none => if r.type = 13 then arrayBytes [] else toLE (rowSize r) (s.odGet (ix * 256 + r.sub))

/-- The encoding of an object or field: a whole RECORD is its fields in ascending subindex order. -/
def State.objBytes (s : State) (ix : Nat) (r : DirRow) : List Nat :=
  if r.type = 12 ∧ r.sub = 0 then ((fieldsOf r).map (s.fieldBytes ix)).flatten else s.fieldBytes ix r

-- ------------------------------------------------------------------ what exists and what is served (R35, R321, R323)

/-- An index of a family names an element that the panel has. -/
def State.elementExists (s : State) (ix : Nat) (r : DirRow) : Bool :=
  let e := ix - r.first
  if r.flags.testBit 1 then (if r.last - r.first ≥ 0x3FFF then isTile e else isCompute e)
  else if 0x360100 ≤ ix ∧ ix < 0x360200 then siteKind (ix % 256) != 0
  else if 0x430000 ≤ ix ∧ ix < 0x438000 then s.regionSeats (ix / 4096 % 8) (ix % 4096) != []
  else if 0x660000 ≤ ix ∧ ix < 0x660010 then s.odGet (oRtPortRole (ix % 16)) == 2
  else if 0x710100 ≤ ix ∧ ix < 0x710200 then decide (siteKind (ix % 256) < 2)
  else true

/-- An index of the factory areas (R317). -/
def factoryIndex (ix : Nat) : Bool := decide (ix / 65536 ≥ 0xF0)

/-- Reads that the image recovery serves (R450). -/
def recoveryReads (ix : Nat) : Bool := [0x100001, 0x100010, 0x730001, 0x730002, 0x710006, 0x710007, 0x710008].contains ix

/-- A read of an object is served in the panel's device state (R323, R470). -/
def State.readServed (s : State) (ix : Nat) (r : DirRow) : Bool :=
  let area := ix / 65536
  match s.dev with
  | 1 | 6 => decide (area < 0x13) || r.persist == 2 || decide (0x20 ≤ area ∧ area < 0x24) || decide (0x70 ≤ area)
  | 7 =>
    (decide (area < 0x13) || decide (0x20 ≤ area ∧ area < 0x24) || decide (0x60 ≤ area ∧ area < 0x64) || decide (0x70 ≤ area)) &&
    !(s.odGet oDumpState == 1 && (ix == oDumpArea / 256 || ix == oDumpHeader / 256))
  | _ => true

/-- The row of an object that exists. -/
def State.objRow (s : State) (ix sub : Nat) : Option DirRow :=
  match dirRow ix sub with
  | some r => if s.elementExists ix r && (!s.recovery || recoveryReads ix) then some r else none
  | none => none

/-- A read request checked (R321): its status, and the row where it is OK. -/
def State.readCheck (s : State) (x : Session) (ix sub : Nat) : Nat × Option DirRow :=
  if factoryIndex ix then (if x.level < 3 then stLevel else stAbsent, none)
  else match s.objRow ix sub with
    | none => (stAbsent, none)
    | some r =>
      if r.access = 2 then (stAccess, none)
      else if r.readLevel > x.level then (stLevel, none)
      else if !s.recovery && !s.readServed ix r then (stState, none)
      else (stOk, some r)

-- ------------------------------------------------------------------ READ and BULK_READ (R303, R304)

/-- A value padded to four bytes. -/
def pad4 (b : List Nat) : List Nat := padTo ((b.length + 3) / 4 * 4) b

/-- A READ's entries: index and subindex. -/
def readEntries (b : List Nat) : List (Nat × Nat) :=
  (List.range (leAt b 0 1)).map (fun i => (leAt b (4 + 8 * i) 3, leAt b (7 + 8 * i) 1))

/-- A READ's body is well formed. -/
def readOk (b : List Nat) : Bool :=
  let n := leAt b 0 1
  decide (1 ≤ n) && decide (n ≤ 32) && zeroAt b 1 3 && b.length == 4 + 8 * n &&
  (List.range n).all (fun i => zeroAt b (8 + 8 * i) 4)

/-- Encoded bytes of an object that no READ_RESP could hold: the dump area. -/
def hugeObject (ix : Nat) : Bool := ix * 256 == oDumpArea

/-- One entry answered: what has been put together, and the statuses. A value that would take the response past 32 KiB answers
TOO_BIG. -/
def State.readEntry (s : State) (x : Session) (st : List Nat × List (Nat × Nat)) (e : Nat × Nat) : List Nat × List (Nat × Nat) :=
  let (code, row) := s.readCheck x e.1 e.2
  let val := match row with
    | some r => if hugeObject e.1 then List.replicate 32768 0 else s.objBytes e.1 r
    | none => []
  let fits : Bool := decide (st.1.length + 8 + (pad4 val).length + 8 ≤ 32768)
  let code' := if code = stOk ∧ !fits then stTooBig else code
  let v := if code' = stOk then val else []
  (st.1 ++ toLE 3 e.1 ++ [e.2, code', 0] ++ toLE 2 v.length ++ pad4 v, st.2 ++ [(e.1 * 256 + e.2, code')])

/-- Statuses logged in order (R307). -/
def State.logAll (s : State) (x : Session) (op : Nat) (l : List (Nat × Nat)) : State := l.foldl (fun s p => s.protLog x op p.1 p.2) s

/-- READ (R303): every entry answered at one dispatch point. -/
def execReadReq (dt session : Nat) (s : State) : Host.Outcome State Fault Refusal :=
  .next ((s.tick dt).serve session 0x10 (fun s x rid b =>
    if !readOk b then s.respondCode x 0x10 rid stMalformed
    else
      let r := (readEntries b).foldl (s.readEntry x) ([leAt b 0 1, 0, 0, 0], [])
      (s.logAll x 0x10 r.2).respond x.id rid (eopPt 0x11 rid r.1)))

/-- The total length of an object's encoding. -/
def State.objLength (s : State) (ix : Nat) (r : DirRow) : Nat := if hugeObject ix then 2 ^ 33 else (s.objBytes ix r).length

/-- Bytes of an object's encoding from an offset (R304). -/
def State.objSlice (s : State) (ix : Nat) (r : DirRow) (off n : Nat) : List Nat :=
  if hugeObject ix then s.dumpBytes off (min n (2 ^ 33 - off)) else sliceAt (s.objBytes ix r) off n

/-- BULK_READ (R304). -/
def execBulkRead (dt session : Nat) (s : State) : Host.Outcome State Fault Refusal :=
  .next ((s.tick dt).serve session 0x14 (fun s x rid b =>
    let ix := leAt b 0 3
    let off := leAt b 8 8
    let n := leAt b 16 4
    let answer (code total : Nat) (d : List Nat) : State :=
      (s.protLog x 0x14 (ix * 256 + leAt b 3 1) code).respond x.id rid
        (eopPt 0x15 rid (b.take 4 ++ [code, 0, 0, 0] ++ toLE 8 total ++ toLE 8 off ++ d))
    if b.length ≠ 24 ∨ !zeroAt b 4 4 ∨ !zeroAt b 20 4 then s.respondCode x 0x14 rid stMalformed
    else match s.readCheck x ix (leAt b 3 1) with
      | (_, some r) =>
        let total := s.objLength ix r
        if off ≥ total then answer stOffset total []
        else if n > 16384 then answer stMalformed total []
        else answer stOk total (s.objSlice ix r off n)
      | (code, none) => answer code 0 []))

end Sys2Proof.Machine
end

