-- ==== Sys2Proof/Machine/Firmware.lean ====
section
/-!
DEFINITION. The firmware image and its checks (R429, R430), firmware update and image recovery (R448 to R450), and
attestation (R454, R455). Choices that the spec leaves open are in log entries 60 and 63.
-/
namespace Sys2Proof.Machine

-- ------------------------------------------------------------------ the image (R429)

/-- A component of an image: kind, first chunk, chunk count, load bytes, digest of its slice of the manifest. -/
structure FwComp where
  kind : Nat
  first : Nat
  count : Nat
  load : Nat
  digest : List Nat
  deriving DecidableEq, Repr

/-- Entry i of the component table. -/
def fwComp (img : List Nat) (i : Nat) : FwComp :=
  let o := 64 + 64 * i
  { kind := leAt img o 1, first := leAt img (o + 4) 4, count := leAt img (o + 8) 4, load := leAt img (o + 12) 4, digest := sliceAt img (o + 16) 48 }

/-- The components of an image. -/
def fwComps (img : List Nat) : List FwComp := (List.range (leAt img 25 1)).map (fwComp img)

/-- Chunks of an image, where its manifest starts, where its chunks start. -/
def fwChunks (img : List Nat) : Nat := leAt img 28 4
def fwManifest (img : List Nat) : Nat := leAt img 32 8
def fwChunksAt (img : List Nat) : Nat := leAt img 40 8

/-- The digest of a chunk in the manifest. -/
def fwDigest (img : List Nat) (i : Nat) : List Nat := sliceAt img (fwManifest img + 48 * i) 48

/-- A chunk. -/
def fwChunk (img : List Nat) (i : Nat) : List Nat := sliceAt img (fwChunksAt img + 4096 * i) 4096

/-- A component entry is well formed: its run of chunks lies in the image and holds its load bytes, at most 768 chunks for
the dies' components, its reserved bytes zero. -/
def fwCompOk (img : List Nat) (i : Nat) : Bool :=
  let c := fwComp img i
  zeroAt img (65 + 64 * i) 3 && decide (c.first + c.count ≤ fwChunks img) && decide (c.load ≤ 4096 * c.count) &&
  (!(c.kind == 4 || c.kind == 5) || decide (c.count ≤ 768))

/-- The header is well formed (R429, R11). -/
def fwHeaderOk (img : List Nat) : Bool :=
  let n := leAt img 25 1
  leAt img 0 4 == 0x57464849 && leAt img 4 2 == 1 && leAt img 6 2 == 1024 && decide (1 ≤ n ∧ n ≤ 15) &&
  zeroAt img 26 2 && zeroAt img 48 16 && fwManifest img % 4096 == 0 && fwChunksAt img % 4096 == 0 &&
  (List.range n).all (fwCompOk img) && zeroAt img (64 + 64 * n) (64 * (15 - n)) &&
  (List.range 7).all (fun k => ((fwComps img).filter (fun c => c.kind == k + 1)).length == 1) &&
  decide (6381 ≤ fwManifest img) && decide (fwManifest img + 48 * fwChunks img ≤ fwChunksAt img) &&
  decide (fwChunksAt img + 4096 * fwChunks img ≤ leAt img 8 8)

/-- The image measurement: SHA-384 of the header. -/
def fwMeasure (img : List Nat) : List Nat := sha384 (img.take 1024)

/-- The keys are those of the header's slot and both signatures verify (R429, R430). -/
def fwSigned (img : List Nat) : Bool :=
  let msg := ascii "topator image v1" ++ fwMeasure img
  let sig := sliceAt img 1024 5357
  sha384 (sig.take 1984) == Config.romKeyDigest (leAt img 24 1) &&
  Config.ed25519Verify (sig.take 32) msg (sliceAt sig 1984 64) && Config.mldsaVerify 65 (sliceAt sig 32 1952) msg (sliceAt sig 2048 3309)

/-- Every component's manifest slice matches its digest. -/
def fwSlicesOk (img : List Nat) : Bool :=
  (fwComps img).all (fun c => sha384 (sliceAt img (fwManifest img + 48 * c.first) (48 * c.count)) == c.digest)

/-- A chunk matches its manifest entry. -/
def fwChunkOk (img : List Nat) (i : Nat) : Bool := sha384 (fwChunk img i) == fwDigest img i

/-- Bytes of an image up to the end of its manifest. -/
def fwHeadBytes (img : List Nat) : Nat := max 6381 (fwManifest img + 48 * fwChunks img)

/-- The checks of R430 on header, signature section and manifest: the code of fw.update.error, 0 where they hold. -/
def State.fwHeadFault (s : State) (img : List Nat) : Nat :=
  if !fwHeaderOk img then 1
  else if leAt img 24 1 > 3 ∨ (s.odGet oFwKeys).testBit (leAt img 24 1) then 2
  else if !fwSigned img then 3
  else if leAt img 20 4 < s.odGet oFwFusedVersion then 4
  else if !fwSlicesOk img then 5
  else 0

/-- The checks of R430 on a whole image. -/
def State.fwFault (s : State) (img : List Nat) : Nat :=
  let h := s.fwHeadFault img
  if h ≠ 0 then h
  else if img.length < leAt img 8 8 then 7
  else if (List.range (fwChunks img)).all (fwChunkOk img) then 0 else 6

/-- The preamble of a component: header, signature section and manifest slice (R433, R439). -/
def fwPreamble (img : List Nat) (c : FwComp) : List Nat := img.take 6381 ++ sliceAt img (fwManifest img + 48 * c.first) (48 * c.count)

/-- The component of a kind. -/
def fwCompOf (img : List Nat) (kind : Nat) : Option FwComp := (fwComps img).find? (fun c => c.kind == kind)

-- ------------------------------------------------------------------ update (R448)

/-- The update of the state. -/
def State.setFw (s : State) (state error : Nat) : State := (s.odSet oFwUpdateState state).odSet oFwUpdateError error

/-- The image is written in place as it passes: in STANDBY and in image recovery the stacks are off (R448 step 6, R450). -/
def State.fwInPlace (s : State) : Bool := s.recovery || s.dev == 1

/-- A device state in which an update may be in progress (R448). -/
def State.fwState (s : State) : Bool := s.recovery || [1, 3, 4, 5, 6].contains s.dev

/-- An update that has begun and not ended. -/
def State.fwBusy (s : State) : Bool := [1, 2, 3].contains (s.odGet oFwUpdateState)

/-- What is dropped with an update. -/
def State.fwDrop (s : State) : State :=
  { s.odSet oFwUpdateCursor 0 with boot := { s.boot with staged := [], updLen := 0, chunksGood := 0 } }

/-- The status of fw.update.command. -/
def State.fwStatus (s : State) (v : Nat) : State := s.odSet oFwUpdateCommand v

/-- BEGIN (R448, R456): none is BAD_VALUE. A length that the image area cannot hold is refused with error 7. -/
def State.fwBegin (s : State) (len : Nat) : Option State :=
  if s.fwBusy ∨ !s.fwState then none
  else if len < 6381 ∨ len > 510 * 2 ^ 20 then some ((s.setFw 5 7).fwStatus 2)
  else
    let s1 := s.fwDrop
    some (({ s1 with boot := { s1.boot with updLen := len } }.setFw 1 0).fwStatus 1)

/-- FW_BEGIN (R448). -/
def execFwBegin (dt len : Nat) (s : State) : Host.Outcome State Fault Refusal := .next (((s.tick dt).fwBegin len).getD (s.tick dt))

/-- Bytes at the image area as they pass (R448 step 6): header, manifest and the chunks that have passed. -/
def State.fwInFlash (s : State) : State :=
  if s.fwInPlace then
    { s with boot := { s.boot with image := s.boot.staged.take (fwChunksAt s.boot.staged + 4096 * s.boot.chunksGood) } }
  else s

/-- The chunks that have become complete are checked in order (R448 step 4). -/
def State.fwCheckChunks (s : State) : State :=
  let img := s.boot.staged
  let whole := min (fwChunks img) ((img.length - fwChunksAt img) / 4096)
  let due := (List.range whole).drop s.boot.chunksGood
  let s1 := { s with boot := { s.boot with chunksGood := max whole s.boot.chunksGood } }
  if due.all (fwChunkOk img) then s1.fwInFlash else s.setFw 5 6

/-- The update after bytes have landed: the head is checked once it is there, then every chunk (R448). -/
def State.fwProgress (s : State) : State :=
  let img := s.boot.staged
  let head (s : State) : State :=
    if s.odGet oFwUpdateState ≠ 1 ∨ img.length < 6381 then s
    else if !fwHeaderOk img then s.setFw 5 1
    else if leAt img 8 8 ≠ s.boot.updLen then s.setFw 5 7
    else if img.length < fwHeadBytes img then s
    else match s.fwHeadFault img with
      | 0 =>
        let s1 := s.setFw 2 0
        if s.fwInPlace then { s1 with boot := { s1.boot with image := [] } } else s1
      | e => s.setFw 5 e
  let s1 := head s
  if s1.odGet oFwUpdateState = 2 then s1.fwCheckChunks else s1

/-- A write to fw.update.image (R448): 1 to 1,024 bytes at the cursor; none is BAD_VALUE. -/
def State.fwImage (s : State) (b : List Nat) : Option State :=
  let st := s.odGet oFwUpdateState
  if b = [] ∨ b.length > 1024 ∨ !s.fwState then none
  else if (st ≠ 1 ∧ st ≠ 2) ∨ s.boot.staged.length + b.length > s.boot.updLen then some (s.odSet oFwUpdateImage 2)
  else
    let s1 := { s with boot := { s.boot with staged := s.boot.staged ++ b } }
    some (((s1.odSet oFwUpdateCursor s1.boot.staged.length).odSet oFwUpdateImage 0).fwProgress)

/-- FW_IMAGE_WRITE (R448). -/
def execFwImageWrite (dt : Nat) (b : List Nat) (s : State) : Host.Outcome State Fault Refusal :=
  .next (((s.tick dt).fwImage b).getD (s.tick dt))

/-- Every byte is there and every chunk has passed. -/
def State.fwComplete (s : State) : Bool :=
  s.odGet oFwUpdateState == 2 && s.boot.staged.length == s.boot.updLen && s.boot.chunksGood == fwChunks s.boot.staged

/-- COMMIT (R448): the flash is written from the staged image; where the image was written in place it is done at once. -/
def State.fwCommit (s : State) : Option State :=
  if !s.fwState then none
  else if !s.fwComplete then some (s.fwStatus 2)
  else if s.fwInPlace then some (({ s with boot := { s.boot with image := s.boot.staged } }.setFw 4 0).fwStatus 3)
  else some ((s.setFw 3 0).fwStatus 1)

/-- FW_COMMIT (R448). -/
def execFwCommit (dt : Nat) (s : State) : Host.Outcome State Fault Refusal := .next ((s.tick dt).fwCommit.getD (s.tick dt))

/-- FLASH_WRITE_DONE (R448): the image is in flash; it runs from the next pass through the ROM. A write that failed leaves no valid
image there and reads error 8. -/
def execFlashWriteDone (dt : Nat) (ok : Bool) (s : State) : Host.Outcome State Fault Refusal :=
  let s := s.tick dt
  .next (if s.odGet oFwUpdateState ≠ 3 then s
    else if ok then (({ s with boot := { s.boot with image := s.boot.staged } }.setFw 4 0).fwStatus 3)
    else (({ s with boot := { s.boot with image := [] } }.setFw 5 8).fwStatus 2))

/-- CANCEL (R448): an update in progress is abandoned; a flash write under way is not. -/
def State.fwCancel (s : State) : Option State :=
  let st := s.odGet oFwUpdateState
  if !s.fwState then none
  else if st = 1 ∨ st = 2 ∨ st = 5 then some ((s.fwDrop.setFw 0 0).fwStatus 0)
  else some (s.fwStatus 2)

/-- FW_CANCEL (R448). -/
def execFwCancel (dt : Nat) (s : State) : Host.Outcome State Fault Refusal := .next ((s.tick dt).fwCancel.getD (s.tick dt))

/-- COMMIT_VERSION (R449): in READY, SERVING or HELD the running version is fused, up to 64 steps, never falling; none is BAD_VALUE. -/
def State.fwCommitVersion (s : State) : Option State :=
  if s.dev ≠ 3 ∧ s.dev ≠ 4 ∧ s.dev ≠ 5 then none
  else
    let v := s.odGet oFwRunningSecurityVersion
    if v > 64 then some (s.fwStatus 2)
    else some ((s.odSet oFwFusedVersion (max v (s.odGet oFwFusedVersion))).fwStatus 3)

/-- COMMIT_VERSION (R449). -/
def execCommitVersion (dt : Nat) (s : State) : Host.Outcome State Fault Refusal := .next ((s.tick dt).fwCommitVersion.getD (s.tick dt))

/-- REVOKE (R430): a key slot's revocation fuse is blown, in a FACTORY session; none is BAD_VALUE. -/
def State.fwRevoke (s : State) (level slot : Nat) : Option State :=
  if level < 3 ∨ slot > 3 then none else some ((s.odSet oFwKeys (setBit (s.odGet oFwKeys) slot)).fwStatus 3)

/-- REVOKE (R430). -/
def execRevoke (dt level slot : Nat) (s : State) : Host.Outcome State Fault Refusal :=
  .next (((s.tick dt).fwRevoke level slot).getD (s.tick dt))

-- ------------------------------------------------------------------ attestation (R454, R455)

/-- A slot's record in the report. -/
def State.attestSlot (s : State) (i : Nat) : List Nat :=
  let st := s.slotState i
  if st = 0 then padTo 80 [i, st]
  else
    padTo 80 ([i, st, s.odGet (oPlacementSlotSigned i) % 256, s.odGet (oPlacementSlotFoldFactor i) % 256] ++ toLE 8 (s.odGet (oPlacementSlotKeyId i)) ++
      toLE 16 (s.odGet (oPlacementSlotFurnishId i)) ++ padTo 48 (s.pslot i).digest)

/-- The encoding of an object by its index, subindex 0. -/
def State.encoded (s : State) (ix : Nat) : List Nat := match dirRow ix 0 with | some r => s.objBytes ix r | none => []

/-- The digest of the floor plan in the report. -/
def State.floorDigest (s : State) : List Nat :=
  sha384 (s.encoded 0x200006 ++ s.encoded 0x200007 ++ ((List.range 256).map (fun g => s.encoded (0x210000 + g))).flatten)

/-- The body of a report. -/
def State.attestBody (s : State) (nonce : List Nat) : List Nat :=
  let last := s.ageHistory.getLast?.getD []
  toLE 2 1 ++ toLE 2 896 ++ toLE 16 (s.odGet oFloorPanelSerial) ++ [s.variant, s.dev, 0, 0] ++ toLE 4 (s.odGet oDeviceStateCauses) ++ toLE 4 0 ++
  toLE 8 s.now ++ padTo 48 nonce ++ toLE 48 (s.odGet oFwRunningMeasurement) ++ toLE 4 (s.odGet oFwRunningSecurityVersion) ++
  toLE 4 (s.odGet oFwRunningRelease) ++ toLE 8 (s.odGet oFloorPanelGeneration) ++ s.floorDigest ++ toLE 8 s.poweredH ++
  toLE 8 (s.odGet oAgeingPanelLastReplan) ++ padTo 4 (sliceAt last 12 4) ++ List.replicate 36 0 ++
  ((List.range 8).map s.attestSlot).flatten

/-- A signed report (R454). -/
def State.attestReport (s : State) (nonce : List Nat) : List Nat :=
  let body := s.attestBody nonce
  let msg := ascii "topator attest v1" ++ sha384 body
  body ++ keyIdOf s.aliasHandle ++ padTo 64 (Config.ed25519Sign s.aliasHandle msg) ++ padTo 3309 (Config.mldsaSign 65 s.aliasHandle msg)

/-- A nonce written to sec.attest.request (R455): the latest stands; none is STATE, in FATAL. -/
def State.attestRequest (s : State) (nonce : List Nat) : Option State :=
  if s.dev = 7 then none
  else some ({ s with boot := { s.boot with nonce := some nonce } }.odSet oSecAttestRequest 1)

/-- ATTEST_REQUEST (R455). -/
def execAttestRequest (dt : Nat) (nonce : List Nat) (s : State) : Host.Outcome State Fault Refusal :=
  .next (((s.tick dt).attestRequest nonce).getD (s.tick dt))

/-- The report that is due is built at a dispatch point (R455). -/
def State.attestNow (s : State) : State :=
  match s.boot.nonce with
  | some n =>
    let s1 := { s with boot := { s.boot with nonce := none, report := s.attestReport n } }
    (s1.odSet oSecAttestRequest 0).bump oSecAttestCount
  | none => s

end Sys2Proof.Machine
end

