-- ==== Sys2Proof/Machine/Boot.lean ====
section
/-!
DEFINITION. The device states (R332 to R336), power and reset (R324 to R326, R474, R480), and bring-up from power-on to READY
(R428 to R447). Choices that the spec leaves open are in log entries 60, 61 and 63 to 65.
-/
namespace Sys2Proof.Machine

-- ------------------------------------------------------------------ causes and the device state (R332 to R335)

/-- The moves of a die's placed tiles are complete on some spare (R230). -/
def State.dieCovered (s : State) (g : Nat) (spare : Option Nat) : Bool :=
  let n := (s.tilesIn g 2).length
  n == 0 || (match spare with | some h => (s.dieMoves g h).length == n | none => false)

/-- A placed tile could be recovered: on its die, or by its die's plan (R230). -/
def State.tileCovered (s : State) (k : Nat) : Bool := (s.tileTarget k).isSome || s.dieCovered (k / 64) (s.dieTarget (k / 64) s.spares)

/-- A sector could be recovered: each of its dies that carries work has a target (R230). -/
def State.sectorCovered (s : State) (sec : Nat) : Bool :=
  let ts := s.sectorTargets sec
  ((sectorDies sec).filter s.dieActive).all (fun g => s.dieCovered g ((ts.find? (fun p => p.1 == g)).map (·.2)))

/-- Cause bit 0 (R334): some single tile, die or sector loss that no entry could recover. -/
def State.uncovered (s : State) : Bool :=
  let dies := computeSites.filter s.dieActive
  !(dies.all (fun g => (s.tilesIn g 2).all s.tileCovered && s.dieCovered g (s.dieTarget g s.spares)) &&
    (List.range 16).all s.sectorCovered)

/-- Some site of a list reads a state. -/
def State.anySite (s : State) (l : List Nat) (vs : List Nat) : Bool := l.any (fun g => vs.contains (s.floorNow (oFloorSiteState g)))

/-- The causes as they stand (R334): those of the floor plan from its first generation on. -/
def State.causesNow (s : State) : List Bool :=
  let known : Bool := s.odGet oFloorPanelGeneration != 0
  [ known && s.uncovered,
    known && s.groupsDegraded != 0,
    known && s.singleCopies != 0,
    known && s.anySite ((List.range 256).filter isStackSite) [4, 5],
    s.anySite [95, 108] [4] || s.boot.badHubs != [],
    (List.range 4).any (fun p => s.floorNow (oFloorOffgridState (16 + p)) == 4),
    known && (List.range 16).any (fun p => s.odGet (oRtPortRole p) == 1 && !s.altUsable p),
    decide (s.bricks < 13),
    s.coolWarn,
    (List.range 16).any (fun i => decide (s.odGet (oThermalSectorDerateLevel i) < 63)),
    known && (List.range 16).any (fun i => !(sectorDies i).any s.dieSpare) ]

/-- A bitmap of a list of bits, the first the lowest. -/
def bitmapOf : List Bool → Nat
  | [] => 0
  | b :: t => bit01 b + 2 * bitmapOf t

/-- A stream is admitted and has not ended. -/
def State.anyStream (s : State) : Bool := s.lanes.any (fun p => !p.2.ended)

/-- No stream is admitted or queued (R333). -/
def State.noStream (s : State) : Bool := !s.anyStream && s.queue == []

/-- The state entered. -/
def State.setDev (s : State) (v : Nat) : State :=
  if s.dev = v then s else (s.odSet oDeviceStateState v).odSet oDeviceStateSince s.now

/-- State, flag and causes evaluated at a dispatch point, and device.state.change where they differ from the last record (R335). -/
def State.evaluate (s : State) : State :=
  let s1 := if (s.dev = 3 ∨ s.dev = 4) then s.setDev (if s.noStream then 3 else 4) else s
  let c := bitmapOf s1.causesNow
  let deg := bit01 (decide (c ≠ 0) && (s1.dev == 3 || s1.dev == 4))
  let s2 := (s1.odSet oDeviceStateCauses c).odSet oDeviceStateDegraded deg
  let old := mget (List.replicate 8 0) s.lastEvent oDeviceStateChange
  if leAt old 1 1 = s2.dev ∧ leAt old 2 1 = deg ∧ leAt old 4 4 = c then s2
  else s2.publish24 oDeviceStateChange ([leAt old 1 1, s2.dev, deg, 0] ++ toLE 4 c)

/-- The STAT_OK and STAT_ALERT pins, true where they are pulled low (R478). -/
def State.statPins (s : State) : Bool × Bool :=
  let deg := s.odGet oDeviceStateDegraded
  ((s.dev == 3 || s.dev == 4 || s.dev == 5) && deg == 0, s.dev != 0 && (deg == 1 || s.dev == 7 || s.coolWarn))

-- ------------------------------------------------------------------ what a reset leaves (R324)

/-- Objects without a default that the panel goes on measuring or keeps through bring-up: device state, control and identity, input
power, bricks, coolant, strap, dump stacks, boot progress and clock, the running image, the loads of off-grid dies. -/
def keptRanges : List (Nat × Nat) :=
  [(0x100001, 0x100002), (0x100005, 0x100005), (0x100008, 0x100008), (0x100010, 0x100011), (0x35F003, 0x35F003), (0x500001, 0x500002),
   (0x520000, 0x52000C), (0x560001, 0x560001), (0x640003, 0x640003), (0x700001, 0x700001), (0x700004, 0x700004), (0x710001, 0x710001),
   (0x710200, 0x710213)]

/-- An object's value outlives entry to BRINGUP: RETAINED, STORED or FACTORY (R324), or one of the kept ones that is no counter
with write access. -/
def keptObject (a : Nat) : Bool :=
  let ix := a / 256
  match dirRow ix (a % 256) with
  | some r => r.persist != 0 || (r.access != 1 && keptRanges.any (fun p => decide (p.1 ≤ ix ∧ ix ≤ p.2)))
  | none => false

/-- As keptObject, and what is measured of sectors that stay powered through a warm reset (R447). -/
def keptWarm (a : Nat) : Bool :=
  keptObject a || (decide (0x510000 ≤ a / 256 ∧ a / 256 < 0x510010) && [8, 9, 10].contains (a % 256))

/-- The bring-up record cleared for a new bring-up; the update under way is dropped with its objects' defaults. -/
def BootState.renewed (b : BootState) (clk : Nat) : BootState :=
  { image := b.image, fused := b.fused, firstLock := b.firstLock, standbyAt := b.standbyAt, badHubs := b.badHubs, fed := b.fed
    loads := b.loads, bringupAt := clk, startedAt := clk, report := [] }

/-- The panel with every die but the hubs reset: the objects that a test keeps, stack memory where it is kept, and what the hubs hold
for management sessions, events, logs, the store and the feed. -/
def State.bare (s : State) (keep : Nat → Bool) (keepMem : Bool) : State :=
  { ({} : State) with
    clk := s.clk, tbOn := s.tbOn, tbBase := s.tbBase, freeCtr := s.freeCtr, pending := s.pending
    out := s.out.filter (fun e => match e with | .udp p _ _ _ => decide (p ≥ 16) | _ => false)
    mem := if keepMem then s.mem.filter (fun c => isStackSite (c.1 / 2 ^ 48 / 64)) else []
    od := s.od.filter (fun p => keep p.1)
    events := s.events, nextEvent := s.nextEvent, lastEvent := s.lastEvent, satSet := s.satSet.filter keep
    nodeLogs := [], eopParts := s.eopParts, halfOpen := s.halfOpen, sessions := s.sessions, refusedAt := s.refusedAt
    eopDiscards := s.eopDiscards, protoLog := s.protoLog, closeDue := s.closeDue, mgmtDue := s.mgmtDue, quorumQueue := s.quorumQueue
    quorumTaken := s.quorumTaken, readyAt := s.readyAt
    store0 := s.store0, store1 := s.store1, storeDirty := s.storeDirty, recovery := s.recovery, ramps := s.ramps, watts := s.watts
    coolWarn := s.coolWarn, coolFrom := s.coolFrom, factoryTrims := s.factoryTrims, ageHistory := s.ageHistory
    poweredFrom := s.poweredFrom, faultLog := s.faultLog, cages := s.cages
    boot := s.boot, dump := s.dump }

/-- Host and cascade ports held down (R332). -/
def State.portsDown (s : State) : State :=
  (List.range 16).foldl (fun (s : State) p =>
    let s1 := s.odSet (oRtPortState p) (if s.odGet (oRtPortRole p) = 3 then 4 else 0)
    if s.odGet (oRtPortRole p) = 2 then s1.odSet (oCascadeLinkState p) 0 else s1) s

/-- Sectors powered down in the reverse of bring-up order, what their dies held lost with it; the ports held down and the sessions on them
closed with reason 4. The objects stay as they are until the next bring-up (R324). -/
def State.shutDown (s : State) : State :=
  let s1 := (s.portsDown.bare (fun _ => true) false)
  let s2 := sectorOrder.reverse.foldl (fun (s : State) i => (s.odSet (oPowerSectorRailsOk i) 0).odSet (oPowerSectorPhasesGood i) 0) s1
  s2.takeRecord.closeUnserved

/-- The step of the power-on sequence now under way. -/
def State.bootStep (s : State) : Nat := s.odGet oBootProgressStep

/-- A step begins. -/
def State.beginStep (s : State) (n : Nat) : State := (s.odSet oBootProgressStep n).odSet oBootProgressStepStarted s.now

/-- A boot event: 1 a step is done, 2 READY, 3 failed. -/
def State.bootEvent (s : State) (kind step code : Nat) : State :=
  s.publish24 oBootEvent ([kind, step] ++ toLE 2 code ++ toLE 4 ((s.clk - s.boot.startedAt) / 10 ^ 6))

/-- Hubs that work: their ROM passed and they are not lost (R435). -/
def State.goodHubs (s : State) : List Nat := (List.range 2).filter (fun h => !s.boot.badHubs.contains h && !s.hubLost h)

/-- The leading hub: hub A, or hub B where A is out (R435). -/
def State.leadHub (s : State) : Nat := s.goodHubs.headD 0

/-- What bring-up knows from the start: hubs out of service, off-grid dies that failed to load, the sectors of stewards among
them latched off (R432, R433, R435). -/
def State.markKnown (s : State) : State :=
  let s1 := s.boot.badHubs.foldl (fun (s : State) h => (if h = 0 then [95, 147] else [108, 160]).foldl (fun (s : State) g =>
    (s.stageFloor (oFloorSiteState g) 4).stageFloor (oFloorSiteCause g) 2) s) s
  let bad := (List.range 20).filter (fun fn => s.odGet (oFwDieState (0x100 + fn)) == 3)
  let s2 := bad.foldl (fun (s : State) fn => s.failOffgrid fn 3) s1
  (bad.filter (· < 16)).foldl (fun (s : State) i => (sectorDies i ++ [i * 16 + 5, i * 16 + 10]).foldl (fun (s : State) g =>
    (s.stageFloor (oFloorSiteState g) 4).stageFloor (oFloorSiteCause g) 6) (s.latchSector i)) s2

/-- Entry to BRINGUP (R324, R333, R447): every VOLATILE object takes its default. A warm reset keeps the sectors powered and the stacks
in self-refresh. -/
def State.enterBringup (s : State) (step : Nat) (warm : Bool) : State :=
  let old := s.sectors
  let ports := s.portsDown
  let s1 := ({ ports with lanes := [], queue := [], quorumQueue := [], quorumTaken := [] } : State).bare (if warm then keptWarm else keptObject) warm
  let s2 := { s1 with boot := s.boot.renewed s.clk, cages := [], sectors := if warm then old else [] }
  -- A fused-off die is held in deep idle from BRINGUP onwards (R5).
  let s2 := ((s.boot.fused.filter isCompute).map (fun g => (List.range 64).map (fun t => g * 64 + t))).flatten.foldl State.idleTile s2
  ((((s2.setDev 2).markKnown.bump oBootProgressAttempts).odSet oDeviceControlPower 1).beginStep step).closeUnserved

/-- Bring-up fails (R333, R446): sectors powered down, STANDBY, the code kept and published. -/
def State.failBringup (s : State) (code : Nat) : State :=
  let s1 := (s.setDev 1).shutDown.odSet oDeviceStateLastFailure code
  (s1.odSet oDeviceControlPower 0).bootEvent 3 s.bootStep code

-- ------------------------------------------------------------------ power (R474, R480)

/-- The panel goes OFF (R324, R333): VOLATILE and RETAINED state is lost, the dump with it; the store's copies, the fuses and
the flash stay. Power lost while the image area is rewritten leaves no valid image (R431). -/
def State.powerOff (s : State) : State :=
  { ({} : State) with
    clk := s.clk, freeCtr := s.freeCtr, pending := s.pending
    od := s.od.filter (fun p => match dirRow (p.1 / 256) (p.1 % 256) with | some r => r.persist == 3 | none => false)
    store0 := s.store0, store1 := s.store1, factoryTrims := s.factoryTrims
    boot := { image := if s.odGet oFwUpdateState = 3 then [] else s.boot.image, fused := s.boot.fused } }

/-- INPUT_LOSS (R474): the feed leaves its bands; the input switch opens. -/
def execInputLoss (dt : Nat) (s : State) : Host.Outcome State Fault Refusal :=
  let s := s.tick dt
  .next (if s.boot.fed then s.powerOff else s)

/-- EPO_OPEN (R480): the loop has been open for 1 ms. -/
def execEpoOpen (dt : Nat) (s : State) : Host.Outcome State Fault Refusal :=
  let s := s.tick dt
  .next (if s.boot.fed then s.powerOff else s)

/-- POWER_ON (R474, step 1): the feed has held its operating band for 1 s with the EPO loop closed. The always-on rails come up and the
hub ROMs run their self-tests; `bricks` are those that work. -/
def execPowerOn (dt : Nat) (romA romB : Bool) (bricks : Nat) (s : State) : Host.Outcome State Fault Refusal :=
  let s := s.tick dt
  .next (if s.boot.fed then s
    else
      let bad := (if romA then [] else [0]) ++ (if romB then [] else [1])
      let s1 := { s with boot := { s.boot with fed := true, badHubs := bad, startedAt := s.clk }, poweredFrom := s.clk }
      let s2 := (List.range 13).foldl (fun (s : State) b => s.odSet (oPowerBrickState b) (bit01 (bricks.testBit b))) s1
      s2.beginStep 2)

-- ------------------------------------------------------------------ the store at power-on (R325)

/-- A store event. -/
def State.storeEvent (s : State) (kind : Nat) : State := s.publish24 oDeviceStoreEvent [kind]

/-- The configuration area read at power-on (R325): the valid copy with the newer generation, an invalid one rewritten, defaults where
neither is valid. -/
def State.readStore (s : State) (ok0 ok1 : Bool) : State :=
  let a := s.store0
  let b := s.store1
  let pick (c : StoreCopy) (s : State) : State :=
    { s with od := c.vals.foldl (fun m p => mins m p.1 p.2) s.od, ageHistory := c.history }
  if ok0 ∧ ok1 then (pick (if b.gen > a.gen then b else a) s).odSet oDeviceStoreState 0
  else if ok0 then ((pick a { s with store1 := a }).odSet oDeviceStoreState 1)
  else if ok1 then ((pick b { s with store0 := b }).odSet oDeviceStoreState 1)
  else ({ s with store0 := {}, store1 := {} } : State).odSet oDeviceStoreState 2

/-- The event that reading the configuration area publishes. -/
def State.storeRead (s : State) (ok0 ok1 : Bool) : State :=
  let s1 := s.readStore ok0 ok1
  if ok0 ∧ ok1 then s1 else if ok0 ∨ ok1 then s1.storeEvent 1 else s1.storeEvent 2

-- ------------------------------------------------------------------ the image at power-on (R430, R431)

/-- What runs (R429, R451): the verified image's release, version, measurement, key slot and length. -/
def State.runImage (s : State) : State :=
  let img := s.boot.image
  (((((s.odSet oFwRunningRelease (leAt img 16 4)).odSet oFwRunningSecurityVersion (leAt img 20 4)).odSet oFwRunningMeasurement
    (ofLE (fwMeasure img))).odSet oFwRunningKeySlot (leAt img 24 1)).odSet oFwRunningLength (leAt img 8 8)).odSet oFwRunningStarted s.now

/-- Entry to STANDBY or RETIRED from OFF (R319, R333, R479): the time base starts from 1 ns, the strap is sampled, the firmware runs;
with auto_start set bring-up begins. -/
def State.startFirmware (s : State) (strap : Bool) : State :=
  let s1 := { s with tbOn := true, tbBase := 1 - (s.clk : Int), boot := { s.boot with standbyAt := s.clk }, storeDirty := true }
  let s2 := ((s1.runImage.odSet oCascadePanelStrap (bit01 strap)).bump oDeviceIdPowerOns).odSet oDeviceMgmtHub s.leadHub
  let s3 := s2.setDev (if s2.odGet oDeviceStateRetired = 1 then 6 else 1)
  let s4 := s3.beginStep 3
  if s4.dev = 1 ∧ s4.odGet oDeviceControlAutoStart = 1 then
    let at' := s.boot.startedAt
    let s5 := s4.enterBringup 3 false
    { s5 with boot := { s5.boot with startedAt := at' } }
  else s4

/-- The image is verified by each hub; the hub whose check alone fails is treated as lost; with none left the ROM serves image recovery
(R430, R431, R456). -/
def State.verifyImage (s : State) (failA failB strap : Bool) : State :=
  let bad := [0, 1].filter (fun h => s.boot.badHubs.contains h || (if h = 0 then failA else failB) || s.fwFault s.boot.image != 0)
  if bad.length = 2 then { s with recovery := true }
  else ({ s with recovery := false, boot := { s.boot with badHubs := bad } } : State).startFirmware strap

/-- IMAGE_VERIFY (R430, steps 2 and 3): whether a hub's check fails for itself, whether the copies of the configuration area pass their
CRC, and the strap. -/
def execImageVerify (dt : Nat) (failA failB crc0 crc1 strap : Bool) (s : State) : Host.Outcome State Fault Refusal :=
  let s := s.tick dt
  .next (if !s.boot.fed ∨ s.dev ≠ 0 ∨ s.recovery ∨ s.boot.badHubs.length = 2 then s else (s.storeRead crc0 crc1).verifyImage failA failB strap)

/-- IMAGE_RECOVERY_COMMIT (R450): the ROM reads the whole image back and verifies it; the boot starts at step 2. -/
def execImageRecoveryCommit (dt : Nat) (strap : Bool) (s : State) : Host.Outcome State Fault Refusal :=
  let s := s.tick dt
  .next (if !s.recovery ∨ s.odGet oFwUpdateState ≠ 4 then s
    else match s.fwFault s.boot.image with
      | 0 =>
        let s1 := s.closeAll (s.sessions.map (·.id)) 4
        ((s1.fwDrop.setFw 0 0).beginStep 2).verifyImage false false strap
      | e => s.setFw 5 e)

/-- ACTIVATE (R448, R456): in STANDBY alone, both hubs restart through the ROM, with what a warm reset keeps (R324), and the sessions end
once the response has gone; none is BAD_VALUE. -/
def State.fwActivate (s : State) : Option State :=
  if s.dev ≠ 1 then none
  else
    let s1 : State := { s with closeDue := s.sessions.map (·.id) }
    let s2 := ({ s1.bare keptObject false with halfOpen := [], eopParts := [], cages := [] } : State).odSet oDeviceStateState 0
    some (({ s2 with boot := { s.boot.renewed s.clk with badHubs := [] }, tbOn := true }).beginStep 2)

/-- ACTIVATE (R448). -/
def execActivate (dt : Nat) (s : State) : Host.Outcome State Fault Refusal := .next (((s.tick dt).fwActivate.getD (s.tick dt)).closeDueNow)

-- ------------------------------------------------------------------ commands of the device state (R326, R333, R447)

/-- Every stream in the admission queue ends REFUSED detail 8 (R259, R333). -/
def State.refuseQueue (s : State) : State := s.queue.foldl (fun (s : State) q => s.endQueued q 3 8) s

/-- device.control.hold written 1 (R333): none is BAD_VALUE. -/
def State.holdCmd (s : State) : Option State :=
  if s.dev = 3 ∨ s.dev = 4 then some ((s.setDev 5).refuseQueue.odSet oDeviceControlHold 1) else none

/-- device.control.hold written 0 (R333). -/
def State.releaseCmd (s : State) : Option State :=
  if s.dev = 5 then some ((s.setDev (if s.anyStream then 4 else 3)).odSet oDeviceControlHold 0) else none

/-- A device.control.power command is running. -/
def State.powerBusy (s : State) : Bool := s.odGet oDeviceControlPower == 1

/-- START (R447): bring-up from step 4, or from step 3 where loads over the standby bus are outstanding. -/
def State.startCmd (s : State) : Option State :=
  if s.dev ≠ 1 ∨ s.powerBusy then none else some (s.enterBringup (if s.bootStep = 3 then 3 else 4) false)

/-- STOP (R333). -/
def State.stopCmd (s : State) : Option State :=
  if (s.dev ≠ 3 ∧ s.dev ≠ 5) ∨ !s.noStream ∨ s.powerBusy then none else some ((s.setDev 1).shutDown.odSet oDeviceControlPower 0)

/-- WARM_RESET (R333, R447): bring-up from step 5 with the sectors powered and the stacks in self-refresh; a retired panel goes to
RETIRED. FATAL has no streams left to wait for. -/
def State.warmCmd (s : State) : Option State :=
  if (s.dev ≠ 3 ∧ s.dev ≠ 5 ∧ s.dev ≠ 7) ∨ (s.dev ≠ 7 ∧ !s.noStream) ∨ s.powerBusy then none
  else if s.odGet oDeviceStateRetired = 1 then some ((s.setDev 6).shutDown.odSet oDeviceControlPower 0)
  else some (s.enterBringup 5 true)

/-- device.control.unretire written 1 (R333): RETIRED to STANDBY, once the retirement has run its course. -/
def State.unretireCmd (s : State) : Option State :=
  if s.dev ≠ 6 ∨ s.quorumQueue.any (fun q => q.cmd == 2) then none
  else some { (s.setDev 1).odSet oDeviceStateRetired 0 with storeDirty := true }

/-- device.store.reset (R326): the defaults of every STORED object but those of area 0x11, device.state.retired and the store's own
generation; the factory's trims. -/
def State.storeReset (s : State) : State :=
  let keeps (a : Nat) : Bool := !isStored a || a / 65536 / 256 == 0x11 || a == oDeviceStateRetired || a == oDeviceStoreGeneration
  let s1 := { s with od := s.od.filter (fun p => keeps p.1), satSet := s.satSet.filter keeps, satList := s.satList.filter keeps
                     ageHistory := [], ramps := [], mgmtDue := [], poweredFrom := s.clk, storeDirty := true }
  (s1.factoryTrims.foldl (fun (s : State) p => s.setTrim p.1 p.2) s1).storeEvent 3

/-- HOLD (R333). -/
def execHoldCmd (dt : Nat) (s : State) : Host.Outcome State Fault Refusal := .next ((s.tick dt).holdCmd.getD (s.tick dt))
/-- RELEASE_HOLD (R333). -/
def execReleaseHold (dt : Nat) (s : State) : Host.Outcome State Fault Refusal := .next ((s.tick dt).releaseCmd.getD (s.tick dt))
/-- START (R447). -/
def execStartCmd (dt : Nat) (s : State) : Host.Outcome State Fault Refusal := .next ((s.tick dt).startCmd.getD (s.tick dt))
/-- STOP (R333). -/
def execStopCmd (dt : Nat) (s : State) : Host.Outcome State Fault Refusal := .next ((s.tick dt).stopCmd.getD (s.tick dt))
/-- WARM_RESET (R447). -/
def execWarmReset (dt : Nat) (s : State) : Host.Outcome State Fault Refusal := .next ((s.tick dt).warmCmd.getD (s.tick dt))
/-- UNRETIRE (R333). -/
def execUnretire (dt : Nat) (s : State) : Host.Outcome State Fault Refusal := .next ((s.tick dt).unretireCmd.getD (s.tick dt))
/-- STORE_RESET (R326). -/
def execStoreReset (dt : Nat) (s : State) : Host.Outcome State Fault Refusal := .next (s.tick dt).storeReset

-- ------------------------------------------------------------------ RETIRE (R336)

/-- Every stream ends WITHDRAWN with a detail, unless it has its terminal record already (R261). -/
def State.withdrawAll (s : State) (detail : Nat) : State :=
  let s1 := s.queue.foldl (fun (s : State) q => s.endQueued q 5 detail) s
  (s1.lanes.map (·.1)).foldl (fun (s : State) l => match s.lane l with
    | some x => if x.terminal.isNone then s.terminate l 5 detail else s
    | none => s) s1

/-- Every END has been sent and acknowledged. -/
def State.endsAcked (s : State) : Bool := s.lanes.all (fun p => p.2.ended) && s.terms.all (fun t => !t.ctlSent.any (fun c => c.mtype == 3))

/-- RETIRE (R313, R336): in its turn and not during a recovery; from STANDBY the flag and the state alone. -/
def execRetire (dt : Nat) (s : State) : Host.Outcome State Fault Refusal :=
  let s := s.tick dt
  .next (match s.quorumQueue.head? with
    | none => s
    | some q =>
      if q.cmd ≠ 2 then s
      else if q.phase = 0 then
        if s.faults ≠ [] then s
        else match s.quorumStart q true with
          | (s1, false) => s1
          | (s1, true) =>
            let s2 := { (s1.odSet oDeviceStateRetired 1).setDev 6 with storeDirty := true }
            if s.dev = 1 then s2.quorumDone else s2.withdrawAll 1
      else if s.endsAcked ∨ q.startClk + 2 * 10 ^ 9 ≤ s.clk then
        let s1 := (List.range 8).foldl (fun (s : State) i => s.odSet (oPlacementSlotState i) 0) s.quorumDone
        s1.shutDown
      else s)

-- ------------------------------------------------------------------ steps 3 to 8 (R432 to R437)

/-- STANDBY_BUS_LOAD (R433): a complete load of a steward or port die, which its boot engine verifies; after the third that fails
the die is FAILED with cause 0x0003. -/
def execStandbyBusLoad (dt : Nat) (fn : Fin 20) (ok : Bool) (s : State) : Host.Outcome State Fault Refusal :=
  let s := s.tick dt
  let n := fn.val
  let tries := mget 0 s.boot.loads n
  let o := oFwDieState (0x100 + n)
  .next (if !([1, 2, 6].contains s.dev) ∨ s.odGet o = 2 ∨ s.odGet o = 3 then s
    else
      let s1 := { s with boot := { s.boot with loads := mins s.boot.loads n (tries + 1) } }
      if ok then s1.odSet o 2
      else if tries + 1 < 3 then s1.odSet o 1
      else
        let s2 := s1.odSet o 3
        if s.dev = 2 then s2.markKnown else s2)

/-- Sites whose die is to be brought up: neither fused nor failed. -/
def State.live (s : State) (g : Nat) : Bool := !s.boot.fused.contains g && s.floorNow (oFloorSiteState g) != 4

/-- A die that fails at bring-up with a cause. -/
def State.failSite (s : State) (g cause : Nat) : State :=
  if s.live g then (s.stageFloor (oFloorSiteState g) 4).stageFloor (oFloorSiteCause g) cause else s

/-- The die of an off-grid function is in service. -/
def State.liveOff (s : State) (fn : Nat) : Bool := s.floorNow (oFloorOffgridState fn) != 4

/-- A node found by discovery fails: a site, or from 256 on an off-grid function. -/
def State.failFound (s : State) (n cause : Nat) : State := if n < 256 then s.failSite n cause else s.failOffgrid (n - 256) cause

/-- The coordinate that a neighbour at (x, y) on an edge implies (R436), as a site; none off the panel. -/
def impliedSite (edge x y : Nat) : Option Nat :=
  let p : Option (Nat × Nat) := match edge with
    | 0 => some (x, y + 1)
    | 1 => if x = 0 then none else some (x - 1, y)
    | 2 => if y = 0 then none else some (x, y - 1)
    | _ => some (x + 1, y)
  match p with
  | some (a, b) => if a < 16 ∧ b < 16 then some (siteAt a b) else none
  | none => none

/-- The place that a die claims: its implied site, or for an off-grid die the function that its kind and attachment give. -/
def claim (kind edge x y : Nat) : Option Nat :=
  if kind = 4 then (if x < 16 ∧ y < 16 ∧ siteAt x y % 16 = 10 then some (256 + siteAt x y / 16) else none)
  else if kind = 5 then (if x < 16 ∧ y < 16 then ((List.range 4).find? (fun p => (portAttach p).contains (siteAt x y))).map (272 + ·) else none)
  else impliedSite edge x y

/-- A kind belongs at a place (R17). -/
def kindFits (kind n : Nat) : Bool := if n < 256 then siteKind n == kind else if n < 272 then kind == 4 else kind == 5

/-- What discovery found, with a die added. -/
def State.addFound (s : State) (die : Nat) (f : Found) : State := { s with boot := { s.boot with found := mins s.boot.found die f } }

/-- The node of a discovered place. -/
def placeNode (n : Nat) : Nat := if n < 256 then siteNode n else 0x24C0 + (n - 256)

/-- The edges of a die on which it has control links; 4 is that of the stack site 10 of a sector to its steward (R177). -/
def controlEdges (g : Nat) : List Nat := List.range (if g % 16 = 10 then 5 else 4)

/-- DISCOVER as a die at a site sends it on an edge: an OD_REQ with its coordinate (R436). -/
def discoverOn (g e : Nat) : Emit := ctlMsg 0xFFFF (siteNode g) 0x12 0 [0xFFFF, siteX g, siteY g, e]

/-- What the leading hub sends to begin discovery (R436): DISCOVER on every control link of its two sites. -/
def State.startDiscovery (s : State) : State :=
  s.sendAll (((if s.leadHub = 0 then [95, 147] else [108, 160]).map (fun g => (List.range 4).map (discoverOn g))).flatten)

/-- A die takes the place that it claims (R436, R437): a place taken before or of another kind fails; it answers the hub, and sends
DISCOVER on over its other edges with a live peer. -/
def State.takePlace (s : State) (die n edge kind dieId peers : Nat) : State :=
  let twin := s.boot.found.any (fun p => p.2.site == n)
  let s1 := s.addFound die ⟨n, edge, dieId⟩
  let s2 := if n < 256 then s1.stageFloor (oFloorSiteDieId n) dieId else s1.stageFloor (oFloorOffgridDieId (n - 256)) dieId
  let s3 := if twin ∨ !kindFits kind n then s2.failFound n 4 else s2
  let s4 := s3.toHub (placeNode n) 0x13 [dieId % 2 ^ 32, dieId / 2 ^ 32, kind, n, peers]
  let others := (controlEdges n).filter (fun e => e != edge && (peers.testBit e || e == 4))
  s4.sendAll (if n < 256 then others.map (discoverOn n) else [])

/-- DISCOVER (R436, R437): the die at a physical place hears DISCOVER from a neighbour at (x, y) on an edge, with its kind, its factory
identity and the edges on which it sees a live peer. The first time it takes its coordinate and answers, and sends DISCOVER on; later it
checks. -/
def execDiscover (dt : Nat) (die : Fin 276) (edge : Fin 4) (x y kind dieId peers : Nat) (s : State) : Host.Outcome State Fault Refusal :=
  let s := s.tick dt
  let c := claim kind edge.val x y
  .next (if s.dev ≠ 2 ∨ s.bootStep ≠ 7 then s
    else match mlook s.boot.found die.val with
      | some f => if c = some f.site then s else s.failFound f.site 4
      | none => match c with
        | none => s
        | some n => s.takePlace die.val n edge.val kind dieId peers)

/-- Dies that have answered nothing (R437). -/
def State.silentPlaces (s : State) : List Nat :=
  let heard (n : Nat) : Bool := s.boot.found.any (fun p => p.2.site == n)
  ((List.range 256).filter (fun g => siteKind g < 2 && s.live g && !heard g)) ++
  (((List.range 20).filter (fun fn => s.liveOff fn && !heard (256 + fn))).map (256 + ·))

/-- Both ends of a link are dies in service. -/
def State.linkLive (s : State) (l : Nat) : Bool :=
  linkExists l && s.live (l / 4) && (match linkOther l with
    | some o => s.live (o / 4)
    | none => match edgePortDie (l / 4) (l % 4) with | some p => s.liveOff (16 + p) | none => false)

/-- The links of the panel that exist. -/
def allLinks : List Nat := (List.range 1024).filter linkExists

/-- Steps 1 and 2 of R176 on every link: training; the links of a fused die read FUSED. -/
def State.trainLinks (s : State) : State :=
  allLinks.foldl (fun (s : State) l =>
    let fused : Bool := s.boot.fused.contains (l / 4) || (match linkOther l with | some o => s.boot.fused.contains (o / 4) | none => false)
    let v := if fused then 6 else if s.linkLive l then 1 else 0
    (s.odSet (oFabricLinkState l) v).odSet (oFabricLinkCtlState l) v) s

/-- A link calibrated (R176): good lanes, minimum latency of the fabric port and of the control link. -/
def State.calibrateLink (s : State) (l lanes minPs ctlPs : Nat) : State :=
  if lanes < 32 then ((s.odSet (oFabricLinkState l) 5).odSet (oFabricLinkCtlState l) 2).odSet (oFabricLinkCtlLatencyPs l) (calibrated ctlPs)
  else
    let lat := calibrated minPs
    let full := decide (lanes ≥ 64)
    ((((((s.odSet (oFabricLinkState l) (if full then 2 else 3)).odSet (oFabricLinkLanesGood l) lanes).odSet (oFabricLinkLatencyPs l) lat).odSet
      (oFabricLinkXoffThreshold l) (xoffThreshold lat (if full then 620 else 1240))).odSet (oFabricLinkLastRetrain l) s.now).odSet
      (oFabricLinkCtlState l) 2).odSet (oFabricLinkCtlLatencyPs l) (calibrated ctlPs)

/-- Steps 3 to 6 of R176 on every link, as they were measured: link, good lanes, minimum latency in ps, that of its control link. A link
of which nothing was measured fails. -/
def State.calibrateLinks (s : State) (cal : List (Nat × Nat × Nat × Nat)) : State :=
  (allLinks.filter s.linkLive).foldl (fun (s : State) l => match cal.find? (fun c => c.1 == l) with
    | some c => s.calibrateLink l c.2.1 c.2.2.1 c.2.2.2
    | none => (s.odSet (oFabricLinkState l) 5).odSet (oFabricLinkCtlState l) 5) s

-- ------------------------------------------------------------------ steps 9 to 12 (R438 to R444)

/-- Errors of a direction: of all its lanes. -/
def laneErrors (l : List (Nat × Nat)) : Nat := sumN (l.map (·.2))

/-- The result of a link's check (R438): bits and errors of its lanes and of its control link, the lanes with two errors or more
excluded, and what fails. -/
def State.berResult (s : State) (link bits : Nat) (outErr inErr : List (Nat × Nat)) (ctlBits ctl1 ctl2 ctlPs : Nat) : State :=
  let bad := (List.range 64).filter (fun n => (outErr ++ inErr).any (fun p => p.1 == n && decide (p.2 ≥ 2)))
  let port : Bool := decide (laneErrors outErr ≤ 3) && decide (laneErrors inErr ≤ 3)
  let ctl : Bool := ctl1 == 0 || ctl2 == 0
  let lanes := s.odGet (oFabricLinkLanesGood link) - bad.length
  let s1 := { s with boot := { s.boot with berDone := s.boot.berDone ++ [link] } }
  let s2 := ((((((s1.odSet (oBerLinkResult link) (if port && ctl then 1 else 2)).odSet (oBerLinkBits link) bits).odSet (oBerLinkErrors link)
    (laneErrors outErr + laneErrors inErr)).odSet (oBerLinkCtlBits link) ctlBits).odSet (oBerLinkCtlErrors link)
    (if ctl1 = 0 then 0 else ctl1 + ctl2)).odSet (oBerLinkExcluded link) (sumN (bad.map (2 ^ ·)))).odSet (oBerLinkTestedAt link) s.now
  let s3 := ((s2.odSet oBerPanelLinksTested (s2.odGet oBerPanelLinksTested + 1)).odSet oBerPanelLanesExcluded
    (s2.odGet oBerPanelLanesExcluded + bad.length)).odSet oBerPanelDurationMs 1000
  let s4 := if port && ctl then s3 else s3.odSet oBerPanelLinksFailed (s3.odGet oBerPanelLinksFailed + 1)
  let s4 := if ctl1 = 0 then s4 else s4.odSet (oFabricLinkCtlLatencyPs link) (calibrated ctlPs)
  let s5 := if ctl then s4 else s4.odSet (oFabricLinkCtlState link) 5
  if !port ∨ lanes < 32 then s5.odSet (oFabricLinkState link) 5
  else if bad = [] then s5
  else
    let lat := s5.odGet (oFabricLinkLatencyPs link)
    ((s5.odSet (oFabricLinkState link) 3).odSet (oFabricLinkLanesGood link) lanes).odSet (oFabricLinkXoffThreshold link) (xoffThreshold lat 1240)

/-- LINK_BER_CHECK (R438) of one link: bits checked, errors per lane of the two directions, bits of its control link, the errors of that
in the first check and in the second, after its retrain, and the minimum latency in ps that the retrain measured (R176). -/
def execLinkBerCheck (dt link bits : Nat) (outErr inErr : List (Nat × Nat)) (ctlBits : Nat) (ctlErr : Nat × Nat) (ctlPs : Nat)
    (s : State) : Host.Outcome State Fault Refusal :=
  let s := s.tick dt
  onLink link s (if s.dev ≠ 2 ∨ s.bootStep ≠ 9 ∨ !s.linkLive link ∨ s.boot.berDone.contains link ∨ !s.linkPassable link then s
    else s.berResult link bits outErr inErr ctlBits ctlErr.1 ctlErr.2 ctlPs)

/-- The component that a site's die takes: 4 a compute die, 5 a base die. -/
def fwKindOf (g : Nat) : Nat := if siteKind g = 1 then 5 else 4

/-- The dies that take a component. -/
def State.fwDies (s : State) (kind : Nat) : List Nat := (List.range 256).filter (fun g => siteKind g < 2 && fwKindOf g == kind && s.live g)

/-- A multicast or unicast WRITE of 64-byte rows to a boot buffer (R439). -/
def fwWrite (hub dest off : Nat) (b : List Nat) : List Emit :=
  (List.range (ceilDiv b.length 4096)).map (fun i =>
    let part := sliceAt b (4096 * i) 4096
    let rows := (List.range (ceilDiv part.length 64)).map (fun j => rowOf (padTo 64 (sliceAt part (64 * j) 64)))
    .pkt { dest := dest, src := hub, ptype := 2, vc := 2, offset := off + 4096 * i, rowsM1 := rows.length - 1, body := rows.map (fun r => { row := r }) })

/-- The group of a component's dies (R439). -/
def fwGroup (kind : Nat) : Nat := 0x8000 + (if kind = 4 then 0x7F01 else 0x7F02)

/-- FIRMWARE_BROADCAST (R439): preamble and chunks of component 4 or 5 by multicast. -/
def execFirmwareBroadcast (dt : Nat) (base : Bool) (s : State) : Host.Outcome State Fault Refusal :=
  let s := s.tick dt
  let kind := if base then 5 else 4
  .next (if s.dev ≠ 2 ∨ s.bootStep ≠ 10 ∨ s.boot.sent.contains kind then s
    else match fwCompOf s.boot.image kind with
      | none => s
      | some c =>
        let hub := hubNode s.leadHub
        let s1 := (s.fwDies kind).foldl (fun (s : State) g => s.odSet (oFwDieState g) 1) s
        let s2 := { s1 with boot := { s1.boot with sent := s1.boot.sent ++ [kind], broadcastAt := if s1.boot.sent = [] then s.clk else s1.boot.broadcastAt } }
        s2.sendAll (fwWrite hub (fwGroup kind) 0x300000 (fwPreamble s.boot.image c) ++
          ((List.range c.count).map (fun i => fwWrite hub (fwGroup kind) (4096 * i) (fwChunk s.boot.image (c.first + i)))).flatten))

/-- Chunks that a die misses. -/
def State.fwMissing (s : State) (g : Nat) : List Nat :=
  match fwCompOf s.boot.image (fwKindOf g) with
  | some c => (List.range c.count).filter (fun i => !(mget 0 s.chunks g).testBit i)
  | none => []

/-- The node of a die's boot buffer (R439): tile 0's scratchpad of a compute die, function 2 of a base die. -/
def bootBuffer (g : Nat) : Nat := siteNode g + (if siteKind g = 1 then 2 else 0)

/-- CHUNK_RECEIVED (R440): the preamble (no chunk number) or a chunk reaches a die's boot engine, with the bytes as they arrived. A chunk
whose bit is set, or that no accepted preamble precedes, is discarded unchecked; one that matches the manifest sets its bit. -/
def execChunkReceived (dt : Nat) (site : Fin 256) (chunk : Option Nat) (data : List Nat) (s : State) : Host.Outcome State Fault Refusal :=
  let s := s.tick dt
  let g := site.val
  .next (if s.dev ≠ 2 ∨ s.bootStep ≠ 10 ∨ siteKind g ≥ 2 ∨ !s.live g then s
    else match fwCompOf s.boot.image (fwKindOf g), chunk with
      | none, _ => s
      | some c, none =>
        let s1 := s.putBytes (bootBuffer g) 0x300000 data
        if data = fwPreamble s.boot.image c ∧ !s.boot.preambles.contains g then
          { s1 with boot := { s.boot with preambles := s.boot.preambles ++ [g] } }
        else s1
      | some c, some i =>
        let m := mget 0 s.chunks g
        if !s.boot.preambles.contains g ∨ i ≥ c.count ∨ m.testBit i then s
        else if sha384 data ≠ fwDigest s.boot.image (c.first + i) then s.bump (oFwDieHashFailures g)
        else
          let s1 : State := { s.putBytes (bootBuffer g) (4096 * i) data with chunks := mins s.chunks g (setBit m i) }
          if s1.fwMissing g = [] then ((s1.odSet (oFwDieState g) 2).odSet (oFwDieRound g) s.boot.round).odSet (oFwDieMissing g) 0 else s1)

/-- A component's chunks sent again to the dies that miss them (R441): by multicast where 8 dies or more do. -/
def State.repair (s : State) (kind : Nat) : State :=
  match fwCompOf s.boot.image kind with
  | none => s
  | some c =>
    let hub := hubNode s.leadHub
    let dies := (s.fwDies kind).filter (fun g => s.fwMissing g != [])
    (List.range c.count).foldl (fun (s : State) i =>
      let miss := dies.filter (fun g => (s.fwMissing g).contains i)
      let data := fwChunk s.boot.image (c.first + i)
      if miss = [] then s
      else if miss.length ≥ 8 then
        (s.odSet oFwBroadcastMulticastResends (s.odGet oFwBroadcastMulticastResends + 1)).sendAll (fwWrite hub (fwGroup kind) (4096 * i) data)
      else
        (s.odSet oFwBroadcastUnicastResends (s.odGet oFwBroadcastUnicastResends + miss.length)).sendAll
          ((miss.map (fun g => fwWrite hub (siteNode g + (if kind = 5 then 2 else 0)) (4096 * i) data)).flatten)) s

/-- REPAIR_ROUND (R441): the hub reads every bitmap. What is missing is sent again, in at most four rounds; a die still incomplete
after the fourth is FAILED with cause 0x0003. -/
def execRepairRound (dt : Nat) (s : State) : Host.Outcome State Fault Refusal :=
  let s := s.tick dt
  .next (if s.dev ≠ 2 ∨ s.bootStep ≠ 10 ∨ s.boot.sent.length < 2 then s
    else
      let dies := s.fwDies 4 ++ s.fwDies 5
      let s1 := (dies.foldl (fun (s : State) g => s.odSet (oFwDieMissing g) (s.fwMissing g).length) s).odSet oFwBroadcastDurationUs
        ((s.clk - s.boot.broadcastAt) / 1000)
      let bad := dies.filter (fun g => s.fwMissing g != [])
      if bad = [] then s1
      else if s.boot.round ≥ 4 then
        (bad.foldl (fun (s : State) g => (s.failSite g 3).odSet (oFwDieState g) 3) s1).odSet oFwBroadcastDiesFailed
          (s1.odGet oFwBroadcastDiesFailed + bad.length)
      else
        let r := s.boot.round + 1
        (({ s1 with boot := { s1.boot with round := r } }.odSet oFwBroadcastRounds r).repair 4).repair 5)

/-- STACK_BRINGUP (R442): a stack is trained, lane repairs applied, tested, and filled with zero outside the dump area. -/
def execStackBringup (dt : Nat) (stack : Fin 32) (trained tested : Bool) (repairs : Nat) (s : State) : Host.Outcome State Fault Refusal :=
  let s := s.tick dt
  let i := stack.val
  let g := stackSite i
  let node := stackNode i
  .next (if s.dev ≠ 2 ∨ (s.bootStep ≠ 11 ∧ s.bootStep ≠ 12) ∨ s.odGet (oFwDieState g) ≠ 2 ∨ s.boot.stacksDone.contains i ∨ !s.live g then s
    else
      let s1 := { s with boot := { s.boot with stacksDone := s.boot.stacksDone ++ [i] } }
      if !trained ∨ !tested then s1.failSite g 2
      else
        let top := if s.isDumpStack i then dumpBase s.variant else stackBytesOf s.variant
        ({ s1 with mem := memZero s1.mem (gaddr node 0) top } : State).odSet (oStackUnitLaneRepairs i) repairs)

/-- The bad tiles of a die as the runs have found them. -/
def State.katBad (s : State) (g : Nat) : Nat := mget 0 s.boot.katBad g

/-- KNOWN_ANSWER_RUN (R443, R444) of one die at one supply point: the tiles that fail, those whose trim was raised with the code reached
and whether they are still below the floor there, and whether boot engine, router or links fail. -/
def execKnownAnswerRun (dt : Nat) (site : Fin 256) (point : Fin 3) (bad : Nat) (raised : List (Nat × Nat × Bool)) (dieBad : Bool) (s : State) :
    Host.Outcome State Fault Refusal :=
  let s := s.tick dt
  let g := site.val
  let had := mget [] s.boot.katDone g
  onDie g s (if s.dev ≠ 2 ∨ s.bootStep ≠ 12 ∨ !s.live g ∨ had.contains point.val ∨ s.odGet (oFwDieState g) ≠ 2 then s
    else
      let s1 := raised.foldl (fun (s : State) r => if r.1 < 64 ∧ r.2.1 ≤ 63 then { s.setTrim (g * 64 + r.1) r.2.1 with storeDirty := true } else s) s
      let low := sumN (((raised.filter (fun r => r.2.2 && decide (r.1 < 64))).map (·.1)).eraseDups.map (2 ^ ·))
      let m := (s.katBad g ||| bad ||| low) % 2 ^ 64
      let s2 := { s1 with boot := { s1.boot with katBad := mins s1.boot.katBad g m, katDone := mins s1.boot.katDone g (had ++ [point.val]) } }
      if dieBad ∨ 64 - popcount m 64 < 48 then s2.failSite g 2 else s2)

-- ------------------------------------------------------------------ the dump area at bring-up (R191, R468)

/-- The stacks that passed R442, by node. -/
def State.goodStacks (s : State) : List Nat := (List.range 32).filter (fun i => s.boot.stacksDone.contains i && s.live (stackSite i))

/-- The pair of dump stacks (R191): the pair before it where both still pass, a member that does not replaced by the rule. -/
def State.dumpPair (s : State) : Nat :=
  let ok := s.goodStacks
  let d := s.odGet oStackPanelDumpStacks
  let old := [d % 65536, d / 65536].filter (fun n => d != 0 && ok.any (fun i => stackNode i == n))
  let next (others : List Nat) : Option Nat :=
    (ok.find? (fun i => others.all (fun n => n / 1024 != stackNode i / 1024))).map stackNode
  let first := match old with | n :: _ => some n | [] => next []
  let second := match old, first with
    | _ :: n :: _, _ => some n
    | _, some n => next [n]
    | _, none => none
  min (first.getD 0) (second.getD 0xFFFF) + 65536 * max (first.getD 0) (second.getD 0)

/-- Bytes 0 to 127 of a dump header, as its CRC covers them: all of it but bytes 124 to 127 (R462). -/
def headerCrc (b : List Nat) : Nat := crc32 (b.take 124 ++ b.drop 128)

/-- A kept dump is recognised (R468): 2 COMPLETE, 3 PARTIAL, none where it is not. -/
def State.keptDump (s : State) : Option Nat :=
  let h := s.dumpBytes 0 4096
  let half1 := s.dumpBytes (2 ^ 32) 16
  let flags := leAt h 7 1
  let ok : Bool := leAt h 0 4 == 0x504D5544 && leAt h 4 2 == 1 && leAt h 124 4 == headerCrc h && (flags.testBit 0 || flags.testBit 3) &&
    leAt h 8 8 == s.odGet oDumpId && s.odGet oDumpId != 0 && (!flags.testBit 1 || leAt half1 8 8 == s.odGet oDumpId)
  if ok then some (if flags.testBit 3 then 3 else 2) else none

/-- A dump event: started, complete, partial, not taken, kept, cleared. -/
def State.dumpEvent (s : State) (kind cause : Nat) : State :=
  s.publish24 oDumpEvent ([kind, 0] ++ toLE 2 cause ++ toLE 4 0 ++ toLE 8 (s.odGet oDumpId))

/-- The dump stacks chosen, and a kept dump looked for, once the stacks are up. -/
def State.lookForDump (s : State) : State :=
  let d := s.dumpPair
  let s1 := s.odSet oStackPanelDumpStacks d
  let s2 := { s1 with dump := { s1.dump with half0 := d % 65536, half1 := d / 65536 } }
  match s2.keptDump with
  | some v => (s2.odSet oDumpState v).dumpEvent 5 (leAt (s2.dumpBytes 0 64) 32 2)
  | none => s2.odSet oDumpState 0

-- ------------------------------------------------------------------ steps (R432 and the power-on sequence)

/-- The step under way has done what it has to do. -/
def State.stepDone (s : State) : Bool :=
  let compute := computeSites.filter s.live
  let bases := ((List.range 256).filter isStackSite).filter s.live
  match s.bootStep with
  | 3 => (List.range 20).all (fun fn => [2, 3].contains (s.odGet (oFwDieState (0x100 + fn))))
  | 4 => (List.range 16).all s.sectorSettled
  | 5 => s.goodHubs != []
  | 6 | 7 | 8 => true
  | 9 => ((allLinks.filter s.linkLive).filter s.linkPassable).all (fun l => s.boot.berDone.contains l)
  | 10 => s.boot.sent.length == 2 && (compute ++ bases).all (fun g => s.odGet (oFwDieState g) == 2)
  | 11 => bases.all (fun g => s.boot.stacksDone.contains (stackIdx g))
  | 12 => compute.all (fun g => (mget [] s.boot.katDone g).length == 3)
  | 13 => s.boot.assembled
  | _ => false

/-- What the end of a step brings about. -/
def State.stepEffect (s : State) (cal : List (Nat × Nat × Nat × Nat)) : State :=
  match s.bootStep with
  | 5 => s.lockAll s.leadHub
  | 6 => s.trainLinks.startDiscovery
  | 7 => s.silentPlaces.foldl (fun (s : State) n => s.failFound n 4) s
  | 8 => s.calibrateLinks cal
  | 9 => ((List.range 1024).filter (fun l => !s.boot.berDone.contains l)).foldl (fun (s : State) l => s.odSet (oBerLinkResult l) 3) s
  | 11 => s.lookForDump
  | _ => s

/-- BRINGUP_STEP: the step of the power-on sequence under way is complete, and the next begins. `cal` is what calibration measured at
step 8. -/
def execBringupStep (dt : Nat) (cal : List (Nat × Nat × Nat × Nat)) (s : State) : Host.Outcome State Fault Refusal :=
  let s := s.tick dt
  .next (if s.dev ≠ 2 ∨ s.bootStep ≥ 14 ∨ !s.stepDone then s
    else
      let n := s.bootStep
      ((s.stepEffect cal).bootEvent 1 n 0).beginStep (n + 1))

-- ------------------------------------------------------------------ the floor plan and READY (R445, R446)

/-- Tile states of a die that is out: all FAILED or all FUSED (R32). -/
def State.markOut (s : State) (g v : Nat) : State := (List.range 64).foldl (fun (s : State) t => s.recordFree (g * 64 + t) v) s

/-- The states of R30 and R32 for a compute site (R445). -/
def State.assembleSite (s : State) (g : Nat) : State :=
  if s.boot.fused.contains g then (s.stageFloor (oFloorSiteState g) 3).markOut g 5
  else if !s.live g then s.markOut g 6
  else (s.stageFloor (oFloorSiteState g) 1).markTiles g ((List.range 64).filter (fun t => (s.katBad g).testBit t))

/-- The states of stacks, hubs and off-grid dies (R445). -/
def State.assembleRest (s : State) : State :=
  let sites := (List.range 256).filter (fun g => siteKind g != 0)
  let s1 := sites.foldl (fun (s : State) g => if s.boot.fused.contains g then s.stageFloor (oFloorSiteState g) 3
    else if s.live g then s.stageFloor (oFloorSiteState g) 1 else s) s
  (List.range 20).foldl (fun (s : State) fn => if s.liveOff fn then s.stageFloor (oFloorOffgridState fn) 1 else s) s1

/-- Generation 1: the tables and firmware trees in both banks, the spares, the records published (R445). -/
def State.firstGeneration (s : State) (pairs : Nat) : State :=
  let s1 := ((computeSites.foldl State.assembleSite s).assembleRest.designateSpares).applyFloor
  let (sites, links) := s1.blockedNow
  let b : Bank := { built := true, generation := s1.odGet oFloorPanelGeneration, blockedSites := sites, blockedLinks := links
                    ctlSites := s1.ctlBlocked.1, ctlLinks := s1.ctlBlocked.2
                    mcast := broadcastTree sites links }
  (((s1.setBank 0 b).setBank 1 b).odSet oFabricPanelActiveBank 0).odSet oFabricPanelUpdownPairs pairs

/-- FLOOR_PLAN_ASSEMBLY (R445). -/
def execFloorPlanAssembly (dt pairs : Nat) (s : State) : Host.Outcome State Fault Refusal :=
  let s := s.tick dt
  .next (if s.dev ≠ 2 ∨ s.bootStep ≠ 13 ∨ s.boot.assembled then s
    else
      let s1 := s.firstGeneration pairs
      { s1 with boot := { s1.boot with assembled := true } })

/-- A host port that can be used: its port die good, its role HOST, its position not fused. -/
def State.portUsable (s : State) (p : Nat) : Bool :=
  s.odGet (oRtPortRole p) == 1 && s.odGet (oFloorOffgridState (16 + p / 4)) == 1 && (s.odGet (oFloorOffgridPortsUsable (16 + p / 4))).testBit (p % 4)

/-- The conditions of R446 in order, with their codes; `selfA`, `selfB`: the hubs' firmware passed its self-check. -/
def State.readyConditions (s : State) (selfA selfB : Bool) : List (Nat × Bool) :=
  let stackSectors := (List.range 16).filter (fun i => s.stackOnline (2 * i) || s.stackOnline (2 * i + 1))
  let good := (computeSites.filter s.dieUsable).length
  [ (0x0101, !s.boot.dip),
    (0x0102, decide (stackSectors.length ≥ 12)),
    (0x0103, decide (good ≥ (if s.variant = 2 then 72 else 96))),
    (0x0104, s.goodHubs.contains (s.odGet oBootClockSource) &&
      ((List.range 256).filter s.live).all (fun g => (s.clockHops g).isSome) &&
      ((List.range 20).filter s.liveOff).all (fun fn => (s.clockHops (256 + fn)).isSome)),
    (0x0105, (List.range 16).any s.portUsable),
    (0x0106, s.goodHubs.all (fun h => if h = 0 then selfA else selfB)),
    (0x0107, decide (s.clk < s.boot.bringupAt + 600 * 10 ^ 9)) ]

/-- Entry to READY (R312, R407, R446): ports with a module train, the others read NO_MODULE; the scrub of each stack begins. -/
def State.enterReady (s : State) : State :=
  let s1 := (s.setDev 3).odSet oDeviceControlPower 0
  let s2 := (List.range 16).foldl (fun (s : State) p =>
    match s.odGet (oRtPortRole p) with
    | 0 => s
    | 3 => s.odSet (oRtPortState p) 4
    | _ => s.odSet (oRtPortState p) (if s.odGet (oRtModuleState p) = 0 then 3 else if s.odGet (oRtModuleState p) = 3 then
        (if s.odGet (oRtPortState p) = 2 then 2 else 1) else 0)) s1
  let s3 := (List.range 32).foldl (fun (s : State) i => if s.stackOnline i then s.setStack i { s.stackUnit i with scrubStart := s.clk } else s) s2
  let s4 := ({ s3 with readyAt := s.now } : State).odSet oBootProgressLastReadyMs ((s.clk - s.boot.startedAt) / 10 ^ 6)
  (s4.bootEvent 2 14 0).takeRecord

/-- READY_GATE (R446): READY where every condition holds; otherwise bring-up fails with the code of the first that does not. -/
def execReadyGate (dt : Nat) (selfA selfB : Bool) (s : State) : Host.Outcome State Fault Refusal :=
  let s := s.tick dt
  .next (if s.dev ≠ 2 ∨ s.bootStep ≠ 14 then s
    else match (s.readyConditions selfA selfB).find? (fun c => !c.2) with
      | some c => s.failBringup c.1
      | none => s.enterReady)

/-- BRINGUP_TIMEOUT (R446): bring-up has not reached READY 600 s after entry. -/
def execBringupTimeout (dt : Nat) (s : State) : Host.Outcome State Fault Refusal :=
  let s := s.tick dt
  .next (if s.dev = 2 ∧ s.boot.bringupAt + 600 * 10 ^ 9 ≤ s.clk then s.failBringup 0x0107 else s)

end Sys2Proof.Machine
end

