-- ==== Sys2Proof/Machine/Dump.lean ====
section
/-!
DEFINITION. FATAL and the fatal dump (chapter 18). What the dump's undecoded and loosely described parts hold is in log entry 62.
-/
namespace Sys2Proof.Machine

-- ------------------------------------------------------------------ the dump area (R460)

/-- The supply of a site's sector has not been lost (R355). -/
def State.sectorFed (s : State) (g : Nat) : Bool := s.odGet (oPowerSectorLatched (sectorOf g)) != 1

/-- The dump stacks that hold half 0 and half 1 (R460): the lower node first, only half 0 where one of them is out; 0xFFFF none. -/
def State.dumpHalves (s : State) : Nat × Nat :=
  let d := s.odGet oStackPanelDumpStacks
  let ok (n : Nat) : Bool := match nodeKind n with | .stack i _ => s.stackOnline i && s.sectorFed (stackSite i) | _ => false
  let lo := min (d % 65536) (d / 65536)
  let hi := max (d % 65536) (d / 65536)
  if ok lo then (lo, if ok hi then hi else 0xFFFF) else if ok hi then (hi, 0xFFFF) else (0xFFFF, 0xFFFF)

/-- The stack that holds a dump offset. -/
def State.dumpNode (s : State) (d : Nat) : Nat := if d < 2 ^ 32 then s.dump.half0 else s.dump.half1

/-- A half's stack is in service. -/
def State.halfOnline (s : State) (d : Nat) : Bool := match nodeKind (s.dumpNode d) with | .stack i _ => s.stackOnline i && s.sectorFed (stackSite i) | _ => false

/-- Bytes written at a dump offset, where the half's stack is in service. -/
def State.putDump (s : State) (d : Nat) (b : List Nat) : State :=
  if s.halfOnline d then s.putBytes (s.dumpNode d) (dumpBase s.variant + d % 2 ^ 32) b else s

-- ------------------------------------------------------------------ the layout (R461, R462, R464)

def statusAt : Nat := 0x4000
def slotsAt : Nat := 0x8000
def recordAt (n : Nat) : Nat := 0x44100000 + n * 0x26400
def scratchAt (k : Nat) : Nat := 0x100010000 + k * 0x404000

/-- Section kinds 1 to 10 in layout order, with their dump offsets: tile status, slot index, steward images, port die images, node image,
hub A, hub B, tile records, half-1 header, scratchpad slots. -/
def sectionAt (kind : Nat) : Nat :=
  [0, 0x4000, 0x8000, 0x100000, 0x1100000, 0x2100000, 0x4100000, 0x24100000, 0x44100000, 0x100000000, 0x100010000].getD kind 0

/-- A directory entry (R462): kind, status, offset, bytes and CRC-32. -/
def sectionEntry (kind : Nat) (v : Nat × Nat × Nat) : List Nat :=
  toLE 2 kind ++ [v.1, 0] ++ toLE 8 (sectionAt kind) ++ toLE 8 v.2.1 ++ toLE 4 v.2.2 ++ toLE 8 0

/-- A section ends: its entry is kept and written, failed where its stack has gone (R465, R467). The pieces are what was written of it, in
ascending dump offset. -/
def State.endSection (s : State) (kind status : Nat) (pieces : List (Nat × Nat)) : State :=
  let b := (pieces.map (fun p => s.dumpBytes p.1 p.2)).flatten
  let v : Nat × Nat × Nat := if s.halfOnline (sectionAt kind) then (status, b.length, crc32 b) else (3, 0, 0)
  let s1 : State := { s with dump.sections := mins s.dump.sections kind v }
  s1.putDump (256 + 32 * (kind - 1)) (sectionEntry kind v)

/-- The first 16 bytes of both headers. -/
def State.headStart (s : State) (half flags : Nat) : List Nat := toLE 4 0x504D5544 ++ toLE 2 1 ++ [half, flags] ++ toLE 8 (s.odGet oDumpId)

/-- Tiles whose status is one of some. -/
def State.tilesRead (s : State) (vs : List Nat) : Nat := (s.dump.status.filter (fun p => vs.contains p.2)).length

/-- The main header (R462), its CRC and counts given by the caller's flags: 0 while the dump is taken. -/
def State.dumpHeader (s : State) (flags finished : Nat) : List Nat :=
  let d := s.dump
  let counts : List Nat := if flags = 0 then List.replicate 8 0
    else toLE 2 (s.tilesRead [1]) ++ toLE 2 (s.tilesRead [2]) ++ toLE 2 (s.odGet oDumpProgressSlotsWritten) ++ toLE 2 d.omitted
  let head := s.headStart 0 flags ++ toLE 8 (s.odGet oDiagFatalDecided) ++ toLE 8 finished ++ toLE 2 (s.odGet oDiagFatalCause) ++ [d.devWas, 0] ++
    toLE 4 d.causes ++ toLE 8 d.generation ++ toLE 48 (s.odGet oFwRunningMeasurement) ++ toLE 16 (s.odGet oFloorPanelSerial) ++
    toLE 2 d.half0 ++ toLE 2 d.half1 ++ counts
  let rest := List.replicate 128 0 ++
    ((List.range 10).map (fun i => sectionEntry (i + 1) (mget (0, 0, 0) d.sections (i + 1)))).flatten ++ List.replicate 3520 0
  let crc := if flags = 0 then 0 else crc32 (head ++ rest)
  head ++ toLE 4 crc ++ rest

/-- The half-1 header. -/
def State.halfHeader (s : State) (flags : Nat) : List Nat := s.headStart 1 flags ++ List.replicate (65536 - 16) 0

-- ------------------------------------------------------------------ images of dies (R463)

/-- A record of an image, padded to 64 bytes. -/
def imgRecord (kind : Nat) (addr body : List Nat) : List Nat :=
  let b := toLE 2 kind ++ [0, 0] ++ padTo 4 addr ++ toLE 4 body.length ++ toLE 4 (crc32 body) ++ body
  padTo ((b.length + 63) / 64 * 64) b

/-- The records of every object that a die keeps, in ascending address; objects that cannot be read, and the dump itself, are none. -/
def State.objRecords (s : State) (keep : Nat → Bool) : List Nat :=
  let rows := directory.filter (fun r => r.sub == 0 && r.access != 2 && !(r.first / 65536 == 0x74))
  (rows.map (fun r => ((List.range (r.last + 1 - r.first)).map (fun e =>
    let ix := r.first + e
    if keep ix && s.elementExists ix r then imgRecord 1 (addrBytes (ix * 256)) (s.objBytes ix r) else [])).flatten)).flatten

/-- The steward, if any, that keeps an object: of its sector, or of a site of its sector. -/
def stewardKeeps (i ix : Nat) : Bool :=
  let a := ix / 65536
  if a = 0x51 ∨ a = 0x57 then ix % 65536 == i
  else if a = 0x53 ∨ a = 0x55 ∨ a = 0x59 then decide (ix % 65536 < 256) && ix % 256 / 16 == i
  else false

/-- The port die that keeps an object: of its ports and their modules. -/
def portKeeps (p ix : Nat) : Bool :=
  let a := ix / 65536
  (a == 0x48 || a == 0x4A || a == 0x66 || a == 0x5A) && decide (ix % 65536 < 16) && ix % 16 / 4 == p

/-- The objects of the node image: stacks, fabric and links. -/
def nodeKeeps (ix : Nat) : Bool := let a := ix / 65536; a == 0x35 || a == 0x36 || a == 0x37

/-- The objects that both hubs keep: the rest, but what stands in tile records. -/
def hubKeeps (ix : Nat) : Bool :=
  let a := ix / 65536
  !((List.range 16).any (fun i => stewardKeeps i ix) || (List.range 4).any (fun p => portKeeps p ix) || nodeKeeps ix ||
    (a == 0x30 || a == 0x31 || ((a == 0x33 || a == 0x34) && decide (ix % 65536 < 0x4000))))

/-- Mailbox words, their full flags, and pending, mask and coalesced of a node's doorbell block. -/
def State.mboxRecord (s : State) (node count : Nat) : List Nat :=
  let m (n : Nat) := mlook s.mboxes (mboxKey node n)
  let words := ((List.range count).map (fun n => toLE 8 (match m n with | some w => w.toNat | none => 0))).flatten
  let flags := (List.range count).map (fun n => if (m n).isSome then 1 else 0)
  let bells := match bellObj node with | some o => toLE 4 (s.odGet (o + 1)) ++ toLE 4 (s.odGet (o + 2)) ++ toLE 8 (s.odGet (o + 3)) | none => []
  imgRecord 3 [] (words ++ flags ++ bells)

/-- The end of an image: firmware working memory and the end record. -/
def State.imgEnd (s : State) (node : Nat) : List Nat := imgRecord 0x100 [] (Config.workingMemory node s.now) ++ imgRecord 0xFFFF [] []

/-- The token history of a lane (R279): from the lowest unacknowledged index, 4,096 tokens at most. -/
def LaneRec.historyRecord (x : LaneRec) (l : Nat) : List Nat :=
  let first := max x.acked x.sub.prompt
  imgRecord 4 [] ([l, 0, 0, 0] ++ toLE 4 first ++ ((x.toks.drop first).take 4096 |>.map (toLE 4)).flatten)

/-- The image of a hub. -/
def State.hubImage (s : State) (h : Nat) : List Nat :=
  s.objRecords hubKeeps ++ imgRecord 2 [] (((s.notices h).map (fun n => entryBytes n.entry)).flatten) ++ s.mboxRecord (hubNode h) 128 ++
  ((s.lanes.filter (fun p => decide (p.1 < 256))).map (fun p => p.2.historyRecord p.1)).flatten ++ s.imgEnd (hubNode h)

/-- The image of a steward. -/
def State.stewardImage (s : State) (i : Nat) : List Nat := s.objRecords (stewardKeeps i) ++ s.mboxRecord (stewardNode i) 16 ++ s.imgEnd (stewardNode i)

/-- A stream's datagrams that the port die keeps: tokens and control messages sent and not acknowledged. -/
def State.retransmitRecord (s : State) (x : LaneRec) : List Nat :=
  imgRecord 5 [] (toLE 4 x.sub.stream ++
    ((cut64 64 x.sent).map (fun c => rtBytes 2 x.sub.stream 0 0 (s.timeAt (((c.map (·.lastTx)).headD 0))) (tokensBody c))).flatten ++
    (x.ctlSent.map (fun m => rtBytes m.mtype x.sub.stream m.seq 0 (s.timeAt m.lastTx) m.body)).flatten)

/-- The image of a port die. -/
def State.portImage (s : State) (p : Nat) : List Nat :=
  s.objRecords (portKeeps p) ++ s.mboxRecord (0x24D0 + p) 16 ++
  ((s.lanes.filter (fun q => decide (q.2.port < 16) && q.2.port / 4 == p)).map (fun q => s.retransmitRecord q.2)).flatten ++ s.imgEnd (0x24D0 + p)

/-- The node image. -/
def State.nodeImage (s : State) : List Nat := s.objRecords nodeKeeps ++ imgRecord 0xFFFF [] []

/-- The images as held at the decision, by section kind × 32 + number: a steward or port die that does not answer has none. -/
def State.dumpImages (s : State) (h : Nat) : SMap (List Nat) :=
  let put (m : SMap (List Nat)) (p : Nat × List Nat) := mins m p.1 p.2
  (((List.range 16).filter s.stewardGood).map (fun i => (3 * 32 + i, s.stewardImage i)) ++
    ((List.range 4).filter (fun p => s.liveOff (16 + p))).map (fun p => (4 * 32 + p, s.portImage p)) ++
    [(5 * 32, s.nodeImage), ((6 + h) * 32, s.hubImage h)]).foldl put []

-- ------------------------------------------------------------------ entering FATAL (R458, R459)

/-- The stall records that stand, up to 256 (R471). -/
def State.stallsNow (s : State) : List (List Nat) :=
  ((s.tiles.map (fun p => p.2.slots.filterMap (fun q => q.2.stall.map (stallBytes p.1 q.1)))).flatten).take 256

/-- Every tile that can be reached. -/
def State.reachedTiles (s : State) : List Nat := ((computeSites.filter s.dieUsable).map (fun g => (List.range 64).map (fun t => g * 64 + t))).flatten

/-- Every tile put into deep idle by the IDLE command (R458). -/
def State.idleAll (s : State) : State := s.reachedTiles.foldl State.idleTile s

/-- The FATAL state entered: nothing is admitted or started, the ports are held down, in-band sessions close with reason 4, and what the
diagnostics hold of the decision is kept. -/
def State.declareFatal (s : State) (cause : Nat) : State :=
  let h := s.leadHub
  let s1 := ((((s.setDev 7).odSet oDiagFatalCause cause).odSet oDiagFatalHub h).odSet oDiagFatalDecided s.now).odSet oDiagFatalLater 0
  let d : DumpState := { violations := s.dump.violations, stalls := s.stallsNow, decidedAt := s.clk, hub := h, devWas := s.dev
                         causes := s.odGet oDeviceStateCauses, generation := s.odGet oFloorPanelGeneration }
  ({ s1 with dump := d } : State).portsDown.closeUnserved

/-- No dump is taken. -/
def State.noDump (s : State) (cause : Nat) : State := ((s.odSet oDumpState 4).idleAll).dumpEvent 4 cause

/-- A new dump begins (R465 step 1): a new nonzero dump.id, which is free, and the header with flags 0. -/
def State.startDump (s : State) (cause : Nat) (images : SMap (List Nat)) : State :=
  let (h0, h1) := s.dumpHalves
  if h0 = 0xFFFF then s.noDump cause
  else
    let v := 1 + s.fresh 8 % (2 ^ 64 - 2)
    let old := s.odGet oDumpId
    let id := if old ≠ 0 ∧ old ≤ v then v + 1 else v
    let s1 := ((s.burn.odSet oDumpState 1).odSet oDumpId id).odSet oDumpProgressStep 1
    let s2 : State := { (s1.odSet oDumpProgressTilesScanned 0).odSet oDumpProgressSlotsWritten 0 with
      dump.half0 := h0, dump.half1 := h1, dump.images := images }
    ((s2.putDump 0 (s2.dumpHeader 0 0)).putDump (2 ^ 32) (s2.halfHeader 0)).dumpEvent 1 cause

/-- FATAL_ENTRY (R401, R458, R459): the last surviving hub decides FATAL, for cause 0x0201 + `which`. In FATAL already, the cause is a later one. -/
def execFatalEntry (dt : Nat) (which : Fin 5) (s : State) : Host.Outcome State Fault Refusal :=
  let s := s.tick dt
  let cause := 0x201 + which.val
  .next (if s.hubsLost then s
    else if s.dev = 7 then (if s.odGet oDiagFatalLater = 0 then s.odSet oDiagFatalLater cause else s)
    else if s.dev < 2 ∨ s.goodHubs.length ≠ 1 then s
    else
      let images := s.dumpImages s.leadHub
      let s1 := s.declareFatal cause
      if cause = 0x205 then { s1.odSet oDumpState 4 with hubsLost := true }
      else if cause = 0x204 then s1.noDump cause
      else s1.startDump cause images)

-- ------------------------------------------------------------------ taking the dump (R465, R466)

/-- A tile that is scanned first: its fault flag is set or a slot has a stall record. -/
def Tile.stalled (t : Tile) : Bool := t.slots.any (fun p => p.2.stall.isSome)

/-- The status of a tile before its scan (R464): 6 where it is still to be scanned. -/
def State.statusBefore (s : State) (k : Nat) : Nat :=
  if !isTile k then 0
  else if s.odGet (oFloorTileState k) = 5 then 4
  else if s.odGet (oFloorTileState k) = 6 then 5
  else if s.dieUsable (k / 64) && s.sectorFed (k / 64) then 6
  else 3

/-- The tile status bytes. -/
def State.statusBytes (s : State) : List Nat := (List.range 16384).map (mget 0 s.dump.status)

/-- Tiles whose scratchpads are saved first to last (R466): fault flags, stall records, reel and commit-unit tiles of lanes in recovery. -/
def State.savePriority (s : State) : List Nat :=
  let tiles := computeSites.map (fun g => (List.range 64).map (fun t => g * 64 + t)) |>.flatten
  let flagged := tiles.filter (fun k => (s.tile k).faultFlag)
  let stalled := tiles.filter (fun k => (s.tile k).stalled)
  let hurt := s.lanes.filter (fun p => decide (p.1 < 256) && (p.2.aborted || p.2.replayDue || s.abortDue.contains p.1 || s.faults.any (fun f => f.lanes.contains p.1)))
  let ks := (hurt.map (fun p => (match s.reelOf p.2.slot p.1 with | some r => [r.1] | none => []) ++
    (match s.recordRegion p.2.slot with | some r => [r.1] | none => []))).flatten
  (flagged ++ stalled ++ tiles.filter ks.contains).eraseDups

/-- Steps 2 and 3 (R465): every tile that can be reached in HOLD; statuses, scan order and scratchpad slots settled. -/
def State.holdAll (s : State) : State :=
  let s1 := s.reachedTiles.foldl (fun (s : State) k => if (s.tile k).run = .run then s.setTile k { s.tile k with run := .hold, heldAt := s.clk } else s) s
  s1.odSet oDumpProgressStep 2

/-- The dump's lists, from the tiles in HOLD. -/
def State.beginScan (s : State) : State :=
  let status := (List.range 16384).foldl (fun (m : SMap Nat) k => if s.statusBefore k = 0 then m else mins m k (s.statusBefore k)) []
  let todo := (List.range 16384).filter (fun k => s.statusBefore k == 6)
  let first := todo.filter (fun k => (s.tile k).faultFlag || (s.tile k).stalled)
  let want := s.savePriority.filter (fun k => s.statusBefore k == 6)
  let saves := if s.dump.half1 = 0xFFFF then [] else want.take 1019
  let s1 : State := { s with dump.status := status, dump.scans := first ++ todo.filter (fun k => !first.contains k), dump.saves := saves
                             dump.slots := saves, dump.omitted := want.length - saves.length }
  ((s1.putDump statusAt s1.statusBytes).putDump slotsAt ((saves.map (toLE 2)).flatten ++ List.replicate (2048 - 2 * saves.length) 0xFF)).odSet oDumpProgressStep 3

/-- A tile record (R464): scan image, region table, tag bitmap. -/
def State.tileRecord (s : State) (k : Nat) : List Nat :=
  let t := s.tile k
  rowsBytes (s.scanImage k) ++
  ((List.range 32).map (fun e =>
    let r := t.region e
    toLE 8 r.g0.toNat ++ toLE 8 r.g1.toNat ++ toLE 8 (rG2 r) ++ toLE 8 (rG3 r))).flatten ++
  ((List.range 8192).map (fun b => sumN ((List.range 8).map (fun i => if s.tagAt k (8 * b + i) then 2 ^ i else 0))))

/-- One tile scanned, or not reached. -/
def State.scanOne (s : State) (k : Nat) : State :=
  let s1 : State := { s with dump.scans := s.dump.scans.tail }
  if !s.dieUsable (k / 64) ∨ !s.sectorFed (k / 64) then { s1 with dump.status := mins s.dump.status k 3 }
  else
    let v := if (s.tile k).scanConsistent then 1 else 2
    let s2 := s1.putDump (recordAt k) (s.tileRecord k)
    { (s2.odSet oDumpProgressTilesScanned (s2.odGet oDumpProgressTilesScanned + 1)) with dump.status := mins s.dump.status k v }

/-- One scratchpad saved into the next slot; that of a tile whose sector has been lost stays as it is. -/
def State.saveOne (s : State) (k : Nat) : State :=
  let n := s.odGet oDumpProgressSlotsWritten
  let s1 : State := { s with dump.saves := s.dump.saves.tail }
  let s2 := if s.sectorFed (k / 64) then s1.putDump (scratchAt n) (rowsBytes (s.saveImage k 0 65536)) else s1
  s2.odSet oDumpProgressSlotsWritten (n + 1)

/-- Up to n tiles scanned and n scratchpads saved. -/
def State.scanSome (s : State) : Nat → State
  | 0 => s
  | n + 1 =>
    let s1 := match s.dump.scans with | k :: _ => s.scanOne k | [] => s
    let s2 := match s1.dump.saves with | k :: _ => s1.saveOne k | [] => s1
    s2.scanSome n

/-- What has been written of a section: offset and length of each piece. -/
def State.sectionPieces (s : State) (kind : Nat) : List (Nat × Nat) :=
  let image (k span : Nat) : List (Nat × Nat) :=
    (List.range 32).filterMap (fun i => (mlook s.dump.images (k * 32 + i)).map (fun b => (sectionAt k + i * span, b.length)))
  match kind with
  | 1 => [(statusAt, 16384)]
  | 2 => [(slotsAt, 2048)]
  | 3 => image 3 0x100000
  | 4 => image 4 0x400000
  | 8 => ((s.dump.status.filter (fun p => p.2 == 1 || p.2 == 2)).map (fun p => (recordAt p.1, 0x26400)))
  | 9 => if s.dump.half1 = 0xFFFF then [] else [(2 ^ 32, 65536)]
  | 10 => (List.range (s.odGet oDumpProgressSlotsWritten)).map (fun k => (scratchAt k, 0x404000))
  | k => image k 0

/-- A section that the dump does not have: no half 1 is written, or no die of its kind answered. -/
def State.sectionAbsent (s : State) (kind : Nat) : Bool :=
  if kind = 9 ∨ kind = 10 then s.dump.half1 == 0xFFFF else kind != 8 && s.sectionPieces kind == []

/-- A section's end with what has been written of it. -/
def State.closeSection (s : State) (status kind : Nat) : State :=
  if s.sectionAbsent kind then s else s.endSection kind status (s.sectionPieces kind)

/-- The images of a section written. -/
def State.putImages (s : State) (kind span : Nat) : State :=
  (List.range 32).foldl (fun (s : State) i => match mlook s.dump.images (kind * 32 + i) with
    | some b => s.putDump (sectionAt kind + i * span) b
    | none => s) s

/-- The header completed (R465 step 7, R467): counts, flags, CRC. -/
def State.finishHeader (s : State) (flag : Nat) : State :=
  let flags := flag + (if s.dump.half1 = 0xFFFF then 0 else 2) + 4 * s.dump.hub
  let s1 := (s.putDump (2 ^ 32) (s.halfHeader flags)).closeSection 1 9
  s1.putDump 0 (s1.dumpHeader flags s.now)

/-- One step of the dump within a hub turn (R2, R465); `work` is how many tiles and scratchpads a turn of steps 3 and 4 handles. -/
def State.dumpStep (s : State) (work : Nat) : State :=
  if s.odGet oDumpState ≠ 1 ∨ s.dev ≠ 7 then s
  else match s.odGet oDumpProgressStep with
    | 1 => s.holdAll
    | 2 => s.beginScan
    | 3 | 4 =>
      let s1 := s.scanSome work
      if s1.dump.scans ≠ [] then s1
      else if s1.dump.saves ≠ [] then s1.odSet oDumpProgressStep 4
      else ([1, 2, 8, 10].foldl (State.closeSection · 1) (s1.putDump statusAt s1.statusBytes)).odSet oDumpProgressStep 5
    | 5 => ((s.putImages (6 + s.dump.hub) 0).closeSection 1 (6 + s.dump.hub)).odSet oDumpProgressStep 6
    | 6 => ([3, 4, 5].foldl (State.closeSection · 1) (((s.putImages 3 0x100000).putImages 4 0x400000).putImages 5 0)).odSet oDumpProgressStep 7
    | 7 => (s.finishHeader 1).odSet oDumpProgressStep 8
    | _ => (s.idleAll.odSet oDumpState 2).dumpEvent 2 (s.odGet oDiagFatalCause)

/-- The dump ends at its time (R467): every section under way is partial, the header is completed with flag 3, and the tiles go into
deep idle. -/
def State.endDumpEarly (s : State) : State :=
  let h := 6 + s.dump.hub
  let open' := ([1, 2, 3, 4, 5, h, 8, 10].filter (fun k => (mlook s.dump.sections k).isNone))
  let written := if s.odGet oDumpProgressStep < 3 then [] else if s.odGet oDumpProgressStep < 5 then [1, 2, 8, 10] else []
  let s0 := if s.odGet oDumpProgressStep < 3 then s.beginScan else s
  let s1 := open'.foldl (fun (s : State) k => if s.sectionAbsent k then s else if written.contains k then s.closeSection 2 k else s.endSection k 2 [])
    (s0.putDump statusAt s0.statusBytes)
  ((s1.finishHeader 8).idleAll.odSet oDumpState 3).dumpEvent 3 (s1.odGet oDiagFatalCause)

/-- DUMP_TIME_LIMIT (R467): 10 s after the decision. -/
def execDumpTimeLimit (dt : Nat) (s : State) : Host.Outcome State Fault Refusal :=
  let s := s.tick dt
  .next (if s.odGet oDumpState ≠ 1 ∨ s.dev ≠ 7 ∨ s.hubsLost ∨ s.clk < s.dump.decidedAt + 10 * 10 ^ 9 ∨ s.odGet oDumpProgressStep ≥ 8 then s
    else s.endDumpEarly)

/-- dump.clear written 1 (R471): none while the dump is being taken. -/
def State.dumpClear (s : State) : Option State :=
  if s.odGet oDumpState = 1 then none else some (((s.odSet oDumpState 0).odSet oDumpId 0).dumpEvent 6 (s.odGet oDiagFatalCause))

/-- DUMP_CLEAR (R471). -/
def execDumpClear (dt : Nat) (s : State) : Host.Outcome State Fault Refusal := .next ((s.tick dt).dumpClear.getD (s.tick dt))

end Sys2Proof.Machine
end

