-- ==== Sys2Proof/Machine/ObjWrite.lean ====
section
/-!
DEFINITION. Writes to objects (R303, R320 to R323, R330, R470): the checks in their order, fields and commands by their chapters, whole
records, and the WRITE message. Choices are in log entry 64.
-/
namespace Sys2Proof.Machine

-- ------------------------------------------------------------------ the checks (R321 to R323, R470)

/-- A write of an object is served in the panel's device state (R323, R470); v is the value written. -/
def State.writeServed (s : State) (ix : Nat) (r : DirRow) (v : Nat) : Bool :=
  let area := ix / 65536
  match s.dev with
  | 3 | 4 | 5 => true
  | 7 =>
    if ix * 256 = oDumpClear then true
    else if ix * 256 = oDeviceControlPower then v == 3 && s.odGet oDumpState != 1
    else decide (area < 0x13)
  | _ => decide (area < 0x13) || r.persist == 2 || (r.access == 3 && decide (0x70 ≤ area ∧ area ≤ 0x75))

/-- A record that is written whole: every field is RO or RW (R322). -/
def recordWritable (r : DirRow) : Bool := (fieldsOf r).all (fun f => decide (f.access ≤ 1))

/-- The access code permits a write. -/
def accessWritable (r : DirRow) : Bool :=
  if r.type = 12 ∧ r.sub = 0 then r.access == 1 && recordWritable r else [1, 2, 3].contains r.access

/-- The object is one of those that take 1 to 1,024 bytes (R220, R448). -/
def shortWrites (ix sub : Nat) : Bool := (decide (0x410000 ≤ ix ∧ ix < 0x410008) && sub == 5) || ix * 256 == oFwUpdateImage

/-- The length of a written value is exact (R303). -/
def lengthOk (ix sub : Nat) (r : DirRow) (b : List Nat) : Bool :=
  if shortWrites ix sub then decide (1 ≤ b.length) && decide (b.length ≤ 1024)
  else if r.type = 13 then decide (4 ≤ b.length) && b.length == 4 + elemSize r.first r.sub * leAt b 0 4
  else b.length == dirSize r

/-- A value lies within its object's type and range (R318, R320). -/
def valueInRange (r : DirRow) (v : Nat) : Bool :=
  match r.type with
  | 1 => decide (v ≤ 1) && decide (v ≤ r.hi)
  | 2 | 3 | 4 | 5 => decide (r.lo ≤ v) && decide (v ≤ r.hi)
  | _ => true

-- ------------------------------------------------------------------ fields (R320, R330)

/-- A slot's hints as five fields in nine bytes (R224). -/
def hintsOk (v : Nat) : Bool :=
  decide (v / 2 ^ 48 % 256 ≤ 1) && decide (1 ≤ v / 2 ^ 56 % 256) && decide (v / 2 ^ 56 % 256 ≤ 17) &&
  decide (1 ≤ v / 2 ^ 64 % 256) && decide (v / 2 ^ 64 % 256 ≤ 16)

/-- The present state of the panel accepts a value that lies within its range. -/
def State.accepts (s : State) (ix sub v : Nat) : Bool :=
  let a := ix * 256 + sub
  let area := ix / 65536
  if a = oPowerPanelCapW then decide (v ≤ s.odGet oPowerPanelHardLimitW)
  else if a = oPowerPanelPaceMode ∨ a = oPowerPanelFixedLevel then !s.inCascade
  else if a = oAgeingModuleUrgentDays then decide (v < s.odGet oAgeingModuleWarnDays)
  else if a = oRtPanelPtpPort then decide (v < 16 ∨ v = 0xFF)
  else if area = 0x48 ∧ sub = 3 then decide (v < 16 ∨ v = 0xFF)
  else if area = 0x48 ∧ 5 ≤ sub ∧ sub ≤ 10 then !s.portBusy (ix % 16)
  else if area = 0x48 ∧ sub = 13 then decide (popcount v 8 ≤ 2)
  else if area = 0x41 ∧ sub = 3 then (v == 0 || decide (256 ≤ v)) && (s.slotState (ix % 8) == 0 || s.slotState (ix % 8) == 7)
  else if area = 0x41 ∧ sub = 12 then hintsOk v
  else if ix = 0x640001 then !([1, 2, 3].contains (s.odGet oCascadePanelState))
  else if area = 0x67 ∧ sub = 1 then decide (v ≤ 2) && s.slotState (ix % 256) == 0 && (!s.inCascade || s.cascadeMaster)
  else true

/-- A plain object takes its value; a STORED one that changes waits for a commit (R325). -/
def State.putField (s : State) (r : DirRow) (a v : Nat) : State :=
  { s.odSet a v with storeDirty := s.storeDirty || (r.persist == 2 && s.odGet a != v) }

/-- The effect that a written field has beyond its value. -/
def State.fieldEffect (s old : State) (ix sub v : Nat) : State :=
  let a := ix * 256 + sub
  if a = oPowerPanelPaceMode ∨ a = oPowerPanelFixedLevel then
    ((List.range 16).foldl (fun (s : State) i => s.mail i 2 (ix % 65536 * 65536 + v) 8) s).setLevels
  else if a = oRtPanelPtpPort then { s with ptpCur := if v = 0xFF then s.ptpCur else v }
  else if ix / 65536 = 0x48 ∧ sub = 3 then old.altLost s
  else if ix / 65536 = 0x41 ∧ sub = 12 then { s with rebalDue := s.rebalDue || s.slotState (ix % 8) == 4 || s.slotState (ix % 8) == 5 }
  else if ix / 65536 = 0x57 ∧ sub = 2 then
    -- Baselining starts again, and no warning or derate arises from the sector until it is done (R359).
    let i := ix % 16
    let s1 := s.setSector i { s.sector i with baseSum := 0, baseCount := 0 }
    let s2 := (s1.odSet (oThermalSectorState i) 0).odSet (oThermalSectorDerateLevel i) 63
    (if s.odGet (oThermalSectorState i) = 3 then s2.coolingEvent 4 3 i (s.odGet (oThermalSectorRatioMilli i)) else s2).setLevel i
  else s

/-- An RW field written with a value: none is BAD_VALUE. A counter takes zero alone, which clears it (R330). -/
def State.writeField (s : State) (ix : Nat) (r : DirRow) (b : List Nat) : Option State :=
  let a := ix * 256 + r.sub
  let v := ofLE b
  if r.flags.testBit 0 then
    if v = 0 then some { s.clearCounter a with storeDirty := s.storeDirty || r.persist == 2 } else none
  else if !valueInRange r v ∨ !s.accepts ix r.sub v then none
  else if ix = 0x100010 then s.mgmtWrite r.sub v
  else if ix / 65536 = 0x51 ∧ (r.sub = 6 ∨ r.sub = 7) then s.setpointWrite (ix % 16) (r.sub - 6) v
  else if ix / 65536 = 0x48 ∧ r.sub = 1 then
    let q := s.setRole (ix % 16) v
    if q.1 = 0 then some { q.2 with storeDirty := s.storeDirty || s.odGet a != v } else none
  else if ix / 65536 = 0x41 ∧ r.sub = 4 then s.slotCursor (ix % 8) v
  else if r.type = 13 then
    if leAt b 0 4 > 8 then none else some (s.putField r a (ofLE (b.drop 4)))
  else some ((s.putField r a v).fieldEffect s ix r.sub v)

/-- What the object as a whole asks of a write, and brings about: cascade.config is checked as one record and taken up (R407). -/
def State.finishWrite (s : State) (ix : Nat) : Option State :=
  if ix ≠ 0x640001 then some s else if s.configOk then some s.takeRecord else none

/-- A whole record (R322): every field in order, the RO ones as they stand in `old`, the RW ones together. -/
def State.writeFields (old : State) (ix : Nat) : List DirRow → List Nat → State → Option State
  | [], _, s => some s
  | r :: t, b, s =>
    let v := b.take (rowSize r)
    let s1 := if r.access = 0 then (if v = old.fieldBytes ix r then some s else none) else s.writeField ix r v
    s1.bind (State.writeFields old ix t (b.drop (rowSize r)))

-- ------------------------------------------------------------------ commands (R320)

/-- A write of 1 starts a command. -/
def onOne (v : Nat) (f : Option State) : Option State := if v = 1 then f else none

/-- fw.update.command (R448 to R450): none is BAD_VALUE. The ROM's image recovery takes BEGIN, COMMIT and CANCEL. -/
def State.fwCommand (s : State) (level : Nat) (b : List Nat) : Option State :=
  let c := leAt b 0 1
  if !zeroAt b 2 6 ∨ (s.recovery ∧ c > 3) then none
  else match c with
    | 1 => s.fwBegin (leAt b 8 8)
    | 2 => s.fwCommit
    | 3 => s.fwCancel
    | 4 => s.fwActivate
    | 5 => s.fwCommitVersion
    | 6 => s.fwRevoke level (leAt b 1 1)
    | _ => none

/-- fabric.link.retrain written 1 (R173): none while it runs; a link that is not up reads 2 failed. -/
def State.retrainCmd (s : State) (l : Nat) : Option State :=
  if s.odGet (oFabricLinkRetrain l) = 1 then none
  else if s.linkPassable l then some (s.startRetrain l true)
  else some (s.odSet (oFabricLinkRetrain l) 2)

/-- tile.fault.clear written 1: the ring is emptied. -/
def State.faultClear (s : State) (k : Nat) : State := (s.setTile k { s.tile k with log := [], drained := 0 }).odSet (oTileFaultClear k) 0

/-- device.control.hold written. -/
def State.holdWrite (s : State) (v : Nat) : Option State := match v with | 1 => s.holdCmd | 0 => s.releaseCmd | _ => none

/-- device.control.power written. -/
def State.powerWrite (s : State) (v : Nat) : Option State := match v with | 1 => s.startCmd | 2 => s.stopCmd | 3 => s.warmCmd | _ => none

/-- A CMD or WO object written at a session level: none is BAD_VALUE. -/
def State.command (s : State) (level ix sub : Nat) (b : List Nat) : Option State :=
  let a := ix * 256 + sub
  let area := ix / 65536
  let v := ofLE b
  if a = oDeviceControlHold then s.holdWrite v
  else if a = oDeviceControlPower then s.powerWrite v
  else if a = oDeviceControlUnretire then onOne v s.unretireCmd
  else if a = oDeviceStoreReset then onOne v (some s.storeReset)
  else if a = oSessionClose then some (s.sessionCloseCmd v)
  else if a = oSessionQuorumSet then s.quorumSet b
  else if a = oSessionPrincipalSet then s.principalSet level b
  else if area = 0x31 then onOne v (some (s.faultClear (ix % 65536)))
  else if area = 0x37 then onOne v (s.retrainCmd (ix % 65536))
  else if a = oPlacementPanelReplanForce then onOne v s.replanForce
  else if area = 0x41 ∧ sub = 2 then s.slotCommand (ix % 8) v
  else if area = 0x41 ∧ sub = 5 then s.slotImage (ix % 8) b
  else if a = oAgeingPanelReplanNow then onOne v s.replanNow
  else if a = oFaultPanelStallAbort then (if v < 256 then some ((s.stallAgain v).stallAbort v) else none)
  else if a = oCascadePanelCouch then (if s.odGet oCascadePanelCouch = 1 then none else s.couchWrite b)
  else if a = oCascadePanelReplace then s.replaceWrite b
  else if area = 0x66 then (if s.odGet (oCascadeLinkRetrain (ix % 16)) = 1 then none else s.seamRetrain (ix % 16) v)
  else if a = oBootClockSwitch then onOne v (some s.clockSwitch)
  else if a = oFwUpdateCommand then s.fwCommand level b
  else if a = oFwUpdateImage then s.fwImage b
  else if a = oSecAttestRequest then s.attestRequest b
  else if a = oDumpClear then onOne v s.dumpClear
  else none

-- ------------------------------------------------------------------ one entry (R321)

/-- The row that a write names, if the panel serves it; the ROM's image recovery takes fw.update.command and image alone (R450). -/
def State.writeRow (s : State) (ix sub : Nat) : Option DirRow :=
  if s.recovery then (if ix * 256 = oFwUpdateCommand ∨ ix * 256 = oFwUpdateImage then dirRow ix sub else none) else s.objRow ix sub

/-- What a checked write does: none is BAD_VALUE. -/
def State.applyWrite (s : State) (level ix : Nat) (r : DirRow) (b : List Nat) : Option State :=
  if r.type = 12 ∧ r.sub = 0 then (s.writeFields ix (fieldsOf r) b s).bind (·.finishWrite ix)
  else if r.access = 1 then (s.writeField ix r b).bind (·.finishWrite ix)
  else s.command level ix r.sub b

/-- A write checked in the order of R321 and applied: its status, and the state after it. -/
def State.writeEntry (s : State) (level ix sub : Nat) (b : List Nat) : Nat × State :=
  if factoryIndex ix then (if level < 3 then stLevel else stAbsent, s)
  else match s.writeRow ix sub with
    | none => (stAbsent, s)
    | some r =>
      if !accessWritable r then (stAccess, s)
      else if r.writeLevel > level then (stLevel, s)
      else if !s.recovery && !s.writeServed ix r (ofLE b) then (stState, s)
      else if !lengthOk ix sub r b then (stBadLength, s)
      else match s.applyWrite level ix r b with
        | some s1 => (stOk, s1)
        | none => (stBadValue, s)

/-- OBJECT_WRITE (R320, R330): a value written at a session level to an RW object or field. -/
def execObjectWrite (dt level ix sub : Nat) (b : List Nat) (s : State) : Host.Outcome State Fault Refusal :=
  let s := s.tick dt
  .next (match s.writeRow ix sub with
    | some r => if r.access = 1 ∧ !(r.type = 12 ∧ r.sub = 0) then (s.writeEntry level ix sub b).2 else s
    | none => s)

/-- RECORD_WRITE (R322): a whole record written at a session level. -/
def execRecordWrite (dt level ix : Nat) (b : List Nat) (s : State) : Host.Outcome State Fault Refusal :=
  let s := s.tick dt
  .next (match s.writeRow ix 0 with
    | some r => if r.type = 12 then (s.writeEntry level ix 0 b).2 else s
    | none => s)

-- ------------------------------------------------------------------ WRITE (R303)

/-- A WRITE's entries: index, subindex and value; none where the message is malformed. -/
def writeEntries : Nat → List Nat → Option (List (Nat × Nat × List Nat))
  | 0, b => if b = [] then some [] else none
  | n + 1, b =>
    let len := leAt b 6 2
    let pad := (len + 3) / 4 * 4
    if b.length < 8 + pad ∨ !zeroAt b 4 2 ∨ !zeroAt b (8 + len) (pad - len) then none
    else (writeEntries n (b.drop (8 + pad))).map ((leAt b 0 3, leAt b 3 1, sliceAt b 8 len) :: ·)

/-- Entries applied in order, each independently, with their statuses. -/
def State.writeAll (level : Nat) (st : State × List (Nat × Nat)) (e : Nat × Nat × List Nat) : State × List (Nat × Nat) :=
  let r := st.1.writeEntry level e.1 e.2.1 e.2.2
  (r.2, st.2 ++ [(e.1 * 256 + e.2.1, r.1)])

/-- The response of a WRITE: at once, or after the commit of the STORED values that it changed (R325); then what waits for it. -/
def State.answerWrite (s : State) (id rid : Nat) (pt : List Nat) (hold : Bool) : State :=
  if hold ∧ s.dev ≠ 0 then
    match s.session id with
    | some x => s.setSession { x with held := x.held ++ [(rid, pt)] }
    | none => s
  else ((s.respond id rid pt).mgmtNow).closeDueNow

/-- WRITE (R303). -/
def execWriteReq (dt session : Nat) (s : State) : Host.Outcome State Fault Refusal :=
  .next ((s.tick dt).serve session 0x12 (fun s x rid b =>
    let n := leAt b 0 1
    if n < 1 ∨ n > 32 ∨ !zeroAt b 1 3 then s.respondCode x 0x12 rid stMalformed
    else match writeEntries n (b.drop 4) with
      | none => s.respondCode x 0x12 rid stMalformed
      | some es =>
        let r := es.foldl (State.writeAll x.level) ({ s with storeDirty := false }, [])
        let hold := r.1.storeDirty
        let s1 : State := { r.1 with storeDirty := s.storeDirty || hold }
        let pt := eopPt 0x13 rid ([n, 0, 0, 0] ++ (r.2.map (fun p => addrBytes p.1 ++ [p.2, 0, 0, 0])).flatten)
        (s1.logAll x 0x12 r.2).answerWrite x.id rid pt hold))

end Sys2Proof.Machine
end

