-- ==== Sys2Proof/Machine/Turns.lean ====
section
/-!
DEFINITION. The turns of hub and steward firmware (R2): what a turn samples and takes, the steps of larger work, and the evaluation that
ends a hub's turn. Work that has a command of its own (admissions, passes, releases, object requests and the rest) is done by that
command; log entry 65 says how the two divide.
-/
namespace Sys2Proof.Machine

-- ------------------------------------------------------------------ doorbells and mailboxes (R180, R183)

/-- The doorbell bits of a node that are set and unmasked are acted on and cleared; masked ones stay latched. -/
def State.sampleBells (s : State) (node : Nat) : State :=
  match bellObj node with
  | some o => s.odSet (o + 1) (s.odGet (o + 1) &&& s.odGet (o + 2))
  | none => s

/-- The words of some of a node's mailboxes taken: their flags clear. -/
def State.takeWords (s : State) (node first n : Nat) : State :=
  { s with mboxes := (List.range n).foldl (fun m i => mdel m (mboxKey node (first + i))) s.mboxes }

/-- A lap mailbox of the acting hub is taken (R233, R412; log entry 28): with a lap's last completion the next lap begins, or, after a
deepened slot's last lap, the pass crosses to the next member. -/
def State.takeLap (s : State) (mbox : Nat) : State :=
  let key := mboxKey (hubNode s.actingHub) mbox
  let slot := (mbox - 16) / 2
  if (mlook s.mboxes key).isNone then s
  else
    let x := s.pslot slot
    let s1 := ({ s with mboxes := mdel s.mboxes key } : State).setPslot slot { x with lapLeft := x.lapLeft - 1 }
    if x.lapLeft ≠ 1 then s1
    else if x.lap + 1 < s.foldOf slot then s1.nextLap slot
    else s1.crossOut slot

/-- The mailbox numbers of a node, counted over its functions, that are full. -/
def State.fullBoxes (s : State) (node n : Nat) : List Nat := (List.range n).filter (fun i => (mlook s.mboxes (mboxKey node i)).isSome)

/-- Every mailbox of a hub that is full as the turn begins is taken: commit and lap words of function 0 first, in ascending number. -/
def State.takeHubWords (s : State) (h : Nat) : State :=
  let s1 := if h = s.actingHub ∧ s.dev ≠ 7 then
      (List.range 16).foldl (fun (s : State) i => s.takeLap (16 + i)) ((List.range 16).foldl State.takeCommit s)
    else s
  (s.fullBoxes (hubNode h) 128).foldl (fun (s : State) i => s.takeWords (hubNode h) i 1) s1

/-- Every notice in a hub's queue is taken, oldest first (R178). -/
def State.takeNotices (s : State) (h : Nat) : State := (s.notices h).foldl State.takeNotice (s.setNotices h [])

-- ------------------------------------------------------------------ retries and steps of larger work

/-- A group that waits for a stack to rebuild on is tried again, once in each floor-plan generation (R202). -/
def State.retryGroup (s : State) (g : Nat) : State :=
  let x := s.pgroup g
  let gen := s.odGet oFloorPanelGeneration
  let waits := x.lost.filter (fun m => !(x.rebuild.any (fun r => r.lost == m)))
  if x.members = [] ∨ waits = [] ∨ x.lost.length > 2 ∨ x.tried = gen then s
  else waits.foldl (fun (s : State) m => s.startRebuild g m) (s.setPgroup g { x with tried := gen })

/-- A hub runs its firmware: it is in service and the image has been verified (R332, R401). -/
def State.hubRuns (s : State) (h : Nat) : Bool := s.dev != 0 && !s.recovery && !s.hubsLost && s.goodHubs.contains h

/-- What a hub's turn does in service, beside the work that has commands of its own. -/
def State.serveTurn (s : State) : State :=
  let s1 := ((s.lanes.map (·.1)).filter (· < 256)).foldl State.stallAgain s
  let s2 := (s1.pgroups.map (·.1)).foldl State.retryGroup ((s1.fenceQueue.map (·.1)).foldl State.nextFence s1)
  s2.retryMail.coverAll.reap.heartbeats.carry

/-- One turn of a hub's firmware loop (R2). The leading hub does the panel's work; the other keeps its own queues. -/
def State.hubTurn (s : State) (h work : Nat) : State :=
  if !s.hubRuns h then s
  else
    let s1 := ((s.sampleBells (hubNode h)).takeHubWords h).takeNotices h
    if h ≠ s.leadHub then s1
    else
      let s2 := if 3 ≤ s1.dev ∧ s1.dev ≤ 5 then s1.serveTurn else if s1.dev = 6 then s1.retryMail.reap.heartbeats.carry else s1
      ((s2.attestNow.dumpStep work).deliverEvents).evaluate

/-- HUB_DISPATCH_POINT (R2): a turn of a hub; `work` is how many tiles a turn of a dump in its scan handles (R465). -/
def execHubDispatchPoint (dt : Nat) (hub : Fin 2) (work : Nat) (s : State) : Host.Outcome State Fault Refusal :=
  .next ((s.tick dt).hubTurn hub.val work)

-- ------------------------------------------------------------------ stewards (R2, R362)

/-- One turn of a steward's firmware loop (R2): doorbells and mailboxes, the sector's level, wakes that wait. -/
def State.stewardTurn (s : State) (i : Nat) : State :=
  if s.dev < 2 ∨ s.dev = 6 ∨ !s.stewardGood i then s
  else
    let s1 := ((s.sampleBells (stewardNode i)).takeWords (stewardNode i) 0 16).setLevel i
    s1.serveWakes i (s1.sector i).wakes.length

/-- STEWARD_DISPATCH_POINT (R2). -/
def execStewardDispatchPoint (dt : Nat) (sec : Fin 16) (s : State) : Host.Outcome State Fault Refusal :=
  .next ((s.tick dt).stewardTurn sec.val)

end Sys2Proof.Machine
end

