-- ==== Sys2Proof/Machine/Dispatch.lean ====
section
/-!
DEFINITION. What each command does: one arm per constructor of Instr, each a direct call of its meaning. Every meaning
takes the state with the rest of the queue already in place and leaves that queue alone.
-/
namespace Sys2Proof.Machine
open Sys2Proof

/-- The effect of a command on everything but the queue. -/
def exec (i : Instr) (s : State) : Host.Outcome State Fault Refusal :=
  match i with
  | .hubDispatchPoint dt hub work => Sys2Proof.Machine.execHubDispatchPoint dt hub work s
  | .stewardDispatchPoint dt sec => Sys2Proof.Machine.execStewardDispatchPoint dt sec s
  | .tileSequencerDispatch dt tile => Sys2Proof.Machine.execTileSequencerDispatch dt tile s
  | .configTokenArrival dt tile q payload wm src => Sys2Proof.Machine.execConfigTokenArrival dt tile q payload wm src s
  | .tokenArrival dt tile q tok src => Sys2Proof.Machine.execTokenArrival dt tile q tok src s
  | .matchingStoreMove dt tile slot input => Sys2Proof.Machine.execMatchingStoreMove dt tile slot input s
  | .matrixGroupFire dt tile slot => Sys2Proof.Machine.execMatrixGroupFire dt tile slot s
  | .matrixEmit dt tile firing => Sys2Proof.Machine.execMatrixEmit dt tile firing s
  | .vectorFire dt tile firing => Sys2Proof.Machine.execVectorFire dt tile firing s
  | .scratchpadReadFire dt tile slot contests => Sys2Proof.Machine.execScratchpadReadFire dt tile slot contests s
  | .scratchpadWriteFire dt tile slot contests => Sys2Proof.Machine.execScratchpadWriteFire dt tile slot contests s
  | .dmaFire dt tile slot contests => Sys2Proof.Machine.execDmaFire dt tile slot contests s
  | .pageGatherFire dt tile slot => Sys2Proof.Machine.execPageGatherFire dt tile slot s
  | .switchFire dt tile slot => Sys2Proof.Machine.execSwitchFire dt tile slot s
  | .mergeFire dt tile slot => Sys2Proof.Machine.execMergeFire dt tile slot s
  | .gateFire dt tile slot => Sys2Proof.Machine.execGateFire dt tile slot s
  | .splitFire dt tile slot => Sys2Proof.Machine.execSplitFire dt tile slot s
  | .joinFire dt tile slot => Sys2Proof.Machine.execJoinFire dt tile slot s
  | .inboundMailboxFire dt tile slot => Sys2Proof.Machine.execInboundMailboxFire dt tile slot s
  | .outboundMailboxFire dt tile slot => Sys2Proof.Machine.execOutboundMailboxFire dt tile slot s
  | .mailboxRetry dt tile slot => Sys2Proof.Machine.execMailboxRetry dt tile slot s
  | .errorTokenFire dt tile slot => Sys2Proof.Machine.execErrorTokenFire dt tile slot s
  | .stallDetected dt tile slot => Sys2Proof.Machine.execStallDetected dt tile slot s
  | .slotSwitch dt tile slot => Sys2Proof.Machine.execSlotSwitch dt tile slot s
  | .fenceApply dt tile lane => Sys2Proof.Machine.execFenceApply dt tile lane s
  | .fenceAck dt tile lane => Sys2Proof.Machine.execFenceAck dt tile lane s
  | .epochEnd dt mbox => Sys2Proof.Machine.execEpochEnd dt mbox s
  | .epochAbort dt lane => Sys2Proof.Machine.execEpochAbort dt lane s
  | .passIssue dt lane => Sys2Proof.Machine.execPassIssue dt lane s
  | .runaheadIssue dt lane => Sys2Proof.Machine.execRunaheadIssue dt lane s
  | .tileHold dt tile => Sys2Proof.Machine.execTileHold dt tile s
  | .tileRun dt tile => Sys2Proof.Machine.execTileRun dt tile s
  | .tileScanOut dt tile node offset => Sys2Proof.Machine.execTileScanOut dt tile node offset s
  | .tileScanIn dt tile node offset => Sys2Proof.Machine.execTileScanIn dt tile node offset s
  | .regionSet dt tile entry g0 g1 position => Sys2Proof.Machine.execRegionSet dt tile entry g0 g1 position s
  | .scratchFill dt tile first rows pattern full => Sys2Proof.Machine.execScratchFill dt tile first rows pattern full s
  | .scratchCopy dt tile source dest rows => Sys2Proof.Machine.execScratchCopy dt tile source dest rows s
  | .tagset dt tile first rows full => Sys2Proof.Machine.execTagset dt tile first rows full s
  | .scratchCommit dt tile entry position => Sys2Proof.Machine.execScratchCommit dt tile entry position s
  | .scratchRollback dt tile entry => Sys2Proof.Machine.execScratchRollback dt tile entry s
  | .scratchSwap dt tile entry => Sys2Proof.Machine.execScratchSwap dt tile entry s
  | .scratchSave dt tile first rows node offset => Sys2Proof.Machine.execScratchSave dt tile first rows node offset s
  | .scratchRestore dt tile node offset => Sys2Proof.Machine.execScratchRestore dt tile node offset s
  | .swapProtocol dt slot => Sys2Proof.Machine.execSwapProtocol dt slot s
  | .tokensPacket dt p => Sys2Proof.Machine.execTokensPacket dt p s
  | .remoteWrite dt p => Sys2Proof.Machine.execRemoteWrite dt p s
  | .remoteRead dt p ecc => Sys2Proof.Machine.execRemoteRead dt p ecc s
  | .writeAck dt p => Sys2Proof.Machine.execWriteAck dt p s
  | .readData dt p => Sys2Proof.Machine.execReadData dt p s
  | .errorPacket dt p => Sys2Proof.Machine.execErrorPacket dt p s
  | .configPacket dt p => Sys2Proof.Machine.execConfigPacket dt p s
  | .install dt p first rows => Sys2Proof.Machine.execInstall dt p first rows s
  | .multicastForward dt site edge p inst => Sys2Proof.Machine.execMulticastForward dt site edge p inst s
  | .linkBlockReceived dt link b turn => Sys2Proof.Machine.execLinkBlockReceived dt link b turn s
  | .ackTimeoutRetrain dt link => Sys2Proof.Machine.execAckTimeoutRetrain dt link s
  | .retrainRequest dt link received => Sys2Proof.Machine.execRetrainRequest dt link received s
  | .retrainDone dt link lanes minPs ok => Sys2Proof.Machine.execRetrainDone dt link lanes minPs ok s
  | .linkFail dt link cut => Sys2Proof.Machine.execLinkFail dt link cut s
  | .heldFlitFault dt link cut => Sys2Proof.Machine.execHeldFlitFault dt link cut s
  | .bankFlip dt pairs => Sys2Proof.Machine.execBankFlip dt pairs s
  | .bankDrainEnd dt bank => Sys2Proof.Machine.execBankDrainEnd dt bank s
  | .linkAdmit dt pairs => Sys2Proof.Machine.execLinkAdmit dt pairs s
  | .mboxWrite dt c => Sys2Proof.Machine.execMboxWrite dt c s
  | .mboxResp dt c => Sys2Proof.Machine.execMboxResp dt c s
  | .mboxPoll dt c => Sys2Proof.Machine.execMboxPoll dt c s
  | .mboxPollResp dt c => Sys2Proof.Machine.execMboxPollResp dt c s
  | .doorbell dt c => Sys2Proof.Machine.execDoorbell dt c s
  | .flagRead dt c => Sys2Proof.Machine.execFlagRead dt c s
  | .flagResp dt c => Sys2Proof.Machine.execFlagResp dt c s
  | .faultNotice dt c => Sys2Proof.Machine.execFaultNotice dt c s
  | .noticeResp dt c => Sys2Proof.Machine.execNoticeResp dt c s
  | .noticeResend dt node => Sys2Proof.Machine.execNoticeResend dt node s
  | .scanData dt c => Sys2Proof.Machine.execScanData dt c s
  | .bitmapRead dt c => Sys2Proof.Machine.execBitmapRead dt c s
  | .odReq dt c => Sys2Proof.Machine.execOdReq dt c s
  | .odResp dt c => Sys2Proof.Machine.execOdResp dt c s
  | .gather dt g => Sys2Proof.Machine.execGather dt g s
  | .stackFill dt p => Sys2Proof.Machine.execStackFill dt p s
  | .stackCopy dt p => Sys2Proof.Machine.execStackCopy dt p s
  | .dirSet dt p => Sys2Proof.Machine.execDirSet dt p s
  | .dirClear dt p => Sys2Proof.Machine.execDirClear dt p s
  | .groupSet dt p => Sys2Proof.Machine.execGroupSet dt p s
  | .parityDelta dt p => Sys2Proof.Machine.execParityDelta dt p s
  | .groupRead dt p => Sys2Proof.Machine.execGroupRead dt p s
  | .rebuild dt p => Sys2Proof.Machine.execRebuild dt p s
  | .rebuildComplete dt group member => Sys2Proof.Machine.execRebuildComplete dt group member s
  | .scrub dt p corrected bad => Sys2Proof.Machine.execScrub dt p corrected bad s
  | .scrubPass dt site corrected bad => Sys2Proof.Machine.execScrubPass dt site corrected bad s
  | .stackTempSample dt site baseMc dramMc => Sys2Proof.Machine.execStackTempSample dt site baseMc dramMc s
  | .stackRejoin dt site passed => Sys2Proof.Machine.execStackRejoin dt site passed s
  | .weightCopyRestore dt slot sec => Sys2Proof.Machine.execWeightCopyRestore dt slot sec s
  | .slotBegin dt slot => Sys2Proof.Machine.execSlotBegin dt slot s
  | .slotImageWrite dt slot b => Sys2Proof.Machine.execSlotImageWrite dt slot b s
  | .slotCursorWrite dt slot v => Sys2Proof.Machine.execSlotCursorWrite dt slot v s
  | .slotCommit dt slot => Sys2Proof.Machine.execSlotCommit dt slot s
  | .loadChecksDone dt slot => Sys2Proof.Machine.execLoadChecksDone dt slot s
  | .placementDone dt slot est cap bulk => Sys2Proof.Machine.execPlacementDone dt slot est cap bulk s
  | .slotCancel dt slot => Sys2Proof.Machine.execSlotCancel dt slot s
  | .slotUnload dt slot => Sys2Proof.Machine.execSlotUnload dt slot s
  | .unloadDone dt slot => Sys2Proof.Machine.execUnloadDone dt slot s
  | .resupply dt slot => Sys2Proof.Machine.execResupply dt slot s
  | .replanForce dt => Sys2Proof.Machine.execReplanForce dt s
  | .rebalance dt pauseUs => Sys2Proof.Machine.execRebalance dt pauseUs s
  | .respare dt pauseUs => Sys2Proof.Machine.execRespare dt pauseUs s
  | .slice dt out in' est cap bulk pauseUs => Sys2Proof.Machine.execSlice dt out in' est cap bulk pauseUs s
  | .fullReplan dt pauseUs => Sys2Proof.Machine.execFullReplan dt pauseUs s
  | .speedSample dt rates => Sys2Proof.Machine.execSpeedSample dt rates s
  | .planRecomputeDone dt => Sys2Proof.Machine.execPlanRecomputeDone dt s
  | .submitFragment dt d => Sys2Proof.Machine.execSubmitFragment dt d s
  | .rtSubmit dt stream src => Sys2Proof.Machine.execRtSubmit dt stream src s
  | .submitTimeout dt stream src => Sys2Proof.Machine.execSubmitTimeout dt stream src s
  | .admitStream dt => Sys2Proof.Machine.execAdmitStream dt s
  | .tokenRelease dt lane => Sys2Proof.Machine.execTokenRelease dt lane s
  | .underrunRelease dt lane => Sys2Proof.Machine.execUnderrunRelease dt lane s
  | .rtAbort dt d => Sys2Proof.Machine.execRtAbort dt d s
  | .terminalRecordExpire dt stream => Sys2Proof.Machine.execTerminalRecordExpire dt stream s
  | .productionCheck dt lane => Sys2Proof.Machine.execProductionCheck dt lane s
  | .adaptCycleStart dt slot => Sys2Proof.Machine.execAdaptCycleStart dt slot s
  | .adaptCycleDone dt slot => Sys2Proof.Machine.execAdaptCycleDone dt slot s
  | .portRoleWrite dt port role => Sys2Proof.Machine.execPortRoleWrite dt port role s
  | .rtSack dt d => Sys2Proof.Machine.execRtSack dt d s
  | .rtCredit dt d => Sys2Proof.Machine.execRtCredit dt d s
  | .rtRetransmit dt stream => Sys2Proof.Machine.execRtRetransmit dt stream s
  | .hostSilence dt stream => Sys2Proof.Machine.execHostSilence dt stream s
  | .pfcPause dt port prio => Sys2Proof.Machine.execPfcPause dt port prio s
  | .pfcPauseEnd dt port => Sys2Proof.Machine.execPfcPauseEnd dt port s
  | .ptpMessage dt port domain announce offsetNs => Sys2Proof.Machine.execPtpMessage dt port domain announce offsetNs s
  | .ptpPortMove dt => Sys2Proof.Machine.execPtpPortMove dt s
  | .hostPortFail dt port => Sys2Proof.Machine.execHostPortFail dt port s
  | .hostPortUp dt port => Sys2Proof.Machine.execHostPortUp dt port s
  | .moduleInsert dt port vendor part serial revision cmis app powerMw warnUa => Sys2Proof.Machine.execModuleInsert dt port vendor part serial revision cmis app powerMw warnUa s
  | .moduleRemove dt port => Sys2Proof.Machine.execModuleRemove dt port s
  | .moduleMonitorRead dt port tempMc biasUa fault => Sys2Proof.Machine.execModuleMonitorRead dt port tempMc biasUa fault s
  | .lldpReceive dt port mac portId name => Sys2Proof.Machine.execLldpReceive dt port mac portId name s
  | .arpRequest dt port target sender => Sys2Proof.Machine.execArpRequest dt port target sender s
  | .neighborDiscovery dt port target sender => Sys2Proof.Machine.execNeighborDiscovery dt port target sender s
  | .icmpEcho dt d v6 target => Sys2Proof.Machine.execIcmpEcho dt d v6 target s
  | .eopFragmentTimeout dt => Sys2Proof.Machine.execEopFragmentTimeout dt s
  | .hello dt d => Sys2Proof.Machine.execHello dt d s
  | .halfOpenExpire dt => Sys2Proof.Machine.execHalfOpenExpire dt s
  | .proof dt session => Sys2Proof.Machine.execProof dt session s
  | .protectedReceive dt d => Sys2Proof.Machine.execProtectedReceive dt d s
  | .closeSession dt session => Sys2Proof.Machine.execCloseSession dt session s
  | .keepalive dt session => Sys2Proof.Machine.execKeepalive dt session s
  | .sessionIdleTimeout dt session => Sys2Proof.Machine.execSessionIdleTimeout dt session s
  | .sessionLifetimeEnd dt session => Sys2Proof.Machine.execSessionLifetimeEnd dt session s
  | .readReq dt session => Sys2Proof.Machine.execReadReq dt session s
  | .writeReq dt session => Sys2Proof.Machine.execWriteReq dt session s
  | .bulkRead dt session => Sys2Proof.Machine.execBulkRead dt session s
  | .subscribe dt session => Sys2Proof.Machine.execSubscribe dt session s
  | .unsubscribe dt session => Sys2Proof.Machine.execUnsubscribe dt session s
  | .eventAck dt session => Sys2Proof.Machine.execEventAck dt session s
  | .eventResend dt session sub => Sys2Proof.Machine.execEventResend dt session sub s
  | .quorum dt session => Sys2Proof.Machine.execQuorum dt session s
  | .quorumIdExpire dt => Sys2Proof.Machine.execQuorumIdExpire dt s
  | .retire dt => Sys2Proof.Machine.execRetire dt s
  | .expel dt => Sys2Proof.Machine.execExpel dt s
  | .forcedHandover dt => Sys2Proof.Machine.execForcedHandover dt s
  | .objectWrite dt level ix sub b => Sys2Proof.Machine.execObjectWrite dt level ix sub b s
  | .recordWrite dt level ix b => Sys2Proof.Machine.execRecordWrite dt level ix b s
  | .storeCommit dt => Sys2Proof.Machine.execStoreCommit dt s
  | .holdCmd dt => Sys2Proof.Machine.execHoldCmd dt s
  | .releaseHold dt => Sys2Proof.Machine.execReleaseHold dt s
  | .startCmd dt => Sys2Proof.Machine.execStartCmd dt s
  | .stopCmd dt => Sys2Proof.Machine.execStopCmd dt s
  | .warmReset dt => Sys2Proof.Machine.execWarmReset dt s
  | .unretire dt => Sys2Proof.Machine.execUnretire dt s
  | .storeReset dt => Sys2Proof.Machine.execStoreReset dt s
  | .sessionClose dt id => Sys2Proof.Machine.execSessionClose dt id s
  | .principalSet dt level b => Sys2Proof.Machine.execPrincipalSet dt level b s
  | .quorumSet dt b => Sys2Proof.Machine.execQuorumSet dt b s
  | .mgmtAddressWrite dt sub v => Sys2Proof.Machine.execMgmtAddressWrite dt sub v s
  | .sectorPowerUp dt sec phases => Sys2Proof.Machine.execSectorPowerUp dt sec phases s
  | .railSettleTimeout dt sec => Sys2Proof.Machine.execRailSettleTimeout dt sec s
  | .setpointWrite dt sec domain mv => Sys2Proof.Machine.execSetpointWrite dt sec domain mv s
  | .setpointReached dt sec domain => Sys2Proof.Machine.execSetpointReached dt sec domain s
  | .paceLevelChange dt sec => Sys2Proof.Machine.execPaceLevelChange dt sec s
  | .panelPowerSample dt mv watts projected outputs => Sys2Proof.Machine.execPanelPowerSample dt mv watts projected outputs s
  | .sectorCurrentSample dt sec amps watts projected => Sys2Proof.Machine.execSectorCurrentSample dt sec amps watts projected s
  | .paceShortfall dt sec => Sys2Proof.Machine.execPaceShortfall dt sec s
  | .droopEvent dt sec => Sys2Proof.Machine.execDroopEvent dt sec s
  | .droopTrimExpire dt sec => Sys2Proof.Machine.execDroopTrimExpire dt sec s
  | .brickLoss dt brick state => Sys2Proof.Machine.execBrickLoss dt brick state s
  | .brickInsert dt brick serial => Sys2Proof.Machine.execBrickInsert dt brick serial s
  | .idleEntry dt tile => Sys2Proof.Machine.execIdleEntry dt tile s
  | .idleCommand dt tile => Sys2Proof.Machine.execIdleCommand dt tile s
  | .wakeRequest dt tile recovery => Sys2Proof.Machine.execWakeRequest dt tile recovery s
  | .wakeStep dt sec => Sys2Proof.Machine.execWakeStep dt sec s
  | .wakeTrimExpire dt sec => Sys2Proof.Machine.execWakeTrimExpire dt sec s
  | .sectorLatch dt sec => Sys2Proof.Machine.execSectorLatch dt sec s
  | .sectorSupplyLoss dt sec => Sys2Proof.Machine.execSectorSupplyLoss dt sec s
  | .hotspotSample dt site spot a b est => Sys2Proof.Machine.execHotspotSample dt site spot a b est s
  | .dieTempEval dt site => Sys2Proof.Machine.execDieTempEval dt site s
  | .criticalDieRetest dt site bad passed => Sys2Proof.Machine.execCriticalDieRetest dt site bad passed s
  | .thermalResistanceSample dt sec => Sys2Proof.Machine.execThermalResistanceSample dt sec s
  | .coolingWarning dt inletMc outletMc flow => Sys2Proof.Machine.execCoolingWarning dt inletMc outletMc flow s
  | .marginRead dt site margins slowing => Sys2Proof.Machine.execMarginRead dt site margins slowing s
  | .eyeMarginRead dt link lanes => Sys2Proof.Machine.execEyeMarginRead dt link lanes s
  | .stackEccRateCheck dt site => Sys2Proof.Machine.execStackEccRateCheck dt site s
  | .marginReplan dt => Sys2Proof.Machine.execMarginReplan dt s
  | .replanNow dt => Sys2Proof.Machine.execReplanNow dt s
  | .moduleLifeDaily dt port => Sys2Proof.Machine.execModuleLifeDaily dt port s
  | .dieHeartbeatRead dt site => Sys2Proof.Machine.execDieHeartbeatRead dt site s
  | .hubHeartbeat dt hub rung => Sys2Proof.Machine.execHubHeartbeat dt hub rung s
  | .offgridHeartbeatPoll dt fn fresh => Sys2Proof.Machine.execOffgridHeartbeatPoll dt fn fresh s
  | .faultContainment dt => Sys2Proof.Machine.execFaultContainment dt s
  | .repair dt est cap bulk => Sys2Proof.Machine.execRepair dt est cap bulk s
  | .hubLoss dt hub => Sys2Proof.Machine.execHubLoss dt hub s
  | .stewardLoss dt sec => Sys2Proof.Machine.execStewardLoss dt sec s
  | .violationNotice dt => Sys2Proof.Machine.execViolationNotice dt s
  | .stallAbort dt lane => Sys2Proof.Machine.execStallAbort dt lane s
  | .bgEscalate dt cls => Sys2Proof.Machine.execBgEscalate dt cls s
  | .bgSlotHold dt cls us => Sys2Proof.Machine.execBgSlotHold dt cls us s
  | .scrubForcedPause dt site => Sys2Proof.Machine.execScrubForcedPause dt site s
  | .resupplyTimeout dt slot => Sys2Proof.Machine.execResupplyTimeout dt slot s
  | .fatalEntry dt which => Sys2Proof.Machine.execFatalEntry dt which s
  | .hubsLostIdle dt => Sys2Proof.Machine.execHubsLostIdle dt s
  | .seamLinkUp dt port serial cid digest panel peerPort minPs => Sys2Proof.Machine.execSeamLinkUp dt port serial cid digest panel peerPort minPs s
  | .cascadeForm dt => Sys2Proof.Machine.execCascadeForm dt s
  | .memberHeartbeat dt port beat msgs => Sys2Proof.Machine.execMemberHeartbeat dt port beat msgs s
  | .memberLoss dt panel => Sys2Proof.Machine.execMemberLoss dt panel s
  | .deputyTakeover dt => Sys2Proof.Machine.execDeputyTakeover dt s
  | .masterIsolate dt => Sys2Proof.Machine.execMasterIsolate dt s
  | .transferReissue dt id => Sys2Proof.Machine.execTransferReissue dt id s
  | .cascadeLevelChange dt => Sys2Proof.Machine.execCascadeLevelChange dt s
  | .deepenCommitRecord dt port stream record => Sys2Proof.Machine.execDeepenCommitRecord dt port stream record s
  | .reamContribution dt slot red index copy word values => Sys2Proof.Machine.execReamContribution dt slot red index copy word values s
  | .reamDeadline dt slot red => Sys2Proof.Machine.execReamDeadline dt slot red s
  | .reamAbandon dt slot red => Sys2Proof.Machine.execReamAbandon dt slot red s
  | .reamReduce dt slot red => Sys2Proof.Machine.execReamReduce dt slot red s
  | .couchStart dt => Sys2Proof.Machine.execCouchStart dt s
  | .couchSwitch dt => Sys2Proof.Machine.execCouchSwitch dt s
  | .cascadeCouchCmd dt b => Sys2Proof.Machine.execCascadeCouchCmd dt b s
  | .memberReport dt panel speed late rate short => Sys2Proof.Machine.execMemberReport dt panel speed late rate short s
  | .cascadeReplace dt b => Sys2Proof.Machine.execCascadeReplace dt b s
  | .powerOn dt romA romB bricks => Sys2Proof.Machine.execPowerOn dt romA romB bricks s
  | .imageVerify dt failA failB crc0 crc1 strap => Sys2Proof.Machine.execImageVerify dt failA failB crc0 crc1 strap s
  | .standbyBusLoad dt fn ok => Sys2Proof.Machine.execStandbyBusLoad dt fn ok s
  | .bringupStep dt cal => Sys2Proof.Machine.execBringupStep dt cal s
  | .clockSourceLoss dt die => Sys2Proof.Machine.execClockSourceLoss dt die s
  | .clockSwitch dt => Sys2Proof.Machine.execClockSwitch dt s
  | .discover dt die edge x y kind dieId peers => Sys2Proof.Machine.execDiscover dt die edge x y kind dieId peers s
  | .linkBerCheck dt link bits outErr inErr ctlBits ctlErr ctlPs => Sys2Proof.Machine.execLinkBerCheck dt link bits outErr inErr ctlBits ctlErr ctlPs s
  | .firmwareBroadcast dt base => Sys2Proof.Machine.execFirmwareBroadcast dt base s
  | .chunkReceived dt site chunk data => Sys2Proof.Machine.execChunkReceived dt site chunk data s
  | .repairRound dt => Sys2Proof.Machine.execRepairRound dt s
  | .stackBringup dt stack trained tested repairs => Sys2Proof.Machine.execStackBringup dt stack trained tested repairs s
  | .knownAnswerRun dt site point bad raised dieBad => Sys2Proof.Machine.execKnownAnswerRun dt site point bad raised dieBad s
  | .floorPlanAssembly dt pairs => Sys2Proof.Machine.execFloorPlanAssembly dt pairs s
  | .readyGate dt selfA selfB => Sys2Proof.Machine.execReadyGate dt selfA selfB s
  | .bringupTimeout dt => Sys2Proof.Machine.execBringupTimeout dt s
  | .fwBegin dt len => Sys2Proof.Machine.execFwBegin dt len s
  | .fwImageWrite dt b => Sys2Proof.Machine.execFwImageWrite dt b s
  | .fwCommit dt => Sys2Proof.Machine.execFwCommit dt s
  | .flashWriteDone dt ok => Sys2Proof.Machine.execFlashWriteDone dt ok s
  | .fwCancel dt => Sys2Proof.Machine.execFwCancel dt s
  | .activate dt => Sys2Proof.Machine.execActivate dt s
  | .commitVersion dt => Sys2Proof.Machine.execCommitVersion dt s
  | .revoke dt level slot => Sys2Proof.Machine.execRevoke dt level slot s
  | .imageRecoveryCommit dt strap => Sys2Proof.Machine.execImageRecoveryCommit dt strap s
  | .attestRequest dt nonce => Sys2Proof.Machine.execAttestRequest dt nonce s
  | .dumpTimeLimit dt => Sys2Proof.Machine.execDumpTimeLimit dt s
  | .dumpClear dt => Sys2Proof.Machine.execDumpClear dt s
  | .inputLoss dt => Sys2Proof.Machine.execInputLoss dt s
  | .epoOpen dt => Sys2Proof.Machine.execEpoOpen dt s
  | .seamLinkLossOfSignal dt port => Sys2Proof.Machine.execSeamLinkLossOfSignal dt port s
  | .ptpMasterLoss dt => Sys2Proof.Machine.execPtpMasterLoss dt s
  | .cascadeFormingReport dt => Sys2Proof.Machine.execCascadeFormingReport dt s

end Sys2Proof.Machine
end

