-- ==== Sys2Proof/WellFormed.lean ====
section
/-!
DEFINITION. Which commands can reach the panel: the element that a command names exists (`Instr.present`), and what it carries fits
the fields that the spec gives it (`Instr.wf`). A command whose element does not exist lets its time pass and does nothing else (log entry 80).
-/
namespace Sys2Proof
open Sys2Proof.Machine

/-- Every element is a byte. -/
def bytesOk (b : List Nat) : Bool := b.all (fun x => decide (x < 256))

/-- The fields of a packet fit the head flit, and it carries up to 64 payload flits (R155). -/
def Pkt.wf (p : Pkt) : Bool :=
  decide (p.dest < 2 ^ 16) && decide (p.src < 2 ^ 16) && decide (p.ptype < 256) && decide (p.vc < 4) && decide (p.gen < 2) &&
  decide (p.srcSlot < 16) && decide (p.queue < 64) && decide (p.offset < 2 ^ 48) && decide (p.retOffset < 2 ^ 48) &&
  decide (p.txn < 2 ^ 16) && decide (p.hops < 256) && decide (p.rowsM1 < 64) && bytesOk p.op && decide (p.op.length ≤ 36) &&
  decide (p.body.length ≤ 64)

/-- The fields of a control packet fit its words, and it carries up to 17 payload words (R177). -/
def Ctl.wf (c : Ctl) : Bool :=
  decide (c.dest < 2 ^ 16) && decide (c.src < 2 ^ 16) && decide (c.op < 256) && decide (c.txn < 2 ^ 16) &&
  decide (c.words.length ≤ 17) && c.words.all (fun w => decide (w < 2 ^ 32)) && decide (c.cls < 2) && decide (c.rsv < 4)

/-- A datagram's ports are 16-bit and its payload is bytes (R271). -/
def Dgram.wf (d : Dgram) : Bool := decide (d.udp < 2 ^ 16) && decide (d.src.port < 2 ^ 16) && bytesOk d.body

/-- The element that a command names exists on the panel: the tile at a compute site, the stack, the compute die, the link
(R17, R18, R59, R153). Commands that name no element are always present. -/
def Instr.present : Instr → Bool
  | .hubDispatchPoint _ _ _ => true
  | .stewardDispatchPoint _ _ => true
  | .tileSequencerDispatch _ tile => isTile tile
  | .configTokenArrival _ tile _ _ _ _ => isTile tile
  | .tokenArrival _ tile _ _ _ => isTile tile
  | .matchingStoreMove _ tile _ _ => isTile tile
  | .matrixGroupFire _ tile _ => isTile tile
  | .matrixEmit _ tile _ => isTile tile
  | .vectorFire _ tile _ => isTile tile
  | .scratchpadReadFire _ tile _ _ => isTile tile
  | .scratchpadWriteFire _ tile _ _ => isTile tile
  | .dmaFire _ tile _ _ => isTile tile
  | .pageGatherFire _ tile _ => isTile tile
  | .switchFire _ tile _ => isTile tile
  | .mergeFire _ tile _ => isTile tile
  | .gateFire _ tile _ => isTile tile
  | .splitFire _ tile _ => isTile tile
  | .joinFire _ tile _ => isTile tile
  | .inboundMailboxFire _ tile _ => isTile tile
  | .outboundMailboxFire _ tile _ => isTile tile
  | .mailboxRetry _ tile _ => isTile tile
  | .errorTokenFire _ tile _ => isTile tile
  | .stallDetected _ tile _ => isTile tile
  | .slotSwitch _ tile _ => isTile tile
  | .fenceApply _ tile _ => isTile tile
  | .fenceAck _ tile _ => isTile tile
  | .epochEnd _ _ => true
  | .epochAbort _ _ => true
  | .passIssue _ _ => true
  | .runaheadIssue _ _ => true
  | .tileHold _ tile => isTile tile
  | .tileRun _ tile => isTile tile
  | .tileScanOut _ tile _ _ => isTile tile
  | .tileScanIn _ tile _ _ => isTile tile
  | .regionSet _ tile _ _ _ _ => isTile tile
  | .scratchFill _ tile _ _ _ _ => isTile tile
  | .scratchCopy _ tile _ _ _ => isTile tile
  | .tagset _ tile _ _ _ => isTile tile
  | .scratchCommit _ tile _ _ => isTile tile
  | .scratchRollback _ tile _ => isTile tile
  | .scratchSwap _ tile _ => isTile tile
  | .scratchSave _ tile _ _ _ _ => isTile tile
  | .scratchRestore _ tile _ _ => isTile tile
  | .swapProtocol _ _ => true
  | .tokensPacket _ _ => true
  | .remoteWrite _ _ => true
  | .remoteRead _ _ _ => true
  | .writeAck _ _ => true
  | .readData _ _ => true
  | .errorPacket _ _ => true
  | .configPacket _ _ => true
  | .install _ _ _ _ => true
  | .multicastForward _ _ _ _ _ => true
  | .linkBlockReceived _ link _ _ => linkExists link
  | .ackTimeoutRetrain _ link => linkExists link
  | .retrainRequest _ link _ => linkExists link
  | .retrainDone _ link _ _ _ => linkExists link
  | .linkFail _ link _ => linkExists link
  | .heldFlitFault _ link _ => linkExists link
  | .bankFlip _ _ => true
  | .bankDrainEnd _ _ => true
  | .linkAdmit _ _ => true
  | .mboxWrite _ _ => true
  | .mboxResp _ _ => true
  | .mboxPoll _ _ => true
  | .mboxPollResp _ _ => true
  | .doorbell _ _ => true
  | .flagRead _ _ => true
  | .flagResp _ _ => true
  | .faultNotice _ _ => true
  | .noticeResp _ _ => true
  | .noticeResend _ _ => true
  | .scanData _ _ => true
  | .bitmapRead _ _ => true
  | .odReq _ _ => true
  | .odResp _ _ => true
  | .gather _ _ => true
  | .stackFill _ _ => true
  | .stackCopy _ _ => true
  | .dirSet _ _ => true
  | .dirClear _ _ => true
  | .groupSet _ _ => true
  | .parityDelta _ _ => true
  | .groupRead _ _ => true
  | .rebuild _ _ => true
  | .rebuildComplete _ _ _ => true
  | .scrub _ _ _ _ => true
  | .scrubPass _ site _ _ => isStackSite site
  | .stackTempSample _ site _ _ => isStackSite site
  | .stackRejoin _ site _ => isStackSite site
  | .weightCopyRestore _ _ _ => true
  | .slotBegin _ _ => true
  | .slotImageWrite _ _ _ => true
  | .slotCursorWrite _ _ _ => true
  | .slotCommit _ _ => true
  | .loadChecksDone _ _ => true
  | .placementDone _ _ _ _ _ => true
  | .slotCancel _ _ => true
  | .slotUnload _ _ => true
  | .unloadDone _ _ => true
  | .resupply _ _ => true
  | .replanForce _ => true
  | .rebalance _ _ => true
  | .respare _ _ => true
  | .slice _ _ _ _ _ _ _ => true
  | .fullReplan _ _ => true
  | .speedSample _ _ => true
  | .planRecomputeDone _ => true
  | .submitFragment _ _ => true
  | .rtSubmit _ _ _ => true
  | .submitTimeout _ _ _ => true
  | .admitStream _ => true
  | .tokenRelease _ _ => true
  | .underrunRelease _ _ => true
  | .rtAbort _ _ => true
  | .terminalRecordExpire _ _ => true
  | .productionCheck _ _ => true
  | .adaptCycleStart _ _ => true
  | .adaptCycleDone _ _ => true
  | .portRoleWrite _ _ _ => true
  | .rtSack _ _ => true
  | .rtCredit _ _ => true
  | .rtRetransmit _ _ => true
  | .hostSilence _ _ => true
  | .pfcPause _ _ _ => true
  | .pfcPauseEnd _ _ => true
  | .ptpMessage _ _ _ _ _ => true
  | .ptpPortMove _ => true
  | .hostPortFail _ _ => true
  | .hostPortUp _ _ => true
  | .moduleInsert _ _ _ _ _ _ _ _ _ _ => true
  | .moduleRemove _ _ => true
  | .moduleMonitorRead _ _ _ _ _ => true
  | .lldpReceive _ _ _ _ _ => true
  | .arpRequest _ _ _ _ => true
  | .neighborDiscovery _ _ _ _ => true
  | .icmpEcho _ _ _ _ => true
  | .eopFragmentTimeout _ => true
  | .hello _ _ => true
  | .halfOpenExpire _ => true
  | .proof _ _ => true
  | .protectedReceive _ _ => true
  | .closeSession _ _ => true
  | .keepalive _ _ => true
  | .sessionIdleTimeout _ _ => true
  | .sessionLifetimeEnd _ _ => true
  | .readReq _ _ => true
  | .writeReq _ _ => true
  | .bulkRead _ _ => true
  | .subscribe _ _ => true
  | .unsubscribe _ _ => true
  | .eventAck _ _ => true
  | .eventResend _ _ _ => true
  | .quorum _ _ => true
  | .quorumIdExpire _ => true
  | .retire _ => true
  | .expel _ => true
  | .forcedHandover _ => true
  | .objectWrite _ _ _ _ _ => true
  | .recordWrite _ _ _ _ => true
  | .storeCommit _ => true
  | .holdCmd _ => true
  | .releaseHold _ => true
  | .startCmd _ => true
  | .stopCmd _ => true
  | .warmReset _ => true
  | .unretire _ => true
  | .storeReset _ => true
  | .sessionClose _ _ => true
  | .principalSet _ _ _ => true
  | .quorumSet _ _ => true
  | .mgmtAddressWrite _ _ _ => true
  | .sectorPowerUp _ _ _ => true
  | .railSettleTimeout _ _ => true
  | .setpointWrite _ _ _ _ => true
  | .setpointReached _ _ _ => true
  | .paceLevelChange _ _ => true
  | .panelPowerSample _ _ _ _ _ => true
  | .sectorCurrentSample _ _ _ _ _ => true
  | .paceShortfall _ _ => true
  | .droopEvent _ _ => true
  | .droopTrimExpire _ _ => true
  | .brickLoss _ _ _ => true
  | .brickInsert _ _ _ => true
  | .idleEntry _ tile => isTile tile
  | .idleCommand _ tile => isTile tile
  | .wakeRequest _ tile _ => isTile tile
  | .wakeStep _ _ => true
  | .wakeTrimExpire _ _ => true
  | .sectorLatch _ _ => true
  | .sectorSupplyLoss _ _ => true
  | .hotspotSample _ site _ _ _ _ => isCompute site.val
  | .dieTempEval _ site => isCompute site.val
  | .criticalDieRetest _ site _ _ => isCompute site.val
  | .thermalResistanceSample _ _ => true
  | .coolingWarning _ _ _ _ => true
  | .marginRead _ site _ _ => isCompute site.val
  | .eyeMarginRead _ link _ => linkExists link
  | .stackEccRateCheck _ site => isStackSite site
  | .marginReplan _ => true
  | .replanNow _ => true
  | .moduleLifeDaily _ _ => true
  | .dieHeartbeatRead _ site => isCompute site.val
  | .hubHeartbeat _ _ _ => true
  | .offgridHeartbeatPoll _ _ _ => true
  | .faultContainment _ => true
  | .repair _ _ _ _ => true
  | .hubLoss _ _ => true
  | .stewardLoss _ _ => true
  | .violationNotice _ => true
  | .stallAbort _ _ => true
  | .bgEscalate _ _ => true
  | .bgSlotHold _ _ _ => true
  | .scrubForcedPause _ site => isStackSite site
  | .resupplyTimeout _ _ => true
  | .fatalEntry _ _ => true
  | .hubsLostIdle _ => true
  | .seamLinkUp _ _ _ _ _ _ _ _ => true
  | .cascadeForm _ => true
  | .memberHeartbeat _ _ _ _ => true
  | .memberLoss _ _ => true
  | .deputyTakeover _ => true
  | .masterIsolate _ => true
  | .transferReissue _ _ => true
  | .cascadeLevelChange _ => true
  | .deepenCommitRecord _ _ _ _ => true
  | .reamContribution _ _ _ _ _ _ _ => true
  | .reamDeadline _ _ _ => true
  | .reamAbandon _ _ _ => true
  | .reamReduce _ _ _ => true
  | .couchStart _ => true
  | .couchSwitch _ => true
  | .cascadeCouchCmd _ _ => true
  | .memberReport _ _ _ _ _ _ => true
  | .cascadeReplace _ _ => true
  | .powerOn _ _ _ _ => true
  | .imageVerify _ _ _ _ _ _ => true
  | .standbyBusLoad _ _ _ => true
  | .bringupStep _ _ => true
  | .clockSourceLoss _ _ => true
  | .clockSwitch _ => true
  | .discover _ _ _ _ _ _ _ _ => true
  | .linkBerCheck _ link _ _ _ _ _ _ => linkExists link
  | .firmwareBroadcast _ _ => true
  | .chunkReceived _ _ _ _ => true
  | .repairRound _ => true
  | .stackBringup _ _ _ _ _ => true
  | .knownAnswerRun _ site _ _ _ _ => isCompute site.val
  | .floorPlanAssembly _ _ => true
  | .readyGate _ _ _ => true
  | .bringupTimeout _ => true
  | .fwBegin _ _ => true
  | .fwImageWrite _ _ => true
  | .fwCommit _ => true
  | .flashWriteDone _ _ => true
  | .fwCancel _ => true
  | .activate _ => true
  | .commitVersion _ => true
  | .revoke _ _ _ => true
  | .imageRecoveryCommit _ _ => true
  | .attestRequest _ _ => true
  | .dumpTimeLimit _ => true
  | .dumpClear _ => true
  | .inputLoss _ => true
  | .epoOpen _ => true
  | .seamLinkLossOfSignal _ _ => true
  | .ptpMasterLoss _ => true
  | .cascadeFormingReport _ => true

/-- What a command carries fits its fields. -/
def Instr.fieldsOk : Instr → Bool
  | .hubDispatchPoint _ _ _ => true
  | .stewardDispatchPoint _ _ => true
  | .tileSequencerDispatch _ _ => true
  | .configTokenArrival _ _ _ _ _ _ => true
  | .tokenArrival _ _ _ _ _ => true
  | .matchingStoreMove _ _ _ _ => true
  | .matrixGroupFire _ _ _ => true
  | .matrixEmit _ _ _ => true
  | .vectorFire _ _ _ => true
  | .scratchpadReadFire _ _ _ _ => true
  | .scratchpadWriteFire _ _ _ _ => true
  | .dmaFire _ _ _ _ => true
  | .pageGatherFire _ _ _ => true
  | .switchFire _ _ _ => true
  | .mergeFire _ _ _ => true
  | .gateFire _ _ _ => true
  | .splitFire _ _ _ => true
  | .joinFire _ _ _ => true
  | .inboundMailboxFire _ _ _ => true
  | .outboundMailboxFire _ _ _ => true
  | .mailboxRetry _ _ _ => true
  | .errorTokenFire _ _ _ => true
  | .stallDetected _ _ _ => true
  | .slotSwitch _ _ _ => true
  | .fenceApply _ _ _ => true
  | .fenceAck _ _ _ => true
  | .epochEnd _ _ => true
  | .epochAbort _ _ => true
  | .passIssue _ _ => true
  | .runaheadIssue _ _ => true
  | .tileHold _ _ => true
  | .tileRun _ _ => true
  | .tileScanOut _ _ _ _ => true
  | .tileScanIn _ _ _ _ => true
  | .regionSet _ _ _ _ _ _ => true
  | .scratchFill _ _ _ _ _ _ => true
  | .scratchCopy _ _ _ _ _ => true
  | .tagset _ _ _ _ _ => true
  | .scratchCommit _ _ _ _ => true
  | .scratchRollback _ _ _ => true
  | .scratchSwap _ _ _ => true
  | .scratchSave _ _ _ _ _ _ => true
  | .scratchRestore _ _ _ _ => true
  | .swapProtocol _ _ => true
  | .tokensPacket _ p => Pkt.wf p
  | .remoteWrite _ p => Pkt.wf p
  | .remoteRead _ p _ => Pkt.wf p
  | .writeAck _ p => Pkt.wf p
  | .readData _ p => Pkt.wf p
  | .errorPacket _ p => Pkt.wf p
  | .configPacket _ p => Pkt.wf p
  | .install _ p _ _ => Pkt.wf p
  | .multicastForward _ _ _ p _ => Pkt.wf p
  | .linkBlockReceived _ _ _ _ => true
  | .ackTimeoutRetrain _ _ => true
  | .retrainRequest _ _ _ => true
  | .retrainDone _ _ _ _ _ => true
  | .linkFail _ _ _ => true
  | .heldFlitFault _ _ _ => true
  | .bankFlip _ _ => true
  | .bankDrainEnd _ _ => true
  | .linkAdmit _ _ => true
  | .mboxWrite _ c => Ctl.wf c
  | .mboxResp _ c => Ctl.wf c
  | .mboxPoll _ c => Ctl.wf c
  | .mboxPollResp _ c => Ctl.wf c
  | .doorbell _ c => Ctl.wf c
  | .flagRead _ c => Ctl.wf c
  | .flagResp _ c => Ctl.wf c
  | .faultNotice _ c => Ctl.wf c
  | .noticeResp _ c => Ctl.wf c
  | .noticeResend _ _ => true
  | .scanData _ c => Ctl.wf c
  | .bitmapRead _ c => Ctl.wf c
  | .odReq _ c => Ctl.wf c
  | .odResp _ c => Ctl.wf c
  | .gather _ g => Pkt.wf g.pkt
  | .stackFill _ p => Pkt.wf p
  | .stackCopy _ p => Pkt.wf p
  | .dirSet _ p => Pkt.wf p
  | .dirClear _ p => Pkt.wf p
  | .groupSet _ p => Pkt.wf p
  | .parityDelta _ p => Pkt.wf p
  | .groupRead _ p => Pkt.wf p
  | .rebuild _ p => Pkt.wf p
  | .rebuildComplete _ _ _ => true
  | .scrub _ p _ _ => Pkt.wf p
  | .scrubPass _ _ _ _ => true
  | .stackTempSample _ _ _ _ => true
  | .stackRejoin _ _ _ => true
  | .weightCopyRestore _ _ _ => true
  | .slotBegin _ _ => true
  | .slotImageWrite _ _ b => bytesOk b
  | .slotCursorWrite _ _ _ => true
  | .slotCommit _ _ => true
  | .loadChecksDone _ _ => true
  | .placementDone _ _ _ _ _ => true
  | .slotCancel _ _ => true
  | .slotUnload _ _ => true
  | .unloadDone _ _ => true
  | .resupply _ _ => true
  | .replanForce _ => true
  | .rebalance _ _ => true
  | .respare _ _ => true
  | .slice _ _ _ _ _ _ _ => true
  | .fullReplan _ _ => true
  | .speedSample _ _ => true
  | .planRecomputeDone _ => true
  | .submitFragment _ d => Dgram.wf d
  | .rtSubmit _ _ _ => true
  | .submitTimeout _ _ _ => true
  | .admitStream _ => true
  | .tokenRelease _ _ => true
  | .underrunRelease _ _ => true
  | .rtAbort _ d => Dgram.wf d
  | .terminalRecordExpire _ _ => true
  | .productionCheck _ _ => true
  | .adaptCycleStart _ _ => true
  | .adaptCycleDone _ _ => true
  | .portRoleWrite _ _ _ => true
  | .rtSack _ d => Dgram.wf d
  | .rtCredit _ d => Dgram.wf d
  | .rtRetransmit _ _ => true
  | .hostSilence _ _ => true
  | .pfcPause _ _ _ => true
  | .pfcPauseEnd _ _ => true
  | .ptpMessage _ _ _ _ _ => true
  | .ptpPortMove _ => true
  | .hostPortFail _ _ => true
  | .hostPortUp _ _ => true
  | .moduleInsert _ _ _ _ _ _ _ _ _ _ => true
  | .moduleRemove _ _ => true
  | .moduleMonitorRead _ _ _ _ _ => true
  | .lldpReceive _ _ _ portId name => bytesOk portId && bytesOk name
  | .arpRequest _ _ _ _ => true
  | .neighborDiscovery _ _ _ _ => true
  | .icmpEcho _ d _ _ => Dgram.wf d
  | .eopFragmentTimeout _ => true
  | .hello _ d => Dgram.wf d
  | .halfOpenExpire _ => true
  | .proof _ _ => true
  | .protectedReceive _ d => Dgram.wf d
  | .closeSession _ _ => true
  | .keepalive _ _ => true
  | .sessionIdleTimeout _ _ => true
  | .sessionLifetimeEnd _ _ => true
  | .readReq _ _ => true
  | .writeReq _ _ => true
  | .bulkRead _ _ => true
  | .subscribe _ _ => true
  | .unsubscribe _ _ => true
  | .eventAck _ _ => true
  | .eventResend _ _ _ => true
  | .quorum _ _ => true
  | .quorumIdExpire _ => true
  | .retire _ => true
  | .expel _ => true
  | .forcedHandover _ => true
  | .objectWrite _ _ _ _ b => bytesOk b
  | .recordWrite _ _ _ b => bytesOk b
  | .storeCommit _ => true
  | .holdCmd _ => true
  | .releaseHold _ => true
  | .startCmd _ => true
  | .stopCmd _ => true
  | .warmReset _ => true
  | .unretire _ => true
  | .storeReset _ => true
  | .sessionClose _ _ => true
  | .principalSet _ _ b => bytesOk b
  | .quorumSet _ b => bytesOk b
  | .mgmtAddressWrite _ _ _ => true
  | .sectorPowerUp _ _ _ => true
  | .railSettleTimeout _ _ => true
  | .setpointWrite _ _ _ _ => true
  | .setpointReached _ _ _ => true
  | .paceLevelChange _ _ => true
  | .panelPowerSample _ _ _ _ _ => true
  | .sectorCurrentSample _ _ _ _ _ => true
  | .paceShortfall _ _ => true
  | .droopEvent _ _ => true
  | .droopTrimExpire _ _ => true
  | .brickLoss _ _ _ => true
  | .brickInsert _ _ _ => true
  | .idleEntry _ _ => true
  | .idleCommand _ _ => true
  | .wakeRequest _ _ _ => true
  | .wakeStep _ _ => true
  | .wakeTrimExpire _ _ => true
  | .sectorLatch _ _ => true
  | .sectorSupplyLoss _ _ => true
  | .hotspotSample _ _ _ _ _ _ => true
  | .dieTempEval _ _ => true
  | .criticalDieRetest _ _ _ _ => true
  | .thermalResistanceSample _ _ => true
  | .coolingWarning _ _ _ _ => true
  | .marginRead _ _ _ _ => true
  | .eyeMarginRead _ _ _ => true
  | .stackEccRateCheck _ _ => true
  | .marginReplan _ => true
  | .replanNow _ => true
  | .moduleLifeDaily _ _ => true
  | .dieHeartbeatRead _ _ => true
  | .hubHeartbeat _ _ _ => true
  | .offgridHeartbeatPoll _ _ _ => true
  | .faultContainment _ => true
  | .repair _ _ _ _ => true
  | .hubLoss _ _ => true
  | .stewardLoss _ _ => true
  | .violationNotice _ => true
  | .stallAbort _ _ => true
  | .bgEscalate _ _ => true
  | .bgSlotHold _ _ _ => true
  | .scrubForcedPause _ _ => true
  | .resupplyTimeout _ _ => true
  | .fatalEntry _ _ => true
  | .hubsLostIdle _ => true
  | .seamLinkUp _ _ _ _ _ _ _ _ => true
  | .cascadeForm _ => true
  | .memberHeartbeat _ _ _ _ => true
  | .memberLoss _ _ => true
  | .deputyTakeover _ => true
  | .masterIsolate _ => true
  | .transferReissue _ _ => true
  | .cascadeLevelChange _ => true
  | .deepenCommitRecord _ _ _ _ => true
  | .reamContribution _ _ _ _ _ _ _ => true
  | .reamDeadline _ _ _ => true
  | .reamAbandon _ _ _ => true
  | .reamReduce _ _ _ => true
  | .couchStart _ => true
  | .couchSwitch _ => true
  | .cascadeCouchCmd _ b => bytesOk b
  | .memberReport _ _ _ _ _ _ => true
  | .cascadeReplace _ b => bytesOk b
  | .powerOn _ _ _ _ => true
  | .imageVerify _ _ _ _ _ _ => true
  | .standbyBusLoad _ _ _ => true
  | .bringupStep _ _ => true
  | .clockSourceLoss _ _ => true
  | .clockSwitch _ => true
  | .discover _ _ _ _ _ _ _ _ => true
  | .linkBerCheck _ _ _ _ _ _ _ _ => true
  | .firmwareBroadcast _ _ => true
  | .chunkReceived _ _ _ data => bytesOk data
  | .repairRound _ => true
  | .stackBringup _ _ _ _ _ => true
  | .knownAnswerRun _ _ _ _ _ _ => true
  | .floorPlanAssembly _ _ => true
  | .readyGate _ _ _ => true
  | .bringupTimeout _ => true
  | .fwBegin _ _ => true
  | .fwImageWrite _ b => bytesOk b
  | .fwCommit _ => true
  | .flashWriteDone _ _ => true
  | .fwCancel _ => true
  | .activate _ => true
  | .commitVersion _ => true
  | .revoke _ _ _ => true
  | .imageRecoveryCommit _ _ => true
  | .attestRequest _ nonce => bytesOk nonce
  | .dumpTimeLimit _ => true
  | .dumpClear _ => true
  | .inputLoss _ => true
  | .epoOpen _ => true
  | .seamLinkLossOfSignal _ _ => true
  | .ptpMasterLoss _ => true
  | .cascadeFormingReport _ => true

/-- The time in ns that a command brings (log entry 1). -/
def Instr.dt : Instr → Nat
  | .hubDispatchPoint dt _ _ => dt
  | .stewardDispatchPoint dt _ => dt
  | .tileSequencerDispatch dt _ => dt
  | .configTokenArrival dt _ _ _ _ _ => dt
  | .tokenArrival dt _ _ _ _ => dt
  | .matchingStoreMove dt _ _ _ => dt
  | .matrixGroupFire dt _ _ => dt
  | .matrixEmit dt _ _ => dt
  | .vectorFire dt _ _ => dt
  | .scratchpadReadFire dt _ _ _ => dt
  | .scratchpadWriteFire dt _ _ _ => dt
  | .dmaFire dt _ _ _ => dt
  | .pageGatherFire dt _ _ => dt
  | .switchFire dt _ _ => dt
  | .mergeFire dt _ _ => dt
  | .gateFire dt _ _ => dt
  | .splitFire dt _ _ => dt
  | .joinFire dt _ _ => dt
  | .inboundMailboxFire dt _ _ => dt
  | .outboundMailboxFire dt _ _ => dt
  | .mailboxRetry dt _ _ => dt
  | .errorTokenFire dt _ _ => dt
  | .stallDetected dt _ _ => dt
  | .slotSwitch dt _ _ => dt
  | .fenceApply dt _ _ => dt
  | .fenceAck dt _ _ => dt
  | .epochEnd dt _ => dt
  | .epochAbort dt _ => dt
  | .passIssue dt _ => dt
  | .runaheadIssue dt _ => dt
  | .tileHold dt _ => dt
  | .tileRun dt _ => dt
  | .tileScanOut dt _ _ _ => dt
  | .tileScanIn dt _ _ _ => dt
  | .regionSet dt _ _ _ _ _ => dt
  | .scratchFill dt _ _ _ _ _ => dt
  | .scratchCopy dt _ _ _ _ => dt
  | .tagset dt _ _ _ _ => dt
  | .scratchCommit dt _ _ _ => dt
  | .scratchRollback dt _ _ => dt
  | .scratchSwap dt _ _ => dt
  | .scratchSave dt _ _ _ _ _ => dt
  | .scratchRestore dt _ _ _ => dt
  | .swapProtocol dt _ => dt
  | .tokensPacket dt _ => dt
  | .remoteWrite dt _ => dt
  | .remoteRead dt _ _ => dt
  | .writeAck dt _ => dt
  | .readData dt _ => dt
  | .errorPacket dt _ => dt
  | .configPacket dt _ => dt
  | .install dt _ _ _ => dt
  | .multicastForward dt _ _ _ _ => dt
  | .linkBlockReceived dt _ _ _ => dt
  | .ackTimeoutRetrain dt _ => dt
  | .retrainRequest dt _ _ => dt
  | .retrainDone dt _ _ _ _ => dt
  | .linkFail dt _ _ => dt
  | .heldFlitFault dt _ _ => dt
  | .bankFlip dt _ => dt
  | .bankDrainEnd dt _ => dt
  | .linkAdmit dt _ => dt
  | .mboxWrite dt _ => dt
  | .mboxResp dt _ => dt
  | .mboxPoll dt _ => dt
  | .mboxPollResp dt _ => dt
  | .doorbell dt _ => dt
  | .flagRead dt _ => dt
  | .flagResp dt _ => dt
  | .faultNotice dt _ => dt
  | .noticeResp dt _ => dt
  | .noticeResend dt _ => dt
  | .scanData dt _ => dt
  | .bitmapRead dt _ => dt
  | .odReq dt _ => dt
  | .odResp dt _ => dt
  | .gather dt _ => dt
  | .stackFill dt _ => dt
  | .stackCopy dt _ => dt
  | .dirSet dt _ => dt
  | .dirClear dt _ => dt
  | .groupSet dt _ => dt
  | .parityDelta dt _ => dt
  | .groupRead dt _ => dt
  | .rebuild dt _ => dt
  | .rebuildComplete dt _ _ => dt
  | .scrub dt _ _ _ => dt
  | .scrubPass dt _ _ _ => dt
  | .stackTempSample dt _ _ _ => dt
  | .stackRejoin dt _ _ => dt
  | .weightCopyRestore dt _ _ => dt
  | .slotBegin dt _ => dt
  | .slotImageWrite dt _ _ => dt
  | .slotCursorWrite dt _ _ => dt
  | .slotCommit dt _ => dt
  | .loadChecksDone dt _ => dt
  | .placementDone dt _ _ _ _ => dt
  | .slotCancel dt _ => dt
  | .slotUnload dt _ => dt
  | .unloadDone dt _ => dt
  | .resupply dt _ => dt
  | .replanForce dt => dt
  | .rebalance dt _ => dt
  | .respare dt _ => dt
  | .slice dt _ _ _ _ _ _ => dt
  | .fullReplan dt _ => dt
  | .speedSample dt _ => dt
  | .planRecomputeDone dt => dt
  | .submitFragment dt _ => dt
  | .rtSubmit dt _ _ => dt
  | .submitTimeout dt _ _ => dt
  | .admitStream dt => dt
  | .tokenRelease dt _ => dt
  | .underrunRelease dt _ => dt
  | .rtAbort dt _ => dt
  | .terminalRecordExpire dt _ => dt
  | .productionCheck dt _ => dt
  | .adaptCycleStart dt _ => dt
  | .adaptCycleDone dt _ => dt
  | .portRoleWrite dt _ _ => dt
  | .rtSack dt _ => dt
  | .rtCredit dt _ => dt
  | .rtRetransmit dt _ => dt
  | .hostSilence dt _ => dt
  | .pfcPause dt _ _ => dt
  | .pfcPauseEnd dt _ => dt
  | .ptpMessage dt _ _ _ _ => dt
  | .ptpPortMove dt => dt
  | .hostPortFail dt _ => dt
  | .hostPortUp dt _ => dt
  | .moduleInsert dt _ _ _ _ _ _ _ _ _ => dt
  | .moduleRemove dt _ => dt
  | .moduleMonitorRead dt _ _ _ _ => dt
  | .lldpReceive dt _ _ _ _ => dt
  | .arpRequest dt _ _ _ => dt
  | .neighborDiscovery dt _ _ _ => dt
  | .icmpEcho dt _ _ _ => dt
  | .eopFragmentTimeout dt => dt
  | .hello dt _ => dt
  | .halfOpenExpire dt => dt
  | .proof dt _ => dt
  | .protectedReceive dt _ => dt
  | .closeSession dt _ => dt
  | .keepalive dt _ => dt
  | .sessionIdleTimeout dt _ => dt
  | .sessionLifetimeEnd dt _ => dt
  | .readReq dt _ => dt
  | .writeReq dt _ => dt
  | .bulkRead dt _ => dt
  | .subscribe dt _ => dt
  | .unsubscribe dt _ => dt
  | .eventAck dt _ => dt
  | .eventResend dt _ _ => dt
  | .quorum dt _ => dt
  | .quorumIdExpire dt => dt
  | .retire dt => dt
  | .expel dt => dt
  | .forcedHandover dt => dt
  | .objectWrite dt _ _ _ _ => dt
  | .recordWrite dt _ _ _ => dt
  | .storeCommit dt => dt
  | .holdCmd dt => dt
  | .releaseHold dt => dt
  | .startCmd dt => dt
  | .stopCmd dt => dt
  | .warmReset dt => dt
  | .unretire dt => dt
  | .storeReset dt => dt
  | .sessionClose dt _ => dt
  | .principalSet dt _ _ => dt
  | .quorumSet dt _ => dt
  | .mgmtAddressWrite dt _ _ => dt
  | .sectorPowerUp dt _ _ => dt
  | .railSettleTimeout dt _ => dt
  | .setpointWrite dt _ _ _ => dt
  | .setpointReached dt _ _ => dt
  | .paceLevelChange dt _ => dt
  | .panelPowerSample dt _ _ _ _ => dt
  | .sectorCurrentSample dt _ _ _ _ => dt
  | .paceShortfall dt _ => dt
  | .droopEvent dt _ => dt
  | .droopTrimExpire dt _ => dt
  | .brickLoss dt _ _ => dt
  | .brickInsert dt _ _ => dt
  | .idleEntry dt _ => dt
  | .idleCommand dt _ => dt
  | .wakeRequest dt _ _ => dt
  | .wakeStep dt _ => dt
  | .wakeTrimExpire dt _ => dt
  | .sectorLatch dt _ => dt
  | .sectorSupplyLoss dt _ => dt
  | .hotspotSample dt _ _ _ _ _ => dt
  | .dieTempEval dt _ => dt
  | .criticalDieRetest dt _ _ _ => dt
  | .thermalResistanceSample dt _ => dt
  | .coolingWarning dt _ _ _ => dt
  | .marginRead dt _ _ _ => dt
  | .eyeMarginRead dt _ _ => dt
  | .stackEccRateCheck dt _ => dt
  | .marginReplan dt => dt
  | .replanNow dt => dt
  | .moduleLifeDaily dt _ => dt
  | .dieHeartbeatRead dt _ => dt
  | .hubHeartbeat dt _ _ => dt
  | .offgridHeartbeatPoll dt _ _ => dt
  | .faultContainment dt => dt
  | .repair dt _ _ _ => dt
  | .hubLoss dt _ => dt
  | .stewardLoss dt _ => dt
  | .violationNotice dt => dt
  | .stallAbort dt _ => dt
  | .bgEscalate dt _ => dt
  | .bgSlotHold dt _ _ => dt
  | .scrubForcedPause dt _ => dt
  | .resupplyTimeout dt _ => dt
  | .fatalEntry dt _ => dt
  | .hubsLostIdle dt => dt
  | .seamLinkUp dt _ _ _ _ _ _ _ => dt
  | .cascadeForm dt => dt
  | .memberHeartbeat dt _ _ _ => dt
  | .memberLoss dt _ => dt
  | .deputyTakeover dt => dt
  | .masterIsolate dt => dt
  | .transferReissue dt _ => dt
  | .cascadeLevelChange dt => dt
  | .deepenCommitRecord dt _ _ _ => dt
  | .reamContribution dt _ _ _ _ _ _ => dt
  | .reamDeadline dt _ _ => dt
  | .reamAbandon dt _ _ => dt
  | .reamReduce dt _ _ => dt
  | .couchStart dt => dt
  | .couchSwitch dt => dt
  | .cascadeCouchCmd dt _ => dt
  | .memberReport dt _ _ _ _ _ => dt
  | .cascadeReplace dt _ => dt
  | .powerOn dt _ _ _ => dt
  | .imageVerify dt _ _ _ _ _ => dt
  | .standbyBusLoad dt _ _ => dt
  | .bringupStep dt _ => dt
  | .clockSourceLoss dt _ => dt
  | .clockSwitch dt => dt
  | .discover dt _ _ _ _ _ _ _ => dt
  | .linkBerCheck dt _ _ _ _ _ _ _ => dt
  | .firmwareBroadcast dt _ => dt
  | .chunkReceived dt _ _ _ => dt
  | .repairRound dt => dt
  | .stackBringup dt _ _ _ _ => dt
  | .knownAnswerRun dt _ _ _ _ _ => dt
  | .floorPlanAssembly dt _ => dt
  | .readyGate dt _ _ => dt
  | .bringupTimeout dt => dt
  | .fwBegin dt _ => dt
  | .fwImageWrite dt _ => dt
  | .fwCommit dt => dt
  | .flashWriteDone dt _ => dt
  | .fwCancel dt => dt
  | .activate dt => dt
  | .commitVersion dt => dt
  | .revoke dt _ _ => dt
  | .imageRecoveryCommit dt _ => dt
  | .attestRequest dt _ => dt
  | .dumpTimeLimit dt => dt
  | .dumpClear dt => dt
  | .inputLoss dt => dt
  | .epoOpen dt => dt
  | .seamLinkLossOfSignal dt _ => dt
  | .ptpMasterLoss dt => dt
  | .cascadeFormingReport dt => dt

/-- A well-formed command. -/
def Instr.wf (c : Instr) : Bool := c.present && c.fieldsOk

end Sys2Proof
end

