-- ==== Sys2Proof/Safety.lean ====
section
/-!
DEFINITION. The terms in which claims are stated: what a command gives, what it leaves as it was, and what a safe queue is.
-/
namespace Sys2Proof.Machine
open Sys2Proof

/-- A command answers a next state, and P holds of it. -/
def Gives (c : Instr) (s : State) (P : State → Prop) : Prop := ∃ t, exec c s = .next t ∧ P t

/-- The waiting commands are well formed: the elements that they name exist and what they carry fits its fields. -/
def SafeQueue (s : State) : Prop := ∀ c ∈ s.pending, c.wf = true

/-- A control packet that is not what its command takes is taken off the network and logged with cause 0x0003: by its destination
where its operation, its form or its destination is wrong, by its source where no path leads on (R11, R177). -/
def DropsControl (dt : Nat) (c : Ctl) (op : Nat) (s : State) (r : Host.Outcome State Fault Refusal) : Prop :=
  (c.op ≠ op ∨ ctlFormOk c = false ∨ nodeKind c.dest = .nothing →
    r = .next (((s.tick dt).take (.ctl c)).logAt c.dest (ctlEntry c causeMisrouted))) ∧
  (c.op = op → ctlFormOk c = true → nodeKind c.dest ≠ .nothing → s.ctlReaches c.src c.dest = false →
    r = .next (((s.tick dt).take (.ctl c)).logAt c.src (ctlEntry c causeMisrouted)))

/-- A control packet that reaches the node it is for: its operation, form and destination are right and a path leads there (R177). -/
def ControlArrives (c : Ctl) (op : Nat) (s : State) : Prop :=
  c.op = op ∧ ctlFormOk c = true ∧ nodeKind c.dest ≠ .nothing ∧ s.ctlReaches c.src c.dest = true

/-- A packet whose turn it is not yet stays in flight (R158); one that R168 finds fault with, or that its destination does not accept,
is dropped. -/
def DropsPacket (dt : Nat) (p : Pkt) (accepted : Bool) (s : State) (r : Host.Outcome State Fault Refusal) : Prop :=
  let u := (s.tick dt).takePkt p
  (s.inOrder p = false → r = .next (s.tick dt)) ∧
  (∀ c, s.inOrder p = true → s.heldAt p = false → u.packetFault p = some c → r = .next (u.dropPkt (u.detector p) p c 0)) ∧
  (s.inOrder p = true → s.heldAt p = false → u.packetFault p = none → accepted = false → r = .next (u.dropPkt p.dest p causeMisrouted 0))

/-- A packet that reaches its destination: in its turn, new there, and with nothing that R168 drops it for. -/
def PacketArrives (dt : Nat) (p : Pkt) (s : State) : Prop :=
  s.inOrder p = true ∧ s.heldAt p = false ∧ ((s.tick dt).takePkt p).packetFault p = none

/-- A packet that reaches the engine of a stack that is on line and not pausing, with a command that the engine knows (R191, R192). -/
def EngineTakes (dt : Nat) (p : Pkt) (i ptype used : Nat) (s : State) : Prop :=
  s.inOrder p = true ∧ ((s.tick dt).takePkt p).packetFault p = none ∧ nodeKind p.dest = .stack i 1 ∧ p.ptype = ptype ∧
  (p.op.drop used).all (· == 0) = true ∧ (s.stackUnit i).offline = false ∧ (ptype = 0x18 ∨ (s.stackUnit i).pauseUntil ≤ s.clk + dt)

/-- What becomes of a packet for a stack's engine that does not run its command: out of its turn or in a pause it stays in flight, and
it is dropped for a fault of R168, with 0x0003 where the node or the operands are not the command's, 0x0014 at a stack off line, and
0x0009 from a node that may not send it. -/
def EngineDrops (dt : Nat) (p : Pkt) (ptype used : Nat) (allowed : Nat → Bool) (s : State) (r : Host.Outcome State Fault Refusal) : Prop :=
  let u := (s.tick dt).takePkt p
  (s.inOrder p = false → r = .next (s.tick dt)) ∧
  (∀ c, s.inOrder p = true → u.packetFault p = some c → r = .next (u.dropPkt (u.detector p) p c 0)) ∧
  (s.inOrder p = true → u.packetFault p = none →
    (∀ i, nodeKind p.dest ≠ .stack i 1) ∨ p.ptype ≠ ptype ∨ (p.op.drop used).all (· == 0) = false →
    r = .next (u.dropPkt p.dest p causeMisrouted 0)) ∧
  (∀ i, s.inOrder p = true → u.packetFault p = none → nodeKind p.dest = .stack i 1 → p.ptype = ptype →
    (p.op.drop used).all (· == 0) = true →
    ((s.stackUnit i).offline = true → r = .next (u.dropPkt p.dest p 0x0014 0)) ∧
    ((s.stackUnit i).offline = false → ptype ≠ 0x18 → s.clk + dt < (s.stackUnit i).pauseUntil → r = .next (s.tick dt)) ∧
    ((s.stackUnit i).offline = false → ptype = 0x18 ∨ (s.stackUnit i).pauseUntil ≤ s.clk + dt → allowed i = false →
      r = .next (u.dropPkt p.dest p causeFirmwareOnly 0)))

/-- A datagram with an RT message of a type reaches a host port that takes it: UP, not on a cascade's member, whole, on the RT port,
its header and body well formed (R271, R272, R274). -/
def RtTakes (dt : Nat) (d : Dgram) (mtype : Nat) (bodyOk : List Nat → Bool) (s : State) : Prop :=
  s.hostUp d.port = true ∧ (s.inCascade = false ∨ s.cascadeMaster = true) ∧ d.frag = false ∧
  d.udp = ((s.tick dt).rtCount d).odGet (oRtPortRtUdp d.port) ∧ rtOk d.body mtype = true ∧ bodyOk (d.body.drop 32) = true

/-- What becomes of any other datagram: nothing at a port that is not UP, else it is counted and discarded. -/
def RtDrops (dt : Nat) (d : Dgram) (mtype : Nat) (bodyOk : List Nat → Bool) (s : State) (r : Host.Outcome State Fault Refusal) : Prop :=
  let u := s.tick dt
  (s.hostUp d.port = false → r = .next u) ∧
  (s.hostUp d.port = true → s.inCascade = true → s.cascadeMaster = false → r = .next ((u.bump (oRtPortRxDatagrams d.port)).discard d)) ∧
  (s.hostUp d.port = true → s.inCascade = false ∨ s.cascadeMaster = true →
    d.frag = true ∨ d.udp ≠ (u.rtCount d).odGet (oRtPortRtUdp d.port) ∨ rtOk d.body mtype = false ∨ bodyOk (d.body.drop 32) = false →
    r = .next ((u.rtCount d).discard d))

/-- The state once a datagram for EOP has been counted: a host port counts it, the management port does not (R271, R291). -/
def eopCounted (dt : Nat) (d : Dgram) (s : State) : State :=
  if d.port < 16 then (s.tick dt).bump (oRtPortRxDatagrams d.port) else s.tick dt

/-- The endpoint that a datagram reaches serves EOP on the datagram's port: the management port from STANDBY on, or an UP host port
in-band with a whole datagram (R271, R272, R291). -/
def EopReaches (dt : Nat) (d : Dgram) (s : State) : Prop :=
  let u := eopCounted dt d s
  (16 ≤ d.port → d.udp = 49301) ∧
  (d.port < 16 → s.hostUp d.port = true ∧ d.frag = false ∧ d.udp = u.odGet (oRtPortEopUdp d.port)) ∧ u.eopServed d.port = true

/-- What becomes of any other datagram, and of one whose clear header is not well formed (R271, R292, R307). -/
def EopDrops (dt : Nat) (d : Dgram) (kind : Nat) (s : State) (r : Host.Outcome State Fault Refusal) : Prop :=
  let u := eopCounted dt d s
  (16 ≤ d.port → d.udp ≠ 49301 ∨ u.eopServed d.port = false → r = .next u) ∧
  (d.port < 16 → s.hostUp d.port = false → r = .next (s.tick dt)) ∧
  (d.port < 16 → s.hostUp d.port = true → d.frag = true ∨ d.udp ≠ u.odGet (oRtPortEopUdp d.port) →
    r = .next (u.bump (oRtPortDiscarded d.port))) ∧
  (d.port < 16 → s.hostUp d.port = true → d.frag = false → d.udp = u.odGet (oRtPortEopUdp d.port) → u.eopServed d.port = false → r = .next u) ∧
  (EopReaches dt d s → eopHeadOk kind d.body = false → r = .next u.eopDiscard)

/-- The oldest message that a session has taken in is a request with this op (R302). -/
def asksFor (s : State) (id op : Nat) : Bool :=
  match s.session id with
  | some x => (match x.inbox with
    | pt :: _ => leAt pt 0 1 == op
    | [] => false)
  | none => false

/-- Only objects changed: the object table, and the events that a counter at its maximum publishes (R328, R329). -/
def OnlyObjects (s t : State) : Prop :=
  t = { s with od := t.od, events := t.events, nextEvent := t.nextEvent, lastEvent := t.lastEvent, satSet := t.satSet, satList := t.satList }

/-- Only tiles and objects changed. -/
def OnlyTiles (s t : State) : Prop :=
  t = { s with tiles := t.tiles, od := t.od, events := t.events, nextEvent := t.nextEvent, lastEvent := t.lastEvent,
               satSet := t.satSet, satList := t.satList }

/-- Only tiles, objects and what is in flight changed. -/
def OnlyTilesOut (s t : State) : Prop :=
  t = { s with tiles := t.tiles, out := t.out, nextTxn := t.nextTxn, od := t.od, events := t.events, nextEvent := t.nextEvent,
               lastEvent := t.lastEvent, satSet := t.satSet, satList := t.satList }

/-- Only tiles, tags, memory and objects changed. -/
def OnlyTilesMemory (s t : State) : Prop :=
  t = { s with tiles := t.tiles, mem := t.mem, tags := t.tags, od := t.od, events := t.events, nextEvent := t.nextEvent,
               lastEvent := t.lastEvent, satSet := t.satSet, satList := t.satList }

/-- Every tile but one is as it was. -/
def OtherTiles (k : Nat) (s t : State) : Prop := ∀ j, j ≠ k → t.tile j = s.tile j

/-- The work of one tile: that tile, the tags of its rows, what is in flight, objects and their events may change; every other tile,
every other tile's tags and every byte of memory read as they did. -/
def OnlyTileWork (k : Nat) (s t : State) : Prop :=
  t = { s with tiles := t.tiles, tags := t.tags, out := t.out, nextTxn := t.nextTxn, od := t.od, events := t.events, nextEvent := t.nextEvent,
               lastEvent := t.lastEvent, satSet := t.satSet, satList := t.satList } ∧
  OtherTiles k s t ∧ ∀ j r, j ≠ k → r < 65536 → t.tagAt j r = s.tagAt j r

/-- The work of one tile, and a range of one node's memory. -/
def TileWorkAndBytes (k node off n : Nat) (s t : State) : Prop :=
  t = { s with tiles := t.tiles, tags := t.tags, mem := t.mem, out := t.out, nextTxn := t.nextTxn, od := t.od, events := t.events,
               nextEvent := t.nextEvent, lastEvent := t.lastEvent, satSet := t.satSet, satList := t.satList } ∧
  OtherTiles k s t ∧ (∀ j r, j ≠ k → r < 65536 → t.tagAt j r = s.tagAt j r) ∧
  ∀ a, (a < gaddr node off ∨ gaddr node off + n ≤ a) → memByte t.mem a = memByte s.mem a

/-- Every byte outside n bytes of a node's memory reads as it did. -/
def BytesOutside (node off n : Nat) (s t : State) : Prop :=
  ∀ a, (a < gaddr node off ∨ gaddr node off + n ≤ a) → memByte t.mem a = memByte s.mem a

end Sys2Proof.Machine
end

