-- ==== Sys2Proof/Certificates/Slice0/Obligations.lean ====
section
/-!
DEFINITION. The statements for the provers. Each docstring names the rules that the statement formalises.
-/
open Sys2Proof Sys2Proof.Machine

/-- For every command c and state s: a step of a state whose queue begins with c is exec of c on that state with the rest of the queue.
With an empty queue the step answers the same state (the model's choice, log entry 2). -/
def Obligations.StepRunsFrontCommand : Prop :=
  (∀ (c : Instr) (rest : List Instr) (s : State), s.pending = c :: rest → step s = exec c { s with pending := rest }) ∧
  (∀ s : State, s.pending = [] → step s = .next s)

/-- For every command and every state, exec answers a next state: no command of the model ends in a fault or in a refusal. What each
command does is said by the statements about it; a command whose tile, stack, compute die or link the panel does not have lets its
time pass and changes nothing else (log entry 80). -/
def Obligations.EveryCommandAnswersNext : Prop :=
  ∀ (c : Instr) (s : State), ∃ t, exec c s = .next t

/-- Whatever a command does, the commands that wait behind it stay as they were, in order; and the panel's clock has moved on by exactly
the time that the command brings (log entry 1): no meaning adds time of its own or turns time back. -/
def Obligations.QueueUntouchedByCommands : Prop :=
  ∀ (c : Instr) (s t : State), exec c s = .next t → t.pending = s.pending ∧ t.clk = s.clk + c.dt

/-- For every state whose memory is in canonical form (addresses strictly rising, no listed byte equal to what an unlisted address reads
as), whatever command is at the front of the queue, the state that the step answers has its memory in canonical form too, so equal
memories are equal data. -/
def Obligations.StepKeepsMemoryCanonical : Prop :=
  ∀ s t : State, Memory.wf s.mem = true → step s = .next t → Memory.wf t.mem = true

/-- State.reset is the panel without power (device state 0, OFF, R332): its queue is empty, nothing is in flight, no tile, lane, session
or slot holds anything, every byte of every memory reads 0 (the model's choice, log entry 4), and the memory has its canonical form.
What the flash holds is what the factory wrote. -/
def Obligations.ResetState : Prop :=
  State.reset.dev = 0 ∧ State.reset.pending = [] ∧ State.reset.out = [] ∧ Memory.wf State.reset.mem = true ∧
  (∀ a, memByte State.reset.mem a = 0) ∧ (∀ k, State.reset.tile k = {}) ∧ (∀ k r, State.reset.tagAt k r = false) ∧
  State.reset.lanes = [] ∧ State.reset.sessions = [] ∧ State.reset.pslots = [] ∧ State.reset.events = [] ∧
  State.reset.boot.image = Config.deliveredImage

/-- TOKEN_ARRIVAL of a token that is no configuration token and that stands behind no other in its producer's emit buffer (R96 to R98,
R114): where the queue takes it, it leaves its producer and joins the end of the queue; where its life is dead it is discarded and
counted; where it breaks a rule the violation is logged and its producer gets an error token; where it has to wait nothing changes,
but that an idle tile is put up for waking (R352). A token behind another waits. CONFIG_TOKEN_ARRIVAL (R64, R108, R109) at a tile that
is neither in scan-in nor idle: a descriptor that breaks no field map and fits its slot (it is for the watermark after the tile's, the
slot stands at the tile's and has no shadow) becomes the slot's shadow; one that does not fit is not installed and logs cause 0x0007;
in scan-in the token waits. MATCHING_STORE_MOVE (R102, R103) in a running tile, for a bound input of a unit with two or more inputs in
its firing set that is no split: the visible token of the input, in no complete set, leaves its queue for the store where that has
fewer than 64 entries and fewer than 32 of the slot; else its queue is blocked behind it and one wait counts, once for that token.
TOKENS_PACKET and CONFIG_PACKET (R97, R156, R158, R168): at a tile, in its turn and with nothing that R168 drops it for, a packet's
tokens are delivered in order; out of its turn it waits; else it is dropped. -/
def Obligations.TokenArrivalForms : Prop :=
  (∀ (dt k : Nat) (q : Fin 48) (tok : Token) (src : Nat) (s : State), isTile k = true → tok.kind ≠ 2 →
    ((isTile src && (s.tile src).behind tok) = false → (s.tile k).arrival q.val tok = .accept →
      exec (.tokenArrival dt k q tok src) s = .next (((s.tick dt).releaseAt src tok).enqueue k q.val tok src)) ∧
    ((isTile src && (s.tile src).behind tok) = false → (s.tile k).arrival q.val tok = .dead →
      exec (.tokenArrival dt k q tok src) s = .next (((s.tick dt).releaseAt src tok).countDead k 1)) ∧
    (∀ cause, (isTile src && (s.tile src).behind tok) = false → (s.tile k).arrival q.val tok = .bad cause →
      exec (.tokenArrival dt k q tok src) s = .next (((s.tick dt).releaseAt src tok).arrivalViolation k q.val tok src cause)) ∧
    ((isTile src && (s.tile src).behind tok) = false → (s.tile k).arrival q.val tok = .wait →
      exec (.tokenArrival dt k q tok src) s = .next (if (s.tile k).idle then (s.tick dt).wakeFor k else s.tick dt)) ∧
    ((isTile src && (s.tile src).behind tok) = true → exec (.tokenArrival dt k q tok src) s = .next (s.tick dt))) ∧
  (∀ (dt k : Nat) (q : Fin 48) (pay : Row) (wm : Fin 4) (src : Nat) (s : State), isTile k = true →
    let tok : Token := { payload := pay, kind := 2, wm := wm }
    let d := descOfRow pay
    let s1 := (s.tick dt).releaseAt src tok
    let fits := dWm d == (s1.tile k).wm + 1 && (s1.tile k).slotWm (dSlot d) == (s1.tile k).wm && ((s1.tile k).slot (dSlot d)).shadow.isNone
    ((s.tile k).run ≠ .scanIn → (s.tile k).idle = false → descBroken d = none → fits = true →
      exec (.configTokenArrival dt k q pay wm src) s = .next (s1.setTile k ((s1.tile k).installShadow (dSlot d) d))) ∧
    ((s.tile k).run ≠ .scanIn → (s.tile k).idle = false → descBroken d = none → fits = false →
      exec (.configTokenArrival dt k q pay wm src) s =
        .next (s1.logTile k { (s1.tile k).entryFor (dSlot d) q.val tok src causeDescriptor 0 0 with
          wmSeen := (dWm d).val, logicalUnit := dUnit d })) ∧
    ((s.tile k).run = .scanIn → exec (.configTokenArrival dt k q pay wm src) s = .next (s.tick dt))) ∧
  (∀ (dt k : Nat) (i : Fin 16) (n : Fin 4) (r : TokRec) (s : State), isTile k = true →
    let t := s.tile k
    let x := t.slot i.val
    let q := dIn x.cur n.val
    t.run = .run → (boundIns x.cur).contains n.val = true → 2 ≤ (firingSet x.cur).length → dKind x.cur ≠ 10 →
    (t.queue q).visible x.wm = some r →
    (t.readySets i.val).any (fun l => l.any (fun p => p.1 == n.val && p.2.order == r.order)) = false →
    (t.store.length < 64 → (t.store.filter (fun e => e.slot == i.val)).length < 32 →
      exec (.matchingStoreMove dt k i n) s = .next ((s.tick dt).setTile k
        { t.setQueue q ((t.queue q).drop r.order) with store := t.store ++ [⟨r, i.val, n.val⟩] })) ∧
    (64 ≤ t.store.length ∨ 32 ≤ (t.store.filter (fun e => e.slot == i.val)).length →
      exec (.matchingStoreMove dt k i n) s = .next (if (t.queue q).stuck = some r.order then s.tick dt else
        ((s.tick dt).setTile k (t.setQueue q { t.queue q with stuck := some r.order })).bump (oDataflowTileStoreFullWaits k)))) ∧
  (∀ (dt : Nat) (p : Pkt) (s : State),
    DropsPacket dt p (isTile p.dest && p.ptype == 1) s (exec (.tokensPacket dt p) s) ∧
    DropsPacket dt p (isTile p.dest && p.ptype == 7) s (exec (.configPacket dt p) s) ∧
    (isTile p.dest = true → PacketArrives dt p s →
      (p.ptype = 1 → exec (.tokensPacket dt p) s = .next (((s.tick dt).takePkt p).deliverPkt p)) ∧
      (p.ptype = 7 → exec (.configPacket dt p) s = .next (((s.tick dt).takePkt p).deliverPkt p))))

/-- MATRIX_GROUP_FIRE (R69, R101) of a matrix unit that may fire, with output room, a credit and no group under way: a well-formed group
token inside the deckle is consumed, the firing counts and the group begins; a malformed one is a violation with cause 0x0006, one
outside the deckle with 0x0001. MATRIX_EMIT (R70 to R72) for the unit that the engine serves, with output room and no operand fault:
with the column block in the partial store one result token goes out; before that, where the rows of the next block are ready, the
unit's accesses contend for their banks (R138) and, granted, the blocks that can run do, and a whole column block's first result goes
out. VECTOR_FIRE (R75) on a set without an error token, with room for all it emits, its constant rows ready and no violation in it:
with the banks of those rows granted the program runs once. SCRATCHPAD_READ_FIRE (R79, R135) and SCRATCHPAD_WRITE_FIRE (R79, R134,
R144) on such a set, whose rows are ready, with their banks granted: a read's rows enter the emit buffer as it has room; a write's
payload lands in the row that the region gives, its tag fills and a hazard counts, and after rows_per_fire rows a completion token
goes out and the region's pointers move. Where rows are not ready either waits, counted once, and a row outside the deckle or region
is a violation with cause 0x0001. -/
def Obligations.MatrixVectorAndScratchpadFire : Prop :=
  (∀ (dt k n : Nat) (i : Fin 16) (r : TokRec) (l : List (Nat × TokRec)) (s : State), isTile k = true →
    let t := (s.tile k).refill (s.clk + dt)
    let d := (t.slot i.val).cur
    dKind d = 1 → t.mayFire i.val = true → t.outRoom i.val = true → t.hasCredit i.val = true → (t.slot i.val).mat = none →
    t.ready i.val = some ((n, r) :: l) → r.tok.kind ≠ 4 →
    (∀ t1, grpOk r.tok = true → t.groupOutside d r.tok = none → t1 = (t.consume i.val ((n, r) :: l)).fired i.val (s.clk + dt) →
      exec (.matrixGroupFire dt k i) s = .next
        (((s.tick dt).setTile k (t1.setSlot i.val { t1.slot i.val with mat := some { group := r } })).bump (oDataflowTileFirings k))) ∧
    (grpOk r.tok = false → exec (.matrixGroupFire dt k i) s =
      .next (((s.tick dt).setTile k t).violate k i.val ((n, r) :: l) causeMalformed 0 0)) ∧
    (∀ row, grpOk r.tok = true → t.groupOutside d r.tok = some row → exec (.matrixGroupFire dt k i) s =
      .next (((s.tick dt).setTile k t).violate k i.val ((n, r) :: l) causeDeckle (rowAddr k row) 0))) ∧
  (∀ (dt k : Nat) (i : Fin 16) (m : MatProg) (cs : List (Fin 32 × Fin 5)) (s : State), isTile k = true →
    let t := (s.tile k).refill (s.clk + dt)
    let d := (t.slot i.val).cur
    let s0 := (s.tick dt).setTile k t
    let reads := blockReads d m.group.tok m.nc m.kc
    (t.slot i.val).mat = some m → t.run = .run → t.idle = false → t.outRoom i.val = true → s0.matServes k i.val = true →
    s0.groupFault k d m.group.tok m = none →
    (mChunks d ≤ m.kc → exec (.matrixEmit dt k ⟨i, cs⟩) s = .next (s0.emitResult k i.val m d)) ∧
    (m.kc < mChunks d → s0.runsReady k reads = true → exec (.matrixEmit dt k ⟨i, cs⟩) s =
      .next (s0.granted k 0 (((reads.map (fun p => rowRun p.1 p.2)).flatten).map t.liveRow) cs (fun u =>
        let u1 := u.runBlocks k i.val d (mChunks d - m.kc)
        match ((u1.tile k).slot i.val).mat with
        | some m1 => if m1.kc ≥ mChunks d then u1.emitResult k i.val m1 d else u1
        | none => u1)))) ∧
  (∀ (dt k : Nat) (i : Fin 16) (l : List (Nat × TokRec)) (cs : List (Fin 32 × Fin 5)) (s : State), isTile k = true →
    let t := (s.tile k).refill (s.clk + dt)
    let x := t.slot i.val
    dKind x.cur = 2 → t.mayFire i.val = true → t.outRoom i.val = true → t.hasCredit i.val = true → t.ready i.val = some l →
    errorIn l = none → badTrits x.cur (t.program x.cur) l = none → t.constBarred x.cur (t.program x.cur) = none → t.space i.val = true →
    (s.tick dt).constsReady k x.cur (t.program x.cur) = true →
    exec (.vectorFire dt k ⟨i, cs⟩) s = .next ((s.tick dt).granted k 1 (t.constRows x.cur (t.program x.cur)) cs
      (fun u => u.vectorFire k i.val ((u.tile k).refill u.clk) l))) ∧
  (∀ (dt k : Nat) (i : Fin 16) (cs : List (Fin 32 × Fin 5)) (t : Tile) (l : List (Nat × TokRec)) (s : State), isTile k = true →
    let u := s.tick dt
    let d := (t.slot i.val).cur
    let reg := t.region (uRegion d)
    let trig := trigOf l
    let n := uRows d
    u.startFire k i.val [3] = some (t, l) → errorIn l = none →
    (∀ row det, resolve d reg false (rowBytes trig.tok.payload 1 0) n = .violation row det →
      exec (.scratchpadReadFire dt k i cs) s = .next ((u.setTile k (t.spendV 1)).violate k i.val l causeDeckle (rowAddr k row) det)) ∧
    (∀ first q, resolve d reg false (rowBytes trig.tok.payload 1 0) n = .rows first q → u.rowsReady k reg first n true = true →
      exec (.scratchpadReadFire dt k i cs) s = .next (u.granted k 1 (rowRun first n) cs (fun v =>
        let v1 := (v.setTile k ((v.tile k).charge t)).endFire k i.val l []
        let t1 := (v1.tile k).setRegion (uRegion d) (afterRead d reg n)
        (v1.setTile k (t1.setSlot i.val { t1.slot i.val with reading := some {
          toks := (v.rowsAt k (64 * first) n).map (fun r => (t.slot i.val).out k trig.tok 0 r)
          region := uRegion d, first := first, rows := n } })).pumpRead k i.val))) ∧
    (∀ first q, resolve d reg false (rowBytes trig.tok.payload 1 0) n = .rows first q → u.rowsReady k reg first n true = false →
      exec (.scratchpadReadFire dt k i cs) s = .next (u.slotWait k i.val trig))) ∧
  (∀ (dt k : Nat) (i : Fin 16) (cs : List (Fin 32 × Fin 5)) (t : Tile) (l : List (Nat × TokRec)) (s : State), isTile k = true →
    let u := s.tick dt
    let x := t.slot i.val
    let reg := t.region (uRegion x.cur)
    let trig := trigOf l
    u.startFire k i.val [4] = some (t, l) → errorIn l = none →
    (∀ row det, x.writeRow reg trig = .violation row det →
      exec (.scratchpadWriteFire dt k i cs) s = .next ((u.setTile k (t.spendV 1)).violate k i.val l causeDeckle (rowAddr k row) det)) ∧
    (∀ row q, x.writeRow reg trig = .rows row q → u.rowsReady k reg row 1 false = true →
      let done := if x.going trig then x.wrRows else 0
      let first := if done = 0 then row else x.wrFirst
      let last := decide (done + 1 ≥ uRows x.cur)
      exec (.scratchpadWriteFire dt k i cs) s = .next (u.granted k 1 [row] cs (fun v =>
        let v1 := ((v.setTile k ((v.tile k).charge t)).putRow k (64 * row) trig.tok.payload).fillRows k reg row 1
        let v2 := if rKind reg = 3 ∧ !rTwo reg ∧ t.readsRegion (uRegion x.cur) then v1.hazard k (uRegion x.cur) i.val row 0 else v1
        let v3 := v2.endFire k i.val l (if last then [x.out k trig.tok 0 (completion first (uRows x.cur))] else [])
        let t1 := (v3.tile k).setSlot i.val { (v3.tile k).slot i.val with
          wrRows := if last then 0 else done + 1, wrFirst := first, wrKey := (trig.tok.lane.val, trig.tok.life.val), wrPos := q
          wrPart := if x.going trig && x.wrPos == q then x.wrPart + 1 else 1 }
        let moved := afterWrite x.cur reg (uRows x.cur) q
        if last ∨ rKind reg = 4 then
          (v3.setTile k (t1.setRegion (uRegion x.cur) moved.1)).bumpN (oScratchpadTileSlidEntries k) moved.2
        else v3.setTile k t1))) ∧
    (∀ row q, x.writeRow reg trig = .rows row q → u.rowsReady k reg row 1 false = false →
      exec (.scratchpadWriteFire dt k i cs) s = .next (u.slotWait k i.val trig)))

/-- DMA_FIRE (R79, R80, R150) on a set without an error token: with no buffer entry, or a range that passes its end, it is a violation
with cause 0x0008 (a byte offset that is no multiple of 64 one with 0x0006, the model's choice, log entry 103); with rows that may be
accessed and granted banks, a buffer on another node gets one packet, a READ of rows_per_fire rows to the region or a WRITE of them,
and the unit is busy with that transaction (a WRITE to a multicast group completes at once, R170), and a buffer on the own tile has
its rows copied. PAGE_GATHER_FIRE (R134, R194) on rows that may be written: GATHER leaves for the engine of the stack that the out1
route entry names, with the position, count, lane and key, and the unit is busy. Either waits for rows that are not ready.
INBOUND_MAILBOX_FIRE (R83) of an inbound unit that may fire, whose mailbox is full: the flag clears and the word goes out as a data
token with the descriptor's lane, the tag counter and the lane's life; an empty mailbox fires nothing. OUTBOUND_MAILBOX_FIRE (R83,
R182) on a set without an error token: the token is consumed and kept and its word written to the target that its route entry names; a
target that R182 does not allow is a violation. MAILBOX_RETRY (R180): a token kept after BUSY is written again once its backoff has
passed. -/
def Obligations.TransferAndMailboxUnitFirings : Prop :=
  (∀ (dt k : Nat) (i : Fin 16) (cs : List (Fin 32 × Fin 5)) (t : Tile) (l : List (Nat × TokRec)) (s : State), isTile k = true →
    let u := s.tick dt
    let d := (t.slot i.val).cur
    let reg := t.region (uRegion d)
    let trig := trigOf l
    let n := uRows d
    let off := rowBytes trig.tok.payload 5 0
    let isIn := decide (uDir d = 0)
    let buf := (t.buffer (uBuffer d)).bind (fun b => u.bufferFor b trig.tok.lane.val)
    let bad := fun cause addr => exec (.dmaFire dt k i cs) s = .next ((u.setTile k (t.spendV 1)).violate k i.val l cause addr 0)
    u.startFire k i.val [5] = some (t, l) → errorIn l = none →
    (buf = none → bad causeBuffer 0) ∧
    (∀ b, buf = some b → off % 64 ≠ 0 → bad causeMalformed (gaddr b.node (b.base + off))) ∧
    (∀ b, buf = some b → off % 64 = 0 → b.len < off + 64 * n → bad causeBuffer (gaddr b.node (b.base + off))) ∧
    (∀ b first q, buf = some b → off % 64 = 0 → off + 64 * n ≤ b.len → resolve d reg isIn 0 n = .rows first q → b.node = k →
      (u.rowsReady k reg first n (!isIn) && u.sideReady k ((b.base + off) / 64) n isIn) = true →
      exec (.dmaFire dt k i cs) s = .next (u.granted k (if isIn then 2 else 3) (rowRun first n ++ rowRun ((b.base + off) / 64) n) cs
        (fun v => (v.setTile k ((v.tile k).charge t)).dmaLocal k i.val l d reg first ((b.base + off) / 64) n))) ∧
    (∀ b first q, buf = some b → off % 64 = 0 → off + 64 * n ≤ b.len → resolve d reg isIn 0 n = .rows first q → b.node ≠ k →
      u.rowsReady k reg first n (!isIn) = true →
      let cast := !isIn && decide (b.node ≥ 32768)
      exec (.dmaFire dt k i cs) s = .next (u.granted k 3 (if isIn then [] else rowRun first n) cs (fun v =>
        let v1 := (v.setTile k ((v.tile k).charge t)).endFire k i.val l []
        let busy : MemBusy := ⟨trig, first, n, v1.nextTxn, uDir d, uRegion d⟩
        let p : Pkt := {
          dest := b.node, src := k, ptype := if isIn then 3 else 2, vc := if cast then 3 else 0, gen := v.odGet oFabricPanelActiveBank,
          srcSlot := i.val, offset := b.base + off, retOffset := if isIn then 64 * first else 0, txn := v1.nextTxn,
          rowsM1 := if isIn then n - 1 else 0
          body := if isIn then [] else (v.rowsAt k (64 * first) n).map (fun r => { row := r }) }
        let v2 := ((v1.setTile k ((v1.tile k).setSlot i.val { (v1.tile k).slot i.val with busy := some busy })).send (.pkt p)).bumpTxn
        if cast then v2.memAcked k i.val busy else v2))) ∧
    (∀ b first q, buf = some b → off % 64 = 0 → off + 64 * n ≤ b.len → resolve d reg isIn 0 n = .rows first q →
      u.rowsReady k reg first n (!isIn) = false → exec (.dmaFire dt k i cs) s = .next (u.slotWait k i.val trig))) ∧
  (∀ (dt k : Nat) (i : Fin 16) (t : Tile) (l : List (Nat × TokRec)) (r : Route) (s : State), isTile k = true →
    let u := s.tick dt
    let d := (t.slot i.val).cur
    let reg := t.region (uRegion d)
    let trig := trigOf l
    let n := u.gatherRows t d trig
    let first := rBase reg + reg.head
    u.startFire k i.val [6] = some (t, l) → errorIn l = none → t.route (dOut d 1) = some r → rKind reg = 1 →
    (inDeckle d first n && inRegion reg first n) = true →
    (u.rowsReady k reg first n false = true →
      let s1 := (u.setTile k (t.spendV 1)).endFire k i.val l []
      let x1 := { (s1.tile k).slot i.val with busy := some ⟨trig, first, n, s1.nextTxn, 2, uRegion d⟩ }
      let p : Pkt := {
        dest := r.node / 64 * 64 + 1, src := k, ptype := 0x10, vc := 0, gen := u.odGet oFabricPanelActiveBank, srcSlot := i.val, txn := s1.nextTxn
        op := toLE 4 (rowBytes trig.tok.payload 3 0) ++ toLE 2 (rowBytes trig.tok.payload 5 4) ++ [trig.tok.lane.val, r.queue] ++
          toLE 2 k ++ toLE 2 first }
      exec (.pageGatherFire dt k i) s = .next ((s1.setTile k ((s1.tile k).setSlot i.val x1)).send (.pkt p)).bumpTxn) ∧
    (u.rowsReady k reg first n false = false → exec (.pageGatherFire dt k i) s = .next (u.slotWait k i.val trig))) ∧
  (∀ (dt k : Nat) (i : Fin 16) (s : State), isTile k = true →
    let t := (s.tile k).refill (s.clk + dt)
    let x := t.slot i.val
    dKind x.cur = 12 → bOutbound x.cur = false → t.mayFire i.val = true → t.outRoom i.val = true → 1 ≤ t.creditV →
    (∀ w, mlook s.mboxes (mboxKey k (bMbox x.cur)) = some w →
      let tok : Token := {
        payload := BitVec.ofNat 512 w.toNat, tag := BitVec.ofNat 16 x.tagCtr, lane := Fin.ofNat 256 (bLane x.cur), wm := x.wm, kind := 0,
        life := t.life (bLane x.cur) }
      let x1 := { x.push 0 { tok := tok, producer := k } with tagCtr := (x.tagCtr + 1) % 65536 }
      exec (.inboundMailboxFire dt k i) s =
        .next (({ (s.tick dt).setTile k (((t.spendV 1).setSlot i.val x1).fired i.val (s.clk + dt)) with
          mboxes := mdel s.mboxes (mboxKey k (bMbox x.cur)) } : State).bump (oDataflowTileFirings k))) ∧
    (mlook s.mboxes (mboxKey k (bMbox x.cur)) = none → exec (.inboundMailboxFire dt k i) s = .next (s.tick dt))) ∧
  (∀ (dt k n : Nat) (i : Fin 16) (t : Tile) (r : TokRec) (rest : List (Nat × TokRec)) (s : State), isTile k = true →
    (s.tick dt).startFire k i.val [12] = some (t, (n, r) :: rest) → errorIn ((n, r) :: rest) = none →
    (t.mboxTargetOf i.val ≠ .refused →
      let t2 := ((t.spendV 1).consume i.val ((n, r) :: rest)).fired i.val (s.clk + dt)
      let t3 := t2.setSlot i.val { t2.slot i.val with held := some r, retryAt := 0 }
      exec (.outboundMailboxFire dt k i) s =
        .next ((((s.tick dt).setTile k (t3.refresh (s.clk + dt))).bump (oDataflowTileFirings k)).mboxSend k i.val r (t.mboxTargetOf i.val))) ∧
    (t.mboxTargetOf i.val = .refused → exec (.outboundMailboxFire dt k i) s =
      .next (((s.tick dt).setTile k (t.spendV 1)).violate k i.val ((n, r) :: rest) causeFirmwareOnly 0 0))) ∧
  (∀ (dt k : Nat) (i : Fin 16) (r : TokRec) (s : State), isTile k = true →
    let x := (s.tile k).slot i.val
    x.held = some r → x.retryAt ≠ 0 → x.retryAt ≤ s.clk + dt → (s.tile k).run = .run → (s.tile k).idle = false →
    exec (.mailboxRetry dt k i) s = .next
      (((s.tick dt).setTile k ((s.tile k).setSlot i.val { x with retryAt := 0 })).mboxSend k i.val r ((s.tile k).mboxTargetOf i.val)))

/-- SWITCH_FIRE, MERGE_FIRE, GATE_FIRE, SPLIT_FIRE and JOIN_FIRE (R81, R104) of a unit that may fire, with a ready set, room at its
outputs and a credit. On a set without an error token the set is consumed, one credit is spent, the firing is counted and the unit's
token goes out with its own kind and payload: of a switch to out1 where its control token's decision is 1 and to out0 where it is 0;
of a merge, from the data input of the set, to out0; of a gate to out0 where the decision is 1 and nowhere where it is 0; of a split
to both outputs; of a join to out0. On a set that holds an error token each of the five fires with error tokens on its outputs (R86).
ERROR_TOKEN_FIRE (R86, R101) of a unit of any kind that may fire, with no matrix group under way, room and a credit, whose next set
holds an error token: the set is consumed, a credit spent, and error tokens with its key go out; where the next set holds none,
nothing changes. -/
def Obligations.SteeringFirings : Prop :=
  ∀ (dt k : Nat) (i : Fin 16) (t : Tile) (l : List (Nat × TokRec)) (s : State), isTile k = true →
    let s0 := (s.tick dt).setTile k (t.spendV 1)
    let u := (t.spendV 1).consume i.val l
    let x := u.slot i.val
    let fwd := fun (r : TokRec) => x.out k r.tok r.tok.kind r.tok.payload
    let done := fun (y : Slot) => (s0.setTile k ((u.setSlot i.val y).fired i.val (s.clk + dt))).bump (oDataflowTileFirings k)
    (errorIn l = none →
      (∀ a c, (s.tick dt).startFire k i.val [7] = some (t, l) → tokAt l 0 = some a → tokAt l 1 = some c →
        exec (.switchFire dt k i) s = .next (done (x.push (if decision x.cur c.tok then 1 else 0) (fwd a)))) ∧
      (∀ n r, (s.tick dt).startFire k i.val [8] = some (t, l) → l.filter (fun p => p.1 != 2) = [(n, r)] →
        exec (.mergeFire dt k i) s = .next (done (x.push 0 (fwd r)))) ∧
      (∀ a c, (s.tick dt).startFire k i.val [9] = some (t, l) → tokAt l 0 = some a → tokAt l 1 = some c →
        exec (.gateFire dt k i) s = .next (done (if decision x.cur c.tok then x.push 0 (fwd a) else x))) ∧
      (∀ a, (s.tick dt).startFire k i.val [10] = some (t, l) → tokAt l 0 = some a →
        exec (.splitFire dt k i) s = .next (done ((x.push 0 (fwd a)).push 1 ((x.push 0 (fwd a)).out k a.tok a.tok.kind a.tok.payload)))) ∧
      (∀ a, (s.tick dt).startFire k i.val [11] = some (t, l) → tokAt l 0 = some a →
        exec (.joinFire dt k i) s = .next (done (x.push 0 (fwd a))))) ∧
    (∀ e, errorIn l = some e →
      ((s.tick dt).startFire k i.val [7] = some (t, l) → exec (.switchFire dt k i) s = .next (s0.errorFire k i.val l e)) ∧
      ((s.tick dt).startFire k i.val [8] = some (t, l) → exec (.mergeFire dt k i) s = .next (s0.errorFire k i.val l e)) ∧
      ((s.tick dt).startFire k i.val [9] = some (t, l) → exec (.gateFire dt k i) s = .next (s0.errorFire k i.val l e)) ∧
      ((s.tick dt).startFire k i.val [10] = some (t, l) → exec (.splitFire dt k i) s = .next (s0.errorFire k i.val l e)) ∧
      ((s.tick dt).startFire k i.val [11] = some (t, l) → exec (.joinFire dt k i) s = .next (s0.errorFire k i.val l e))) ∧
    (t = (s.tile k).refill (s.clk + dt) → t.mayFire i.val = true → (t.slot i.val).mat = none → t.outRoom i.val = true →
      t.hasCredit i.val = true → t.ready i.val = some l →
      (∀ e, errorIn l = some e →
        exec (.errorTokenFire dt k i) s = .next (((s.tick dt).setTile k (t.spend i.val)).errorFire k i.val l e)) ∧
      (errorIn l = none → exec (.errorTokenFire dt k i) s = .next (s.tick dt)))

/-- STALL_DETECTED (R106, R107): a slot of a running tile that has waited at least the threshold, the time in HOLD not counted, with no
stall record gets one, the tile's stall flag and counts go up and the event is published; before the threshold, or with a record,
nothing changes. SLOT_SWITCH (R110, R111): with every bound input showing an end-of-configuration token, the shadow installed, room to
pass the token on and nothing of the unit's under way, the slot switches where the tokens hold one ID; where one holds another, error
tokens go out and cause 0x0002 is logged. TILE_HOLD (R122) takes a running tile to HOLD; TILE_RUN takes a held one to RUN, its waits
less the held time; on a tile in another run state neither changes anything. TILE_SCAN_OUT (R124) of a running or held tile to a
writable, valid and aligned range writes the image there; TILE_SCAN_IN (R125) at a held tile from a readable, valid range whose image
passes its checks replaces the tile's dataflow state; the tile reads SCAN_OUT or SCAN_IN until its sequencer's next turn (the model's
choice, log entry 105). Anywhere else neither changes anything. -/
def Obligations.StallSwitchAndRunStates : Prop :=
  (∀ (dt k : Nat) (i : Fin 16) (t0 q : Nat) (r : TokRec) (s : State), isTile k = true →
    let x := (s.tile k).slot i.val
    let limit := t0 + x.waitHeld + 1000 * s.odGet oDataflowPanelStallThresholdUs
    x.waitSince = some t0 → (s.tile k).oldestWaiting i.val = some (r, q) →
    (∀ st : StallRec, st = {
        reason := (s.tick dt).stallReason k i.val, lane := r.tok.lane.val, life := r.tok.life.val, wm := r.tok.wm.val,
        tag := r.tok.tag.toNat, queue := q, since := (s.tick dt).timeAt t0 } →
      (s.tile k).run = .run → x.stall = none → limit ≤ s.clk + dt →
      exec (.stallDetected dt k i) s =
        .next (((((s.tick dt).setTile k { (s.tile k).setSlot i.val { x with stall := some st } with stallFlag := true }).bump
          (oDataflowTileStalls k)).bump oDataflowPanelStalls).publish oDataflowPanelStall (stallBytes k i.val st))) ∧
    ((s.tile k).run ≠ .run ∨ x.stall ≠ none ∨ s.clk + dt < limit → exec (.stallDetected dt k i) s = .next (s.tick dt))) ∧
  (∀ (dt k n : Nat) (i : Fin 16) (d : Desc) (r : TokRec) (rest : List (Nat × TokRec)) (s : State), isTile k = true →
    let t := s.tile k
    let x := t.slot i.val
    x.shadow = some d → t.run = .run → t.outRoom i.val = true → x.busy = none → x.held = none → x.reading = none → x.mat = none →
    (boundIns x.cur).filterMap (fun n => ((t.queue (dIn x.cur n)).visibleEoc).map (fun r => (n, r))) = (n, r) :: rest →
    rest.length + 1 = (boundIns x.cur).length →
    (rest.find? (fun p => rowBytes p.2.tok.payload 7 0 != rowBytes r.tok.payload 7 0) = none →
      exec (.slotSwitch dt k i) s = .next ((s.tick dt).switchSlot k i.val d ((n, r) :: rest))) ∧
    (∀ n' r', rest.find? (fun p => rowBytes p.2.tok.payload 7 0 != rowBytes r.tok.payload 7 0) = some (n', r') →
      let e := { t.entryFor i.val (dIn x.cur n') r'.tok r'.producer causeWatermark 0 0 with time := (s.tick dt).logTime }
      exec (.slotSwitch dt k i) s = .next
        ((((s.tick dt).setTile k (t.setSlot i.val (x.pushErrors k r'.tok e))).sendError k r'.producer 0 0xF e []).logTile k e))) ∧
  (∀ (dt k : Nat) (s : State), isTile k = true →
    let t := s.tile k
    (t.run = .run → exec (.tileHold dt k) s = .next ((s.tick dt).setTile k { t with run := .hold, heldAt := s.clk + dt })) ∧
    (t.run ≠ .run → exec (.tileHold dt k) s = .next (s.tick dt)) ∧
    (t.run = .hold → exec (.tileRun dt k) s = .next ((s.tick dt).setTile k (t.toRun (s.clk + dt)))) ∧
    (t.run ≠ .hold → exec (.tileRun dt k) s = .next (s.tick dt))) ∧
  (∀ (dt k node off : Nat) (s : State), isTile k = true →
    let u := s.tick dt
    let img := s.rowsAt node off 2304
    let v := u.writeNode node off (u.scanImage k)
    ((s.tile k).run = .run → s.validRange node off (64 * 2304) = true → off % 64 = 0 → s.writable node off (64 * 2304) = true →
      exec (.tileScanOut dt k node off) s = .next (v.setTile k { v.tile k with run := .scanOut, scanBack := .run, heldAt := s.clk + dt })) ∧
    ((s.tile k).run = .hold → s.validRange node off (64 * 2304) = true → off % 64 = 0 → s.writable node off (64 * 2304) = true →
      exec (.tileScanOut dt k node off) s = .next (v.setTile k { v.tile k with run := .scanOut, scanBack := .hold, heldAt := (s.tile k).heldAt })) ∧
    ((s.tile k).run = .scanOut ∨ (s.tile k).run = .scanIn ∨ s.validRange node off (64 * 2304) = false ∨ off % 64 ≠ 0 ∨
        s.writable node off (64 * 2304) = false → exec (.tileScanOut dt k node off) s = .next u) ∧
    ((s.tile k).run = .hold → s.readable node = true → s.validRange node off (64 * 2304) = true → imgOk img = true →
      exec (.tileScanIn dt k node off) s =
        .next ((u.takeImage k img).setTile k { (u.takeImage k img).tile k with run := .scanIn, scanBack := .hold })) ∧
    ((s.tile k).run ≠ .hold ∨ s.readable node = false ∨ s.validRange node off (64 * 2304) = false ∨ imgOk img = false →
      exec (.tileScanIn dt k node off) s = .next u))

/-- FENCE_APPLY (R114, R115, R146): a tile that a lane's fence has still to reach applies its advance, and is no longer to be reached; a
tile that it has not to reach stays as it was. FENCE_ACK (R115): a tile that has the acknowledgement due and holds no dead token of
the lane acknowledges; one that holds dead tokens of it does not yet. EPOCH_END (R117, R249, R250): a commit word without reserved
bits is taken from its mailbox, and where it is live for its lane's pass and the pass record repeats its tag, lane and life with its
reserved bytes 0, the epoch ends by that record; a record that does not is a fault of the commit tile. EPOCH_ABORT (R119) of a lane
put up for abort: the notice, the abort, and the replay as soon as it may. PASS_ISSUE (R252): a lane with no replay due that may issue
gets its next pass; one whose replay is due gets that. RUNAHEAD_ISSUE (R248): beside an express stream's verify pass that leaves room
and tokens, on a lane whose last fence is complete, the run-ahead starts at life L + 1. -/
def Obligations.FencesEpochsAndPasses : Prop :=
  (∀ (dt k : Nat) (lane : Fin 256) (f : Fence) (s : State), isTile k = true → mlook s.fences lane.val = some f →
    (f.toApply.contains k = true → exec (.fenceApply dt k lane) s = .next (({ s.tick dt with
      fences := mins s.fences lane.val { f with toApply := f.toApply.filter (· != k) } } : State).applyFence k lane.val f)) ∧
    (f.toApply.contains k = false → exec (.fenceApply dt k lane) s = .next (s.tick dt))) ∧
  (∀ (dt k : Nat) (lane : Fin 256) (s : State), isTile k = true → (s.tile k).ackDue.contains lane.val = true →
    ((s.tile k).deadOf (· == lane.val) = 0 → exec (.fenceAck dt k lane) s = .next (((s.tick dt).setTile k { s.tile k with
      ackDue := (s.tile k).ackDue.filter (· != lane.val) }).fenceAcked k lane.val)) ∧
    ((s.tile k).deadOf (· == lane.val) ≠ 0 → exec (.fenceAck dt k lane) s = .next (s.tick dt))) ∧
  (∀ (dt k : Nat) (mbox : Fin 64) (w : BitVec 64) (x : LaneRec) (q : Pass) (r : Region) (f : Furnish) (s : State), mbox.val < 16 →
    let key := mboxKey (hubNode s.actingHub) mbox.val
    let l := cwLane w.toNat
    let s1 : State := { s.tick dt with mboxes := mdel s.mboxes key }
    mlook s.mboxes key = some w → bits w.toNat 36 32 = 0 → bits w.toNat 27 0 = 0 →
    s.lane l = some x → x.pass = some q → x.aborted = false → x.terminal = none →
    s.abortDue.contains l = false → q.life.val = cwLife w.toNat → s1.recordRegion x.slot = some (k, r) → (s.pslot x.slot).furn = some f →
    let row := s1.rowAt k (64 * (rBase r + l))
    let t := tokenOf 0 (rowBytes row 3 0)
    let good := t.tag.toNat = cwTag w.toNat ∧ t.lane.val = l ∧ t.life.val = cwLife w.toNat ∧
      rowByte row 10 ≤ 1 ∧ rowBytes row 15 11 = 0 ∧ rowBytes row 63 48 = 0
    (good → exec (.epochEnd dt mbox) s = .next ((s1.endEpoch l x q row f.maxContext).sendRecord x.slot x.sub.stream row)) ∧
    (¬ good → exec (.epochEnd dt mbox) s = .next (s1.badRecord k l w.toNat))) ∧
  (∀ (dt : Nat) (lane : Fin 256) (s : State), s.abortDue.contains lane.val = true →
    exec (.epochAbort dt lane) s = .next ((((s.tick dt).abortNotice lane.val).abortLane lane.val).tryReplay lane.val)) ∧
  (∀ (dt : Nat) (lane : Fin 256) (x : LaneRec) (s : State), s.lane lane.val = some x →
    (x.replayDue = false → (s.tick dt).mayIssue lane.val x = true →
      exec (.passIssue dt lane) s = .next ((s.tick dt).issue lane.val x ((s.tick dt).nextPass lane.val x) x.guessRight)) ∧
    (x.replayDue = true → exec (.passIssue dt lane) s = .next ((s.tick dt).tryReplay lane.val))) ∧
  (∀ (dt : Nat) (lane : Fin 256) (x : LaneRec) (q : Pass) (s : State), s.lane lane.val = some x → x.pass = some q →
    s.dev ≠ 7 → x.express = true → q.kind = 1 → x.aborted = false → x.runAhead = none → x.terminal = none →
    x.fill + q.drafts + 1 ≤ x.leadTokens → s.runAheadPays x = true → s.heldLanes.contains lane.val = false →
    s.lifeLag lane.val = 0 → q.drafts + 1 < x.left →
    let base := q.base + q.drafts + 1
    let d := min x.sub.drafts (x.left - (q.drafts + 1) - 1)
    exec (.runaheadIssue dt lane) s =
      .next (((s.tick dt).setLane lane.val { x with runAhead := some ⟨base, q.base, d, q.life + 1⟩ }).sendAll
        ((s.tick dt).startTokens x.slot lane.val (q.life + 1) base [1] 0 (startPayload x 2 base d (d + 1) q.base 1))))

/-- REGION_SET (R131, R148, R149) of an entry that no slot uses, with region words that R131 allows: the descriptor is installed with its
pointers 0, or, in a POSITION region, all three pointers at the position given. FILL, COPY and TAGSET (R148, R149) on rows inside the
scratchpad that, outside HOLD, no unit binds: rows written with the pattern and their tags set; rows copied with their tags, as if
through a buffer; tags set. A write into a one-copy resident region that a unit reads counts a hazard (R142). Each then reports done
and counts in the tile's commands. REGION_SET of an entry in use or with words that R131 forbids, and FILL, COPY and TAGSET on rows
that they may not touch, report refused and change nothing else. -/
def Obligations.ScratchFillsAndDescriptors : Prop :=
  ∀ (dt k : Nat) (s : State), isTile k = true →
    let t := s.tile k
    let u := s.tick dt
    (∀ (e : Fin 32) g0 g1 pos, t.usesRegion e.val = false → regionWordsOk g0 g1 = true →
      exec (.regionSet dt k e g0 g1 pos) s = .next ((u.setTile k (t.setRegion e.val
        (if rKind { g0 := g0, g1 := g1 } = 4 then { g0 := g0, g1 := g1, head := pos % 2 ^ 32, tail := pos % 2 ^ 32, commit := pos % 2 ^ 32 }
         else { g0 := g0, g1 := g1 }))).cmdDone k)) ∧
    (∀ (e : Fin 32) g0 g1 pos, t.usesRegion e.val = true ∨ regionWordsOk g0 g1 = false →
      exec (.regionSet dt k e g0 g1 pos) s = .next (u.cmdRefused k)) ∧
    (∀ first n p full, t.mayCommand first n = true →
      exec (.scratchFill dt k first n p full) s = .next ((((u.hubHazards k first n).putRows k (64 * first)
        (List.replicate n (BitVec.ofNat 512 (packCodes 64 (List.replicate 8 p.toNat))))).setTags k first full n).cmdDone k)) ∧
    (∀ first n p full, t.mayCommand first n = false → exec (.scratchFill dt k first n p full) s = .next (u.cmdRefused k)) ∧
    (∀ src dst n, t.mayCommand src n = true → t.mayCommand dst n = true →
      exec (.scratchCopy dt k src dst n) s = .next ((((u.hubHazards k dst n).putRows k (64 * dst) (u.rowsAt k (64 * src) n)).putTags k dst
        (u.tagsAt k src n)).cmdDone k)) ∧
    (∀ src dst n, t.mayCommand src n = false ∨ t.mayCommand dst n = false → exec (.scratchCopy dt k src dst n) s = .next (u.cmdRefused k)) ∧
    (∀ first n full, t.mayCommand first n = true → exec (.tagset dt k first n full) s = .next ((u.setTags k first full n).cmdDone k)) ∧
    (∀ first n full, t.mayCommand first n = false → exec (.tagset dt k first n full) s = .next (u.cmdRefused k))

/-- COMMIT (R143, R146) on a POSITION entry of a position from tail_pos to head_pos sets commit_pos; elsewhere it is refused. ROLLBACK on
a POSITION entry sets head_pos to commit_pos, and waits while a memory firing on a dead key of the region's lane is under way;
elsewhere it is refused. SWAP (R141, R148) on a two-copy resident entry changes the live copy; elsewhere it is refused. SAVE and
RESTORE (R148, R151) on rows that they may touch, to a writable or from a readable range in stack or scratchpad space, write the image
out and take an image that passes its checks in; where one of these conditions fails they are refused. What is done counts in the
tile's commands; what is refused changes nothing but the command's report. SWAP_PROTOCOL (R141): the lanes of the slot are held, and
once all are quiet its two-copy regions are swapped and the lanes let go. -/
def Obligations.ScratchPositionsCopiesAndImages : Prop :=
  (∀ (dt k : Nat) (e : Fin 32) (s : State), isTile k = true →
    let t := s.tile k
    let u := s.tick dt
    let r := t.region e.val
    (∀ pos, rKind r = 4 → serLe 32 r.tail pos = true → serLe 32 pos r.head = true →
      exec (.scratchCommit dt k e pos) s =
        .next (((u.setTile k (t.setRegion e.val { r with commit := pos % 2 ^ 32 })).bump (oScratchpadTileCommits k)).cmdDone k)) ∧
    (∀ pos, rKind r ≠ 4 ∨ serLe 32 r.tail pos = false ∨ serLe 32 pos r.head = false →
      exec (.scratchCommit dt k e pos) s = .next (u.cmdRefused k)) ∧
    (rKind r = 4 → t.deadBusy (rLane r) = false →
      exec (.scratchRollback dt k e) s =
        .next (((u.setTile k (t.setRegion e.val { r with head := r.commit })).bump (oScratchpadTileRollbacks k)).cmdDone k)) ∧
    (rKind r = 4 → t.deadBusy (rLane r) = true →
      exec (.scratchRollback dt k e) s = .next (u.setTile k { t with pendRollback := t.pendRollback ++ [e.val] })) ∧
    (rKind r ≠ 4 → exec (.scratchRollback dt k e) s = .next (u.cmdRefused k)) ∧
    (rKind r = 3 → rTwo r = true →
      exec (.scratchSwap dt k e) s =
        .next (((u.setTile k (t.setRegion e.val { r with live := !r.live })).bump (oScratchpadTileSwaps k)).cmdDone k)) ∧
    (rKind r ≠ 3 ∨ rTwo r = false → exec (.scratchSwap dt k e) s = .next (u.cmdRefused k))) ∧
  (∀ (dt k first n node off : Nat) (s : State), isTile k = true →
    let u := s.tick dt
    let bytes := 64 * saveRows n
    ((s.tile k).mayCommand first n = true → s.validRange node off bytes = true → off % 64 = 0 → s.writable node off bytes = true →
      exec (.scratchSave dt k first n node off) s = .next ((u.writeNode node off (u.saveImage k first n)).cmdDone k)) ∧
    ((s.tile k).mayCommand first n = false ∨ s.validRange node off bytes = false ∨ off % 64 ≠ 0 ∨ s.writable node off bytes = false →
      exec (.scratchSave dt k first n node off) s = .next (u.cmdRefused k))) ∧
  (∀ (dt k node off : Nat) (s : State), isTile k = true →
    let u := s.tick dt
    let h := s.rowAt node off
    let n := rowBytes h 9 6
    let img := s.rowsAt node off (saveRows n)
    (s.readable node = true → (s.tile k).mayCommand (rowBytes h 5 4) n = true → s.validRange node off (64 * saveRows n) = true →
      saveOk img = true → exec (.scratchRestore dt k node off) s = .next ((u.installSave k img).cmdDone k)) ∧
    (s.readable node = false ∨ (s.tile k).mayCommand (rowBytes h 5 4) n = false ∨ s.validRange node off (64 * saveRows n) = false ∨
      saveOk img = false → exec (.scratchRestore dt k node off) s = .next (u.cmdRefused k))) ∧
  (∀ (dt : Nat) (slot : Fin 8) (s : State),
    let q := (s.tick dt).quiesce slot.val
    (q.1 = true → exec (.swapProtocol dt slot) s =
      .next (((q.2.twoCopies slot.val).foldl (fun s p => s.swapRegion p.1 p.2) q.2).letGo slot.val)) ∧
    (q.1 = false → exec (.swapProtocol dt slot) s = .next q.2))

/-- For a packet that arrives in its turn, new, and with no fault of R168: REMOTE_WRITE at a tile (R167) with a range in its scratchpad,
room in the table and ready rows writes them and, unless it is a copy of a multicast, answers WRITE_ACK (R170); REMOTE_READ there
answers READ_DATA with the rows; a range outside is dropped with cause 0x0008, without room the request stays in flight, and with rows
not ready it waits in the table. At a stack's main function either is served there (R187, R188). WRITE_ACK (R156, R157) completes a
tile's outbound transfer whose transaction it echoes and closes a row's parity acknowledgement at a stack (R199); READ_DATA completes
a tile's inbound DMA; an answer to nothing is sunk. ERROR_PACKET (R86, R168) at a tile is logged against the slot with cause 0x000A,
and completes the memory firing that it answers with error tokens; other nodes take it. A packet out of its turn waits, one that R168
finds fault with or that its node does not accept is dropped, and such an ERROR is only counted. -/
def Obligations.PacketDeliveries : Prop :=
  ∀ (dt : Nat) (p : Pkt) (s : State),
    let u := (s.tick dt).takePkt p
    let row := p.offset / 64
    let n := p.body.length
    let m := p.rowsM1 % 64 + 1
    let e := entryOf (bytesOfRow (p.body.headD {}).row)
    let log : FaultEntry := { e with cause := causeErrorToken, slot := p.srcSlot, queue := 0x3F, producer := p.src, detail := e.cause }
    (∀ corr bad, DropsPacket dt p (p.ptype == 2) s (exec (.remoteWrite dt p) s) ∧ DropsPacket dt p (p.ptype == 3) s (exec (.remoteRead dt p ⟨corr, bad⟩) s)) ∧
    DropsPacket dt p (p.ptype == 4) s (exec (.writeAck dt p) s) ∧ DropsPacket dt p (p.ptype == 5) s (exec (.readData dt p) s) ∧
    (s.inOrder p = true → u.packetFault p ≠ none → exec (.errorPacket dt p) s = .next (u.bump oFabricPanelErrorLost)) ∧
    (PacketArrives dt p s →
      (∀ k, nodeKind p.dest = .tile k → p.ptype = 2 →
        (p.offset % 64 ≠ 0 ∨ 0x400000 < p.offset + 64 * n → exec (.remoteWrite dt p) s = .next (u.dropPkt k p causeBuffer (gaddr k p.offset))) ∧
        (p.offset % 64 = 0 → p.offset + 64 * n ≤ 0x400000 →
          ((u.tile k).requestRoom p = true → u.remoteReady k row n false = true →
            let w := (u.requestDone k p).remoteRows k p.src row (p.body.map (·.row))
            exec (.remoteWrite dt p) s = .next (if p.vc = 3 then w else w.send (.pkt (ackPkt k p.src p.txn p.srcSlot)))) ∧
          ((u.tile k).requestRoom p = false → exec (.remoteWrite dt p) s = .next (u.defer p)) ∧
          ((u.tile k).requestRoom p = true → u.remoteReady k row n false = false → exec (.remoteWrite dt p) s = .next (u.requestWait k p)))) ∧
      (∀ i, nodeKind p.dest = .stack i 0 → p.ptype = 2 → exec (.remoteWrite dt p) s = .next (u.stackWrite i p)) ∧
      (∀ k corr bad, nodeKind p.dest = .tile k → p.ptype = 3 →
        (p.offset % 64 ≠ 0 ∨ 0x400000 < p.offset + 64 * m →
          exec (.remoteRead dt p ⟨corr, bad⟩) s = .next (u.dropPkt k p causeBuffer (gaddr k p.offset))) ∧
        (p.offset % 64 = 0 → p.offset + 64 * m ≤ 0x400000 →
          ((u.tile k).requestRoom p = true → u.remoteReady k row m true = true →
            exec (.remoteRead dt p ⟨corr, bad⟩) s = .next ((u.requestDone k p).send (.pkt (dataPkt k p (u.rowsAt k p.offset m))))) ∧
          ((u.tile k).requestRoom p = false → exec (.remoteRead dt p ⟨corr, bad⟩) s = .next (u.defer p)) ∧
          ((u.tile k).requestRoom p = true → u.remoteReady k row m true = false →
            exec (.remoteRead dt p ⟨corr, bad⟩) s = .next (u.requestWait k p)))) ∧
      (∀ i corr bad, nodeKind p.dest = .stack i 0 → p.ptype = 3 → exec (.remoteRead dt p ⟨corr, bad⟩) s = .next (u.stackRead i p corr bad)) ∧
      (∀ k, nodeKind p.dest = .tile k → p.ptype = 4 →
        (∀ i b, (u.tile k).busySlot p.txn p.srcSlot = some (i, b) → b.what ≠ 0 → exec (.writeAck dt p) s = .next (u.memAcked k i b)) ∧
        ((u.tile k).busySlot p.txn p.srcSlot = none → exec (.writeAck dt p) s = .next u)) ∧
      (∀ i f, nodeKind p.dest = .stack i f → p.ptype = 4 →
        exec (.writeAck dt p) s = .next (u.closeRow i (p.retOffset / 16) (p.retOffset % 16) p.txn)) ∧
      (∀ k, nodeKind p.dest = .tile k → p.ptype = 5 →
        (∀ i b, (u.tile k).busySlot p.txn p.srcSlot = some (i, b) → b.what = 0 →
          exec (.readData dt p) s = .next (u.memData k i b (p.body.map (·.row)))) ∧
        ((u.tile k).busySlot p.txn p.srcSlot = none → exec (.readData dt p) s = .next u)) ∧
      (∀ k, nodeKind p.dest = .tile k → p.ptype = 6 →
        (∀ i b, ((u.logTile k log).tile k).busySlot p.txn p.srcSlot = some (i, b) → exec (.errorPacket dt p) s =
          .next ((u.logTile k log).finishBusy k i 0 (some { log with time := (u.logTile k log).logTime }))) ∧
        (((u.logTile k log).tile k).busySlot p.txn p.srcSlot = none → exec (.errorPacket dt p) s = .next (u.logTile k log))))

/-- INSTALL (R156, R168) that arrives at a tile from a hub, with rows that lie within their table, writes them; from any other node, or
past the table, it is dropped. MULTICAST_FORWARD (R169, R170) of a well-formed packet of a group in a live generation, of a type that
may be multicast, that came in on the group's parent edge of a compute die: a copy with one more die crossing leaves on every branch
and every tile of the tree on the die gets its copy; at a die whose tables hold no such group it is dropped as misrouted. BANK_FLIP
(R28, R33, R163, R164) with an idle bank and a generation due: the tables flip to what is passable now and what they already avoid;
else nothing changes. BANK_DRAIN_END (R163): a bank whose draining time has passed is idle again, before that it drains on. LINK_ADMIT
(R165) with something newly passable and an idle bank: while a lane whose path would change has a tag outstanding, or hub firmware's
packets to such a pair are in flight, those lanes are held; else the tables flip, the lanes are let go and each link that came in is
published. -/
def Obligations.TablesAndMulticast : Prop :=
  (∀ (dt : Nat) (p : Pkt) (inst : Install) (s : State),
    let v := s.take (.install p.dest inst)
    let u := (v.tick dt).takePkt p
    isTile p.dest = true → p.ptype = 8 → PacketArrives dt p v →
    (isHubNode p.src = true → installFits inst = true → exec (.install dt p inst.first inst.rows) s = .next (u.setTile p.dest ((u.tile p.dest).install inst))) ∧
    (isHubNode p.src = true → installFits inst = false → exec (.install dt p inst.first inst.rows) s = .next (u.dropPkt p.dest p causeBuffer 0)) ∧
    (isHubNode p.src = false → exec (.install dt p inst.first inst.rows) s = .next (u.dropPkt p.dest p causeMisrouted 0))) ∧
  (∀ (dt : Nat) (site : Fin 256) (edge : Fin 5) (p : Pkt) (inst : Option Install) (s : State),
    let u := (s.tick dt).takePkt p
    (∀ ix branches tiles, isCompute site.val = true → groupIndex p.dest = some ix →
      (u.bank p.gen).tree site.val ix = some (edge.val, branches, tiles) →
      pktFormOk p = true → 32768 ≤ p.dest → u.genLive p.gen = true → p.hops ≤ 64 → [1, 2, 7, 8].contains p.ptype = true →
      exec (.multicastForward dt site edge p inst) s =
        .next (((List.range 64).filter (fun t => tiles.testBit t)).foldl (fun s t => s.deliverCopy (site.val * 64 + t) p inst)
          (((List.range 4).filter (fun e => branches.testBit e)).foldl
            (fun s _ => { s with out := s.out ++ [.pkt { p with hops := p.hops + 1 }] }) u))) ∧
    ((groupIndex p.dest).bind (fun ix => (u.bank p.gen).tree site.val ix) = none →
      exec (.multicastForward dt site edge p inst) s = .next (u.dropPkt (siteNode site.val) p causeMisrouted 0))) ∧
  (∀ (dt pairs : Nat) (s : State),
    let u := s.tick dt
    (u.idleBank = true → u.generationDue = true →
      exec (.bankFlip dt pairs) s = .next (u.flip u.blockedNext.1 u.blockedNext.2 pairs).settleHops) ∧
    (u.idleBank = false ∨ u.generationDue = false → exec (.bankFlip dt pairs) s = .next u)) ∧
  (∀ (dt t : Nat) (bank : Fin 2) (s : State), (s.bank bank.val).drainUntil = some t →
    (t ≤ s.clk + dt → exec (.bankDrainEnd dt bank) s = .next ((s.tick dt).setBank bank.val { s.bank bank.val with drainUntil := none })) ∧
    (s.clk + dt < t → exec (.bankDrainEnd dt bank) s = .next (s.tick dt))) ∧
  (∀ (dt pairs : Nat) (s : State),
    let u := s.tick dt
    let b := u.bank u.activeBank
    let sites := u.blockedNow.1
    let links := u.blockedNow.2
    let next : Bank := { b with blockedSites := sites, blockedLinks := links }
    let ls := ((u.slotsWhere (fun p => b.nodePath p.1 p.2 != next.nodePath p.1 p.2)).map u.lanesOf).flatten
    let quiet := ls.all u.laneQuiet && u.out.all (fun e => match e with
      | .pkt p => !isHubNode p.src || b.nodePath p.src p.dest == next.nodePath p.src p.dest
      | _ => true)
    b.built = true → (b.blockedSites.any (fun g => !sites.contains g) || b.blockedLinks.any (fun l => !links.contains l)) = true →
    u.idleBank = true →
    (quiet = false → exec (.linkAdmit dt pairs) s = .next { u with heldLanes := s.heldLanes ++ ls.filter (fun l => !s.heldLanes.contains l) }) ∧
    (quiet = true → exec (.linkAdmit dt pairs) s = .next ((b.blockedLinks.filter (fun l => !links.contains l)).foldl (fun s l =>
        s.linkEvent l 5 (s.odGet (oFabricLinkLatencyPs l)) (s.odGet (oFabricLinkLatencyPs l)) (s.odGet (oFabricLinkLanesGood l)))
      { (u.flip sites links pairs).settleHops with heldLanes := s.heldLanes.filter (fun l => !ls.contains l) })))

/-- LINK_BLOCK_RECEIVED (R159, R171 to R173) at a link end, once the flits that have moved on have left its receive buffers: on a link
that is not passable the block is lost; one whose CRC fails is counted and answered with a NAK; a retrain request starts a retrain;
else its acknowledgement is taken, and, the link still passable, an idle or marker block is answered, a data block in sequence is
stored and the next expected, and one out of sequence is answered with a NAK unless one is outstanding. ACK_TIMEOUT_RETRAIN (R173)
after 10 µs without an acknowledgement on a passable link, and RETRAIN_REQUEST at an end that is UP or UP_HALF, start a retrain.
RETRAIN_DONE (R173, R174, R176) of a retraining end: with 32 or more lanes and good training the link is UP (64) or UP_HALF at its new
calibration and replays what is unacknowledged; with fewer than 32, or at the third failed training, it fails; at an earlier one the
count goes up. LINK_FAIL (R174) fails a link that has not failed, and cuts the packets named. HELD_FLIT_FAULT (R175) on a passable
link purges both ends, aborts the lanes of their flits, logs cause 0x0017, counts and publishes. -/
def Obligations.LinkProtocolSteps : Prop :=
  ∀ (dt l : Nat) (s : State), linkExists l = true →
    let u := s.tick dt
    let cut := fun (c : List (Pkt × Nat)) (v : State) => c.foldl (fun s c => s.cutPkt c.1 c.2) v
    (∀ b drained reply,
      let v := match linkOther l with | some o => u.take (.block o b) | none => u
      let limit := v.odGet (oFabricLinkXoffThreshold l)
      let w := v.setLink l (((v.linkEnd l).drain drained).watch limit)
      let x := w.takeAck l b
      (w.linkPassable l = false → exec (.linkBlockReceived dt l b ⟨drained, reply⟩) s = .next w) ∧
      (w.linkPassable l = true →
        (crcHolds b = false → exec (.linkBlockReceived dt l b ⟨drained, reply⟩) s =
          .next (((w.setLink l { w.linkEnd l with naking := true }).bump (oFabricLinkCrcErrors l)).sendBlock l reply true)) ∧
        (crcHolds b = true → b.kind = 4 → exec (.linkBlockReceived dt l b ⟨drained, reply⟩) s = .next (w.startRetrain l false)) ∧
        (crcHolds b = true → b.kind ≠ 4 →
          (x.linkPassable l = false → exec (.linkBlockReceived dt l b ⟨drained, reply⟩) s = .next x) ∧
          (x.linkPassable l = true → b.kind ≠ 0 → exec (.linkBlockReceived dt l b ⟨drained, reply⟩) s = .next (x.sendBlock l reply false)) ∧
          (x.linkPassable l = true → b.kind = 0 → b.seq = (x.linkEnd l).expected → exec (.linkBlockReceived dt l b ⟨drained, reply⟩) s =
            .next ((x.setLink l (({ x.linkEnd l with expected := (x.linkEnd l).expected + 1, naking := false }.store b.slots).watch
              limit)).sendBlock l reply false)) ∧
          (x.linkPassable l = true → b.kind = 0 → b.seq ≠ (x.linkEnd l).expected → exec (.linkBlockReceived dt l b ⟨drained, reply⟩) s =
            .next ((x.setLink l { x.linkEnd l with naking := true }).sendBlock l reply (!(x.linkEnd l).naking)))))) ∧
    (∀ t, (s.linkEnd l).oldestAt = some t →
      (t + 10000 ≤ s.clk + dt → s.linkPassable l = true → exec (.ackTimeoutRetrain dt l) s = .next (u.startRetrain l true)) ∧
      (s.clk + dt < t + 10000 → exec (.ackTimeoutRetrain dt l) s = .next u)) ∧
    (∀ received, s.odGet (oFabricLinkState l) = 2 ∨ s.odGet (oFabricLinkState l) = 3 →
      exec (.retrainRequest dt l received) s = .next (u.startRetrain l (!received))) ∧
    (∀ lanes minPs ok, (s.linkEnd l).retraining = true →
      let e := s.linkEnd l
      let u1 := (u.bump (oFabricLinkRetrains l)).bump oFabricPanelRetrains
      (lanes < 32 ∨ (ok = false ∧ 2 ≤ e.failedRetrains) → exec (.retrainDone dt l lanes minPs ok) s = .next (u1.failLink l lanes)) ∧
      (32 ≤ lanes → ok = false → e.failedRetrains < 2 →
        exec (.retrainDone dt l lanes minPs ok) s = .next (u1.setLink l { e with failedRetrains := e.failedRetrains + 1 })) ∧
      (32 ≤ lanes → ok = true →
        let lat := calibrated minPs
        let full := decide (64 ≤ lanes)
        let u2 := (((((u1.odSet (oFabricLinkState l) (if full then 2 else 3)).odSet (oFabricLinkLanesGood l) lanes).odSet
          (oFabricLinkLatencyPs l) lat).odSet (oFabricLinkXoffThreshold l) (xoffThreshold lat (if full then 620 else 1240))).odSet
          (oFabricLinkLastRetrain l) u.now).odSet (oFabricLinkRetrain l) 0
        let u3 := u2.setLink l { e with
          retraining := false, failedRetrains := 0, failedReplays := 0, naking := false
          oldestAt := if e.sent = [] then none else some (s.clk + dt) }
        exec (.retrainDone dt l lanes minPs ok) s =
          .next ((u3.linkEvent l (if full then 1 else 2) (u.odGet (oFabricLinkLatencyPs l)) lat lanes).replay l e.sent))) ∧
    (∀ c, let v := s.odGet (oFabricLinkState l)
      (v = 5 ∨ v = 6 ∨ v = 0 → exec (.linkFail dt l c) s = .next (cut c u)) ∧
      (v ≠ 5 → v ≠ 6 → v ≠ 0 → exec (.linkFail dt l c) s = .next (cut c (u.failLink l (s.odGet (oFabricLinkLanesGood l)))))) ∧
    (∀ c, s.linkPassable l = true →
      let ends := l :: (linkOther l).toList
      let lanes := flitLanes ((ends.map (fun e => ((s.linkEnd e).sent.map blockFlits).flatten ++ ((s.linkEnd e).rx.map (·.2)).flatten)).flatten)
      let u1 := ends.foldl (fun s e =>
        let x := s.linkEnd e
        let next := match linkOther e with | some o => (s.linkEnd o).nextSeq | none => x.expected
        (s.setLink e { x with
          sent := [], oldestAt := none, naking := false, failedReplays := 0, expected := next, rx := [], xoffOut := 0 }).putBlock e
            { kind := 3, seq := x.nextSeq - 1, ackSeq := next }) u
      let log : FaultEntry := { address := 0x370000 + l, cause := 0x0017, slot := 0xF, producer := siteNode (l / 4) }
      let lat := s.odGet (oFabricLinkLatencyPs l)
      exec (.heldFlitFault dt l c) s = .next (cut c ((((u1.abortLanes lanes).logAt (hubNode s.actingHub) log).bump (oFabricLinkPurges l)).bump
        oFabricPanelPurges |>.linkEvent l 4 lat lat (s.odGet (oFabricLinkLanesGood l)))))

/-- For a control packet that arrives (R177). MBOX_WRITE (R179, R180, R182) to an empty mailbox that the source may write stores the
64-bit word, rings the mailbox's doorbell bit where it has one and answers ACCEPTED; to a full one it changes nothing but the busy
counter and answers BUSY; to one that does not exist, or that the source may not write, it answers ERROR and logs cause 0x0009. A
write to number 0x80 + b, as the model sends doorbell writes (log entry 26), rings bit b, or answers ERROR where the source may not.
MBOX_RESP (R83) at a tile whose unit holds a token: ACCEPTED lets the token go, BUSY sets the time of the next write, ERROR is a
violation of the unit. MBOX_POLL answers with the flag, or ERROR where there is no such mailbox, and MBOX_POLL_RESP changes nothing
but what is in flight. DOORBELL (R183) by a source that may ring it sets the bit, and is acknowledged where it asks (the model's
choice of answer, log entry 109); one that may not is logged with cause 0x0009. A control packet of another operation or form, or that
no path leads on, is logged with cause 0x0003. -/
def Obligations.MailboxWrites : Prop :=
  ∀ (dt : Nat) (c : Ctl) (s : State),
    let u := (s.tick dt).take (.ctl c)
    let n := ctlWord c 0 % 256
    let bit := ctlWord c 0 % 32
    let error := (u.logAt c.dest (ctlEntry c causeFirmwareOnly)).reply c 2 [2 + n * 256]
    DropsControl dt c 1 s (exec (.mboxWrite dt c) s) ∧ DropsControl dt c 2 s (exec (.mboxResp dt c) s) ∧
    DropsControl dt c 3 s (exec (.mboxPoll dt c) s) ∧ DropsControl dt c 4 s (exec (.mboxPollResp dt c) s) ∧
    DropsControl dt c 5 s (exec (.doorbell dt c) s) ∧
    (ControlArrives c 1 s →
      (∀ key, n < 0x80 → mailbox c.dest n = some key → mayWriteMbox c.src c.dest = true →
        let v : State := { u with mboxes := mins s.mboxes key (BitVec.ofNat 64 (ctlWord c 1 + ctlWord c 2 * 2 ^ 32)) }
        (mlook s.mboxes key = none → mboxBell c.src c.dest n = none → exec (.mboxWrite dt c) s = .next (v.reply c 2 [0 + n * 256])) ∧
        (∀ b, mlook s.mboxes key = none → mboxBell c.src c.dest n = some b →
          exec (.mboxWrite dt c) s = .next ((v.ring c.dest b).reply c 2 [0 + n * 256])) ∧
        (∀ w, mlook s.mboxes key = some w →
          exec (.mboxWrite dt c) s = .next ((u.bump oFabricPanelMailboxBusy).reply c 2 [1 + n * 256]))) ∧
      (n < 0x80 → mailbox c.dest n = none ∨ mayWriteMbox c.src c.dest = false → exec (.mboxWrite dt c) s = .next error) ∧
      (0x80 ≤ n → n < 0xA0 → (bellObj c.dest).isSome = true → mayRing c.src c.dest (n - 0x80) = true →
        exec (.mboxWrite dt c) s = .next ((u.ring c.dest (n - 0x80)).reply c 2 [0 + n * 256])) ∧
      (0x80 ≤ n → 0xA0 ≤ n ∨ (bellObj c.dest).isSome = false ∨ mayRing c.src c.dest (n - 0x80) = false →
        exec (.mboxWrite dt c) s = .next error)) ∧
    (∀ k r, ControlArrives c 2 s → nodeKind c.dest = .tile k → ((s.tile k).slot (c.txn % 16)).held = some r →
      let t := s.tile k
      let i := c.txn % 16
      let x := t.slot i
      let done := u.setTile k ((t.setSlot i { x with held := none, retryAt := 0 }).refresh u.clk)
      (ctlWord c 0 % 4 = 0 → exec (.mboxResp dt c) s = .next done) ∧
      (ctlWord c 0 % 4 = 1 → exec (.mboxResp dt c) s =
        .next (u.setTile k (t.setSlot i { x with retryAt := s.clk + dt + u.odGet oFabricPanelBusyBackoffNs }))) ∧
      (ctlWord c 0 % 4 = 2 → exec (.mboxResp dt c) s = .next (done.violateTok k i (dIn x.cur 0) r causeFirmwareOnly 0 0))) ∧
    (ControlArrives c 3 s →
      (∀ key, mailbox c.dest n = some key → exec (.mboxPoll dt c) s =
        .next (u.reply c 4 [(if (mlook s.mboxes key).isSome then 1 else 0) + n * 256])) ∧
      (mailbox c.dest n = none → exec (.mboxPoll dt c) s = .next error)) ∧
    (ControlArrives c 4 s → exec (.mboxPollResp dt c) s = .next u) ∧
    (ControlArrives c 5 s →
      ((bellObj c.dest).isSome = true → mayRing c.src c.dest bit = true →
        ((ctlWord c 0).testBit 8 = false → exec (.doorbell dt c) s = .next (u.ring c.dest bit)) ∧
        ((ctlWord c 0).testBit 8 = true → exec (.doorbell dt c) s = .next ((u.ring c.dest bit).reply c 2 [0]))) ∧
      ((bellObj c.dest).isSome = false ∨ mayRing c.src c.dest bit = false →
        exec (.doorbell dt c) s = .next (u.logAt c.dest (ctlEntry c causeFirmwareOnly))))

/-- TILE_SEQUENCER_DISPATCH (R84, R87): a tile's heartbeat counts one, its fault log is drained, a notice leaves for every entry that was
not, and a scan that has been served ends. FAULT_NOTICE (R178) that arrives at a hub joins its queue of fewer than 1,024, rings bit 0
and is answered taken; with 1,024 waiting it is counted and answered BUSY; at any other node it is logged with cause 0x0003.
NOTICE_RESP to an outstanding notice: BUSY sets the time of the next try; taken removes the notice, and the tile's fault flag with its
last one where its log is drained. NOTICE_RESEND sends again a notice whose backoff has passed. HUB_DISPATCH_POINT (R2): a hub that
does not run does nothing; one that runs takes its unmasked doorbells, mailboxes and notices, and one that leads does the panel's work
(log entry 65 says how that divides among commands), delivers events and evaluates its status. STEWARD_DISPATCH_POINT: a good steward
of a panel that is on takes its doorbells and mailboxes, sets its sector's level and serves the wakes that wait; no other does
anything. -/
def Obligations.NoticesAndTurns : Prop :=
  (∀ (dt k : Nat) (s : State), isTile k = true →
    exec (.tileSequencerDispatch dt k) s = .next (((s.tile k).log.drop (s.tile k).drained).foldl (fun s e => s.sendNotice k e)
      ((s.tick dt).setTile k (({ s.tile k with heartbeat := (s.tile k).heartbeat + 1, drained := (s.tile k).log.length } : Tile).endScan
        (s.clk + dt))))) ∧
  (∀ (dt : Nat) (c : Ctl) (s : State),
    let u := (s.tick dt).take (.ctl c)
    DropsControl dt c 9 s (exec (.faultNotice dt c) s) ∧ DropsControl dt c 10 s (exec (.noticeResp dt c) s) ∧
    (∀ h r, ControlArrives c 9 s → nodeKind c.dest = .hub h r →
      ((s.notices h).length < 1024 → exec (.faultNotice dt c) s =
        .next (((u.setNotices h (s.notices h ++ [⟨c.src, entryOf ((c.words.map (toLE 4)).flatten)⟩])).ring (hubNode h) 0).reply c 10 [0])) ∧
      (1024 ≤ (s.notices h).length → exec (.faultNotice dt c) s = .next ((u.bump oFabricPanelNoticeBusy).reply c 10 [1]))) ∧
    (ControlArrives c 9 s → (∀ h r, nodeKind c.dest ≠ .hub h r) →
      exec (.faultNotice dt c) s = .next (u.logAt c.dest (ctlEntry c causeMisrouted))) ∧
    (ControlArrives c 10 s →
      let l := mget [] s.noticesOut c.dest
      let rest := l.filter (fun n => n.2.2 != c.txn)
      (l.any (fun n => n.2.2 == c.txn) = false → exec (.noticeResp dt c) s = .next u) ∧
      (l.any (fun n => n.2.2 == c.txn) = true → ctlWord c 0 % 2 = 1 → exec (.noticeResp dt c) s =
        .next (u.setOut c.dest (l.map (fun n => if n.2.2 = c.txn then (n.1, s.clk + dt + s.odGet oFabricPanelBusyBackoffNs, n.2.2) else n)))) ∧
      (l.any (fun n => n.2.2 == c.txn) = true → ctlWord c 0 % 2 = 0 →
        (∀ k, nodeKind c.dest = .tile k → rest = [] → (s.tile k).log.length ≤ (s.tile k).drained →
          exec (.noticeResp dt c) s = .next ((u.setOut c.dest rest).setTile k { s.tile k with faultFlag := false })) ∧
        ((∀ k, nodeKind c.dest = .tile k → rest ≠ [] ∨ (s.tile k).drained < (s.tile k).log.length) →
          exec (.noticeResp dt c) s = .next (u.setOut c.dest rest))))) ∧
  (∀ (dt node : Nat) (s : State),
    let l := mget [] s.noticesOut node
    (∀ x, l.find? (fun n => n.2.1 != 0 && decide (n.2.1 ≤ s.clk + dt)) = some x → exec (.noticeResend dt node) s =
      .next (((s.tick dt).setOut node (l.map (fun n => if n = x then (n.1, 0, n.2.2) else n))).send
        (noticeMsg (hubNode s.actingHub) node x.2.2 x.1))) ∧
    (l.find? (fun n => n.2.1 != 0 && decide (n.2.1 ≤ s.clk + dt)) = none → exec (.noticeResend dt node) s = .next (s.tick dt))) ∧
  (∀ (dt work : Nat) (hub : Fin 2) (s : State),
    let u := s.tick dt
    let v := ((u.sampleBells (hubNode hub.val)).takeHubWords hub.val).takeNotices hub.val
    (u.hubRuns hub.val = false → exec (.hubDispatchPoint dt hub work) s = .next u) ∧
    (u.hubRuns hub.val = true → hub.val ≠ u.leadHub → exec (.hubDispatchPoint dt hub work) s = .next v) ∧
    (u.hubRuns hub.val = true → hub.val = u.leadHub → exec (.hubDispatchPoint dt hub work) s =
      .next ((((if 3 ≤ v.dev ∧ v.dev ≤ 5 then v.serveTurn else if v.dev = 6 then v.retryMail.reap.heartbeats.carry else v).attestNow.dumpStep
        work).deliverEvents).evaluate))) ∧
  (∀ (dt : Nat) (sec : Fin 16) (s : State),
    let v := (((s.tick dt).sampleBells (stewardNode sec.val)).takeWords (stewardNode sec.val) 0 16).setLevel sec.val
    (2 ≤ s.dev → s.dev ≠ 6 → s.stewardGood sec.val = true →
      exec (.stewardDispatchPoint dt sec) s = .next (v.serveWakes sec.val (v.sector sec.val).wakes.length)) ∧
    (s.dev < 2 ∨ s.dev = 6 ∨ s.stewardGood sec.val = false → exec (.stewardDispatchPoint dt sec) s = .next (s.tick dt)))

/-- For a control packet that arrives (R177). FLAG_READ answers the flags of the node, and of a tile takes the stall flag and the command
report with word 0 (the words' layout is the model's choice, log entry 26); FLAG_RESP changes nothing but what is in flight. SCAN_DATA
puts its row with what the receiver has of the image; one with reserved bits of word 0 set is logged with cause 0x0003 (R11).
BITMAP_READ (R441) at a node that is no hub answers 512 bits of its die's chunk bitmap in 16 words, from chunk 512 where word 0 says
512; its answer at a hub rings bit 6 (R183). OD_REQ answers with the value of the object that word 0 names, in two words; OD_RESP
rings bit 5 of its node (R183). A control packet of another operation or form is logged with cause 0x0003 by its destination, one that
no path leads on by its source. -/
def Obligations.ControlReads : Prop :=
  ∀ (dt : Nat) (c : Ctl) (s : State),
    let u := (s.tick dt).take (.ctl c)
    let bits := fun (n : Nat) => u.reply c 0x11 ((List.range 16).map (fun i => (mget 0 s.chunks (c.dest / 64) >>> n >>> (32 * i)) % 2 ^ 32))
    DropsControl dt c 6 s (exec (.flagRead dt c) s) ∧ DropsControl dt c 7 s (exec (.flagResp dt c) s) ∧
    DropsControl dt c 0x10 s (exec (.scanData dt c) s) ∧ DropsControl dt c 0x11 s (exec (.bitmapRead dt c) s) ∧
    DropsControl dt c 0x12 s (exec (.odReq dt c) s) ∧ DropsControl dt c 0x13 s (exec (.odResp dt c) s) ∧
    (ControlArrives c 6 s →
      let v := u.reply c 7 (u.flagWords c.dest (ctlWord c 0 % 65536))
      (∀ k, nodeKind c.dest = .tile k → ctlWord c 0 % 65536 = 0 →
        exec (.flagRead dt c) s = .next (v.setTile k { v.tile k with stallFlag := false, cmdFlag := none })) ∧
      ((∀ k, nodeKind c.dest = .tile k → ctlWord c 0 % 65536 ≠ 0) → exec (.flagRead dt c) s = .next v)) ∧
    (ControlArrives c 7 s → exec (.flagResp dt c) s = .next u) ∧
    (ControlArrives c 0x10 s →
      (ctlWord c 0 < 65536 → exec (.scanData dt c) s = .next { u with
        scanRows := mset 0 s.scanRows (c.dest * 65536 + ctlWord c 0)
          (rowOf (((List.range 16).map (fun i => toLE 4 (ctlWord c (i + 1)))).flatten)) }) ∧
      (65536 ≤ ctlWord c 0 → exec (.scanData dt c) s = .next (u.logAt c.dest (ctlEntry c causeMisrouted)))) ∧
    (ControlArrives c 0x11 s →
      (∀ h r, nodeKind c.dest = .hub h r → exec (.bitmapRead dt c) s = .next (u.ring c.dest 6)) ∧
      ((∀ h r, nodeKind c.dest ≠ .hub h r) → ctlWord c 0 ≠ 512 → exec (.bitmapRead dt c) s = .next (bits 0)) ∧
      ((∀ h r, nodeKind c.dest ≠ .hub h r) → ctlWord c 0 = 512 → exec (.bitmapRead dt c) s = .next (bits 512))) ∧
    (ControlArrives c 0x12 s → exec (.odReq dt c) s = .next (u.reply c 0x13
      [ctlWord c 0, s.odGet (ctlWord c 0) % 2 ^ 32, s.odGet (ctlWord c 0) / 2 ^ 32 % 2 ^ 32])) ∧
    (ControlArrives c 0x13 s → exec (.odResp dt c) s = .next (u.ring c.dest 5))

/-- STACK_FILL, STACK_COPY, DIR_SET, DIR_CLEAR and GROUP_SET (R191, R192) are taken by the engine of a stack that is on line and not
pausing, from a hub; in every other case the packet waits in flight or is dropped with the cause that R168, R192, R206 or R207 gives.
Taken: FILL writes its 8-byte pattern over whole rows of valid space outside parity slabs, and its answer follows the parity of those
rows (R187, R199); COPY of whole rows of valid space to a range of a stack on line, or of a tile, writes them there and is answered
likewise; a range that is not valid is dropped with 0x0008, one in a parity slab with 0x0009 (R198), a destination off line with
0x0014. DIR_SET (R193) of a key below 64 sets the entry, or clears it where its valid byte is 0; a key, valid byte or entry size
outside their ranges is dropped with 0x0003. DIR_CLEAR clears a lane's entries. GROUP_SET (R196) with a role below 12 sets the group's
entry; a reserved role is dropped with 0x0003 (the model's choice, log entry 106). -/
def Obligations.StackEngineCommands : Prop :=
  ∀ (dt i : Nat) (p : Pkt) (s : State),
    let u := (s.tick dt).takePkt p
    let off := leAt p.op 0 6
    let len := leAt p.op 6 6
    let dst := leAt p.op 12 2
    let doff := leAt p.op 14 6
    let ack := Emit.pkt (ackPkt (stackNode i) p.src p.txn p.srcSlot)
    let n := leAt p.op 8 2
    let members := (List.range 12).map (fun k => leAt p.op (12 + 2 * k) 2)
    EngineDrops dt p 0x11 20 (fun _ => isHubNode p.src) s (exec (.stackFill dt p) s) ∧
    EngineDrops dt p 0x12 20 (fun _ => isHubNode p.src) s (exec (.stackCopy dt p) s) ∧
    EngineDrops dt p 0x13 14 (fun _ => isHubNode p.src) s (exec (.dirSet dt p) s) ∧
    EngineDrops dt p 0x19 1 (fun _ => isHubNode p.src) s (exec (.dirClear dt p) s) ∧
    EngineDrops dt p 0x14 36 (fun _ => isHubNode p.src) s (exec (.groupSet dt p) s) ∧
    (EngineTakes dt p i 0x11 20 s → isHubNode p.src = true →
      (len % 64 ≠ 0 ∨ off % 64 ≠ 0 ∨ stackBytesOf u.variant < off + len →
        exec (.stackFill dt p) s = .next (u.dropPkt p.dest p causeBuffer (gaddr (stackNode i) off))) ∧
      (len % 64 = 0 → off % 64 = 0 → off + len ≤ stackBytesOf u.variant →
        (u.hitsParity i off len = true → exec (.stackFill dt p) s = .next (u.dropPkt p.dest p causeFirmwareOnly (gaddr (stackNode i) off))) ∧
        (u.hitsParity i off len = false → exec (.stackFill dt p) s =
          .next ((u.stackWriteRows i off (List.replicate (len / 64) (BitVec.ofNat 512 (packCodes 64 (List.replicate 8 (leAt p.op 12 8)))))).ackWhenDone
            i p.src p.txn p.srcSlot off (len / 64))))) ∧
    (EngineTakes dt p i 0x12 20 s → isHubNode p.src = true →
      (len % 64 ≠ 0 ∨ off % 64 ≠ 0 ∨ doff % 64 ≠ 0 ∨ stackBytesOf u.variant < off + len ∨ u.validRange dst doff len = false →
        exec (.stackCopy dt p) s = .next (u.dropPkt p.dest p causeBuffer (gaddr dst doff))) ∧
      (len % 64 = 0 → off % 64 = 0 → doff % 64 = 0 → off + len ≤ stackBytesOf u.variant → u.validRange dst doff len = true →
        let rows := u.rowsAt (stackNode i) off (len / 64)
        (∀ j f, nodeKind dst = .stack j f → (u.stackUnit j).offline = true →
          exec (.stackCopy dt p) s = .next (u.dropPkt p.dest p 0x0014 (gaddr dst doff))) ∧
        (∀ j f, nodeKind dst = .stack j f → (u.stackUnit j).offline = false → u.hitsParity j doff len = true →
          exec (.stackCopy dt p) s = .next (u.dropPkt p.dest p causeFirmwareOnly (gaddr dst doff))) ∧
        (∀ j f, nodeKind dst = .stack j f → (u.stackUnit j).offline = false → u.hitsParity j doff len = false →
          exec (.stackCopy dt p) s = .next ((u.stackWriteRows j doff rows).ackFrom i j p.src p.txn p.srcSlot doff (len / 64))) ∧
        (∀ k, nodeKind dst = .tile k → exec (.stackCopy dt p) s = .next ((u.writeNode dst doff rows).send ack)))) ∧
    (EngineTakes dt p i 0x13 14 s → isHubNode p.src = true →
      (64 ≤ leAt p.op 1 1 ∨ 2 ≤ leAt p.op 13 1 ∨ leAt p.op 13 1 = 1 ∧ (n % 64 ≠ 0 ∨ n = 0 ∨ 4096 < n) →
        exec (.dirSet dt p) s = .next (u.dropPkt p.dest p causeMisrouted 0)) ∧
      (leAt p.op 1 1 < 64 → leAt p.op 13 1 = 1 → n % 64 = 0 → 0 < n → n ≤ 4096 → exec (.dirSet dt p) s =
        .next ((u.dirPut i (leAt p.op 0 1) (leAt p.op 1 1)
          { valid := true, base := leAt p.op 2 6, entryBytes := n, pages := leAt p.op 10 2, group := leAt p.op 12 1 }).send ack)) ∧
      (leAt p.op 1 1 < 64 → leAt p.op 13 1 = 0 →
        exec (.dirSet dt p) s = .next ((u.dirPut i (leAt p.op 0 1) (leAt p.op 1 1) {}).send ack))) ∧
    (EngineTakes dt p i 0x19 1 s → isHubNode p.src = true →
      exec (.dirClear dt p) s = .next ((u.dirClear i (leAt p.op 0 1)).send ack)) ∧
    (EngineTakes dt p i 0x14 36 s → isHubNode p.src = true →
      (12 ≤ leAt p.op 1 1 → exec (.groupSet dt p) s = .next (u.dropPkt p.dest p causeMisrouted 0)) ∧
      (leAt p.op 1 1 < 12 → exec (.groupSet dt p) s =
        .next ((u.groupSetAt i (leAt p.op 0 1) (leAt p.op 1 1) (leAt p.op 2 4) (leAt p.op 6 6) members).send ack)))

/-- GATHER (R194) from a tile: a bad entry, position or row range is dropped with 0x0008, a group that is LOST with 0x0015 (R202); while a
code row that it needs is open it waits (R200); a row that nothing can give is dropped with 0x0013 (R188); else the entries' rows go
to the tile in ascending position, reconstructed where they are lost, their tags fill in a region that honours tags, and WRITE_ACK
answers. PARITY_DELTA (R199) from a member, at a parity stack: new by its sequence number, it is added to the parity row (at role 11
under the member's factor), recorded and counted; role 10 with a partner keeps it and passes it on, and otherwise the member, and at
role 11 also p0, is acknowledged; a stack with no parity entry drops it with 0x0003. GROUP_READ (R200) from a member of a row in the
slab is answered with the row, or held while the row is open; else dropped with 0x0008. REBUILD (R202) from a hub to a valid range of
a stack, of a member that is lost and not being rebuilt, in a group with at most two lost, starts the rebuild; with an invalid range
it is dropped with 0x0008, and elsewhere does nothing. SCRUB (R204) from a hub over valid whole rows counts the corrected rows, treats
the uncorrectable ones inside the range, and answers; it waits while one's code row is open, and an invalid range is dropped with
0x0008. Every other packet waits or is dropped. -/
def Obligations.GatherAndParityCommands : Prop :=
  ∀ (dt i : Nat) (p : Pkt) (corr : Nat) (bad : List Nat) (s : State),
    let u := (s.tick dt).takePkt p
    let ack := Emit.pkt (ackPkt (stackNode i) p.src p.txn p.srcSlot)
    EngineDrops dt p 0x10 12 (fun _ => isTile p.src) s (exec (.gather dt ⟨p, ⟨corr, bad⟩⟩) s) ∧
    EngineDrops dt p 0x15 8 (u.fromMember p) s (exec (.parityDelta dt p) s) ∧
    EngineDrops dt p 0x16 6 (u.fromMember p) s (exec (.groupRead dt p) s) ∧
    EngineDrops dt p 0x17 10 (fun _ => isHubNode p.src) s (exec (.rebuild dt p) s) ∧
    EngineDrops dt p 0x18 12 (fun _ => isHubNode p.src) s (exec (.scrub dt p corr bad) s) ∧
    (EngineTakes dt p i 0x10 12 s → isTile p.src = true →
      let e := if leAt p.op 7 1 < 64 then mget {} u.kv (kvKey i (leAt p.op 6 1) (leAt p.op 7 1)) else {}
      let mine := u.extentOwner i (leAt p.op 6 1) (leAt p.op 7 1)
      let n := leAt p.op 4 2 * (e.entryBytes / 64)
      let tile := leAt p.op 8 2
      let row := leAt p.op 10 2
      let off := e.base + leAt p.op 0 4 * e.entryBytes
      let gone := fun k => (match u.extentLost i e.group (off + 64 * k) mine with
        | some (m, _) => (u.pgroup e.group).lost.contains m
        | none => false)
      let hit := fun k => bad.contains (off + 64 * k) && !gone k
      let waits := (List.range n).any (fun k => gone k && u.extentOpen i e.group (off + 64 * k) mine || hit k && u.codeOpen i (off + 64 * k))
      let counted := (u.bumpN (oStackUnitEccCorrected i) (min corr n)).bumpN (oStackUnitEccUncorrected i) ((List.range n).filter hit).length
      (e.valid = false ∨ e.pages * 256 < leAt p.op 0 4 + leAt p.op 4 2 ∨ isTile tile = false ∨ 65536 < row + n →
        exec (.gather dt ⟨p, ⟨corr, bad⟩⟩) s = .next (u.dropPkt p.dest p causeBuffer (gaddr (stackNode i) off))) ∧
      (e.valid = true → leAt p.op 0 4 + leAt p.op 4 2 ≤ e.pages * 256 → isTile tile = true → row + n ≤ 65536 →
        ((u.pgroup e.group).state = 5 → exec (.gather dt ⟨p, ⟨corr, bad⟩⟩) s = .next (u.dropPkt p.dest p 0x0015 (gaddr (stackNode i) off))) ∧
        ((u.pgroup e.group).state ≠ 5 → waits = true → exec (.gather dt ⟨p, ⟨corr, bad⟩⟩) s = .next (u.defer p)) ∧
        ((u.pgroup e.group).state ≠ 5 → waits = false →
          (∀ k, ((List.range n).filter hit).find? (fun k => (u.goodRow i (off + 64 * k)).isNone) = some k →
            exec (.gather dt ⟨p, ⟨corr, bad⟩⟩) s = .next (counted.dropPkt p.dest p 0x0013 (gaddr (stackNode i) (off + 64 * k)))) ∧
          (((List.range n).filter hit).find? (fun k => (u.goodRow i (off + 64 * k)).isNone) = none →
            exec (.gather dt ⟨p, ⟨corr, bad⟩⟩) s = .next (((((counted.putRows tile (64 * row) ((List.range n).map (fun k =>
              if hit k then ((u.goodRow i (off + 64 * k)).map (·.1)).getD 0 else u.extentRow i e.group (off + 64 * k) mine))).setTags tile row true
                (match (u.tile tile).regionOfRow row with
                  | some (_, r) => if rHonoured r then n else 0
                  | none => 0)).countDegraded e.group (((List.range n).filter gone).length + ((List.range n).filter hit).length))).send ack))))) ∧
    (EngineTakes dt p i 0x15 8 s → u.fromMember p i = true →
      let g := leAt p.op 0 1
      let m := leAt p.op 1 1
      let sq := leAt p.op 6 2
      let delta := (p.body.headD {}).row
      let e := u.groupEnt i g
      let row := e.slabBase + 64 * leAt p.op 2 4
      let fresh := match mlook e.applied m with
        | some a => newer 16 a.toNat sq
        | none => true
      let passes : Bool := e.role == 10 && e.p1 != 0xFFFF
      let answer := fun d => Emit.pkt { ackPkt (stackNode i) d sq 0xF with retOffset := g * 16 + m }
      let added := ((u.putRow (stackNode i) row (u.rowAt (stackNode i) row ^^^ (if e.role = 10 then delta else rowScaleBy (gfPow m) delta))).setGroupEnt i g
        { e with applied := mins e.applied m (BitVec.ofNat 16 sq),
                 heldDeltas := if passes then e.heldDeltas ++ [⟨g, m, leAt p.op 2 4, BitVec.ofNat 16 sq, delta⟩] else e.heldDeltas }).bump
        (oStackUnitParityDeltas i)
      let after := if fresh then added else u
      (e.valid = false ∨ e.role < 10 → exec (.parityDelta dt p) s = .next (u.dropPkt p.dest p causeMisrouted 0)) ∧
      (e.valid = true → 10 ≤ e.role →
        (passes = true → exec (.parityDelta dt p) s =
          .next (if fresh then added.send (.pkt (deltaPkt (stackNode i) e.p1 g m (leAt p.op 2 4) sq delta)) else u)) ∧
        (passes = false → exec (.parityDelta dt p) s = .next (((([e.members.getD m 0xFFFF] ++ (if e.role = 11 then [e.p0] else [])).filter
          (· != 0xFFFF)).foldl (fun s d => s.send (answer d)) after))))) ∧
    (EngineTakes dt p i 0x16 6 s → u.fromMember p i = true →
      let g := leAt p.op 0 1
      let j := leAt p.op 2 4
      let e := u.groupEnt i g
      (e.valid = false ∨ e.slabRows ≤ j → exec (.groupRead dt p) s = .next (u.dropPkt p.dest p causeBuffer 0)) ∧
      (e.valid = true → j < e.slabRows →
        (e.openRows.contains j = true → exec (.groupRead dt p) s = .next (u.setGroupEnt i g { e with heldReads := e.heldReads ++ [p] })) ∧
        (e.openRows.contains j = false → exec (.groupRead dt p) s = .next (u.send (.pkt { dest := p.src, src := stackNode i, ptype := 5, vc := 1, txn := p.txn, body := [{ row := u.rowAt (stackNode i) (e.slabBase + 64 * j) }] }))))) ∧
    (EngineTakes dt p i 0x17 10 s → isHubNode p.src = true →
      let g := leAt p.op 0 1
      let m := leAt p.op 1 1
      let x := u.pgroup g
      let starts : Bool := x.lost.contains m && decide (x.lost.length ≤ 2) && !x.rebuild.any (fun r => r.lost == m)
      let r : Rebuild := ⟨m, leAt p.op 2 2, leAt p.op 4 6, some (ackPkt (stackNode i) p.src p.txn p.srcSlot)⟩
      ((stackOfNode (leAt p.op 2 2)).isSome = false ∨ u.validRange (leAt p.op 2 2) (leAt p.op 4 6) (64 * x.slabRows) = false →
        exec (.rebuild dt p) s = .next (u.dropPkt p.dest p causeBuffer (gaddr (leAt p.op 2 2) (leAt p.op 4 6)))) ∧
      ((stackOfNode (leAt p.op 2 2)).isSome = true → u.validRange (leAt p.op 2 2) (leAt p.op 4 6) (64 * x.slabRows) = true →
        exec (.rebuild dt p) s = .next (if starts then (u.setPgroup g { x with rebuild := x.rebuild ++ [r] }).groupEvent g 2
          (x.original.getD m 0xFFFF) (leAt p.op 2 2) else u))) ∧
    (EngineTakes dt p i 0x18 12 s → isHubNode p.src = true →
      let off := leAt p.op 0 6
      let len := leAt p.op 6 6
      let rows := bad.filter (fun o => decide (off ≤ o) && decide (o < off + len) && o % 64 == 0)
      (off % 64 ≠ 0 ∨ len % 64 ≠ 0 ∨ stackBytesOf u.variant < off + len →
        exec (.scrub dt p corr bad) s = .next (u.dropPkt p.dest p causeBuffer (gaddr (stackNode i) off))) ∧
      (off % 64 = 0 → len % 64 = 0 → off + len ≤ stackBytesOf u.variant →
        exec (.scrub dt p corr bad) s = .next (if rows.any (fun o => u.codeOpen i o) then u.defer p else
          (rows.foldl (fun s o => s.badRow i o) (u.bumpN (oStackUnitEccCorrected i) corr)).send ack)))

/-- SCRUB_PASS (R204) of a stack on line, with no bad row's code row open: the corrected rows count, the uncorrectable rows are treated,
the pass's date is set with the lag 0. STACK_TEMP_SAMPLE (R205, R206): the readings are recorded, the suspect mark of the base-die
sensor follows them, and a change of it is an event; the level is that of the hotter reading, or of the DRAM's where the sensor is
suspect; a changed level counts and rings the steward; at level 3 the stack goes off line. STACK_REJOIN (R207) of a stack off line, 60
s below 80 °C, past its test and with no repair waiting: its space is zero, its allocations, directories and groups are gone, and its
site is staged active. REBUILD_COMPLETE (R202) of a member under rebuild, no row of the group open: the slab is filled and what lay in
it follows. WEIGHT_COPY_RESTORE (R203) of a section with one copy left: the first stack that the choice names with room takes its
bytes, and buffers are bound anew. SCRUB_FORCED_PAUSE (R396) of a stack on line that is a whole period behind, where scrub has been
escalated and no pause began in the last second: accesses pause for 1 ms. Elsewhere each leaves all as it was. -/
def Obligations.StackUpkeep : Prop :=
  (∀ (dt site corr : Nat) (bad : List Nat) (s : State),
    let u := s.tick dt
    let i := stackIdx site
    let rows := bad.filter (fun o => decide (o < stackBytesOf u.variant) && o % 64 == 0)
    let v := rows.foldl (fun s o => s.badRow i o) (u.bumpN (oStackUnitEccCorrected i) corr)
    (isStackSite site = true → (s.stackUnit i).offline = false → rows.any (fun o => u.codeOpen i o) = false →
      exec (.scrubPass dt site corr bad) s =
        .next (((v.odSet (oStackUnitScrubLast i) v.now).odSet (oStackUnitScrubLagH i) 0).setStack i { v.stackUnit i with scrubStart := v.clk })) ∧
    (isStackSite site = false ∨ (s.stackUnit i).offline = true ∨ rows.any (fun o => u.codeOpen i o) = true →
      exec (.scrubPass dt site corr bad) s = .next u)) ∧
  (∀ (dt site : Nat) (base dram : Int) (s : State),
    let u := s.tick dt
    let i := stackIdx site
    let j := (s.stackUnit i).judge (s.clk + dt) base dram
    let temp := if j.1.suspect then dram else max base dram
    let old := s.odGet (oStackUnitLevel i)
    let lvl := if j.1.offline then 3 else stackLevel old temp
    let cool := if temp < 80000 then some (j.1.coolFrom.getD (s.clk + dt)) else none
    let v := (((u.setStack i { j.1 with baseMc := base, dramMc := dram, coolFrom := cool }).odSet (oStackUnitTempMc i) (s32 temp)).odSet (oStackUnitBaseTempMc i) (s32 base)).odSet (oStackUnitLevel i) lvl
    let d := if j.2 = 0 then v else v.dispute site 0 j.2 base dram
    let e := if lvl = old then d else (d.bump (oStackUnitLevelChanges i)).ring (0x24C0 + sectorOf site) 5
    (isStackSite site = true → (lvl ≠ 3 ∨ j.1.offline = true) → exec (.stackTempSample dt site base dram) s = .next e) ∧
    (isStackSite site = true → lvl = 3 → j.1.offline = false → exec (.stackTempSample dt site base dram) s = .next (e.stackOffline i)) ∧
    (isStackSite site = false → exec (.stackTempSample dt site base dram) s = .next u)) ∧
  (∀ (dt site : Nat) (passed : Bool) (s : State),
    let u := s.tick dt
    let i := stackIdx site
    let v : State := { u.setStack i { s.stackUnit i with offline := false } with
      allocs := s.allocs.filter (fun a => a.stack != i)
      kv := mclear s.kv (i * 16384) ((i + 1) * 16384)
      groupEnts := mclear s.groupEnts (i * 256) ((i + 1) * 256)
      mem := memZero s.mem (gaddr (siteNode site) 0) (2 ^ 40) }
    let w := if s.odGet (oStackUnitLevel i) = 0 then v
      else ((v.odSet (oStackUnitLevel i) 0).bump (oStackUnitLevelChanges i)).ring (0x24C0 + sectorOf site) 5
    let due : Bool := match (s.stackUnit i).coolFrom with | some t => decide (t + 60 * 10 ^ 9 ≤ s.clk + dt) | none => false
    let ok : Bool := isStackSite site && (s.stackUnit i).offline && u.floorNow (oFloorSiteState site) == 5 && due && passed &&
      !s.faults.any (fun f => f.kind == 4 && f.ident == site)
    (ok = true → exec (.stackRejoin dt site passed) s =
      .next ((w.stageFloor (oFloorSiteState site) 1).stageFloor (oFloorSiteCause site) 0)) ∧
    (ok = false → exec (.stackRejoin dt site passed) s = .next u)) ∧
  (∀ (dt : Nat) (group : Fin 256) (member : Fin 12) (s : State),
    let u := s.tick dt
    let x := s.pgroup group.val
    let waits := (List.range x.slabRows).any (fun j => u.rowOpen group.val j)
    (∀ r, x.rebuild.find? (fun r => r.lost == member.val) = some r → waits = false →
      exec (.rebuildComplete dt group member) s = .next ((u.completeRebuild group.val r).followSlab group.val x r)) ∧
    (x.rebuild.find? (fun r => r.lost == member.val) = none ∨ waits = true → exec (.rebuildComplete dt group member) s = .next u)) ∧
  (∀ (dt : Nat) (slot : Fin 8) (sec : Nat) (s : State),
    let u := s.tick dt
    let i := slot.val
    let copies := (s.pslot i).placed.bind (fun x => x.copies.find? (fun c => c.1 == sec))
    (∀ c e a, copies = some c → u.sectionOf i sec = some e → liveCopies c.2 = [a] →
      let g := mostDie (readersOf (u.seats i) 0 sec)
      let was := (c.2.filter (fun d => decide (0x100 ≤ d.1))).map (fun d => (d.1 - 0x100) / 2)
      let cands := u.nearStacks g (fun k => k / 2 != a.1 / 2 && (u.fit k e.len).isSome)
      let choice := cands.filter (fun k => !was.contains (k / 2)) ++ cands
      let owner := ownCopy i sec (if s.allocs.any (fun b => b.owner == ownCopy i sec 0) then 1 else 0)
      (∀ k rest o v, choice = k :: rest → u.allocate k e.len owner = some (o, v) →
        exec (.weightCopyRestore dt slot sec) s = .next ((v.secondCopy i sec a k o e.len).rebindSlot i)) ∧
      (∀ k rest, choice = k :: rest → u.allocate k e.len owner = none → exec (.weightCopyRestore dt slot sec) s = .next u) ∧
      (choice = [] → exec (.weightCopyRestore dt slot sec) s = .next u)) ∧
    (copies = none ∨ u.sectionOf i sec = none ∨ (∀ c, copies = some c → (liveCopies c.2).length ≠ 1) →
      exec (.weightCopyRestore dt slot sec) s = .next u)) ∧
  (∀ (dt site : Nat) (s : State),
    let u := s.tick dt
    let i := stackIdx site
    let w := s.stackUnit i
    let period := s.odGet oStackPanelScrubPeriodH
    let ok : Bool := isStackSite site && (s.odGet (oFaultBgState 2) == 4 || w.pauseUntil != 0) &&
      decide (period ≤ (s.clk + dt - w.scrubStart) / (3600 * 10 ^ 9) - period) &&
      (w.pauseUntil == 0 || decide (w.pauseUntil + 999000000 ≤ s.clk + dt)) && u.stackOnline i
    (ok = true → exec (.scrubForcedPause dt site) s =
      .next ((u.setStack i { w with pauseUntil := s.clk + dt + 10 ^ 6 }).bump (oFaultBgForcedPauses 2))) ∧
    (ok = false → exec (.scrubForcedPause dt site) s = .next u))

/-- A command written while another of the slot runs, or BEGIN on a cascade's member (R410), answers BAD_VALUE and changes nothing. Else
(R220) SLOT_BEGIN of an EMPTY or FAILED slot with a length that the free stack space can stage takes the staging, sets cursor and
load_error to 0 and the state to RECEIVING; SLOT_COMMIT of a RECEIVING slot whose cursor stands at the length starts the checks;
SLOT_CANCEL of a RECEIVING or FAILED slot empties it; each is refused in any other case: the command reads 2, load_error holds 0x0009,
nothing else changes. While the image may be written, SLOT_IMAGE_WRITE of 1 to 1,024 bytes that fit lands at the cursor and advances
it, and SLOT_CURSOR_WRITE within the length sets it; else nothing changes. LOAD_CHECKS_DONE (R221) of a slot in CHECKING, with no
recovery under way: an image that fails a check, or that fits no fold (check 9), gives up the staging, records the error and sets
FAILED; any other is taken with its digests, ID, signature and key, and the slot goes to PLACING. Elsewhere it changes nothing. -/
def Obligations.SlotImageCommands : Prop :=
  ∀ (dt : Nat) (slot : Fin 8) (s : State),
    let i := slot.val
    let u := s.tick dt
    let len := s.odGet (oPlacementSlotImageLength i)
    let cur := s.odGet (oPlacementSlotCursor i)
    let refused : State := (u.odSet (oPlacementSlotCommand i) 2).odSet (oPlacementSlotLoadError i) 9
    let member : Bool := u.inCascade && !u.cascadeMaster
    let begins : Bool := (u.slotState i == 0 || u.slotState i == 7) && len != 0 && (u.stagePieces len).2 == 0
    let staged : State := { u.setPslot i {} with allocs := s.allocs ++ (u.stagePieces len).1.map (fun (a : Alloc) => { a with owner := ownStaging i }) }
    let commits : Bool := u.slotState i == 1 && cur == len
    let cancels : Bool := u.slotState i == 1 || u.slotState i == 7
    (u.slotRunning i = true ∨ member = true → exec (.slotBegin dt slot) s = .next u) ∧
    (u.slotRunning i = true → exec (.slotCommit dt slot) s = .next u ∧ exec (.slotCancel dt slot) s = .next u) ∧
    (u.slotRunning i = false → member = false → exec (.slotBegin dt slot) s = .next (if begins then
      (((staged.odSet (oPlacementSlotCursor i) 0).odSet (oPlacementSlotLoadError i) 0).odSet (oPlacementSlotState i) 1).odSet (oPlacementSlotCommand i) 0
      else refused)) ∧
    (u.slotRunning i = false →
      exec (.slotCommit dt slot) s = .next (if commits then (u.odSet (oPlacementSlotState i) 2).odSet (oPlacementSlotCommand i) 1 else refused) ∧
      exec (.slotCancel dt slot) s = .next (if cancels then u.slotEmpty i else refused)) ∧
    (∀ b : List Nat, (u.imageOpen i = true → 1 ≤ b.length → b.length ≤ 1024 → cur + b.length ≤ len → exec (.slotImageWrite dt slot b) s =
        .next ((u.setPslot i { s.pslot i with image := overlay (s.pslot i).image cur b }).odSet (oPlacementSlotCursor i) (cur + b.length))) ∧
      (u.imageOpen i = false ∨ b.length = 0 ∨ 1024 < b.length ∨ len < cur + b.length → exec (.slotImageWrite dt slot b) s = .next u)) ∧
    (∀ v, (u.imageOpen i = true → v ≤ len → exec (.slotCursorWrite dt slot v) s = .next (u.odSet (oPlacementSlotCursor i) v)) ∧
      (u.imageOpen i = false ∨ len < v → exec (.slotCursorWrite dt slot v) s = .next u)) ∧
    (u.slotState i ≠ 2 ∨ s.faults ≠ [] → exec (.loadChecksDone dt slot) s = .next u) ∧
    (u.slotState i = 2 → s.faults = [] →
      let x := s.pslot i
      let f := readFurnish x.image
      let w := u.shareFurnish i f x.image
      let g := match w.partOf i f with | some (lo, hi) => cutFurnish f lo hi | none => f
      let failed := fun (e : LoadErr) => ((((u.freeOwner (ownStaging i)).setPslot i { x with image := [] }).odSet (oPlacementSlotLoadError i)
        (errBytes e)).odSet (oPlacementSlotState i) 7).odSet (oPlacementSlotCommand i) 0
      exec (.loadChecksDone dt slot) s = .next (match u.loadError x.image with
        | some e => failed e
        | none => if u.check9 g then
            let x' : PSlot := { x with furn := some g, part := w.partOf i f, digest := sha384 x.image, digests := f.sects.map (fun t => (t.id, sha384 (sectBytes x.image t))) }
            ((((((w.setPslot i x').odSet (oPlacementSlotFurnishId i) (ofLE f.fid)).odSet (oPlacementSlotSigned i) (if f.keyId.isSome then 1 else 0)).odSet
              (oPlacementSlotKeyId i) (ofLE (f.keyId.getD []))).odSet (oPlacementSlotLoadError i) 0).odSet (oPlacementSlotState i) 3).odSet (oPlacementSlotCommand i) 0
          else failed (7, 0, 0, 0)))

/-- PLACEMENT_DONE (R220, R225, R235) of the first slot in rank that waits in PLACING, with no recovery under way and a bank idle: where
no fold fits the free tiles now its data goes to the stacks and the slot is PARKED; else its seats are taken, its generation, trees
and floor-plan records made and it is started; where the stacks have no room it fails with error 7. SLOT_UNLOAD (R220) of a PLACED or
PARKED slot with no stream admitted sets UNLOADING and ends the queued streams whose furnish no other slot holds; else it is refused;
while a command runs nothing changes. UNLOAD_DONE of an UNLOADING slot whose lanes are free, with a bank idle, gives up its tiles and
space: EMPTY. RESUPPLY (R222) looks at each section asked for, uses up the bytes and binds buffers anew; with none outstanding, or
outside PLACED and PARKED, it is refused. RESUPPLY_TIMEOUT (R399): where a section has waited resupply_wait_s, the slot's streams end
STATE_LOST. SLICE (R235) of a parked slot without tiles onto free tiles, or onto those of an unpinned slot past its slice: at a couch
point the one is parked and the other placed. Elsewhere each changes nothing, or, at a couch point not yet reached, only holds lanes. -/
def Obligations.SlotPlacementCommands : Prop :=
  (∀ (dt : Nat) (slot : Fin 8) (est cap bulk : Nat) (f : Furnish) (s : State),
    let i := slot.val
    let u := s.tick dt
    let waiting := (List.range 8).filter (fun j => u.slotState j == 3)
    let ready : Bool := u.slotState i == 3 && s.faults.isEmpty && u.idleBank && !waiting.any (fun j => decide (u.placeRank j < u.placeRank i))
    let v := if s.sparesChosen then u else { u.designateSpares.pairAll with sparesChosen := true }
    let h := v.hints i
    let ctx := sizedContext f h
    let w := v.setPslot i { v.pslot i with placed := some {} }
    ((s.pslot i).furn = none ∨ ready = false → exec (.placementDone dt slot est cap bulk) s = .next u) ∧
    ((s.pslot i).furn = some f → ready = true → exec (.placementDone dt slot est cap bulk) s =
      .next (match chooseFold f h.minFold ctx w.freeCurve.length with
        | none => (match w.placeData i f [] with
          | some x => (x.keepInitial i f).odSet (oPlacementSlotState i) 5
          | none => u.placeFails i)
        | some (n, l) =>
          let seats := seatsFor f n h.ports l w.freeCurve
          match (w.placeData i f seats).bind (fun s => s.putSeams i seats) with
          | some x =>
            let y := (((((((x.keepInitial i f).seatSlot i n seats f).slotPlaced i n ctx est cap bulk l f).decided i f).placedGeneration i).plantTrees i).startSlot i)
            { y.publishPlans.replanEvent 5 i 0 0 with fullDue := true }
          | none => u.placeFails i))) ∧
  (∀ (dt : Nat) (slot : Fin 8) (s : State),
    let i := slot.val
    let u := s.tick dt
    let refused : State := (u.odSet (oPlacementSlotCommand i) 2).odSet (oPlacementSlotLoadError i) 9
    let holds : Bool := u.slotState i == 4 || u.slotState i == 5
    let leaves : Bool := holds && !s.lanes.any (fun p => p.2.slot == i && !p.2.ended)
    let v := (u.odSet (oPlacementSlotState i) 6).odSet (oPlacementSlotCommand i) 1
    let given := (s.pslot i).resupply.foldl (fun s r => s.resupplySection i r.1) u
    (u.slotRunning i = true → exec (.slotUnload dt slot) s = .next u ∧ exec (.resupply dt slot) s = .next u) ∧
    (u.slotRunning i = false →
      exec (.slotUnload dt slot) s = .next (if leaves then
        (s.queue.filter (fun q => v.holders q.sub.furnish == [])).foldl (fun s q => s.endQueued q 3 1) v else refused) ∧
      exec (.resupply dt slot) s = .next (if holds && !(s.pslot i).resupply.isEmpty then
        ((given.setPslot i { given.pslot i with image := [] }).rebindSlot i).odSet (oPlacementSlotCommand i) 0 else refused)) ∧
    (let r := u.reap
     let gone : Bool := r.slotState i == 6 && (r.lanesOf i).isEmpty && r.idleBank
     (gone = true → exec (.unloadDone dt slot) s =
       .next { (((r.leaveTiles i).slotEmpty i).newGeneration).replanEvent 5 i 0 0 with fullDue := true }) ∧
     (gone = false → exec (.unloadDone dt slot) s = .next r)) ∧
    (let late := (s.pslot i).resupply.any (fun r => decide (r.2 + 10 ^ 9 * s.odGet oFaultPanelResupplyWaitS ≤ s.clk + dt))
     exec (.resupplyTimeout dt slot) s = .next (if late then u.endLost (u.lanesOf i) else u))) ∧
  (∀ (dt : Nat) (out into : Fin 9) (est cap bulk us : Nat) (s : State),
    let o := out.val
    let i := into.val
    let u := s.tick dt
    let gone : Bool := u.slotState o == 4 && !u.pinned o &&
      decide (s.odGet (oPlacementSlotPlacedAt o) + 10 ^ 6 * s.odGet oPlacementPanelSliceMs * (u.hints o).weight ≤ u.now)
    let parked : Bool := i != 8 && u.slotState i == 5 && !((s.pslot i).placed.map (fun p => !p.tiles.isEmpty)).getD false && (o == 8 || gone)
    let c := u.couch (if o = 8 then [] else [o])
    (parked = false → exec (.slice dt out into est cap bulk us) s = .next u) ∧
    (parked = true → c.1 = false → exec (.slice dt out into est cap bulk us) s = .next c.2) ∧
    (parked = true → c.1 = true →
      let placed := (if o = 8 then some c.2 else c.2.park o).bind (fun s => s.unpark i est cap bulk)
      exec (.slice dt out into est cap bulk us) s = .next (match placed with
        | some x => ((x.placedGeneration i).replanEvent 4 i 0 us).letGo i
        | none => u)))

/-- REPLAN_FORCE (R236) sets replan_force; one already set stays. REBALANCE (R236, R238 to R240): dies to be vacated come first, else,
where a rebalance is due, moves towards the curve's positions, at most replan_max_dies of them; a step is carried out at a couch point
of the slots concerned, with no move left the rebalance is over, and with nothing due nothing changes. RESPARE (R236): a sector with
active dies and no spare takes, while 16 or more spares are left, the nearest spare of a sector with two for its weakest die; else
nothing changes. FULL_REPLAN (R236), where one is due or forced: spares first, one exchange a step, then moves; the last step leaves
the paths as they now stand without added latency, and the request is over. Each of the three, at a couch point not reached, only
holds lanes. SPEED_SAMPLE (R239): at a median rate of 0 nothing changes; else each active die's factor is recorded; at 1000 - 10
straggler_pct or more it is no straggler, below that its window begins, and past the window a die that is not being vacated becomes
one and a rebalance is due. PLAN_RECOMPUTE_DONE (R231) publishes every plan. -/
def Obligations.ReplanningSteps : Prop :=
  ∀ (dt us : Nat) (s : State),
    let u := s.tick dt
    let n := s.odGet oPlacementPanelReplanMaxDies
    let pairs := u.evacPairs n
    let full : Bool := s.fullDue || s.odGet oPlacementPanelReplanForce != 0
    let c := u.couch u.placedSlots
    let v := (c.2.placedSlots.foldl State.redecide c.2).rematch
    (s.odGet oPlacementPanelReplanForce ≠ 1 → exec (.replanForce dt) s = .next (u.odSet oPlacementPanelReplanForce 1)) ∧
    (s.odGet oPlacementPanelReplanForce = 1 → exec (.replanForce dt) s = .next u) ∧
    (pairs ≠ [] →
      let d := u.couch (u.slotsOn (pairs.map (·.1)))
      let w := pairs.foldl (fun s p => s.swapDie p.1 p.2 (mget 0 s.evac p.1)) d.2
      let moves := (pairs.map (fun p => d.2.dieMoves p.1 p.2)).flatten
      let x : State := { w with evac := w.evac.filter (fun e => !(pairs.any (fun p => p.1 == e.1))) }
      exec (.rebalance dt us) s = .next (if d.1 then x.carryOut moves 2 0xFF (movedDies moves) us else d.2)) ∧
    (pairs = [] → s.rebalDue = false → exec (.rebalance dt us) s = .next u) ∧
    (pairs = [] → s.rebalDue = true →
      (c.1 = false → exec (.rebalance dt us) s = .next c.2) ∧
      (c.1 = true →
        (stepMoves v.targets n ≠ [] →
          exec (.rebalance dt us) s = .next (v.rebottleneck.carryOut (stepMoves v.targets n) 2 0xFF (movedDies (stepMoves v.targets n)) us)) ∧
        (stepMoves v.targets n = [] →
          let w : State := { v.rebottleneck with rebalDue := false }
          exec (.rebalance dt us) s = .next (if w.floorDue = [] then v.placedSlots.foldl State.letGo w else w.carryOut [] 2 0xFF 0 us)))) ∧
    (let inSec := fun sec => u.spares.filter (fun g => sectorOf g == sec)
     let bare := (List.range 16).find? (fun sec => inSec sec == [] && (sectorDies sec).any u.dieActive)
     (bare = none → exec (.respare dt us) s = .next u) ∧
     (∀ sec, bare = some sec →
       let g := (sortBy (fun g => (u.goodTiles g).length * 256 + (255 - g)) ((sectorDies sec).filter u.dieActive)).head?.getD 0
       let donors := sortBy (fun h => u.distance g h * 256 + h) (u.spares.filter (fun h => (inSec (sectorOf h)).length == 2))
       (donors = [] ∨ u.spares.length < 16 → exec (.respare dt us) s = .next u) ∧
       (∀ h rest, donors = h :: rest → 16 ≤ u.spares.length →
         let d := u.couch (u.slotsOn [g])
         exec (.respare dt us) s = .next (if d.1 then (d.2.swapDie g h 0).carryOut (d.2.dieMoves g h) 3 0xFF 1 us else d.2)))) ∧
    (full = false → exec (.fullReplan dt us) s = .next u) ∧
    (full = true →
      (c.1 = false → exec (.fullReplan dt us) s = .next c.2) ∧
      (c.1 = true →
        (∀ m x, c.2.spareStep = some (m, x) → exec (.fullReplan dt us) s = .next (x.carryOut m 5 0xFF 1 us)) ∧
        (c.2.spareStep = none →
          let moves := stepMoves v.targets (v.odGet oPlacementPanelReplanMaxDies)
          let w : State := ({ v.rebottleneck with fullDue := false }.odSet oPlacementPanelReplanForce 0).newGeneration
          let last := (v.placedSlots.foldl State.keepPaths w).settleHops.replanEvent 5 0xFF 0 us
          exec (.fullReplan dt us) s = .next (if moves = [] then v.placedSlots.foldl State.letGo last
            else v.rebottleneck.carryOut moves 5 0xFF (movedDies moves) us)))) ∧
    (∀ rates : List (Nat × Nat),
      let live := rates.filter (fun r => u.dieActive r.1)
      let sorted := sortBy id (live.map (·.2))
      let median := sorted.getD (sorted.length / 2) 0
      exec (.speedSample dt rates) s = .next (if median = 0 then u else live.foldl (fun s r => s.sampleSpeed median r) u)) ∧
    (∀ (x : State) median (r : Nat × Nat),
      let f := r.2 * 1000 / median
      let y := x.odSet (oPlacementSiteSpeedPermille r.1) (min f 65535)
      let limit := 1000 - 10 * x.odGet oPlacementPanelStragglerPct
      (limit ≤ f → x.sampleSpeed median r = ({ y with slowSince := mdel y.slowSince r.1 }).odSet (oPlacementSiteStraggler r.1) 0) ∧
      (f < limit → mlook y.slowSince r.1 = none → x.sampleSpeed median r = { y with slowSince := mins y.slowSince r.1 x.clk }) ∧
      (∀ t, f < limit → mlook y.slowSince r.1 = some t →
        x.sampleSpeed median r = if t + 10 ^ 9 * x.odGet oPlacementPanelStragglerWindowS ≤ x.clk ∧ mlook x.evac r.1 = none then
          { y.odSet (oPlacementSiteStraggler r.1) 1 with rebalDue := true } else y)) ∧
    exec (.planRecomputeDone dt) s = .next u.publishPlans

/-- SUBMIT_FRAGMENT (R271, R274, R276) at an UP host port that takes it joins its stream's fragments, in place of an earlier copy, where
the staging area holds them; else nothing of that SUBMIT stays. At a port that is not UP nothing happens, and any other datagram is
counted and discarded. SUBMIT (R258, R259) complete in staging leaves it: of a stream on a lane the SACK is repeated; of one in the
queue or with a terminal record the SACK of its last control message, and the record's END again; a new one joins the admission queue
with its SACK, and one that is refused ends with its reason. An incomplete one changes nothing. SUBMIT_TIMEOUT (R276) drops the
fragments of an incomplete SUBMIT whose time is over, ADMIT (R258) frees the lanes that have ended and, where the panel serves, admits
the next stream that can be, a deep one first on a cascade's master (R412); TERMINAL_RECORD_EXPIRE (R260) drops a terminal record
after its keep time. Elsewhere nothing changes. -/
def Obligations.SubmitsAndAdmission : Prop :=
  (∀ (dt : Nat) (d : Dgram) (s : State),
    RtDrops dt d 1 fragOk s (exec (.submitFragment dt d) s) ∧
    (RtTakes dt d 1 fragOk s →
      let b := d.body.drop 32
      let stream := leAt d.body 4 4
      let v := ((s.tick dt).rtCount d).heard d.src stream
      let e := (v.stageOf stream d.src).getD ⟨stream, d.port, d.src, v.clk, v.now, []⟩
      let w := v.unstage stream d.src
      let x : State := { w with staging := w.staging ++ [{ e with port := d.port, arrived := v.now, frags := mins e.frags (leAt b 0 2) b }] }
      exec (.submitFragment dt d) s = .next (if x.staged ≤ x.odGet oRtPanelSubmitStagingMib * 2 ^ 20 then x else w))) ∧
  (∀ (dt stream : Nat) (src : Endpoint) (s : State),
    let u := s.tick dt
    (u.stageOf stream src = none → exec (.rtSubmit dt stream src) s = .next u ∧ exec (.submitTimeout dt stream src) s = .next u) ∧
    (∀ e, u.stageOf stream src = some e →
      let late : Bool := decide (e.firstAt + 10 ^ 6 * s.odGet oRtPanelSubmitTimeoutMs ≤ s.clk + dt)
      exec (.submitTimeout dt stream src) s = .next (if !e.complete && late then u.unstage stream src else u) ∧
      (e.complete = false → exec (.rtSubmit dt stream src) s = .next u) ∧
      (e.complete = true →
        let v := u.unstage stream src
        (∀ l x, v.laneOf stream = some (l, x) → exec (.rtSubmit dt stream src) s = .next (v.sackLane l)) ∧
        (∀ q, v.laneOf stream = none → v.queue.find? (fun q => q.sub.stream == stream) = some q →
          exec (.rtSubmit dt stream src) s = .next (v.sendSack q.port q.src stream q.ctlIn)) ∧
        (∀ t, v.laneOf stream = none → v.queue.find? (fun q => q.sub.stream == stream) = none → v.term stream = some t →
          exec (.rtSubmit dt stream src) s = .next ((v.sendSack t.port t.reply stream t.ctlIn).resendEnd t)) ∧
        (v.laneOf stream = none → v.queue.find? (fun q => q.sub.stream == stream) = none → v.term stream = none →
          let sub := v.readSubmit e
          let q : QueueEnt := { sub := sub, port := e.port, src := src, arrived := e.arrived, clkAt := s.clk + dt, limit := sub.credit }
          let w := ({ v with queue := v.queue ++ [q] } : State).sendSack e.port src stream 1
          exec (.rtSubmit dt stream src) s = .next (match v.refusal sub with
            | some r => w.endQueued q 3 r
            | none => w)))) ∧
    (let keep := 10 ^ 9 * s.odGet oStreamPanelTerminalKeepS
     (∀ t, s.term stream = some t → t.at' + keep ≤ s.clk + dt →
       exec (.terminalRecordExpire dt stream) s = .next { u with terms := s.terms.filter (fun u => u.stream != stream) }) ∧
     (∀ t, s.term stream = some t → s.clk + dt < t.at' + keep → exec (.terminalRecordExpire dt stream) s = .next u) ∧
     (s.term stream = none → exec (.terminalRecordExpire dt stream) s = .next u))) ∧
  (∀ (dt : Nat) (s : State),
    let u := (s.tick dt).reap
    let deep := if u.cascadeMaster then [0, 1, 2].findSome? u.admitCascade else none
    (u.serves = false → exec (.admitStream dt) s = .next u) ∧
    (u.serves = true → (∀ v, deep = some v → exec (.admitStream dt) s = .next v) ∧
      (deep = none → exec (.admitStream dt) s = .next (u.admitNext.getD u))))

/-- Where a host port takes the datagram (R271, R274), ABORT (R261, R275), SACK (R278) and CREDIT (R280) act; else it is counted and
discarded, or nothing happens. ABORT of a stream on a lane, newer than what was taken in, aborts the lane, an older one repeats the
SACK; of a queued one it ends the entry as aborted, or repeats its SACK; of an ended one it is acknowledged and answered, or the
answer repeated; of an unknown one an END says so. SACK drops from a lane, or a terminal record, what it acknowledges, and advances
the lane's acknowledged index; with the congestion flag the sender is slowed for 1 ms (R282); for a stream unknown and not queued it
is discarded. CREDIT, where newer, raises the lane's credit and lets tokens go, or the queue entry's limit, and is acknowledged; for
an unknown stream it is discarded. RT_RETRANSMIT (R279) sends the oldest overdue message of a lane or record again, once its
destination is clear. HOST_SILENCE (R281) aborts a lane not heard for the limit, ends a queued stream likewise, and leaves what was
heard. -/
def Obligations.TransportMessages : Prop :=
  (∀ (dt : Nat) (d : Dgram) (s : State),
    let b := d.body.drop 32
    let stream := leAt d.body 4 4
    let seq := leAt d.body 8 4
    let v := ((s.tick dt).rtCount d).heard d.src stream
    let queued := v.queue.find? (fun q => q.sub.stream == stream)
    let abortOk := fun b : List Nat => b.length == 8 && zeroAt b 0 8
    let sackOk := fun b : List Nat => decide (16 ≤ b.length) && decide (leAt b 8 1 ≤ 8) && b.length == 16 + 8 * leAt b 8 1 && zeroAt b 9 7
    let creditOk := fun b : List Nat => b.length == 8 && zeroAt b 4 4
    RtDrops dt d 4 abortOk s (exec (.rtAbort dt d) s) ∧ RtDrops dt d 7 sackOk s (exec (.rtSack dt d) s) ∧
    RtDrops dt d 6 creditOk s (exec (.rtCredit dt d) s) ∧
    (RtTakes dt d 4 abortOk s →
      (∀ l x, v.laneOf stream = some (l, x) → exec (.rtAbort dt d) s = .next (if newer 32 x.ctlIn seq then
        ((v.setLane l { x with ctlIn := seq }).sackLane l).abortOnLane l (some seq) else v.sackLane l)) ∧
      (∀ q, v.laneOf stream = none → queued = some q → exec (.rtAbort dt d) s = .next (if newer 32 q.ctlIn seq then
        ((v.sendSack q.port q.src stream seq).endQueued { q with ctlIn := seq } 1 0).answerAbort stream seq else v.sendSack q.port q.src stream q.ctlIn)) ∧
      (∀ t, v.laneOf stream = none → queued = none → v.term stream = some t →
        (newer 32 t.ctlIn seq = true →
          exec (.rtAbort dt d) s = .next (((v.setTerm { t with ctlIn := seq }).sendSack t.port t.reply stream seq).answerAbort stream seq)) ∧
        (newer 32 t.ctlIn seq = false → exec (.rtAbort dt d) s = .next (match t.abortAnswer with
          | some (n, body) => (v.sendSack t.port t.reply stream t.ctlIn).tx t.port t.reply
              (rtBytes 5 stream n 1 (v.sendSack t.port t.reply stream t.ctlIn).now body)
          | none => v.sendSack t.port t.reply stream t.ctlIn))) ∧
      (v.laneOf stream = none → queued = none → v.term stream = none → exec (.rtAbort dt d) s =
        .next (v.tx d.port d.src (rtBytes 5 stream 1 0 v.now ([2, 0xFF, 0, 0] ++ toLE 4 0 ++ toLE 4 seq))))) ∧
    (RtTakes dt d 7 sackOk s →
      let w := if (leAt d.body 14 1).testBit 1 then v.setCe { v.ceRec d.src with till := v.clk + 10 ^ 6 } else v
      let keep := fun (l : List TokSent) => l.filter (fun t => !sackHas b t.index)
      let keepC := fun (l : List CtlSent) => l.filter (fun c => newer 32 (leAt b 4 4) c.seq)
      (∀ l x, w.laneOf stream = some (l, x) →
        let acked := if newer 32 x.acked (leAt b 0 4) then leAt b 0 4 else x.acked
        exec (.rtSack dt d) s = .next (w.setLane l { x with acked := acked, sent := keep x.sent, ctlSent := keepC x.ctlSent })) ∧
      (∀ t, w.laneOf stream = none → w.term stream = some t →
        exec (.rtSack dt d) s = .next (w.setTerm { t with sent := keep t.sent, ctlSent := keepC t.ctlSent })) ∧
      (w.laneOf stream = none → w.term stream = none →
        exec (.rtSack dt d) s = .next (if w.queue.any (fun q => q.sub.stream == stream) then w else w.discard d))) ∧
    (RtTakes dt d 6 creditOk s →
      let limit := leAt b 0 4
      (∀ l x, v.laneOf stream = some (l, x) → exec (.rtCredit dt d) s = .next (if newer 32 x.ctlIn seq then
        ((v.setLane l (x.credit seq limit)).sackLane l).release l else v.sackLane l)) ∧
      (∀ q, v.laneOf stream = none → queued = some q →
        let q1 := if newer 32 q.ctlIn seq then { q with ctlIn := seq, limit := if newer 32 q.limit limit then limit else q.limit } else q
        let w : State := { v with queue := v.queue.map (fun (e : QueueEnt) => if e.sub.stream = stream then q1 else e) }
        exec (.rtCredit dt d) s = .next (w.sendSack q.port q.src stream q1.ctlIn)) ∧
      (∀ t, v.laneOf stream = none → queued = none → v.term stream = some t →
        let n := if newer 32 t.ctlIn seq then seq else t.ctlIn
        exec (.rtCredit dt d) s = .next ((v.setTerm { t with ctlIn := n }).sendSack t.port t.reply stream n)) ∧
      (v.laneOf stream = none → queued = none → v.term stream = none → exec (.rtCredit dt d) s = .next (v.discard d)))) ∧
  (∀ (dt stream : Nat) (s : State),
    let u := s.tick dt
    let late := fun t => decide (t + 10 ^ 6 * s.odGet oRtPanelHostSilenceMs ≤ s.clk + dt)
    let queued := s.queue.find? (fun q => q.sub.stream == stream && q.port != seamPort)
    (∀ l x, u.laneOf stream = some (l, x) →
      (u.ceClear x.dst = false → exec (.rtRetransmit dt stream) s = .next u) ∧
      (u.ceClear x.dst = true → exec (.rtRetransmit dt stream) s = .next (match u.resend stream x.ctlSent x.sent with
        | some (m, ctl, sent) => ((u.setLane l { x with ctlSent := ctl, sent := sent, retransmits := x.retransmits + 1 }).tx x.port x.dst m).ceSent x.dst
        | none => u)) ∧
      exec (.hostSilence dt stream) s = .next (if late x.heardAt then u.abortOnLane l x.abortSeq else u)) ∧
    (∀ t, u.laneOf stream = none → u.term stream = some t →
      (u.ceClear t.reply = false → exec (.rtRetransmit dt stream) s = .next u) ∧
      (u.ceClear t.reply = true → exec (.rtRetransmit dt stream) s = .next (match u.resend stream t.ctlSent t.sent with
        | some (m, ctl, sent) => ((u.setTerm { t with ctlSent := ctl, sent := sent }).tx t.port t.reply m).ceSent t.reply
        | none => u))) ∧
    (u.laneOf stream = none → u.term stream = none → exec (.rtRetransmit dt stream) s = .next u) ∧
    (∀ q, u.laneOf stream = none → queued = some q → exec (.hostSilence dt stream) s = .next (if late q.clkAt then u.endQueued q 1 0 else u)) ∧
    (u.laneOf stream = none → queued = none → exec (.hostSilence dt stream) s = .next u))

/-- TOKEN_RELEASE (R253, R255, R286): a bulk lane's committed tokens go out as far as credit goes where its port sends and its destination
is clear; a paced lane's next token goes at its due time where it was committed in time, its port sends and it has credit (an unpaced
lane's at once), each such token after the other, in one message, and a token that is due without credit begins a counted wait (R280).
UNDERRUN_RELEASE (R254) of an express lane whose next token was committed after its due time: with credit it goes out now and becomes
the anchor, and the underrun and its lateness count; without, the wait for credit begins. PRODUCTION_CHECK (R257) restarts the lane's
count, and reports a primed, unfinished express stream that made fewer tokens than its rate. ADAPT_CYCLE_START (R262) of a PLACED slot
with adaptation on, no cycle under way and its ring full: the ring empties and the background passes start. ADAPT_CYCLE_DONE (R263) of
a running cycle: while the slot's lanes are not quiet they are held; then the copies swap, cycle and generation count, the date and
the digest of the live state are set, and the event goes out. Elsewhere nothing changes. -/
def Obligations.ReleasesAndAdaptation : Prop :=
  (∀ (dt : Nat) (lane : Fin 4096) (s : State),
    let u := s.tick dt
    let l := lane.val
    (s.lane l = none → exec (.tokenRelease dt lane) s = .next u ∧ exec (.underrunRelease dt lane) s = .next u) ∧
    (∀ x, s.lane l = some x →
      let sends : Bool := u.canSend x && u.ceClear x.dst
      let bulk := u.releaseMany l (fun y => u.timeAt (y.reel.headD ⟨0, u.clk⟩).at') 64
      let r := u.releaseDue l (if x.unpaced then 4096 else 64)
      let v := (r.1.sendTokens l r.2).flushDone l
      (x.sub.cls = 1 → exec (.tokenRelease dt lane) s = .next (if sends then (bulk.1.sendTokens l bulk.2).flushDone l else u)) ∧
      (x.sub.cls ≠ 1 → exec (.tokenRelease dt lane) s = .next (match v.lane l with
        | some y => if v.mayRelease y && decide (y.due y.released ≤ v.now) && !y.credited then v.creditWait l y else v
        | none => v)) ∧
      (let late := match x.reel with | t :: _ => decide (x.due x.released < u.timeAt t.at') | [] => false
       let y : LaneRec := { x.creditEnd u.now with anchor := x.released, anchorT := u.now, underruns := x.underruns + 1, underrunNs := x.underrunNs + (u.now - x.due x.released) }
       let w := ((u.setLane l y).bump oStreamPanelUnderruns).releaseOne l u.now
       (x.express = false ∨ u.mayRelease x = false ∨ late = false → exec (.underrunRelease dt lane) s = .next u) ∧
       (x.express = true → u.mayRelease x = true → late = true →
         exec (.underrunRelease dt lane) s = .next (if x.credited then (w.1.sendTokens l w.2).flushDone l else u.creditWait l x))))) ∧
  (∀ (v : State) (l n : Nat) (x : LaneRec) (t : ReelTok) (rest : List ReelTok), v.lane l = some x → x.reel = t :: rest →
    let d := x.due x.released
    (v.mayRelease x = false ∨ x.credited = false ∨ (x.unpaced = false ∧ (v.now < d ∨ d < v.timeAt t.at')) → v.releaseDue l (n + 1) = (v, [])) ∧
    (v.mayRelease x = true → x.credited = true → x.unpaced = true ∨ (d ≤ v.now ∧ v.timeAt t.at' ≤ d) →
      let r := (v.setLane l (x.creditEnd v.now)).releaseOne l d
      v.releaseDue l (n + 1) = ((r.1.releaseDue l n).1, r.2 ++ (r.1.releaseDue l n).2))) ∧
  (∀ (dt : Nat) (lane : Fin 256) (s : State),
    let u := s.tick dt
    (s.lane lane.val = none → exec (.productionCheck dt lane) s = .next u) ∧
    (∀ x, s.lane lane.val = some x →
      let v := u.setLane lane.val { x with prodCount := 0 }
      exec (.productionCheck dt lane) s = .next (if x.express ∧ x.primed ∧ x.terminal = none ∧ x.prodCount < x.sub.rate then
        v.publish24 oStreamPanelContractRisk (toLE 4 x.sub.stream ++ [lane.val, 2, 0, 0] ++ toLE 4 x.prodCount ++ toLE 4 x.sub.rate) else v))) ∧
  (∀ (dt : Nat) (slot : Fin 8) (s : State),
    let u := s.tick dt
    let i := slot.val
    let x := s.pslot i
    let starts : Bool := s.odGet (oStreamDraftAdaptEnable i) == 1 && !x.adapting && u.slotState i == 4 &&
      decide (s.odGet (oStreamDraftAdaptSamples i) ≤ x.samples.length)
    let q := u.quiesce i
    let v := ((q.2.twoCopies i).foldl (fun s p => s.swapRegion p.1 p.2) q.2).letGo i
    let w := ((v.setPslot i { v.pslot i with adapting := false }).bump (oStreamDraftCycles i)).bump (oStreamDraftGeneration i)
    let y := (w.odSet (oStreamDraftLastSwap i) w.now).odSet (oStreamDraftStateDigest i) (ofLE (sha384 (w.liveState i)))
    (starts = true → exec (.adaptCycleStart dt slot) s =
      .next (((u.setPslot i { x with adapting := true, adaptStart := s.clk + dt, samples := [] }).syncLane 255 (u.slotTiles i).eraseDups).sendAll
        (u.startTokens i 255 (u.lifeOf 255) 0 [2] 0 (startPayload {} 4 0 0 0 0 0)))) ∧
    (starts = false → exec (.adaptCycleStart dt slot) s = .next u) ∧
    (x.adapting = false → exec (.adaptCycleDone dt slot) s = .next u) ∧
    (x.adapting = true → q.1 = false → exec (.adaptCycleDone dt slot) s = .next q.2) ∧
    (x.adapting = true → q.1 = true → exec (.adaptCycleDone dt slot) s =
      .next (y.publish24 (oStreamDraftSwap i) (toLE 8 (y.odGet (oStreamDraftGeneration i)) ++ toLE 8 (y.odGet (oStreamDraftCycles i))))))

/-- PFC_PAUSE (R283) of the priority that the port sends at, where PFC serves it, at an UP port that is not paused: the pause begins.
PFC_PAUSE_END of a paused port: the pause is over, its length counts, what was held goes out, and the port's lanes send what waited.
LLDP_RECEIVE (R273) publishes the neighbour's chassis MAC, port ID and name. ARP_REQUEST and NEIGHBOR_DISCOVERY (R270) for an address
of the port, and ICMP_ECHO (R270) whole and for an address of the port, are answered; an echo request that is a fragment is discarded
(R271). At a port that is not UP, or for another address, nothing happens. -/
def Obligations.FramesAndPauses : Prop :=
  ∀ (dt : Nat) (port : Fin 16) (s : State),
    let p := port.val
    let u := s.tick dt
    let h := s.hostPort p
    (∀ prio, let starts : Bool := prio == s.odGet (oRtPortPcp p) && (s.odGet (oRtPortPfcMask p)).testBit prio && u.hostUp p && h.pausedAt.isNone
      (starts = true → exec (.pfcPause dt port prio) s = .next (u.setHostPort p { h with pausedAt := some (s.clk + dt) })) ∧
      (starts = false → exec (.pfcPause dt port prio) s = .next u)) ∧
    (∀ t, h.pausedAt = some t → exec (.pfcPauseEnd dt port) s = .next ((h.heldTx.foldl (fun s e => s.txEmit p e)
      ((u.setHostPort p { h with pausedAt := none, heldTx := [] }).bumpN (oRtPortPauseNs p) (s.clk + dt - t))).portReleases p)) ∧
    (h.pausedAt = none → exec (.pfcPauseEnd dt port) s = .next u) ∧
    (∀ mac portId name, exec (.lldpReceive dt port mac portId name) s = .next (if u.hostUp p then
      u.odSet (oRtPortLldpNeighbor p) (ofLE (toLE 6 mac ++ padTo 32 portId ++ padTo 26 name)) else u)) ∧
    (∀ target sender,
      exec (.arpRequest dt port target sender) s = .next (if u.hostUp p && (target != 0 && target == s.odGet (oRtPortIpv4 p)) then
        u.txEmit p (.frame p 1 (toLE 6 (s.odGet (oRtPortMac p)) ++ toLE 4 target ++ toLE 4 sender)) else u) ∧
      exec (.neighborDiscovery dt port target sender) s = .next (if u.hostUp p && u.ownAddr p true target then
        u.txEmit p (.frame p 2 (toLE 6 (s.odGet (oRtPortMac p)) ++ toLE 16 target ++ toLE 16 sender)) else u)) ∧
    (∀ (d : Dgram) v6 target,
      (u.hostUp d.port = false → exec (.icmpEcho dt d v6 target) s = .next u) ∧
      (u.hostUp d.port = true → d.frag = true → exec (.icmpEcho dt d v6 target) s = .next (u.discard d)) ∧
      (u.hostUp d.port = true → d.frag = false → exec (.icmpEcho dt d v6 target) s = .next (if u.ownAddr d.port v6 target then
        u.txEmit d.port (.frame d.port (if v6 then 4 else 3) (toLE 16 d.src.addr ++ d.body)) else u)))

/-- PORT_ROLE_WRITE (R267) of another role that the port may take, with no stream on it and, for HOST, fewer than four other host ports:
the role and its first state are set, the port's link state is new, and hosts whose alternate is gone are told (R268); else nothing
changes. HOST_PORT_UP (R287) of a host port whose module is IN_SERVICE: UP, LLDP goes out, and its streams send what waited.
HOST_PORT_FAIL (R285) of an UP host port: it goes down, the failure counts, and its streams, records and queued SUBMITs go to a usable
alternate with failover 1, or stay with failover 2 or 3. MODULE_INSERT (R288), while the panel serves modules and the cage is not
blanked: identity, life record and event 1, then REFUSED with code 1, 2 or 3 for a CMIS revision below 0x50, no advertised
application, or over 30 W, else IN_SERVICE with event 5. MODULE_MONITOR_READ (R288, R374, R375) of a module: temperature and bias are
taken into its records, at the end-of-life bias or on a CMIS fault a replacement is asked for, and a fault not yet known fails the
port. MODULE_REMOVE (R289) empties the cage's records; a cascade link is lost. Elsewhere nothing changes. -/
def Obligations.PortsAndModules : Prop :=
  ∀ (dt : Nat) (port : Fin 16) (s : State),
    let p := port.val
    let u := s.tick dt
    (∀ role, let takes : Bool := decide (role ≤ 2) && s.odGet (oRtPortRole p) != 3 && s.odGet (oRtPortRole p) != role && !u.portBusy p &&
        (role != 1 || decide (((List.range 16).filter (fun q => q != p && s.odGet (oRtPortRole q) == 1)).length < 4))
      let st := if role = 0 ∨ u.dev < 3 ∨ 5 < u.dev then 0 else if s.odGet (oRtModuleState p) = 3 then 1 else if s.odGet (oRtModuleState p) = 0 then 3 else 0
      (takes = true → exec (.portRoleWrite dt port role) s =
        .next (u.altLost (((u.odSet (oRtPortRole p) role).odSet (oRtPortState p) st).setHostPort p {}))) ∧
      (takes = false → exec (.portRoleWrite dt port role) s = .next u)) ∧
    (exec (.hostPortUp dt port) s = .next (if s.odGet (oRtPortRole p) = 1 ∧ s.odGet (oRtPortState p) < 2 ∧ s.odGet (oRtModuleState p) = 3 then
      ((u.odSet (oRtPortState p) 2).sendLldp p).portReleases p else u)) ∧
    (s.odGet (oRtPortRole p) ≠ 1 ∨ s.odGet (oRtPortState p) ≠ 2 → exec (.hostPortFail dt port) s = .next u) ∧
    (s.odGet (oRtPortRole p) = 1 → s.odGet (oRtPortState p) = 2 →
      let v := match (s.hostPort p).pausedAt with | some t => u.bumpN (oRtPortPauseNs p) (s.clk + dt - t) | none => u
      let w := u.altLost (((v.odSet (oRtPortState p) 0).bump (oRtPortLinkDowns p)).setHostPort p {})
      let alt := w.odGet (oRtPortAlternate p)
      let ls := w.portLanes p
      let x := ls.foldl (fun s l => s.moveLane l alt) w
      let y := (x.terms.filter (fun t => t.port == p)).foldl (fun s t => s.moveTerm t alt) x
      let moved := fun (q : QueueEnt) => if q.port = p then { q with port := alt, src := if q.sub.alt.family ≠ 0 then q.sub.alt else q.src } else q
      let z : State := { y with queue := y.queue.map moved }
      (w.altUsable p = true → exec (.hostPortFail dt port) s = .next ((if ls = [] then z else z.bump oRtPanelFailovers).failoverEvent p 1 ls.length)) ∧
      (w.altUsable p = false → exec (.hostPortFail dt port) s =
        .next (w.failoverEvent p (if 16 ≤ alt ∨ w.odGet (oRtPortRole alt) ≠ 1 then 2 else 3) 0))) ∧
    (∀ vendor part serial revision cmis power warn app,
      let served : Bool := (u.dev == 3 || u.dev == 4 || u.dev == 5 || (u.dev == 2 && s.odGet oBootProgressStep == 14)) && s.odGet (oRtPortRole p) != 3
      let v := (((((u.odSet (oRtModuleVendor p) vendor).odSet (oRtModulePart p) part).odSet (oRtModuleSerial p) serial).odSet
        (oRtModuleRevision p) revision).odSet (oRtModuleCmisRev p) (cmis % 256)).odSet (oRtModuleInsertedAt p) u.now
      let w := v.takeLife p serial part
      let x := ({ w with cages := mset {} w.cages p { warnUa := warn } }).moduleEvent p 1 0
      let code := if cmis % 256 < 0x50 then 1 else if app = false then 2 else if 30000 < power then 3 else 0
      (served = false → exec (.moduleInsert dt port vendor part serial revision cmis app power warn) s = .next u) ∧
      (served = true → code ≠ 0 → exec (.moduleInsert dt port vendor part serial revision cmis app power warn) s =
        .next ((((x.odSet (oRtModuleState p) 2).odSet (oRtModuleRefusal p) code).odSet (oRtPortState p)
          (if x.odGet (oRtPortRole p) = 3 then 4 else 0)).moduleEvent p 3 code)) ∧
      (served = true → code = 0 → exec (.moduleInsert dt port vendor part serial revision cmis app power warn) s =
        .next ((((x.odSet (oRtModuleState p) 3).odSet (oRtModuleRefusal p) 0).odSet (oRtPortState p)
          (match x.odGet (oRtPortRole p) with | 0 => 0 | 3 => 4 | _ => 1)).moduleEvent p 5 0))) ∧
    (∀ (t : Int) bias fault, s.odGet (oRtModuleState p) = 0 → exec (.moduleMonitorRead dt port t bias fault) s = .next u) ∧
    (∀ (t : Int) bias fault, s.odGet (oRtModuleState p) ≠ 0 →
      let e := s.odGet (oAgeingModuleEntry p)
      let a := u.odSet (oRtModuleTempMc p) (ofSigned 32 t)
      let b := a.odSet (oAgeingLifeLastSeen e) a.now
      let v := if e < 64 then (if toSigned 32 (b.odGet (oAgeingLifeMaxTempMc e)) < t then b.odSet (oAgeingLifeMaxTempMc e) (ofSigned 32 t) else b) else a
      let c := mget {} v.cages p
      let w : State := { v with cages := mset {} v.cages p { c with sum := c.sum + bias, count := c.count + 1 } }
      let x := if fault || decide (w.eolBias p ≤ bias) then w.replaceEvent p 3 (w.odGet (oAgeingModuleDaysLeft p)) bias else w
      exec (.moduleMonitorRead dt port t bias fault) s = .next (if fault && s.odGet (oRtModuleState p) != 4 then
        ((x.moduleFault p).odSet (oRtModuleState p) 4).moduleEvent p 4 0 else x)) ∧
    (s.odGet (oRtModuleState p) = 0 → exec (.moduleRemove dt port) s = .next u) ∧
    (s.odGet (oRtModuleState p) ≠ 0 →
      let v := u.removeModule p
      exec (.moduleRemove dt port) s = .next (if v.odGet (oRtPortRole p) = 2 ∧ v.odGet (oCascadeLinkState p) ≠ 0 then v.linkGone p 0 else v))

/-- PTP_MESSAGE (R284) at an UP host port in the panel's PTP domain: an Announce is noted and settles again which port runs PTP; an
exchange at that port moves the time base by the offset measured, records it and LOCKED, and the first one is published as a time
step; any other message sets nothing. PTP_MASTER_LOSS: a panel that was locked at an UP port holds over. PTP_PORT_MOVE: the port that
ran PTP is not UP; another takes over, and where none is up the time base holds over. CLOCK_SOURCE_LOSS (R434): a die that is locked
to an edge holds over and locks to the valid edge with the lowest hop count, ties in the order north, east, south, west, and the dies
that its count concerns settle; the die with the reference, and one with no lock, stay. CLOCK_SWITCH (R435): the other hub takes the
reference where it is alive and locked to the first, and boot.clock.switch reads 0; else 2. -/
def Obligations.TimeAndClock : Prop :=
  (∀ (dt : Nat) (port : Fin 16) (domain : Nat) (announce : Bool) (off : Int) (s : State),
    let p := port.val
    let u := s.tick dt
    let v := u.setHostPort p { s.hostPort p with announce := true }
    let w := ({ u with tbBase := s.tbBase - off }.odSet oRtPanelPtpOffsetNs (ofSigned 64 off)).odSet oRtPanelPtpState 1
    let first : State := { w with boot := { w.boot with firstLock := true } }
    (u.hostUp p = false ∨ domain ≠ s.odGet oRtPanelPtpDomain → exec (.ptpMessage dt port domain announce off) s = .next u) ∧
    (u.hostUp p = true → domain = s.odGet oRtPanelPtpDomain →
      (announce = true → exec (.ptpMessage dt port domain announce off) s = .next { v with ptpCur := v.pickPtp }) ∧
      (announce = false → s.ptpCur ≠ p → exec (.ptpMessage dt port domain announce off) s = .next u) ∧
      (announce = false → s.ptpCur = p → exec (.ptpMessage dt port domain announce off) s =
        .next (if s.boot.firstLock then w else first.publish24 oDeviceTimeStep (toLE 8 (ofSigned 64 (-off))))))) ∧
  (∀ (dt : Nat) (s : State),
    let u := s.tick dt
    let held := fun (v : State) => if s.odGet oRtPanelPtpState = 0 then v else v.odSet oRtPanelPtpState 2
    let v : State := { u with ptpCur := u.pickPtp }
    (s.ptpCur = 0xFF → exec (.ptpMasterLoss dt) s = .next u ∧ exec (.ptpPortMove dt) s = .next u) ∧
    (s.ptpCur ≠ 0xFF → u.hostUp s.ptpCur = true → exec (.ptpMasterLoss dt) s = .next (held u) ∧ exec (.ptpPortMove dt) s = .next u) ∧
    (s.ptpCur ≠ 0xFF → u.hostUp s.ptpCur = false → exec (.ptpMasterLoss dt) s = .next u ∧
      (u.pickPtp ≠ 0xFF → u.hostUp u.pickPtp = true → exec (.ptpPortMove dt) s = .next v) ∧
      (u.pickPtp = 0xFF ∨ u.hostUp u.pickPtp = false → exec (.ptpPortMove dt) s = .next (held v)))) ∧
  (∀ (dt : Nat) (die : Fin 276) (s : State),
    let u := s.tick dt
    let w := (u.setClock die.val none).bump oBootClockHoldovers
    let best := (sortBy (·.1) ((clockPeers die.val).filterMap (fun p => (w.edgeHops die.val p).map (fun k => (k, p.1))))).head?
    (∀ e, mlook s.boot.clock die.val = some e → e ≠ 4 →
      exec (.clockSourceLoss dt die) s = .next ((w.setClock die.val (best.map (·.2))).clockSettle 276)) ∧
    (mlook s.boot.clock die.val = none ∨ mlook s.boot.clock die.val = some 4 → exec (.clockSourceLoss dt die) s = .next u)) ∧
  (∀ (dt : Nat) (s : State),
    let u := s.tick dt
    let h := 1 - s.odGet oBootClockSource
    let n := if h = 0 then 95 else 108
    (u.clockAlive n = true → mlook s.boot.clock n = some 4 → exec (.clockSwitch dt) s = .next ((u.takeReference h).odSet oBootClockSwitch 0)) ∧
    (u.clockAlive n = false ∨ mlook s.boot.clock n ≠ some 4 → exec (.clockSwitch dt) s = .next (u.odSet oBootClockSwitch 2)))

/-- Where EOP is reached (R271, R291, R292), with half-open sessions older than 10 s dropped first: HELLO (R294, R295), well formed, makes
a half-open session, of which 32 are kept, burns the key pair that it used and answers CHALLENGE; the same HELLO again gets the same
CHALLENGE. A protected datagram (R293, R299) of a known session joins its message; whole, and with a sequence number and a tag that
are accepted, it is taken; at a half-open session only a PROOF, once; of an unknown session REFUSE SESSION answers, once a second to a
source. All else is discarded (R307) or nothing. PROOF (R297): the first check that fails is answered by REFUSE, and the half-open
session is gone; else the session opens with OPENED. HALF_OPEN_EXPIRE (R295) and EOP_FRAGMENT_TIMEOUT (R293) drop what is 10 s or 100
ms old, KEEPALIVE (R300) of a session that asks for it is answered, and other requests wait. -/
def Obligations.SessionsOpen : Prop :=
  (∀ (dt : Nat) (d : Dgram) (s : State),
    let c := eopCounted dt d s
    let u := c.dropHalfOpen
    let hello := d.body.drop 24
    let ok : Bool := hello.length == 1252 && leAt d.body 18 2 == 1 && zeroAt d.body 4 12 && zeroAt hello 1248 4
    let sess := leAt d.body 4 4
    let seq := leAt d.body 8 8
    let known : Bool := (u.session sess).isSome || u.halfOpen.any (fun h => h.id == sess)
    EopDrops dt d 1 s (exec (.hello dt d) s) ∧ EopDrops dt d 3 s (exec (.protectedReceive dt d) s) ∧
    (EopReaches dt d s → eopHeadOk 1 d.body = true →
      (ok = false → exec (.hello dt d) s = .next u.eopDiscard) ∧
      (∀ h, ok = true → u.halfOpen.find? (fun h => h.hello == hello) = some h →
        exec (.hello dt d) s = .next (u.eopSend d.port d.src 2 h.id 0 h.challenge)) ∧
      (ok = true → u.halfOpen.find? (fun h => h.hello == hello) = none →
        let h := u.makeHalfOpen d hello
        exec (.hello dt d) s =
          .next ((({ u with halfOpen := lastN 32 (u.halfOpen ++ [h]) } : State).burn).eopSend d.port d.src 2 h.id 0 h.challenge))) ∧
    (EopReaches dt d s → eopHeadOk 3 d.body = true →
      (∀ v, known = true → u.eopJoin d = (v, none) → exec (.protectedReceive dt d) s = .next v) ∧
      (∀ v m x, known = true → u.eopJoin d = (v, some m) → v.session sess = some x →
        let y := x.took seq v.now v.clk
        exec (.protectedReceive dt d) s = .next (if x.accepts seq = false then v.eopDiscard
          else match Config.gcmOpen x.keys.rxKey (gcmNonce x.keys.rxIv seq) (gcmAad sess seq m.length) m with
            | none => v.eopDiscard
            | some pt => (v.setSession y).takePt y pt)) ∧
      (∀ v m h, known = true → u.eopJoin d = (v, some m) → v.session sess = none → v.halfOpen.find? (fun h => h.id == sess) = some h →
        exec (.protectedReceive dt d) s = .next (match Config.gcmOpen h.keys.rxKey (gcmNonce h.keys.rxIv seq) (gcmAad sess seq m.length) m with
          | none => v.eopDiscard
          | some pt => if leAt pt 0 1 ≠ 1 ∨ h.proof.isSome = true then v.eopDiscard
              else { v with halfOpen := v.halfOpen.map (fun (g : HalfOpen) => if g.id = sess then { g with proof := some (seq, pt) } else g) })) ∧
      (known = false →
        let src : Endpoint := { d.src with port := 0 }
        let recent := u.refusedAt.filter (fun e => decide (u.clk < e.2 + 10 ^ 9))
        exec (.protectedReceive dt d) s = .next (if recent.any (fun e => e.1 == src) then u else
          ({ u with refusedAt := recent ++ [(src, u.clk)] } : State).refuse d.port d.src sess 0 stSession)))) ∧
  (∀ (dt id : Nat) (s : State),
    let u := s.tick dt
    let found := s.halfOpen.find? (fun h => h.id == id)
    let v : State := { u with halfOpen := s.halfOpen.filter (fun g => g.id != id) }
    (found = none → exec (.proof dt id) s = .next u) ∧
    (∀ h, found = some h → h.proof = none → exec (.proof dt id) s = .next u) ∧
    (∀ h seq pt, found = some h → h.proof = some (seq, pt) →
      let rid := leAt pt 4 4
      let opened := eopPt 2 rid ([leAt pt 16 1, 0, 0, 0] ++ toLE 4 60 ++ toLE 8 (v.now + 12 * 3600 * 10 ^ 9))
      let x : Session := ⟨id, h.port, h.src, leAt pt 16 1, leAt pt 8 8, h.keys, v.now, v.now, v.clk, v.clk, seq, [seq], 0, [(rid, some opened)], [], [], []⟩
      exec (.proof dt id) s = .next (match v.proofRefused h pt with
        | some code => v.refuse h.port h.src id 1 code
        | none => ({ v with sessions := s.sessions ++ [x] } : State).sendSec id opened)) ∧
    (asksFor s id 4 = false → exec (.keepalive dt id) s = .next u) ∧
    (∀ x pt t, s.session id = some x → x.inbox = pt :: t → leAt pt 0 1 = 4 →
      exec (.keepalive dt id) s = .next ((u.setSession { x with inbox := t }).respond x.id (leAt pt 4 4) (eopPt 4 (leAt pt 4 4) []))) ∧
    exec (.halfOpenExpire dt) s = .next { u with halfOpen := s.halfOpen.filter (fun h => decide (s.clk + dt < h.at' + 10 ^ 10)) } ∧
    exec (.eopFragmentTimeout dt) s = .next { u with eopParts := s.eopParts.filter (fun p => decide (s.clk + dt < p.firstAt + 10 ^ 8)) })

/-- CLOSE (R298) of a session that asks for it closes it with reason 1; a session idle for 60 s closes with reason 2, one open for 12
hours with reason 3, before that it stays. SESSION_CLOSE (R339) of a session that exists reads 0 and closes it, of another 1. QUORUM
(R312, R313) of a session that asks for it: below level 1 LEVEL, not well formed MALFORMED, an identifier already taken DUPLICATE with
the status that it came to, else the first check that fails, in the order of R312, is the answer; a command that passes is taken with
its identifier and joins the queue. QUORUM_ID_EXPIRE (R313) forgets the identifiers whose time is over. A session that does not ask
has nothing done. -/
def Obligations.SessionsEndAndQuorum : Prop :=
  ∀ (dt id : Nat) (s : State),
    let u := s.tick dt
    (asksFor s id 3 = false → exec (.closeSession dt id) s = .next u) ∧
    (asksFor s id 0x30 = false → exec (.quorum dt id) s = .next u) ∧
    (∀ x pt t, s.session id = some x → x.inbox = pt :: t →
      let y : Session := { x with inbox := t }
      let v := u.setSession y
      let rid := leAt pt 4 4
      let b := pt.drop 8
      let cid := sliceAt b 4 16
      let fail := fun (code : Nat) => (v.protLog y 0x30 0 code).respond x.id rid (quorumResp rid code (leAt b 2 1) cid v.now)
      (leAt pt 0 1 = 3 → exec (.closeSession dt id) s = .next (v.closeSession x.id 1)) ∧
      (leAt pt 0 1 = 0x30 →
        (x.level < 1 → exec (.quorum dt id) s = .next (fail stLevel)) ∧
        (1 ≤ x.level → quorumForm b = false → exec (.quorum dt id) s = .next (fail stMalformed)) ∧
        (∀ q, 1 ≤ x.level → quorumForm b = true → s.quorumTaken.find? (fun q => q.id == cid) = some q → exec (.quorum dt id) s =
          .next (v.respond x.id rid (quorumResp rid stDuplicate (leAt b 2 1) cid q.decidedAt ++ [q.status, 0, 0, 0]))) ∧
        (1 ≤ x.level → quorumForm b = true → s.quorumTaken.find? (fun q => q.id == cid) = none →
          let q : QCmd := { cmd := leAt b 2 1, id := cid, subject := leAt b 36 16, stream := leAt b 68 4, notAfter := leAt b 60 8, decidedAt := v.now, session := id, request := rid }
          exec (.quorum dt id) s = .next (match v.quorumFault b with
            | some code => fail code
            | none => { v with quorumTaken := s.quorumTaken ++ [q], quorumQueue := s.quorumQueue ++ [q] })))) ∧
    (∀ x, s.session id = some x →
      exec (.sessionIdleTimeout dt id) s = .next (if x.lastClk + 60 * 10 ^ 9 ≤ s.clk + dt then u.closeSession id 2 else u) ∧
      exec (.sessionLifetimeEnd dt id) s = .next (if x.startClk + 12 * 3600 * 10 ^ 9 ≤ s.clk + dt then u.closeSession id 3 else u) ∧
      exec (.sessionClose dt id) s = .next (({ u.odSet oSessionClose 0 with closeDue := [] } : State).closeAll (s.closeDue ++ [id]) 4)) ∧
    (s.session id = none →
      exec (.sessionIdleTimeout dt id) s = .next u ∧ exec (.sessionLifetimeEnd dt id) s = .next u ∧
      exec (.sessionClose dt id) s = .next (({ u.odSet oSessionClose 1 with closeDue := [] } : State).closeAll s.closeDue 4)) ∧
    exec (.quorumIdExpire dt) s = .next { u with quorumTaken := s.quorumTaken.filter (fun q => decide (u.now ≤ q.notAfter)) }

/-- PRINCIPAL_SET (R337): a record of 2,028 bytes for a slot below 16 whose reserved bytes are 0, at no level above the writer's and slot
0 only by level 3, either all empty or with a key that no other slot has, keys that decode and a label in UTF-8, is stored, unless no
level-2 principal outside slot 0 would be left. QUORUM_SET (R338): 18,220 bytes, at most nine entries with different IDs and UTF-8
labels, k from 1 to the lesser of n and 7, the rest 0. MGMT_ADDRESS_WRITE (R340) of a field 4 to 10 with a value that fits, and a
prefix length from 1 to its most, waits for its response and the store. OBJECT_WRITE (R320, R321, R330) and RECORD_WRITE (R322): an
object, or a whole record, that the panel serves and that may be written at the level, in its state and with its length, takes the
value where it is a good one. WRITE (R303) of a session that asks for it: malformed, or each entry in order, answered at once or,
where something stored changed, after the store (R325). Anything else changes nothing. -/
def Obligations.StoredWrites : Prop :=
  (∀ (dt level : Nat) (b : List Nat) (s : State),
    let u := s.tick dt
    let slot := leAt b 0 1
    let key := leAt b 4 8
    let others := (List.range 16).filter (fun i => i != slot)
    let form : Bool := b.length == 2028 && decide (slot < 16) && zeroAt b 2 2 && decide (leAt b 1 1 ≤ level) && (slot != 0 || decide (3 ≤ level))
    let good : Bool := if key = 0 then zeroAt b 1 2027 else !others.any (fun i => s.odGet (oSessionPrincipalKeyId i) == key) &&
      Config.keyDecodes 0 (sliceAt b 12 32) && Config.keyDecodes 1 (sliceAt b 44 1952) && utf8Ok (sliceAt b 1996 32)
    let v := u.putPrincipal slot b
    let keeps : Bool := (List.range 16).any (fun i => i != 0 && v.odGet (oSessionPrincipalKeyId i) != 0 && v.odGet (oSessionPrincipalLevel i) == 2)
    let k := leAt b 0 1
    let n := leAt b 1 1
    let set : Bool := b.length == 18220 && decide (n ≤ 9) && zeroAt b 2 2 && (n == 0 || (decide (1 ≤ k) && decide (k ≤ min n 7))) &&
      ((List.range n).map (fun i => leAt b (4 + 2024 * i) 8)).eraseDups.length == n &&
      (List.range n).all (fun i => utf8Ok (sliceAt b (4 + 2024 * i + 1992) 32)) && zeroAt b (4 + 2024 * n) (2024 * (9 - n))
    let w := (List.range 9).foldl (fun s i => s.putFleet n b i) u
    exec (.principalSet dt level b) s = .next (if form && good && keeps then v else u) ∧
    (set = true → exec (.quorumSet dt b) s = .next { (w.odSet oSessionQuorumK k).odSet oSessionQuorumN n with storeDirty := true }) ∧
    (set = false → exec (.quorumSet dt b) s = .next u)) ∧
  (∀ (dt sub v : Nat) (s : State),
    let u := s.tick dt
    let fits : Bool := decide (4 ≤ sub) && decide (sub ≤ 0xA) && decide (v < 256 ^ [4, 1, 4, 16, 1, 16, 2].getD (sub - 4) 0) &&
      (sub != 5 || (decide (1 ≤ v) && decide (v ≤ 32))) && (sub != 8 || (decide (1 ≤ v) && decide (v ≤ 128)))
    (fits = true → exec (.mgmtAddressWrite dt sub v) s = .next { u with mgmtDue := s.mgmtDue ++ [(oDeviceMgmt + sub, v)], storeDirty := true }) ∧
    (fits = false → exec (.mgmtAddressWrite dt sub v) s = .next u)) ∧
  (∀ (dt level ix sub : Nat) (b : List Nat) (s : State),
    let u := s.tick dt
    let may := fun (sub : Nat) (r : DirRow) => !factoryIndex ix && accessWritable r && decide (r.writeLevel ≤ level) &&
      (s.recovery || u.writeServed ix r (ofLE b)) && lengthOk ix sub r b
    (u.writeRow ix sub = none → exec (.objectWrite dt level ix sub b) s = .next u) ∧
    (∀ r, u.writeRow ix sub = some r → r.access ≠ 1 ∨ r.type = 12 ∧ r.sub = 0 → exec (.objectWrite dt level ix sub b) s = .next u) ∧
    (∀ r, u.writeRow ix sub = some r → r.access = 1 → ¬ (r.type = 12 ∧ r.sub = 0) → exec (.objectWrite dt level ix sub b) s =
      .next (if may sub r then ((u.writeField ix r b).bind (·.finishWrite ix)).getD u else u)) ∧
    (u.writeRow ix 0 = none → exec (.recordWrite dt level ix b) s = .next u) ∧
    (∀ r, u.writeRow ix 0 = some r → r.type ≠ 12 → exec (.recordWrite dt level ix b) s = .next u) ∧
    (∀ r, u.writeRow ix 0 = some r → r.type = 12 → r.sub = 0 → exec (.recordWrite dt level ix b) s =
      .next (if may 0 r then ((u.writeFields ix (fieldsOf r) b u).bind (·.finishWrite ix)).getD u else u))) ∧
  (∀ (dt id : Nat) (s : State),
    let u := s.tick dt
    (asksFor s id 0x12 = false → exec (.writeReq dt id) s = .next u) ∧
    (∀ x pt t, s.session id = some x → x.inbox = pt :: t → leAt pt 0 1 = 0x12 →
      let y : Session := { x with inbox := t }
      let v := u.setSession y
      let rid := leAt pt 4 4
      let b := pt.drop 8
      let n := leAt b 0 1
      let ok : Bool := decide (1 ≤ n) && decide (n ≤ 32) && zeroAt b 1 3
      (ok = false ∨ writeEntries n (b.drop 4) = none → exec (.writeReq dt id) s = .next (v.respondCode y 0x12 rid stMalformed)) ∧
      (∀ es, ok = true → writeEntries n (b.drop 4) = some es →
        let r := es.foldl (State.writeAll x.level) ({ v with storeDirty := false }, [])
        let pt2 := eopPt 0x13 rid ([n, 0, 0, 0] ++ (r.2.map (fun p => addrBytes p.1 ++ [p.2, 0, 0, 0])).flatten)
        exec (.writeReq dt id) s = .next ((({ r.1 with storeDirty := s.storeDirty || r.1.storeDirty } : State).logAll y 0x12 r.2).answerWrite x.id rid pt2
          r.1.storeDirty))))

/-- For a session whose oldest accepted message is the request named, which is taken: READ (R303) with well-formed entries answers them
all at one point; BULK_READ (R304) of a readable object answers up to 16,384 of its bytes from an offset within its length, an offset
past it OFFSET, more bytes MALFORMED, and an object that may not be read its code; SUBSCRIBE (R308) takes the lowest free number of
the session's four, where the panel has fewer than 32 subscriptions, else BUSY; UNSUBSCRIBE drops the subscription named, else
BAD_VALUE; EVENT_ACK (R309) drops what it acknowledges. A malformed one of the first four is answered MALFORMED, and an EVENT_ACK too
short is no more than taken. EVENT_RESEND (R309) sends a subscription's unacknowledged events whose interval, 200 ms doubling to 3.2
s, is over once more. A session that does not ask has nothing done. -/
def Obligations.SessionRequests : Prop :=
  ∀ (dt id : Nat) (s : State),
    let u := s.tick dt
    (asksFor s id 0x10 = false → exec (.readReq dt id) s = .next u) ∧ (asksFor s id 0x14 = false → exec (.bulkRead dt id) s = .next u) ∧
    (asksFor s id 0x20 = false → exec (.subscribe dt id) s = .next u) ∧ (asksFor s id 0x22 = false → exec (.unsubscribe dt id) s = .next u) ∧
    (asksFor s id 0x24 = false → exec (.eventAck dt id) s = .next u) ∧
    (∀ x pt t, s.session id = some x → x.inbox = pt :: t →
      let y : Session := { x with inbox := t }
      let v := u.setSession y
      let rid := leAt pt 4 4
      let b := pt.drop 8
      (leAt pt 0 1 = 0x10 →
        (readOk b = false → exec (.readReq dt id) s = .next (v.respondCode y 0x10 rid stMalformed)) ∧
        (readOk b = true →
          let r := (readEntries b).foldl (v.readEntry y) ([leAt b 0 1, 0, 0, 0], [])
          exec (.readReq dt id) s = .next ((v.logAll y 0x10 r.2).respond x.id rid (eopPt 0x11 rid r.1)))) ∧
      (leAt pt 0 1 = 0x14 →
        let ix := leAt b 0 3
        let off := leAt b 8 8
        let n := leAt b 16 4
        let ok : Bool := b.length == 24 && zeroAt b 4 4 && zeroAt b 20 4
        let answer := fun (code total : Nat) (d : List Nat) => (v.protLog y 0x14 (ix * 256 + leAt b 3 1) code).respond x.id rid
          (eopPt 0x15 rid (b.take 4 ++ [code, 0, 0, 0] ++ toLE 8 total ++ toLE 8 off ++ d))
        (ok = false → exec (.bulkRead dt id) s = .next (v.respondCode y 0x14 rid stMalformed)) ∧
        (∀ code, ok = true → v.readCheck y ix (leAt b 3 1) = (code, none) → exec (.bulkRead dt id) s = .next (answer code 0 [])) ∧
        (∀ code r, ok = true → v.readCheck y ix (leAt b 3 1) = (code, some r) →
          (v.objLength ix r ≤ off → exec (.bulkRead dt id) s = .next (answer stOffset (v.objLength ix r) [])) ∧
          (off < v.objLength ix r → 16384 < n → exec (.bulkRead dt id) s = .next (answer stMalformed (v.objLength ix r) [])) ∧
          (off < v.objLength ix r → n ≤ 16384 → exec (.bulkRead dt id) s = .next (answer stOk (v.objLength ix r) (v.objSlice ix r off n))))) ∧
      (leAt pt 0 1 = 0x20 →
        let free := (List.range 4).find? (fun n => !x.subs.any (fun u => u.num == n))
        let room : Bool := decide (sumN (v.sessions.map (fun y => y.subs.length)) < 32)
        (subOk b = false → exec (.subscribe dt id) s = .next (v.subResp y 0x20 rid stMalformed 0)) ∧
        (subOk b = true → free = none ∨ room = false → exec (.subscribe dt id) s = .next (v.subResp y 0x20 rid stBusy 0)) ∧
        (∀ n, subOk b = true → free = some n → room = true →
          let sub : Sub := { num := n, filters := subFilters b, nxt := if leAt b 8 8 = 0 then s.nextEvent else leAt b 8 8 }
          exec (.subscribe dt id) s = .next ((v.setSession { y with subs := x.subs ++ [sub] }).subResp y 0x20 rid stOk n))) ∧
      (leAt pt 0 1 = 0x22 →
        (b = [] → exec (.unsubscribe dt id) s = .next (v.respondCode y 0x22 rid stMalformed)) ∧
        (b ≠ [] → x.subs.any (fun u => u.num == leAt b 0 1) = false → exec (.unsubscribe dt id) s = .next (v.subResp y 0x22 rid stBadValue (leAt b 0 1))) ∧
        (b ≠ [] → x.subs.any (fun u => u.num == leAt b 0 1) = true → exec (.unsubscribe dt id) s =
          .next ((v.setSession { y with subs := x.subs.filter (fun u => u.num != leAt b 0 1) }).subResp y 0x22 rid stOk (leAt b 0 1)))) ∧
      (leAt pt 0 1 = 0x24 →
        let cut := fun (m : EvMsg) => ({ m with entries := m.entries.filter (fun e => decide (leAt b 0 8 < e.1)) } : EvMsg)
        (b.length < 9 → exec (.eventAck dt id) s = .next v) ∧
        (9 ≤ b.length → exec (.eventAck dt id) s = .next (v.setSession { y with subs := x.subs.map (fun (z : Sub) =>
          if z.num = leAt b 8 1 then { z with sent := (z.sent.map cut).filter (fun m => m.entries != []) } else z) })))) ∧
    (∀ sub, (∀ x, s.session id = some x → x.subs.find? (fun u => u.num == sub) = none) → exec (.eventResend dt id sub) s = .next u) ∧
    (∀ sub x y, s.session id = some x → x.subs.find? (fun u => u.num == sub) = some y →
      let due := fun (m : EvMsg) => decide (m.lastTx + 2 * 10 ^ 8 * 2 ^ min m.tries 4 ≤ s.clk + dt)
      let z : Sub := { y with sent := y.sent.map (fun (m : EvMsg) => if due m then { m with lastTx := s.clk + dt, tries := m.tries + 1 } else m) }
      exec (.eventResend dt id sub) s = .next ((y.sent.filter due).foldl (fun s m => s.sendSec id (evMessage sub m.entries))
        (u.setSession { x with subs := x.subs.map (fun (v : Sub) => if v.num = sub then z else v) })))

/-- HOLD (R333) in READY or SERVING goes to HELD and refuses the queued streams. RELEASE_HOLD (R333) in HELD goes to SERVING where a
stream runs, else to READY. START (R447) in STANDBY with no power command running enters bring-up, at step 3 where loads are
outstanding there, else 4. STOP (R333) in READY or HELD, with no stream and no power command running, goes to STANDBY and shuts down.
WARM_RESET (R333, R447) in those, or in FATAL whatever streams there were, with no power command running, enters bring-up at step 5; a
retired panel goes to RETIRED and shuts down. UNRETIRE (R333) in RETIRED, with no retirement in the quorum queue, goes to STANDBY and
clears the flag, which is stored. Each does nothing in any other state. -/
def Obligations.DeviceStateCommands : Prop :=
  ∀ (dt : Nat) (s : State),
    let u := s.tick dt
    let idle := u.noStream = true ∧ u.powerBusy = false
    let stops := (u.dev = 3 ∨ u.dev = 5) ∧ idle
    let warm := stops ∨ (u.dev = 7 ∧ u.powerBusy = false)
    (u.dev = 3 ∨ u.dev = 4 → exec (.holdCmd dt) s = .next ((u.setDev 5).refuseQueue.odSet oDeviceControlHold 1)) ∧
    (u.dev ≠ 3 → u.dev ≠ 4 → exec (.holdCmd dt) s = .next u) ∧
    (u.dev = 5 → exec (.releaseHold dt) s = .next ((u.setDev (if u.anyStream then 4 else 3)).odSet oDeviceControlHold 0)) ∧
    (u.dev ≠ 5 → exec (.releaseHold dt) s = .next u) ∧
    (u.dev = 1 → u.powerBusy = false → exec (.startCmd dt) s = .next (u.enterBringup (if u.bootStep = 3 then 3 else 4) false)) ∧
    (u.dev ≠ 1 ∨ u.powerBusy = true → exec (.startCmd dt) s = .next u) ∧
    (stops → exec (.stopCmd dt) s = .next ((u.setDev 1).shutDown.odSet oDeviceControlPower 0)) ∧
    (¬ stops → exec (.stopCmd dt) s = .next u) ∧
    (warm → u.odGet oDeviceStateRetired ≠ 1 → exec (.warmReset dt) s = .next (u.enterBringup 5 true)) ∧
    (warm → u.odGet oDeviceStateRetired = 1 → exec (.warmReset dt) s = .next ((u.setDev 6).shutDown.odSet oDeviceControlPower 0)) ∧
    (¬ warm → exec (.warmReset dt) s = .next u) ∧
    (u.dev = 6 → s.quorumQueue.any (fun q => q.cmd == 2) = false →
      exec (.unretire dt) s = .next { (u.setDev 1).odSet oDeviceStateRetired 0 with storeDirty := true }) ∧
    (u.dev ≠ 6 ∨ s.quorumQueue.any (fun q => q.cmd == 2) = true → exec (.unretire dt) s = .next u)

/-- STORE_RESET (R326) gives the stored objects their defaults. STORE_COMMIT (R325) of a changed store writes the older copy and sends the
responses that waited for it; of an unchanged one it does nothing. RETIRE (R313, R336), EXPEL (R425) and FORCED_HANDOVER (R422) do
nothing unless such a command is at the front of the quorum queue. In its turn RETIRE waits for recoveries, then starts or fails; once
started it sets the flag and the state, in STANDBY with no more, else ending every stream; when all ends are acknowledged, or after 2
s, the slots empty and the panel shuts down. EXPEL starts on the master, or on the deputy where its subject is the master, couching
the subject's streams to members that can take them; when none is left, or after 10 ms, the member is dropped and expelled.
FORCED_HANDOVER starts and asks for the couch of the stream named, or of each stream in ascending order; with no such couch left it is
done. -/
def Obligations.StoreAndQuorumTurns : Prop :=
  ∀ (dt : Nat) (s : State),
    let u := s.tick dt
    exec (.storeReset dt) s = .next u.storeReset ∧
    (s.storeDirty = false → exec (.storeCommit dt) s = .next u) ∧
    (s.storeDirty = true → exec (.storeCommit dt) s =
      .next (((u.writeStore.sessions.map (·.id)).foldl State.sendHeld u.writeStore).mgmtNow).closeDueNow) ∧
    ((∀ q, s.quorumQueue.head? = some q → q.cmd ≠ 2) → exec (.retire dt) s = .next u) ∧
    ((∀ q, s.quorumQueue.head? = some q → q.cmd ≠ 1) → exec (.expel dt) s = .next u) ∧
    ((∀ q, s.quorumQueue.head? = some q → q.cmd ≠ 3) → exec (.forcedHandover dt) s = .next u) ∧
    (∀ q, s.quorumQueue.head? = some q → q.cmd = 2 →
      (q.phase = 0 → s.faults ≠ [] → exec (.retire dt) s = .next u) ∧
      (q.phase = 0 → s.faults = [] →
        let r := u.quorumStart q true
        let v := { (r.1.odSet oDeviceStateRetired 1).setDev 6 with storeDirty := true }
        exec (.retire dt) s = .next (if r.2 then (if u.dev = 1 then v.quorumDone else v.withdrawAll 1) else r.1)) ∧
      (q.phase ≠ 0 → u.endsAcked = true ∨ q.startClk + 2 * 10 ^ 9 ≤ s.clk + dt →
        exec (.retire dt) s = .next ((List.range 8).foldl (fun (s : State) i => s.odSet (oPlacementSlotState i) 0) u.quorumDone).shutDown) ∧
      (q.phase ≠ 0 → u.endsAcked = false → s.clk + dt < q.startClk + 2 * 10 ^ 9 → exec (.retire dt) s = .next u)) ∧
    (∀ q, s.quorumQueue.head? = some q → q.cmd = 1 →
      let p := (u.panelOf q.subject).getD 0xFF
      let may := u.inCascade && decide (p < 8) && p != u.panelNo &&
        (u.odGet oCascadePanelRole == 1 || (u.odGet oCascadePanelRole == 2 && p == s.cas.actMaster))
      let held := s.cas.remote.any (fun r => r.2.panels.contains p)
      (q.phase = 0 →
        let r := u.quorumStart q may
        let v := if r.1.odGet oCascadePanelRole = 2 then r.1.takeOver else r.1
        let w := { v with cas.expelling := v.cas.expelling ++ [p] }
        exec (.expel dt) s = .next (if r.2 then (w.cas.remote.filter (fun l => l.2.panels.contains p)).foldl (fun s l => s.couchOff p l) w else r.1)) ∧
      (q.phase ≠ 0 → q.startClk + 10 ^ 7 ≤ s.clk + dt ∨ held = false →
        exec (.expel dt) s = .next ((((u.dropPanel p 5 2).seamAll 8 [p]).expelled p).quorumDone)) ∧
      (q.phase ≠ 0 → s.clk + dt < q.startClk + 10 ^ 7 → held = true → exec (.expel dt) s = .next u)) ∧
    (∀ q, s.quorumQueue.head? = some q → q.cmd = 3 →
      let left := s.cas.couches.any (fun c => c.quorum)
      (q.phase = 0 →
        let r := u.quorumStart q true
        let p := (r.1.panelOf q.subject).getD 0xFF
        let ids := sortBy id (((r.1.lanes.filter (fun l => !l.2.ended)).map (fun l => l.2.sub.stream)).eraseDups)
        exec (.forcedHandover dt) s = .next (if r.2 then
          (if q.stream = 0 then ids else [q.stream]).foldl (fun (s : State) i => (s.couchAdd i p q.subject true).1) r.1 else r.1)) ∧
      (q.phase ≠ 0 → left = true → exec (.forcedHandover dt) s = .next u) ∧
      (q.phase ≠ 0 → left = false → exec (.forcedHandover dt) s = .next { u with quorumQueue := s.quorumQueue.tail }))

/-- In step 4 of bring-up, for a sector that has not settled and whose turn it is (R432), SECTOR_POWER_UP (R343) takes the next rail up
and notes it, counts its good phases at the first and idles every tile at the fourth; RAIL_SETTLE_TIMEOUT (R343) latches it off and
stages its dies and stacks FAILED with cause 0x0006, but for those that are FUSED. Otherwise they do nothing. SECTOR_LATCH (R355) of a
powered sector latches it off and rings its steward, of another does nothing; SECTOR_SUPPLY_LOSS (R355) of a latched sector with
something left to lose, and no loss of it under way, publishes the power event and starts the sector fault, else does nothing.
SETPOINT_WRITE (R344) of a value in range starts the ramp, which is stored and mailed to the steward, and of another changes nothing;
SETPOINT_REACHED (R344) ends a ramp that has had its time and publishes the set point, else does nothing. -/
def Obligations.SectorSupply : Prop :=
  ∀ (dt : Nat) (sec : Fin 16) (s : State),
    let i := sec.val
    let u := s.tick dt
    let x := s.sector i
    let due : Bool := u.odGet oDeviceStateState == 2 && u.odGet oBootProgressStep == 4 && !u.sectorSettled i && u.sectorTurn i
    let lost : Bool := u.odGet (oPowerSectorLatched i) == 1 && !u.sectorOut i && !s.faults.any (fun f => f.kind == 3 && f.ident == i)
    (∀ phases, due = false → exec (.sectorPowerUp dt sec phases) s = .next u) ∧
    (∀ phases, due = true →
      let n := x.upStep + 1
      let v := (u.setSector i { x with upStep := n }).odSet (oPowerSectorRailsOk i) (setBit (u.odGet (oPowerSectorRailsOk i)) (stepRail n))
      exec (.sectorPowerUp dt sec phases) s =
        .next (if n = 1 then v.odSet (oPowerSectorPhasesGood i) (min phases 180) else if n = 4 then v.idleSector i else v)) ∧
    (due = false → exec (.railSettleTimeout dt sec) s = .next u) ∧
    (due = true → exec (.railSettleTimeout dt sec) s =
      .next ((((List.range 16).map (fun k => i * 16 + k)).filter (fun g => siteKind g < 2)).foldl (fun (s : State) g =>
        if s.floorNow (oFloorSiteState g) = 3 then s
        else (s.stageFloor (oFloorSiteState g) 4).stageFloor (oFloorSiteCause g) 6) (u.latchSector i))) ∧
    (x.upStep = 0 → exec (.sectorLatch dt sec) s = .next u) ∧
    (x.upStep ≠ 0 → exec (.sectorLatch dt sec) s = .next ((u.latchSector i).ring (stewardNode i) 1)) ∧
    (lost = false → exec (.sectorSupplyLoss dt sec) s = .next u) ∧
    (lost = true → exec (.sectorSupplyLoss dt sec) s = .next ((u.powerEvent 4 i).reportFault 3 i 0x19)) ∧
    (∀ (domain : Fin 2) mv, let o := setpointObj domain.val i
      let range : Bool := if domain = 0 then decide (550 ≤ mv) && decide (mv ≤ 850) else decide (700 ≤ mv) && decide (mv ≤ 800)
      (range = true → exec (.setpointWrite dt sec domain mv) s = .next
        (({ u with ramps := mins s.ramps o (mv, u.supplyNow o, s.clk + dt), storeDirty := true } : State).mail i 2 (domain.val * 65536 + mv) 8)) ∧
      (range = false → exec (.setpointWrite dt sec domain mv) s = .next u) ∧
      (mlook s.ramps o = none → exec (.setpointReached dt sec domain) s = .next u) ∧
      (∀ target old t, mlook s.ramps o = some (target, old, t) → exec (.setpointReached dt sec domain) s =
        .next (if t + 1000 * (max old target - min old target) ≤ s.clk + dt then ({ u with ramps := mdel s.ramps o } : State).odSet o target else u)))

/-- PACE_LEVEL_CHANGE (R347) with a good steward sets the sector's level and limiter and sends the level to its tiles; without one nothing
changes (R390). PACE_SHORTFALL (R348) publishes the sector, its pace, the fixed level and the limiter where the pace is fixed, has
been below it for more than 1 ms, and no such event went out for a second; else nothing. SECTOR_CURRENT_SAMPLE (R350) with a good
steward keeps the last ten samples, publishes their mean and the power, and rings the steward where the sample rises over 90 % of the
cap; a projection over the cap takes the cap limiter one below the lowest limiter, one of the limiter's levels returns for each 100 µs
with every sample below 95 %, else it stays; then the level is set. Without a steward nothing changes. DROOP_EVENT (R351) with a good
steward trims until 20 µs later, counts and rings; DROOP_TRIM_EXPIRE then ends the trim, and before it, or without a trim, does
nothing. -/
def Obligations.SectorPace : Prop :=
  ∀ (dt : Nat) (sec : Fin 16) (s : State),
    let i := sec.val
    let u := s.tick dt
    let x := s.sector i
    (u.stewardGood i = true → exec (.paceLevelChange dt sec) s = .next ((u.setLevel i).applyLevel i)) ∧
    (u.stewardGood i = true → exec (.droopEvent dt sec) s = .next ((((u.setSector i { x with droopUntil := some (s.clk + dt + 20000) }).bump
      (oPowerSectorDroops i)).ring (stewardNode i) 3).setLevel i)) ∧
    (u.stewardGood i = false → exec (.paceLevelChange dt sec) s = .next u ∧ exec (.droopEvent dt sec) s = .next u ∧
      ∀ amps watts projected, exec (.sectorCurrentSample dt sec amps watts projected) s = .next u) ∧
    (u.fixedLevel = none ∨ x.belowFrom = none → exec (.paceShortfall dt sec) s = .next u) ∧
    (∀ f t, u.fixedLevel = some f → x.belowFrom = some t →
      let due : Bool := decide (t + 10 ^ 6 < s.clk + dt) && x.shortfallAt.all (fun v => decide (v + 10 ^ 9 ≤ s.clk + dt))
      (due = true → exec (.paceShortfall dt sec) s = .next ((u.setSector i { x with shortfallAt := some (s.clk + dt) }).publish24 oPowerPanelPaceShortfall
        [i, u.sectorPace i (u.odGet (oPowerSectorLevel i)), f, u.odGet (oPowerSectorLimiter i)])) ∧
      (due = false → exec (.paceShortfall dt sec) s = .next u)) ∧
    (∀ amps watts projected, u.stewardGood i = true →
      let cap := u.odGet (oPowerSectorCapA i)
      let since : Option Nat := if amps * 100 < cap * 95 then some (x.capOkFrom.getD (s.clk + dt)) else none
      let l := lastN 10 (x.amps ++ [amps])
      let y : SectorPwr := { x with amps := l, inrush := x.inrush.filter (fun p => decide (s.clk + dt < p.1)), woken := 0, capOkFrom := since }
      let after := fun (y : SectorPwr) =>
        let v := ((u.setSector i y).odSet (oPowerSectorCurrentA i) (meanN l)).odSet (oPowerSectorPowerW i) watts
        (if amps * 10 > cap * 9 ∧ x.amps.getLast?.getD 0 * 10 ≤ cap * 9 then v.ring (stewardNode i) 2 else v).setLevel i
      (cap < projected → exec (.sectorCurrentSample dt sec amps watts projected) s =
        .next (after { y with capLevel := (u.limiters i).foldl min 63 - 1, capOkFrom := none })) ∧
      (∀ t, projected ≤ cap → since = some t → t + 10 ^ 5 ≤ s.clk + dt → x.capLevel < 63 → exec (.sectorCurrentSample dt sec amps watts projected) s =
        .next (after { y with capLevel := x.capLevel + 1, capOkFrom := some (s.clk + dt) })) ∧
      (projected ≤ cap → (∀ t, since = some t → s.clk + dt < t + 10 ^ 5) ∨ 63 ≤ x.capLevel →
        exec (.sectorCurrentSample dt sec amps watts projected) s = .next (after y))) ∧
    (x.droopUntil = none → exec (.droopTrimExpire dt sec) s = .next u) ∧
    (∀ t, x.droopUntil = some t → exec (.droopTrimExpire dt sec) s =
      .next (if t ≤ s.clk + dt then (u.setSector i { x with droopUntil := none }).setLevel i else u))

/-- PANEL_POWER_SAMPLE (R349) records the input and the bricks' outputs. Then ten samples whose mean exceeds the hard limit trip it: every
steward gets ceiling 31, the trip is counted and published; a trip ends when that mean falls below 90 % of the effective cap, and
until then the ceiling stands; a projection over 98 % of the cap lowers a ceiling above 0 by a level and counts; a full window of
samples below 93 % of it, a window after the last change, raises one below 63; otherwise nothing more is done. BRICK_LOSS (R345) of a
working brick, with the state it is found in, records that state with no output, clears its serial and temperature where it was
removed, else counts its fault, publishes event 1 and notes the repair; of another brick or state it does nothing. BRICK_INSERT (R476)
of a brick that is not working records its serial and, where a Config predicate without body knows the part (log entry 94), publishes
event 2, else reads FAILED; of a working one it does nothing. INPUT_LOSS (R474) and EPO_OPEN (R480) switch a fed panel off, and do
nothing to an unfed one. -/
def Obligations.PanelPower : Prop :=
  ∀ (dt : Nat) (s : State),
    let u := s.tick dt
    (∀ mv watts projected outputs,
      let w := u.recordInput mv watts outputs
      let n := u.odGet oPowerPanelWindowUs / 10
      let mean := meanN (lastN 10 w.watts)
      let cap := w.effectiveCap
      let c := w.odGet oPowerPanelCeiling
      let trips : Bool := decide (10 ≤ w.watts.length) && decide (w.odGet oPowerPanelHardLimitW < mean)
      let low : Bool := decide (c < 63) && decide (n ≤ w.watts.length) && decide (w.ceilingAt + 1000 * w.odGet oPowerPanelWindowUs ≤ w.clk) &&
        decide (meanN (lastN n w.watts) * 100 < cap * 93)
      (trips = true → w.tripped = false → exec (.panelPowerSample dt mv watts projected outputs) s =
        .next ((({ w.setCeiling 31 with tripped := true }).bump oPowerPanelHardTrips).powerEvent 3 0)) ∧
      (w.tripped = true → exec (.panelPowerSample dt mv watts projected outputs) s =
        .next (if mean * 10 < cap * 9 then { w with tripped := false } else w)) ∧
      (w.tripped = false → trips = false → cap * 98 < projected * 100 → exec (.panelPowerSample dt mv watts projected outputs) s =
        .next (if 0 < c then (w.setCeiling (c - 1)).bump oPowerPanelCapActions else w)) ∧
      (w.tripped = false → trips = false → projected * 100 ≤ cap * 98 → exec (.panelPowerSample dt mv watts projected outputs) s =
        .next (if low then w.setCeiling (c + 1) else w))) ∧
    (∀ (brick : Fin 13) (st : Nat), let b := brick.val
      let known : Bool := u.odGet (oPowerBrickState b) == 1 && (st == 0 || st == 2 || st == 3)
      (known = false → exec (.brickLoss dt brick st) s = .next u) ∧
      (known = true →
        let v := (u.odSet (oPowerBrickState b) st).odSet (oPowerBrickOutputW b) 0
        let w := if st = 0 then (v.odSet (oPowerBrickSerial b) 0).odSet (oPowerBrickTempMc b) 0 else v.bump (oPowerBrickFaults b)
        exec (.brickLoss dt brick st) s = .next ((w.powerEvent 1 b).instantRepair 9 b ((u.odGet oDeviceStateCauses).testBit 7)))) ∧
    (∀ (brick : Fin 13) serial, let b := brick.val
      (u.odGet (oPowerBrickState b) = 1 → exec (.brickInsert dt brick serial) s = .next u) ∧
      (u.odGet (oPowerBrickState b) ≠ 1 → exec (.brickInsert dt brick serial) s =
        .next (let v := u.odSet (oPowerBrickSerial b) (serial % 2 ^ 128)
          if Config.brickPart (serial % 2 ^ 128) then (v.odSet (oPowerBrickState b) 1).powerEvent 2 b else v.odSet (oPowerBrickState b) 2))) ∧
    (s.boot.fed = true → exec (.inputLoss dt) s = .next u.powerOff ∧ exec (.epoOpen dt) s = .next u.powerOff) ∧
    (s.boot.fed = false → exec (.inputLoss dt) s = .next u ∧ exec (.epoOpen dt) s = .next u)

/-- IDLE_ENTRY (R352) puts a tile that is quiet and has been for idle_entry_us into deep idle, and no other. IDLE_COMMAND (R352, R390)
does so to a tile that the hub may idle, through mailbox 1 of a good steward, and to no other. WAKE_REQUEST (R353, R354) of an idle
tile of a die that is not FUSED, with a good steward and in no waiting wake, joins the sector's wakes, behind those under way and the
other recoveries where it is one, and the wakes are served; of any other tile it does nothing. WAKE_STEP (R354): 2 µs after the last
and with headroom for it, the next column of the wake under way wakes; the last ends the trim and serves what waits; otherwise
nothing. WAKE_TRIM_EXPIRE (R354): 100 µs after staging began the trim ends, a slow wake where steps remain; otherwise nothing. A
number that names no tile has nothing done. -/
def Obligations.IdleAndWake : Prop :=
  ∀ (dt : Nat) (s : State),
    let u := s.tick dt
    (∀ k, isTile k = false → exec (.idleEntry dt k) s = .next u ∧ exec (.idleCommand dt k) s = .next u ∧ ∀ r, exec (.wakeRequest dt k r) s = .next u) ∧
    (∀ k, isTile k = true →
      let t := s.tile k
      let i := sectorOf (k / 64)
      let x := s.sector i
      let due : Bool := t.quiet && !t.idle && decide (t.idleSince + 1000 * u.odGet oPowerPanelIdleEntryUs ≤ s.clk + dt)
      let wakes : Bool := t.idle && !s.boot.fused.contains (k / 64) && u.stewardGood i && !x.wakes.any (fun v => v.tiles.contains k)
      let w := fun (r : Bool) => ({ tiles := (u.wakeScope k).filter (fun k => (u.tile k).idle), own := u.wakeScope k, recovery := r } : WakeReq)
      exec (.idleEntry dt k) s = .next (if due then u.setTile k { t with idle := true } else u) ∧
      (u.mayIdle k = false → exec (.idleCommand dt k) s = .next u) ∧
      (u.mayIdle k = true → exec (.idleCommand dt k) s = .next (if u.stewardGood i then (u.mail i 1 k 7).idleTile k else u.idleTile k)) ∧
      (wakes = false → ∀ r, exec (.wakeRequest dt k r) s = .next u) ∧
      (wakes = true →
        let ws := x.wakes.filter (fun v => v.column.isSome)
        let later := x.wakes.filter (fun v => !v.column.isSome)
        let q := ws ++ later.filter (·.recovery) ++ [w true] ++ later.filter (fun v => !v.recovery)
        exec (.wakeRequest dt k false) s =
          .next (((u.setSector i { x with wakes := x.wakes ++ [w false] }).ring (stewardNode i) 0).serveWakes i (x.wakes ++ [w false]).length) ∧
        exec (.wakeRequest dt k true) s = .next (((u.setSector i { x with wakes := q }).mail i 1 k 7).serveWakes i q.length))) ∧
    (∀ sec : Fin 16, let i := sec.val
      let x := s.sector i
      ((∀ w, x.wakes.head? = some w → w.column = none) → exec (.wakeStep dt sec) s = .next u) ∧
      (∀ w t c, x.wakes = w :: t → w.column = some c →
        let ks := w.tiles.filter (fun k => k % 8 == c)
        let v := u.wakeNow i ks
        (s.clk + dt < w.lastAt + 2000 ∨ u.headroom i < 50 * ks.length → exec (.wakeStep dt sec) s = .next u) ∧
        (w.lastAt + 2000 ≤ s.clk + dt → 50 * ks.length ≤ u.headroom i → exec (.wakeStep dt sec) s = .next (if c < 7
          then v.setSector i { v.sector i with wakes := { w with column := some (c + 1), lastAt := s.clk + dt } :: t }
          else ((v.setSector i { v.sector i with wakes := t, trimFrom := none }).setLevel i).serveWakes i t.length))) ∧
      (x.trimFrom = none → exec (.wakeTrimExpire dt sec) s = .next u) ∧
      (∀ t, x.trimFrom = some t →
        let v := u.setSector i { x with trimFrom := none }
        (s.clk + dt < t + 10 ^ 5 → exec (.wakeTrimExpire dt sec) s = .next u) ∧
        (t + 10 ^ 5 ≤ s.clk + dt → exec (.wakeTrimExpire dt sec) s =
          .next ((if x.wakes.any (fun w => w.column.isSome) then v.bump (oPowerSectorSlowWakes i) else v).setLevel i))))

/-- HOTSPOT_SAMPLE (R356) judges each sensor against the estimate (a mark after 4 °C off for 1 s, cleared after 2 °C for 60 s), raises a
dispute where neither is marked and they differ by more than 4 °C for 100 ms, and counts and publishes what changed. DIE_TEMP_EVAL
(R357) records the die's temperature, its ceiling by the throttling law and its level, counts a throttle that begins, rings the
steward as it crosses 90 or 105 °C, sets the pace where the ceiling changed, and where the die becomes CRITICAL idles its tiles,
counts and, of a die in use, starts its loss. CRITICAL_DIE_RETEST (R357) of a die lost as critical, once below 80 °C for 60 s, passed,
and with its loss not under way, notes the tiles found bad for the rejoin; else it does nothing. THERMAL_RESISTANCE_SAMPLE (R359) of a
sector with a good steward, active dies, power, and 40 % of its cap or more records the resistance, else nothing. COOLING_WARNING
(R358) records the plate's readings; a condition that differs from the warning for 10 s raises it with its cause or clears it. A site
with no compute die has nothing done. -/
def Obligations.TemperaturesAndCooling : Prop :=
  ∀ (dt : Nat) (s : State),
    let u := s.tick dt
    (∀ site : Fin 256, isCompute site.val = false → (∀ spot a b est, exec (.hotspotSample dt site spot a b est) s = .next u) ∧
      exec (.dieTempEval dt site) s = .next u ∧ ∀ bad ok, exec (.criticalDieRetest dt site bad ok) s = .next u) ∧
    (∀ (site : Fin 256) (spot : Fin 4) (a b est : Int), isCompute site.val = true →
      let g := site.val
      let k := g * 4 + spot.val
      let h := s.spot k
      let p := judgeSensor h.suspA h.timerA (a - est).natAbs (s.clk + dt)
      let q := judgeSensor h.suspB h.timerB (b - est).natAbs (s.clk + dt)
      let apart : Bool := !p.1 && !q.1 && decide (4000 < (a - b).natAbs)
      let since : Option Nat := if apart then some (h.dispFrom.getD (s.clk + dt)) else none
      let raise : Bool := since.any (fun t => decide (t + 10 ^ 8 ≤ s.clk + dt) && !h.disp)
      let h1 : HotSpot := { a := a, b := b, est := est, suspA := p.1, suspB := q.1, disp := apart && (h.disp || raise), dispFrom := since, timerA := p.2, timerB := q.2 }
      let v := (({ u with spots := mset {} s.spots k h1 } : State).markEvent g spot.val 0 h.suspA p.1 (p.1 && q.1) h1).markEvent g spot.val 1 h.suspB q.1 (p.1 && q.1) h1
      exec (.hotspotSample dt site spot a b est) s = .next (if raise then (v.bump oThermalPanelDisputes).spotEvent g spot.val 1 0 h1 else v)) ∧
    (∀ site : Fin 256, isCompute site.val = true →
      let g := site.val
      let t := u.dieTemp g
      let d : DieTherm := mget {} s.dieTherm g
      let old := u.odGet (oThermalSiteLevel g)
      let cur := u.odGet (oPowerSiteCeiling g)
      let ceil := nextCeiling cur d.last t
      let lvl := if t ≥ 105000 then 2 else if ceil < 63 then 1 else 0
      let cool := if t < 80000 then some (d.coolFrom.getD (s.clk + dt)) else none
      let v := ((({ u with dieTherm := mset {} s.dieTherm g { last := t, coolFrom := cool } } : State).odSet (oThermalSiteTempMc g) (s32 t)).odSet
        (oPowerSiteCeiling g) ceil).odSet (oThermalSiteLevel g) lvl
      let v1 := if old = 0 ∧ lvl = 1 then v.bump (oPowerSiteThrottles g) else v
      let crossed : Bool := (decide (d.last < 90000) != decide (t < 90000)) || (decide (d.last < 105000) != decide (t < 105000))
      let v2 := if crossed then v1.ring (stewardNode (sectorOf g)) 4 else v1
      let v3 := if ceil ≠ cur then v2.paceDie g ceil else v2
      exec (.dieTempEval dt site) s = .next (if lvl = 2 ∧ old ≠ 2 then v3.critDie g else v3)) ∧
    (∀ (site : Fin 256) bad ok, isCompute site.val = true →
      let g := site.val
      let due : Bool := u.floorNow (oFloorSiteState g) == 4 && u.floorNow (oFloorSiteCause g) == 7 && ok &&
        (mget {} s.dieTherm g).coolFrom.any (fun t => decide (t + 60 * 10 ^ 9 ≤ s.clk + dt)) && !s.faults.any (fun f => f.kind == 2 && f.ident == g)
      let defects := (List.range 64).foldl (fun m t => if u.floorNow (oFloorTileState (g * 64 + t)) = 4 then setBit m t else m) 0
      (due = false → exec (.criticalDieRetest dt site bad ok) s = .next u) ∧
      (due = true → exec (.criticalDieRetest dt site bad ok) s = .next { u with rejoin := mins s.rejoin g ((bad ||| defects) % 2 ^ 64) })) ∧
    (∀ sec : Fin 16,
      let i := sec.val
      let dies := (sectorDies i).filter u.dieActive
      let sum : Int := (dies.map (fun g => toSigned 32 (u.odGet (oThermalSiteTempMc g)))).foldl (· + ·) 0
      let w := u.odGet (oPowerSectorPowerW i)
      let due : Bool := u.stewardGood i && dies != [] && w != 0 && decide (u.odGet (oPowerSectorCapA i) * 40 ≤ u.odGet (oPowerSectorCurrentA i) * 100)
      (due = false → exec (.thermalResistanceSample dt sec) s = .next u) ∧
      (due = true → exec (.thermalResistanceSample dt sec) s =
        .next (u.resistance i ((sum / (dies.length : Int) - toSigned 32 (u.odGet oThermalPlateInletMc)) / (w : Int)).toNat))) ∧
    (∀ (inlet outlet : Int) flow,
      let v := ((u.odSet oThermalPlateInletMc (s32 inlet)).odSet oThermalPlateOutletMc (s32 outlet)).odSet oThermalPlateFlowMlMin flow
      (v.coolCondition.isSome = s.coolWarn → exec (.coolingWarning dt inlet outlet flow) s = .next { v with coolFrom := none }) ∧
      (v.coolCondition.isSome ≠ s.coolWarn → s.coolFrom = none → exec (.coolingWarning dt inlet outlet flow) s = .next { v with coolFrom := some (s.clk + dt) }) ∧
      (∀ t, v.coolCondition.isSome ≠ s.coolWarn → s.coolFrom = some t → s.clk + dt < t + 10 ^ 10 → exec (.coolingWarning dt inlet outlet flow) s = .next v) ∧
      (∀ t cause sec ratio, v.coolCondition = some (cause, sec, ratio) → s.coolWarn = false → s.coolFrom = some t → t + 10 ^ 10 ≤ s.clk + dt →
        exec (.coolingWarning dt inlet outlet flow) s = .next (({ v with coolWarn := true, coolFrom := none } : State).coolingEvent 1 cause sec ratio)) ∧
      (∀ t, v.coolCondition = none → s.coolWarn = true → s.coolFrom = some t → t + 10 ^ 10 ≤ s.clk + dt →
        exec (.coolingWarning dt inlet outlet flow) s = .next (({ v with coolWarn := false, coolFrom := none } : State).coolingEvent 2 0 0xFF 0)))

/-- MARGIN_READ (R364 to R366) of a compute die takes each tile's margin in turn and records the ring-oscillator slowing. EYE_MARGIN_READ
(R364, R367) of a link, with at least one lane, publishes the least margins, how many lanes have been weak, and the time, and an event
for each newly weak lane. STACK_ECC_RATE_CHECK (R368) an hour after the last begins the next hour's count and publishes at the 24th
hour in a row above 1,000, before it does nothing. MARGIN_REPLAN (R369) in READY, SERVING or HELD with no recovery: a re-plan that is
due starts; one under way takes the trims of the next group of dies, or with none left ends, each at a couch point, and while there is
none only the couches advance; otherwise nothing. REPLAN_NOW (R373) while none is pending notes whether one is due. MODULE_LIFE_DAILY
(R374, R375) of a module with an entry and a day's readings records the mean, the end-of-life bias and the line through 30 days, and
publishes what is due; of another nothing. A site or link that does not exist has nothing done. -/
def Obligations.AgeingChecks : Prop :=
  ∀ (dt : Nat) (s : State),
    let u := s.tick dt
    let runs : Bool := s.faults == [] && (u.dev == 3 || u.dev == 4 || u.dev == 5)
    (∀ (site : Fin 256) margins slowing, exec (.marginRead dt site margins slowing) s = .next (if isCompute site.val then
      ((List.range (min 64 margins.length)).foldl (fun (s : State) t => s.readMargin (site.val * 64 + t) (margins.getD t 0)) u).odSet
        (oAgeingSiteRoSlowing site.val) slowing else u)) ∧
    (∀ link lanes, linkExists link = false ∨ lanes = [] → exec (.eyeMarginRead dt link lanes) s = .next u) ∧
    (∀ link lanes, linkExists link = true → lanes ≠ [] →
      let least := fun (l : List Nat) => l.foldl min 0xFFFF
      let weak := (List.range lanes.length).filter (fun i => weakLane (lanes.getD i (0, 0)))
      let old := (mlook s.weakLanes link).getD 0
      let v := (((u.odSet (oAgeingLinkEyeHMui link) (least (lanes.map (·.1)))).odSet (oAgeingLinkEyeVMv link) (least (lanes.map (·.2)))).odSet
        (oAgeingLinkWeakLanes link) (popcount (weak.foldl setBit old) 256)).odSet (oAgeingLinkMeasuredAt link) u.now
      exec (.eyeMarginRead dt link lanes) s = .next ((weak.filter (fun i => !old.testBit i)).foldl (fun (s : State) i =>
        s.marginEvent 3 i (siteNode (link / 4)) (lanes.getD i (0, 0)).1) { v with weakLanes := mset 0 s.weakLanes link (weak.foldl setBit old) })) ∧
    (∀ site, let i := stackIdx site
      let r : EccRate := mget {} s.eccRates i
      let n := u.odGet (oStackUnitEccCorrected i)
      let h := if (if n < r.count then n else n - r.count) > 1000 then r.hours + 1 else 0
      let v : State := { u with eccRates := mset {} s.eccRates i { count := n, since := s.clk + dt, hours := h } }
      (isStackSite site = false ∨ s.clk + dt < r.since + 3600 * 10 ^ 9 → exec (.stackEccRateCheck dt site) s = .next u) ∧
      (isStackSite site = true → r.since + 3600 * 10 ^ 9 ≤ s.clk + dt →
        exec (.stackEccRateCheck dt site) s = .next (if h = 24 then v.marginEvent 4 0 (siteNode site) 0 else v))) ∧
    ((runs = false → exec (.marginReplan dt) s = .next u) ∧
      (runs = true → s.marginPlan = none → exec (.marginReplan dt) s = .next (if u.marginDue then u.marginStart else u)) ∧
      (∀ m, runs = true → s.marginPlan = some m →
        let dies := ((m.trims.map (fun p => p.1 / 64)).eraseDups).take (u.odGet oPlacementPanelReplanMaxDies)
        let r := u.couch u.placedSlots
        let q := u.couch (u.slotsOn dies)
        let now := m.trims.filter (fun p => dies.contains (p.1 / 64))
        let v := now.foldl State.applyTrim q.2
        let w : State := { v with marginPlan := some { m with trims := m.trims.filter (fun p => !dies.contains (p.1 / 64)), done := m.done + now.length } }
        (dies = [] → exec (.marginReplan dt) s = .next (if r.1 then u.placedSlots.foldl State.letGo (r.2.marginFinish m) else r.2)) ∧
        (dies ≠ [] → exec (.marginReplan dt) s = .next (if q.1 then (v.slotsOn dies).foldl State.letGo w else q.2)))) ∧
    (u.odGet oAgeingPanelReplanNow = 1 → exec (.replanNow dt) s = .next u) ∧
    (u.odGet oAgeingPanelReplanNow ≠ 1 → exec (.replanNow dt) s = .next (u.odSet oAgeingPanelReplanNow (if u.marginDue then 1 else 2))) ∧
    (∀ port : Fin 16, let p := port.val
      let c := mget {} s.cages p
      let e := u.odGet (oAgeingModuleEntry p)
      let mean := c.sum / c.count
      let days := lastN 30 (c.days ++ [(c.day, mean)])
      (64 ≤ e ∨ c.count = 0 → exec (.moduleLifeDaily dt port) s = .next u) ∧
      (e < 64 → c.count ≠ 0 →
        let v : State := { u with cages := mset {} s.cages p { c with sum := 0, count := 0, days := days, day := c.day + 1 }, storeDirty := true }
        let v1 := if v.odGet (oAgeingLifeInitialBiasUa e) = 0 then v.odSet (oAgeingLifeInitialBiasUa e) mean else v
        let v2 := ((v1.odSet (oAgeingLifeLastBiasUa e) mean).bumpN (oAgeingLifeOnHours e) 24).odSet (oAgeingModuleBiasUa p) mean
        let eol := v2.eolBias p
        let left := daysLeft days eol
        let v3 := ((v2.odSet (oAgeingModuleEolUa p) eol).odSet (oAgeingModuleDaysLeft p) (match left with | none => 0xFFFF | some n => min n 0xFFFE)).odSet
          (oAgeingModulePredictedEol p) (match left with | none => 0 | some n => v2.now + n * 86400 * 10 ^ 9)
        let d := v3.odGet (oAgeingModuleDaysLeft p)
        let v4 := if d < v3.odGet oAgeingModuleWarnDays then v3.replaceEvent p 1 d mean else v3
        let v5 := if d < v4.odGet oAgeingModuleUrgentDays then v4.replaceEvent p 2 d mean else v4
        exec (.moduleLifeDaily dt port) s = .next (if eol ≤ mean then v5.replaceEvent p 3 d mean else v5)))

/-- DIE_HEARTBEAT_READ (R381) of a compute die in use with a good steward: a first read notes the counters; counters that moved restart
the count and add the misses passed; the third read that finds them still loses the die with cause 0x0018. Otherwise nothing.
HUB_HEARTBEAT (R381) with both hubs good: a ring restarts the count, rings on and adds the misses; the fourth missed one loses the
peer with cause 0x001C; otherwise nothing. OFFGRID_HEARTBEAT_POLL (R381) of a steward or port die that has not failed: a fresh flag
restarts the count and adds the misses, the third stale one loses it with cause 0x001D; otherwise nothing. HUB_LOSS (R388) and
STEWARD_LOSS (R390) act on a loss that has been decided and do nothing else. HUBS_LOST_IDLE (R401) of a panel that is not OFF idles
the tiles of every die in use and goes to FATAL with no hub. -/
def Obligations.HeartbeatsAndLosses : Prop :=
  ∀ (dt : Nat) (s : State),
    let u := s.tick dt
    (∀ site : Fin 256, let g := site.val
      let read : Bool := isCompute g && u.dieUsable g && u.stewardGood (sectorOf g)
      (read = false → exec (.dieHeartbeatRead dt site) s = .next u) ∧
      (read = true → mlook s.beats g = none → exec (.dieHeartbeatRead dt site) s = .next { u with beats := mins s.beats g (u.beatsOf g, 0) }) ∧
      (∀ old n, read = true → mlook s.beats g = some (old, n) →
        (old ≠ u.beatsOf g → exec (.dieHeartbeatRead dt site) s =
          .next (({ u with beats := mins s.beats g (u.beatsOf g, 0) } : State).bumpN oFaultPanelHeartbeatMisses n)) ∧
        (old = u.beatsOf g → n < 2 → exec (.dieHeartbeatRead dt site) s = .next { u with beats := mins s.beats g (u.beatsOf g, n + 1) }) ∧
        (old = u.beatsOf g → 2 ≤ n → exec (.dieHeartbeatRead dt site) s = .next (({ u with beats := mdel s.beats g } : State).reportFault 2 g 0x18)))) ∧
    (∀ hub : Fin 2, let h := hub.val
      let n := mget 0 s.hubMiss h
      (u.hubLost h = true ∨ u.hubLost (1 - h) = true → ∀ r, exec (.hubHeartbeat dt hub r) s = .next u) ∧
      (u.hubLost h = false → u.hubLost (1 - h) = false →
        exec (.hubHeartbeat dt hub true) s =
          .next ((({ u with hubMiss := mset 0 s.hubMiss h 0 } : State).ring (hubNode h) 9).bumpN oFaultPanelHeartbeatMisses n) ∧
        exec (.hubHeartbeat dt hub false) s = .next (if n < 3 then { u with hubMiss := mset 0 s.hubMiss h (n + 1) }
          else ({ u with hubMiss := mset 0 s.hubMiss h 0 } : State).reportFault 6 (1 - h) 0x1C))) ∧
    (∀ fn : Fin 20, let f := fn.val
      let n := mget 0 s.offMiss f
      let v : State := { u with offMiss := mset 0 s.offMiss f 0 }
      (u.floorNow (oFloorOffgridState f) = 4 → ∀ r, exec (.offgridHeartbeatPoll dt fn r) s = .next u) ∧
      (u.floorNow (oFloorOffgridState f) ≠ 4 →
        exec (.offgridHeartbeatPoll dt fn true) s = .next (v.bumpN oFaultPanelHeartbeatMisses n) ∧
        exec (.offgridHeartbeatPoll dt fn false) s = .next (if n < 2 then { u with offMiss := mset 0 s.offMiss f (n + 1) }
          else if f < 16 then v.reportFault 8 f 0x1D else v.reportFault 7 (f - 16) 0x1D))) ∧
    (∀ hub : Fin 2, (s.faults.any (fun f => f.kind == 6 && f.ident == hub.val) = true → exec (.hubLoss dt hub) s = .next (u.loseHub hub.val)) ∧
      (s.faults.any (fun f => f.kind == 6 && f.ident == hub.val) = false → exec (.hubLoss dt hub) s = .next u)) ∧
    (∀ sec : Fin 16, (s.faults.any (fun f => f.kind == 8 && f.ident == sec.val) = true → exec (.stewardLoss dt sec) s = .next (u.loseSteward sec.val)) ∧
      (s.faults.any (fun f => f.kind == 8 && f.ident == sec.val) = false → exec (.stewardLoss dt sec) s = .next u)) ∧
    (u.dev = 0 → exec (.hubsLostIdle dt) s = .next u) ∧
    (u.dev ≠ 0 →
      let ks := ((computeSites.filter u.dieUsable).map (fun g => (List.range 64).map (fun t => g * 64 + t))).flatten
      exec (.hubsLostIdle dt) s = .next { (ks.foldl State.idleTile u).odSet oDeviceStateState 7 with hubsLost := true })

/-- FAULT_CONTAINMENT (R382) contains every fault decided and not yet contained. REPAIR (R382 to R384) repairs the first fault once it is
contained, none of its lanes has an abort due and the idle bank can be written, except in FATAL; else nothing. VIOLATION_NOTICE (R391)
takes the first notice in the acting hub's queue whose cause is 1 to 9, else nothing. STALL_ABORT (R393) aborts the lane as the second
stall would. BG_ESCALATE (R394): a class with nothing due goes to state 0; one with something due notes since when, takes the state of
its wait, counts the steps up, and publishes where it reaches OVERDUE. BG_SLOT_HOLD (R395) of a class that is URGENT or more, for at
most 200 µs, with no hold running and at most 2 ms in the last 100 ms, holds the slot and counts; else nothing. FATAL_ENTRY (R401,
R458): in FATAL the first later cause is kept; from BRINGUP on with one good hub FATAL is declared, with no hub left for cause 0x0205,
with no dump for 0x0204, else with a dump; else nothing. -/
def Obligations.ContainmentAndRepair : Prop :=
  ∀ (dt : Nat) (s : State),
    let u := s.tick dt
    let l := u.notices u.actingHub
    let n := l.find? (fun n => decide (1 ≤ n.entry.cause ∧ n.entry.cause ≤ 9))
    exec (.faultContainment dt) s = .next ((s.faults.filter (fun f => !f.contained)).foldl State.contain u) ∧
    (∀ est cap bulk, s.faults = [] → exec (.repair dt est cap bulk) s = .next u) ∧
    (∀ est cap bulk f t, s.faults = f :: t →
      let may : Bool := u.dev != 7 && f.contained && !f.lanes.any s.abortDue.contains && u.idleBank
      exec (.repair dt est cap bulk) s = .next (if may then u.repairFirst f est cap bulk else u)) ∧
    ((n = none → exec (.violationNotice dt) s = .next u) ∧
      (∀ x, n = some x → exec (.violationNotice dt) s = .next ((u.setNotices u.actingHub (dropFirst (· == x) l)).takeNotice x))) ∧
    (∀ lane : Fin 256, exec (.stallAbort dt lane) s = .next ((u.stallAgain lane.val).stallAbort lane.val)) ∧
    (∀ cls : Fin 5, let c := cls.val
      let v : State := if (mlook s.bgFrom c).isSome then u else { u with bgFrom := mins s.bgFrom c (s.clk + dt) }
      let old := u.odGet (oFaultBgState c)
      let st := bgStateFor (v.bgWaiting c) (u.odGet (oFaultBgDeadlineS c))
      let w := (v.odSet (oFaultBgState c) st).bumpN (oFaultBgEscalations c) (st - max old 1)
      (u.bgDue c = false → exec (.bgEscalate dt cls) s = .next (({ u with bgFrom := mdel s.bgFrom c } : State).odSet (oFaultBgState c) 0)) ∧
      (u.bgDue c = true → exec (.bgEscalate dt cls) s = .next (if old < 4 ∧ st = 4 then w.bgHealth c else w))) ∧
    (∀ (cls : Fin 5) us, let c := cls.val
      let l := s.bgHolds.filter (fun h => decide (s.clk + dt < h.1 + 10 ^ 8))
      let may : Bool := decide (3 ≤ u.odGet (oFaultBgState c)) && decide (us ≤ 200) && decide (s.bgHoldUntil ≤ s.clk + dt) && decide (sumN (l.map (·.2)) + us ≤ 2000)
      (may = false → exec (.bgSlotHold dt cls us) s = .next u) ∧
      (may = true → exec (.bgSlotHold dt cls us) s =
        .next (({ u with bgHoldUntil := s.clk + dt + 1000 * us, bgHolds := l ++ [(s.clk + dt, us)] } : State).bumpN (oFaultBgSlotUs c) us))) ∧
    (∀ which : Fin 5, let cause := 0x201 + which.val
      (s.hubsLost = true → exec (.fatalEntry dt which) s = .next u) ∧
      (s.hubsLost = false → u.dev = 7 → exec (.fatalEntry dt which) s = .next (if u.odGet oDiagFatalLater = 0 then u.odSet oDiagFatalLater cause else u)) ∧
      (s.hubsLost = false → u.dev ≠ 7 → u.dev < 2 ∨ u.goodHubs.length ≠ 1 → exec (.fatalEntry dt which) s = .next u) ∧
      (s.hubsLost = false → u.dev ≠ 7 → 2 ≤ u.dev → u.goodHubs.length = 1 → exec (.fatalEntry dt which) s =
        .next (if cause = 0x205 then { (u.declareFatal cause).odSet oDumpState 4 with hubsLost := true }
          else if cause = 0x204 then (u.declareFatal cause).noDump cause
          else (u.declareFatal cause).startDump cause (u.dumpImages u.leadHub))))

/-- SEAM_LINK_UP (R404) at a cascade port with its module IN_SERVICE, in READY, SERVING or HELD and not expelled, records the peer, the
calibrated latency and its threshold; over 800 ns the link is FAILED, else it takes the state of its class and the cascade is judged;
elsewhere nothing. SEAM_LINK_LOSS_OF_SIGNAL (R424) takes a cascade port's link that is not DOWN down, and does nothing else.
TRANSFER_REISSUE (R406) of a transfer unacknowledged for 10 ms, or whose link is no MEMBER link any more, sends it again, of another
does nothing. MEMBER_HEARTBEAT (R408, R409) on a MEMBER link takes the beat, where there is one, and the messages in order; on a
FOREIGN link those messages that it may carry; on another nothing. MEMBER_REPORT (R423): outside a cascade nothing; a member's own
goes to the master with its own figures; the master judges that of a MEMBER; otherwise nothing. -/
def Obligations.SeamLinks : Prop :=
  ∀ (dt : Nat) (s : State),
    let u := s.tick dt
    (∀ (port : Fin 16) serial cid digest panel peerPort minPs, let q := port.val
      let up : Bool := u.odGet (oRtPortRole q) == 2 && u.odGet (oRtModuleState q) == 3 && u.odGet oCascadePanelState != 5 && decide (3 ≤ u.dev) && decide (u.dev ≤ 5)
      let lat := seamLatency minPs
      let n := (u.panelOf serial).getD 0xFF
      let h : Hello := ⟨serial, cid, digest, panel, peerPort⟩
      let v := ((({ u with cas.hellos := mset {} s.cas.hellos q h }.odSet (oCascadeLinkPeerSerial q) serial).odSet (oCascadeLinkPeerPanel q) n).odSet
        (oCascadeLinkPeerPort q) peerPort)
      let w := ((v.odSet (oCascadeLinkLatencyPs q) lat).odSet (oCascadeLinkXoffThreshold q) (seamTheta lat)).cascadeEvent 8 n q 0 lat
      (up = false → exec (.seamLinkUp dt port serial cid digest panel peerPort minPs) s = .next u) ∧
      (up = true → 800000 < lat → exec (.seamLinkUp dt port serial cid digest panel peerPort minPs) s =
        .next ((w.odSet (oCascadeLinkState q) 6).odSet (oCascadeLinkRetrain q) 2)) ∧
      (up = true → lat ≤ 800000 → exec (.seamLinkUp dt port serial cid digest panel peerPort minPs) s =
        .next ((((w.odSet (oCascadeLinkState q) (w.linkClass h)).odSet (oCascadeLinkRetrain q) 0).relink.cascadeEvent 6 n q 0 lat).judgeCascade))) ∧
    (∀ port : Fin 16, let q := port.val
      (u.odGet (oRtPortRole q) = 2 → u.odGet (oCascadeLinkState q) ≠ 0 → exec (.seamLinkLossOfSignal dt port) s = .next (u.linkGone q 0)) ∧
      (u.odGet (oRtPortRole q) ≠ 2 ∨ u.odGet (oCascadeLinkState q) = 0 → exec (.seamLinkLossOfSignal dt port) s = .next u)) ∧
    (∀ id, s.cas.xfers.find? (fun x => x.id == id) = none → exec (.transferReissue dt id) s = .next u) ∧
    (∀ id x, s.cas.xfers.find? (fun x => x.id == id) = some x → exec (.transferReissue dt id) s =
      .next (if x.sentAt + 10 ^ 7 ≤ s.clk + dt ∨ u.odGet (oCascadeLinkState x.port) ≠ 2 then u.reissue x else u)) ∧
    (∀ (port : Fin 16) msgs, let p := u.odGet (oCascadeLinkPeerPanel port.val)
      let st := u.odGet (oCascadeLinkState port.val)
      (st = 2 → exec (.memberHeartbeat dt port none msgs) s = .next (msgs.foldl (fun (s : State) m => s.memberMsg p m) u)) ∧
      (∀ b, st = 2 → exec (.memberHeartbeat dt port (some b) msgs) s = .next (msgs.foldl (fun (s : State) m => s.memberMsg p m) (u.memberHeardNow p b).unparkDeep)) ∧
      (∀ b, st = 3 → exec (.memberHeartbeat dt port b msgs) s = .next (msgs.foldl State.foreignMsg u)) ∧
      (∀ b, st ≠ 2 → st ≠ 3 → exec (.memberHeartbeat dt port b msgs) s = .next u)) ∧
    (∀ (panel : Fin 8) speed late rate short, let p := panel.val
      (u.inCascade = false → exec (.memberReport dt panel speed late rate short) s = .next u) ∧
      (u.inCascade = true → p = u.panelNo → u.cascadeMaster = false → exec (.memberReport dt panel speed late rate short) s =
        .next (({ u with cas.lateA := 0, cas.seenA := 0 } : State).seamCtl s.cas.actMaster 10
          [u.ownSpeed, (if short then 1 else 0), s.cas.lateA * 1000 / max 1 s.cas.seenA, rate])) ∧
      (u.inCascade = true → u.cascadeMaster = true → exec (.memberReport dt panel speed late rate short) s =
        .next (if u.memberState p = 2 then u.judgeMember p speed late rate short else u)) ∧
      (u.inCascade = true → p ≠ u.panelNo → u.cascadeMaster = false → exec (.memberReport dt panel speed late rate short) s = .next u))

/-- At the designated master of a forming cascade, CASCADE_FORM (R408) where it can form declares it FORMED and tells the members, and
CASCADE_FORMING_REPORT (R408), 10 s after the last, publishes the first missing member, with a kind that the spec leaves open, a free
value (log entry 56); otherwise they do nothing. MEMBER_LOSS (R409, R426) of another member that is UP and silent loses it; otherwise
nothing. DEPUTY_TAKEOVER (R409): the deputy whose master is lost takes over where more than half report it lost, in a cascade of two
where every link to it is dark; otherwise nothing. MASTER_ISOLATE (R409): the master of more than two that hears no majority gives up
the role; otherwise nothing. CASCADE_REPLACE (R424): a body that is malformed changes nothing; a replacement that may not happen reads
2; else the record with the new serial is stored, sent to the members, and the slots' images to the new member. -/
def Obligations.CascadeMembers : Prop :=
  ∀ (dt : Nat) (s : State),
    let u := s.tick dt
    let forming : Bool := u.odGet oCascadePanelState == 1 && u.panelNo == u.odGet oCascadeConfigMaster
    let n := u.memberList.length
    let near := u.others.filter (fun p => !u.silent p)
    let ma := s.cas.actMaster
    let votes := 1 + (u.others.filter (fun p => u.memberState p == 2 && (mget {} s.cas.memberBeats p).lost.testBit ma)).length
    let dark := (List.range 16).all (fun q => u.odGet (oCascadeLinkPeerPanel q) != ma || u.odGet (oCascadeLinkState q) == 0)
    let takes : Bool := u.inCascade && u.odGet oCascadePanelRole == 2 && decide (ma < 8) && u.memberState ma == 3 && (if n = 2 then dark else decide (n < 2 * votes))
    (forming = true → exec (.cascadeForm dt) s = .next (if u.canForm then u.nowFormed.seamAll 2 [] else u)) ∧
    (forming = false → exec (.cascadeForm dt) s = .next u ∧ exec (.cascadeFormingReport dt) s = .next u) ∧
    (forming = true → s.clk + dt < s.cas.formAt + 10 ^ 10 → exec (.cascadeFormingReport dt) s = .next u) ∧
    (forming = true → s.cas.formAt + 10 ^ 10 ≤ s.clk + dt → exec (.cascadeFormingReport dt) s = .next (({ u.burn with cas.formAt := s.clk + dt } : State).cascadeEvent
      (u.fresh 7 % 256) ((u.others.find? (fun p => !u.memberReady p || u.bundle p == [])).getD 0xFF) 0xFF 0 0)) ∧
    (∀ panel : Fin 8, let p := panel.val
      let gone : Bool := u.inCascade && p != u.panelNo && u.memberState p == 2 && u.silent p
      exec (.memberLoss dt panel) s = .next (if gone then u.memberGone p else u)) ∧
    exec (.deputyTakeover dt) s = .next (if takes then u.takeOver else u) ∧
    (u.cascadeMaster = true → 2 < n → 2 * (near.length + 1) ≤ n → exec (.masterIsolate dt) s = .next (u.giveUp near)) ∧
    (u.cascadeMaster = false ∨ n ≤ 2 ∨ n < 2 * (near.length + 1) → exec (.masterIsolate dt) s = .next u) ∧
    (∀ b, let p := leAt b 0 1
      let serial := leAt b 4 16
      let form : Bool := b.length == 20 && sliceAt b 1 3 == [0, 0, 0] && decide (p < 8) && serial != 0
      let v := u.odSet oCascadeConfigMembers (u.odGet oCascadeConfigMembers - u.cfgSerial p * 2 ^ (128 * p) + serial * 2 ^ (128 * p))
      let may : Bool := u.cascadeMaster && (u.memberState p == 3 || u.memberState p == 4) &&
        s.cas.hellos.any (fun h => h.2.serial == serial && h.2.digest == v.seamDigest)
      let fields := (List.range 10).map (fun i => v.odGet (oCascadeConfig + 1 + i))
      let w := (((List.range 16).foldl (fun (s : State) q => if (mget {} s.cas.hellos q).serial = serial then s.odSet (oCascadeLinkPeerPanel q) p else s)
        (v.odSet (oCascadeMemberState p) 1)).storeConfig fields).seamAll 13 fields
      (form = false → exec (.cascadeReplace dt b) s = .next u) ∧
      (form = true → exec (.cascadeReplace dt b) s = .next (if may
        then ((List.range 8).filter (fun i => w.odGet (oCascadeSlotMembers i) != 0)).foldl (fun (s : State) i =>
          s.seamSend p 0x40 ([i, s.odGet (oCascadeSlotMode i), s.odGet (oCascadeSlotCuts i), (s.pslot i).image.length] ++ (s.pslot i).image))
          (w.odSet oCascadePanelReplace 0)
        else u.odSet oCascadePanelReplace 2)))

/-- REAM_CONTRIBUTION (R416, R417) of the ream under way that has not started, from one of its producers and with no reserved bit set, is
kept in its place, and the ream starts where it can; any other is discarded. REAM_DEADLINE (R416) starts a ream that can start, and
REAM_REDUCE (R418) does the next step of the reduction. REAM_ABANDON (R416) at four times the deadline abandons a ream that has not
started and of which some contribution has no copy, and does nothing else. DEEPEN_COMMIT_RECORD (R412) on a MEMBER link ends the epoch
of the stream's lane by the record where the slot is a part of a deepened one and the pass is under way on a lane neither aborted nor
ended; otherwise nothing. -/
def Obligations.Reams : Prop :=
  ∀ (dt : Nat) (s : State),
    let u := s.tick dt
    (∀ (slot : Fin 8) red index (copy : Fin 2) (word : BitVec 64) values, let key := reamKey slot.val red
      let num := mget 0 s.cas.reamNext key
      let r := (mlook s.cas.reams key).getD { num := num }
      let fits : Bool := r.started.isNone && decide (index < u.contributions slot.val red) && word.toNat / 2 ^ 48 == num % 65536 && word.toNat / 2 ^ 32 % 4096 == 0
      let r1 : Ream := { r with copies := mins r.copies (2 * index + copy.val) (word.toNat :: values), firstAt := if r.copies = [] then s.clk + dt else r.firstAt }
      (fits = true → exec (.reamContribution dt slot red index copy word values) s =
        .next (({ u with cas.reams := mset {} s.cas.reams key r1 } : State).tryReam slot.val red)) ∧
      (fits = false → exec (.reamContribution dt slot red index copy word values) s = .next u)) ∧
    (∀ (slot : Fin 8) red, exec (.reamReduce dt slot red) s = .next (u.reduce slot.val red)) ∧
    (∀ (slot : Fin 8) red, let r := mget {} s.cas.reams (reamKey slot.val red)
      let n := u.contributions slot.val red
      let full := (List.range n).all (fun i => r.has i 0)
      let past := decide (r.firstAt + 1000 * u.odGet oCascadeConfigReamDeadlineUs ≤ s.clk + dt) && (List.range n).all (fun i => r.has i 0 || r.has i 1)
      let starts : Bool := r.started.isNone && r.copies != [] && decide (0 < n) && (full || past)
      exec (.reamDeadline dt slot red) s = .next (if starts then u.startReam slot.val red n r else u)) ∧
    (∀ (slot : Fin 8) red,
      (mlook s.cas.reams (reamKey slot.val red) = none → exec (.reamAbandon dt slot red) s = .next u) ∧
      (∀ r, mlook s.cas.reams (reamKey slot.val red) = some r →
        let missing := (List.range (u.contributions slot.val red)).any (fun i => !(r.has i 0 || r.has i 1))
        let gone : Bool := r.started.isNone && r.copies != [] && missing && decide (r.firstAt + 4000 * u.odGet oCascadeConfigReamDeadlineUs ≤ s.clk + dt)
        exec (.reamAbandon dt slot red) s = .next (if gone then u.abandonReam (reamKey slot.val red) else u))) ∧
    (∀ (port : Fin 16) stream (record : Row),
      (u.runLane stream = none → exec (.deepenCommitRecord dt port stream record) s = .next u) ∧
      (∀ l x, u.runLane stream = some (l, x) → x.pass = none ∨ (s.pslot x.slot).furn = none → exec (.deepenCommitRecord dt port stream record) s = .next u) ∧
      (∀ l x q f, u.runLane stream = some (l, x) → x.pass = some q → (s.pslot x.slot).furn = some f →
        let ends : Bool := u.odGet (oCascadeLinkState port.val) == 2 && (s.pslot x.slot).part.isSome && !x.aborted && x.terminal.isNone
        exec (.deepenCommitRecord dt port stream record) s = .next (if ends then u.endEpoch l x q record f.maxContext else u)))

/-- COUCH_START (R420) with no couch in line does nothing. The first: a stream that no lane here runs is passed on to the panel that runs
it, or its couch ends; one that has ended, or to a panel that no link reaches before it is ready, ends its couch; else the first round
goes out; then, with no recovery and the idle bank free, a lane that still works is held, and a quiet one hands over its rest and its
record; after that it waits. COUCH_SWITCH (R421) of the first couch, ready with an index that the source has released to, ends the
lane as COUCHED, settles the stream and counts; otherwise nothing. CASCADE_COUCH_CMD (R420): a malformed body changes nothing; else
the couch joins the line and reads 1, or is refused and reads 2. CASCADE_LEVEL_CHANGE (R414): a level that is due in a cascade becomes
the panel's level, is set in the sectors and published; otherwise nothing. -/
def Obligations.Couches : Prop :=
  ∀ (dt : Nat) (s : State),
    let u := s.tick dt
    (s.cas.couches = [] → exec (.couchStart dt) s = .next u ∧ exec (.couchSwitch dt) s = .next u) ∧
    (∀ c rest, s.cas.couches = c :: rest → u.runLane c.stream = none →
      exec (.couchSwitch dt) s = .next u ∧
      (u.laneOf c.stream = none → exec (.couchStart dt) s = .next (u.couchEnd c 2)) ∧
      (∀ k y, u.laneOf c.stream = some (k, y) → exec (.couchStart dt) s = .next
        ((((mget {} s.cas.remote k).panels.foldl (fun (s : State) p => s.seamCtl p 20 [c.stream, c.panel, c.serial]) u) : State).couchPassed c.stream))) ∧
    (∀ c rest l x, s.cas.couches = c :: rest → u.runLane c.stream = some (l, x) →
      let lost : Bool := !u.couchLink c && decide (c.phase < 3)
      let held : Bool := s.faults != [] || !u.idleBank
      let busy : Bool := !u.laneQuiet l || x.pass.isSome
      let due : Bool := c.phase == 3 && c.x != 0 && u.releasedTo c x
      (x.terminal.isSome = true → exec (.couchStart dt) s = .next (u.couchEnd c 2)) ∧
      (x.terminal = none → lost = true → exec (.couchStart dt) s = .next (u.couchEnd c (if c.phase = 0 then 3 else 2))) ∧
      (x.terminal = none → lost = false → c.phase = 0 → exec (.couchStart dt) s = .next (u.couchRound c l x true)) ∧
      (x.terminal = none → lost = false → c.phase = 1 → exec (.couchStart dt) s =
        .next (if held then u else if busy then u.holdLane l else u.couchHand c l x)) ∧
      (x.terminal = none → lost = false → 2 ≤ c.phase → exec (.couchStart dt) s = .next u) ∧
      exec (.couchSwitch dt) s = .next (if due then u.couchDone c l else u)) ∧
    (∀ b, let p := leAt b 4 1
      let form : Bool := b.length == 24 && sliceAt b 5 3 == [0, 0, 0] && (decide (p < 8) || p == 0xFF)
      let r := u.couchAdd (leAt b 0 4) p (leAt b 8 16) false
      exec (.cascadeCouchCmd dt b) s = .next (if form then r.1.odSet oCascadePanelCouch (if r.2 then 1 else 2) else u)) ∧
    (s.cas.levelDue = none → exec (.cascadeLevelChange dt) s = .next u) ∧
    (∀ lvl t, s.cas.levelDue = some (lvl, t) → exec (.cascadeLevelChange dt) s = .next (if t ≤ u.now ∧ u.inCascade = true
      then ((({ u with cas.levelDue := none } : State).odSet oCascadePanelLevel lvl).setLevels).cascadeEvent 10 u.panelNo 0xFF lvl 0 else u))

/-- POWER_ON (R474) of an unfed panel feeds it, records the hubs whose ROM failed and the bricks that work, and begins step 2; a fed panel
is unchanged. IMAGE_VERIFY (R430) of a fed panel that is OFF with a working hub and not in recovery reads the configuration store and
verifies the image; where both hubs' checks fail the panel enters image recovery; otherwise nothing. STANDBY_BUS_LOAD (R433) in
STANDBY, BRINGUP or RETIRED of a die neither running nor failed marks it running where it verifies, loading after a first and second
failure and failed after the third, in BRINGUP with what that means for the floor plan; otherwise nothing. BRINGUP_STEP of a complete
step below 14 applies the step's effect, publishes it and begins the next; otherwise nothing. READY_GATE (R446) at step 14 enters
READY where every condition holds and fails with the code of the first that does not; elsewhere nothing. BRINGUP_TIMEOUT (R446) fails
bring-up with 0x0107 600 s after its entry; otherwise nothing. -/
def Obligations.PowerOnAndReady : Prop :=
  ∀ (dt : Nat) (s : State),
    let u := s.tick dt
    (∀ romA romB bricks, s.boot.fed = false →
      let b : BootState := { s.boot with fed := true, badHubs := (if romA then [] else [0]) ++ (if romB then [] else [1]), startedAt := s.clk + dt }
      exec (.powerOn dt romA romB bricks) s =
        .next (((List.range 13).foldl (fun (s : State) i => s.odSet (oPowerBrickState i) (bit01 (bricks.testBit i))) { u with boot := b, poweredFrom := s.clk + dt }).beginStep 2)) ∧
    (∀ romA romB bricks, s.boot.fed = true → exec (.powerOn dt romA romB bricks) s = .next u) ∧
    (∀ a b c0 c1 p, let off : Bool := s.boot.fed && u.dev == 0 && !s.recovery && s.boot.badHubs.length != 2
      (off = true → exec (.imageVerify dt a b c0 c1 p) s = .next ((u.storeRead c0 c1).verifyImage a b p)) ∧
      (off = true → a = true → b = true → exec (.imageVerify dt a b c0 c1 p) s = .next { u.storeRead c0 c1 with recovery := true }) ∧
      (off = false → exec (.imageVerify dt a b c0 c1 p) s = .next u)) ∧
    (∀ fn : Fin 20, let o := oFwDieState (256 + fn.val)
      let n := mget 0 s.boot.loads fn.val
      let v : State := { u with boot := { s.boot with loads := mins s.boot.loads fn.val (n + 1) } }
      let open' : Bool := (u.dev == 1 || u.dev == 2 || u.dev == 6) && u.odGet o != 2 && u.odGet o != 3
      (open' = true → exec (.standbyBusLoad dt fn true) s = .next (v.odSet o 2)) ∧
      (open' = true → n < 2 → exec (.standbyBusLoad dt fn false) s = .next (v.odSet o 1)) ∧
      (open' = true → 2 ≤ n → exec (.standbyBusLoad dt fn false) s = .next (if u.dev = 2 then (v.odSet o 3).markKnown else v.odSet o 3)) ∧
      (open' = false → ∀ ok, exec (.standbyBusLoad dt fn ok) s = .next u)) ∧
    (∀ cal, let done : Bool := u.dev == 2 && decide (u.bootStep < 14) && u.stepDone
      (done = true → exec (.bringupStep dt cal) s = .next (((u.stepEffect cal).bootEvent 1 u.bootStep 0).beginStep (u.bootStep + 1))) ∧
      (done = false → exec (.bringupStep dt cal) s = .next u)) ∧
    (∀ a b,
      (u.dev = 2 → u.bootStep = 14 → exec (.readyGate dt a b) s =
        .next (match (u.readyConditions a b).find? (fun c => !c.2) with | some c => u.failBringup c.1 | none => u.enterReady)) ∧
      (u.dev ≠ 2 ∨ u.bootStep ≠ 14 → exec (.readyGate dt a b) s = .next u)) ∧
    (u.dev = 2 → s.boot.bringupAt + 600 * 10 ^ 9 ≤ s.clk + dt → exec (.bringupTimeout dt) s = .next (u.failBringup 0x0107)) ∧
    (u.dev ≠ 2 ∨ s.clk + dt < s.boot.bringupAt + 600 * 10 ^ 9 → exec (.bringupTimeout dt) s = .next u)

/-- DISCOVER (R436, R437) at step 7: a die found before is unchanged where it claims the same place and fails its place where not; a new
one takes the place that it claims, or none; elsewhere nothing. LINK_BER_CHECK (R438) at step 9 of a link between dies in service,
passable and not checked before, records the result; otherwise nothing. STACK_BRINGUP (R442) at step 11 or 12, once, of a stack in
service whose engine runs: a failure of training or test fails the site with cause 2, else the memory below the dump area reads zero
and the lane repairs are recorded; otherwise nothing. KNOWN_ANSWER_RUN (R443, R444) at step 12, once for each point, of a compute die
in service whose engine runs: raised trims are set, tiles that fail or stay low are noted, and a die that is bad or has fewer than 48
good tiles fails; otherwise nothing. FLOOR_PLAN_ASSEMBLY (R445) at step 13 publishes the first generation, once; otherwise nothing. -/
def Obligations.DiscoveryAndTests : Prop :=
  ∀ (dt : Nat) (s : State),
    let u := s.tick dt
    let at' : Nat → Bool := fun n => u.dev == 2 && u.bootStep == n
    (∀ (die : Fin 276) (edge : Fin 4) x y kind id peers,
      (at' 7 = false → exec (.discover dt die edge x y kind id peers) s = .next u) ∧
      (∀ f, at' 7 = true → mlook s.boot.found die.val = some f → exec (.discover dt die edge x y kind id peers) s =
        .next (if claim kind edge.val x y = some f.site then u else u.failFound f.site 4)) ∧
      (at' 7 = true → mlook s.boot.found die.val = none → exec (.discover dt die edge x y kind id peers) s =
        .next (match claim kind edge.val x y with | none => u | some n => u.takePlace die.val n edge.val kind id peers))) ∧
    (∀ link bits o i c c1 c2 ps,
      let due : Bool := linkExists link && at' 9 && u.linkLive link && !s.boot.berDone.contains link && u.linkPassable link
      (due = false → exec (.linkBerCheck dt link bits o i c (c1, c2) ps) s = .next u) ∧
      (due = true → exec (.linkBerCheck dt link bits o i c (c1, c2) ps) s = .next (u.berResult link bits o i c c1 c2 ps))) ∧
    (∀ (stack : Fin 32) trained tested n, let i := stack.val
      let g := stackSite i
      let due : Bool := (at' 11 || at' 12) && u.odGet (oFwDieState g) == 2 && !s.boot.stacksDone.contains i && u.live g
      let v : State := { u with boot := { s.boot with stacksDone := s.boot.stacksDone ++ [i] } }
      let m := memZero s.mem (gaddr (stackNode i) 0) (if v.isDumpStack i then dumpBase u.variant else stackBytesOf u.variant)
      (due = false → exec (.stackBringup dt stack trained tested n) s = .next u) ∧
      (due = true → trained = false ∨ tested = false → exec (.stackBringup dt stack trained tested n) s = .next (v.failSite g 2)) ∧
      (due = true → trained = true → tested = true → exec (.stackBringup dt stack trained tested n) s =
        .next (({ v with mem := m } : State).odSet (oStackUnitLaneRepairs i) n))) ∧
    (∀ (site : Fin 256) (point : Fin 3) bad raised dieBad, let g := site.val
      let had := mget [] s.boot.katDone g
      let due : Bool := isCompute g && at' 12 && u.live g && !had.contains point.val && u.odGet (oFwDieState g) == 2
      let v := raised.foldl (fun (s : State) (r : Nat × Nat × Bool) => if r.1 < 64 ∧ r.2.1 ≤ 63 then { s.setTrim (g * 64 + r.1) r.2.1 with storeDirty := true } else s) u
      let low := sumN (((raised.filter (fun r => r.2.2 && decide (r.1 < 64))).map (·.1)).eraseDups.map (2 ^ ·))
      let m := (u.katBad g ||| bad ||| low) % 2 ^ 64
      let w : State := { v with boot := { v.boot with katBad := mins v.boot.katBad g m, katDone := mins v.boot.katDone g (had ++ [point.val]) } }
      (due = false → exec (.knownAnswerRun dt site point bad raised dieBad) s = .next u) ∧
      (due = true → exec (.knownAnswerRun dt site point bad raised dieBad) s = .next (if dieBad = true ∨ 64 - popcount m 64 < 48 then w.failSite g 2 else w))) ∧
    (∀ pairs, let v := u.firstGeneration pairs
      (at' 13 = true → s.boot.assembled = false → exec (.floorPlanAssembly dt pairs) s = .next { v with boot := { v.boot with assembled := true } }) ∧
      (at' 13 = false ∨ s.boot.assembled = true → exec (.floorPlanAssembly dt pairs) s = .next u))

/-- FIRMWARE_BROADCAST (R439) at step 10, for a component not sent that the image has, marks its dies loading, counts it sent and sends
preamble and chunks by multicast; otherwise nothing. CHUNK_RECEIVED (R440) at step 10 by a die in service whose component the image
has: the preamble lands and is accepted once, where it is right; a chunk without preamble, past the end or already held changes
nothing; one whose hash is wrong is counted; one that is right lands, sets its bit, and completes the die where none is missing;
otherwise nothing. REPAIR_ROUND (R441) at step 10 with both components sent writes the missing counts and the duration; with chunks
missing it sends them again in up to four rounds, then fails the dies; otherwise nothing. ACTIVATE (R448) in STANDBY restarts through
step 2 with the sessions closed; otherwise only sessions that are due close. IMAGE_RECOVERY_COMMIT (R450) in recovery with a complete
image verifies it and boots, or keeps the error; otherwise nothing. -/
def Obligations.FirmwareToTheDies : Prop :=
  ∀ (dt : Nat) (s : State),
    let u := s.tick dt
    let at10 : Bool := u.dev == 2 && u.bootStep == 10
    (∀ (base : Bool), let kind := if base then 5 else 4
      (at10 = false ∨ s.boot.sent.contains kind = true ∨ fwCompOf s.boot.image kind = none → exec (.firmwareBroadcast dt base) s = .next u) ∧
      (∀ c, at10 = true → s.boot.sent.contains kind = false → fwCompOf s.boot.image kind = some c →
        let hub := hubNode u.leadHub
        let v := (u.fwDies kind).foldl (fun (s : State) g => s.odSet (oFwDieState g) 1) u
        let w : State := { v with boot := { v.boot with sent := v.boot.sent ++ [kind], broadcastAt := if v.boot.sent = [] then u.clk else v.boot.broadcastAt } }
        exec (.firmwareBroadcast dt base) s = .next (w.sendAll (fwWrite hub (fwGroup kind) 0x300000 (fwPreamble s.boot.image c) ++
          ((List.range c.count).map (fun i => fwWrite hub (fwGroup kind) (4096 * i) (fwChunk s.boot.image (c.first + i)))).flatten)))) ∧
    (∀ (site : Fin 256), let g := site.val
      let here : Bool := at10 && decide (siteKind g < 2) && u.live g
      (here = false ∨ fwCompOf s.boot.image (fwKindOf g) = none → ∀ n data, exec (.chunkReceived dt site n data) s = .next u) ∧
      (∀ c, here = true → fwCompOf s.boot.image (fwKindOf g) = some c →
        (∀ data, let v := u.putBytes (bootBuffer g) 0x300000 data
          exec (.chunkReceived dt site none data) s = .next (if data = fwPreamble s.boot.image c ∧ s.boot.preambles.contains g = false
            then { v with boot := { s.boot with preambles := s.boot.preambles ++ [g] } } else v)) ∧
        (∀ i data, let m := mget 0 s.chunks g
          let wanted : Bool := s.boot.preambles.contains g && decide (i < c.count) && !m.testBit i
          let v : State := { u.putBytes (bootBuffer g) (4096 * i) data with chunks := mins s.chunks g (setBit m i) }
          exec (.chunkReceived dt site (some i) data) s = .next (if wanted = false then u
            else if sha384 data ≠ fwDigest s.boot.image (c.first + i) then u.bump (oFwDieHashFailures g)
            else if v.fwMissing g = [] then ((v.odSet (oFwDieState g) 2).odSet (oFwDieRound g) s.boot.round).odSet (oFwDieMissing g) 0 else v)))) ∧
    (at10 = false ∨ s.boot.sent.length < 2 → exec (.repairRound dt) s = .next u) ∧
    (at10 = true → 2 ≤ s.boot.sent.length →
      let dies := u.fwDies 4 ++ u.fwDies 5
      let bad := dies.filter (fun g => u.fwMissing g != [])
      let v := (dies.foldl (fun (s : State) g => s.odSet (oFwDieMissing g) (s.fwMissing g).length) u).odSet oFwBroadcastDurationUs ((s.clk + dt - s.boot.broadcastAt) / 1000)
      let r := s.boot.round + 1
      exec (.repairRound dt) s = .next (if bad = [] then v
        else if 4 ≤ s.boot.round then
          (bad.foldl (fun (s : State) g => (s.failSite g 3).odSet (oFwDieState g) 3) v).odSet oFwBroadcastDiesFailed (v.odGet oFwBroadcastDiesFailed + bad.length)
        else (({ v with boot := { v.boot with round := r } }.odSet oFwBroadcastRounds r).repair 4).repair 5)) ∧
    (u.dev ≠ 1 → exec (.activate dt) s = .next u.closeDueNow) ∧
    (u.dev = 1 → ∃ t : State, exec (.activate dt) s = .next t.closeDueNow ∧ t.closeDue = s.sessions.map (·.id) ∧
      t.boot = { s.boot.renewed (s.clk + dt) with badHubs := [] }) ∧
    (∀ strap, s.recovery = false ∨ u.odGet oFwUpdateState ≠ 4 → exec (.imageRecoveryCommit dt strap) s = .next u) ∧
    (∀ strap, s.recovery = true → u.odGet oFwUpdateState = 4 → exec (.imageRecoveryCommit dt strap) s = .next (if u.fwFault s.boot.image = 0
      then (((u.closeAll (s.sessions.map (·.id)) 4).fwDrop.setFw 0 0).beginStep 2).verifyImage false false strap else u.setFw 5 (u.fwFault s.boot.image)))

/-- FW_BEGIN (R448) with no update under way, in a state that allows one: a length outside 6,381 bytes to 510 MiB reads error 7 and
refused, any other begins the update and empties what was staged; otherwise nothing. FW_IMAGE_WRITE (R448) of 1 to 1,024 bytes in such
a state: outside an update or past the announced length it reads refused, else the bytes are staged, the cursor moves and the update
progresses; otherwise nothing. FW_COMMIT (R448) in such a state: an incomplete update is refused, a complete one is under way, or done
at once where the image is written in place; otherwise nothing. FLASH_WRITE_DONE (R448) with a write under way makes the staged image
the image, or leaves none and error 8; otherwise nothing. FW_CANCEL (R448) in such a state empties an update that is receiving or
failed, and refuses where there is none; otherwise nothing. -/
def Obligations.FirmwareCommands : Prop :=
  ∀ (dt : Nat) (s : State),
    let u := s.tick dt
    let full : State := { u with boot := { s.boot with image := s.boot.staged } }
    let st := u.odGet oFwUpdateState
    let drop := fun (n : Nat) => ({ u.odSet oFwUpdateCursor 0 with boot := { s.boot with staged := [], chunksGood := 0, updLen := n } } : State)
    (∀ len, u.fwBusy = true ∨ u.fwState = false → exec (.fwBegin dt len) s = .next u) ∧
    (∀ len, u.fwBusy = false → u.fwState = true → exec (.fwBegin dt len) s =
      .next (if len < 6381 ∨ 510 * 2 ^ 20 < len then (u.setFw 5 7).fwStatus 2 else ((drop len).setFw 1 0).fwStatus 1)) ∧
    (∀ b, let may : Bool := b != [] && decide (b.length ≤ 1024) && u.fwState
      let v : State := { u with boot := { s.boot with staged := s.boot.staged ++ b } }
      (may = false → exec (.fwImageWrite dt b) s = .next u) ∧
      (may = true → exec (.fwImageWrite dt b) s = .next (if st ≠ 1 ∧ st ≠ 2 ∨ s.boot.updLen < s.boot.staged.length + b.length then u.odSet oFwUpdateImage 2
        else ((v.odSet oFwUpdateCursor (s.boot.staged ++ b).length).odSet oFwUpdateImage 0).fwProgress))) ∧
    (u.fwState = false → exec (.fwCommit dt) s = .next u ∧ exec (.fwCancel dt) s = .next u) ∧
    (u.fwState = true →
      (u.fwComplete = false → exec (.fwCommit dt) s = .next (u.fwStatus 2)) ∧
      (u.fwComplete = true → u.fwInPlace = false → exec (.fwCommit dt) s = .next ((u.setFw 3 0).fwStatus 1)) ∧
      (u.fwComplete = true → u.fwInPlace = true → exec (.fwCommit dt) s = .next ((full.setFw 4 0).fwStatus 3)) ∧
      (st = 1 ∨ st = 2 ∨ st = 5 → exec (.fwCancel dt) s = .next (((drop 0).setFw 0 0).fwStatus 0)) ∧
      (st ≠ 1 → st ≠ 2 → st ≠ 5 → exec (.fwCancel dt) s = .next (u.fwStatus 2))) ∧
    (st = 3 → exec (.flashWriteDone dt true) s = .next ((full.setFw 4 0).fwStatus 3) ∧
      exec (.flashWriteDone dt false) s = .next ((({ u with boot := { s.boot with image := [] } } : State).setFw 5 8).fwStatus 2)) ∧
    (st ≠ 3 → ∀ ok, exec (.flashWriteDone dt ok) s = .next u)

/-- COMMIT_VERSION (R449) in READY, SERVING or HELD fuses the running version, never lowering it, and refuses one above 64; otherwise
nothing. REVOKE (R430) at level FACTORY of a slot from 0 to 3 sets the key's bit; otherwise nothing. ATTEST_REQUEST (R455) outside
FATAL keeps the nonce and marks the request; in FATAL nothing. DUMP_TIME_LIMIT (R467) in FATAL, with a hub left, of a dump being
written and not at its last step, 10 s after the decision, ends it with what it has; in steps 5 to 7 that is every open section ended
as partial, the header completed with flag 3, the tiles in deep idle and event 3 published; otherwise nothing. DUMP_CLEAR (R471) while
a dump is being written changes nothing, and otherwise the dump reads none and event 6 is published. What power loss keeps (R474,
R480): the memory lists nothing, no tile runs, and the panel is unfed, while the store, the fuses, the waiting commands and, with no
flash write under way, the flash image stay. -/
def Obligations.VersionsAttestationAndDump : Prop :=
  ∀ (dt : Nat) (s : State),
    let u := s.tick dt
    let runs : Bool := u.dev == 3 || u.dev == 4 || u.dev == 5
    let v := u.odGet oFwRunningSecurityVersion
    let due : Bool := u.odGet oDumpState == 1 && u.dev == 7 && !s.hubsLost && decide (s.dump.decidedAt + 10 * 10 ^ 9 ≤ s.clk + dt) && decide (u.odGet oDumpProgressStep < 8)
    (runs = false → exec (.commitVersion dt) s = .next u) ∧
    (runs = true → exec (.commitVersion dt) s = .next (if 64 < v then u.fwStatus 2 else (u.odSet oFwFusedVersion (max v (u.odGet oFwFusedVersion))).fwStatus 3)) ∧
    (∀ level slot, 3 ≤ level → slot ≤ 3 → exec (.revoke dt level slot) s = .next ((u.odSet oFwKeys (setBit (u.odGet oFwKeys) slot)).fwStatus 3)) ∧
    (∀ level slot, level < 3 ∨ 3 < slot → exec (.revoke dt level slot) s = .next u) ∧
    (∀ nonce, u.dev ≠ 7 → exec (.attestRequest dt nonce) s = .next (({ u with boot := { s.boot with nonce := some nonce } } : State).odSet oSecAttestRequest 1)) ∧
    (∀ nonce, u.dev = 7 → exec (.attestRequest dt nonce) s = .next u) ∧
    (exec (.dumpTimeLimit dt) s = .next (if due then u.endDumpEarly else u)) ∧
    (5 ≤ u.odGet oDumpProgressStep →
      let w := ([1, 2, 3, 4, 5, 6 + s.dump.hub, 8, 10].filter (fun k => (mlook s.dump.sections k).isNone)).foldl (fun (s : State) k =>
        if s.sectionAbsent k then s else s.endSection k 2 []) (u.putDump statusAt u.statusBytes)
      u.endDumpEarly = ((w.finishHeader 8).idleAll.odSet oDumpState 3).dumpEvent 3 (w.odGet oDiagFatalCause)) ∧
    (u.odGet oDumpState = 1 → exec (.dumpClear dt) s = .next u) ∧
    (u.odGet oDumpState ≠ 1 → exec (.dumpClear dt) s = .next (((u.odSet oDumpState 0).odSet oDumpId 0).dumpEvent 6 (u.odGet oDiagFatalCause))) ∧
    (u.powerOff.mem = [] ∧ u.powerOff.tiles = [] ∧ u.powerOff.boot.fed = false ∧ u.powerOff.store0 = s.store0 ∧ u.powerOff.store1 = s.store1 ∧
      u.powerOff.boot.fused = s.boot.fused ∧ u.powerOff.pending = s.pending ∧ (u.odGet oFwUpdateState ≠ 3 → u.powerOff.boot.image = s.boot.image))

/-- For every tile, slot and state, whatever its operands hold, MATRIX_GROUP_FIRE, MATRIX_EMIT, VECTOR_FIRE, SCRATCHPAD_READ_FIRE,
PAGE_GATHER_FIRE, SWITCH_FIRE, MERGE_FIRE, GATE_FIRE, SPLIT_FIRE, JOIN_FIRE, ERROR_TOKEN_FIRE, MATCHING_STORE_MOVE, SLOT_SWITCH,
OUTBOUND_MAILBOX_FIRE and MAILBOX_RETRY leave every byte of memory, every other tile, every other tile's tags and every other part of
the panel as they were, but for what is in flight, the objects with their events, and the clock. SCRATCHPAD_WRITE_FIRE does the same
but for the 64 bytes of the one row that the token resolves to in its region (R134, R144); where no firing starts, or the access waits
or is a violation, it stores nothing. -/
def Obligations.FiringsKeepTheRest : Prop :=
  ∀ (dt k : Nat) (i : Fin 16) (n : Fin 4) (b : List (Fin 32 × Fin 5)) (s : State),
    let u := s.tick dt
    (∀ c ∈ [Instr.matrixGroupFire dt k i, .matrixEmit dt k ⟨i, b⟩, .vectorFire dt k ⟨i, b⟩, .scratchpadReadFire dt k i b, .pageGatherFire dt k i,
      .switchFire dt k i, .mergeFire dt k i, .gateFire dt k i, .splitFire dt k i, .joinFire dt k i, .errorTokenFire dt k i,
      .matchingStoreMove dt k i n, .slotSwitch dt k i, .outboundMailboxFire dt k i, .mailboxRetry dt k i],
      ∀ t, exec c s = .next t → OnlyTileWork k u t) ∧
    (∀ t, exec (.scratchpadWriteFire dt k i b) s = .next t →
      (u.startFire k i.val [4] = none → OnlyTileWork k u t) ∧
      (∀ x l, u.startFire k i.val [4] = some (x, l) →
        match (x.slot i.val).writeRow (x.region (uRegion (x.slot i.val).cur)) (trigOf l) with
        | .rows row _ => TileWorkAndBytes k k (64 * row) 64 u t
        | _ => OnlyTileWork k u t))

/-- For every tile and state, whether done or refused: FILL and COPY store to memory only the rows of their destination, RESTORE only the
rows that its image names; TAGSET, REGION_SET, COMMIT, ROLLBACK and SWAP store nothing (R131, R141, R146, R148, R151). Every other
byte of memory, every other tile, every other tile's tags and the rest of the panel are as they were, but for the objects with their
events, and the clock. SAVE stores only the image's bytes at its destination, and leaves every other byte and every other tile as it
was. -/
def Obligations.ScratchCommandsKeepTheRest : Prop :=
  ∀ (dt k : Nat) (e : Fin 32) (s t : State),
    let u := s.tick dt
    (∀ first n p f, exec (.scratchFill dt k first n p f) s = .next t → TileWorkAndBytes k k (64 * first) (64 * n) u t) ∧
    (∀ src dst n, exec (.scratchCopy dt k src dst n) s = .next t → TileWorkAndBytes k k (64 * dst) (64 * n) u t) ∧
    (∀ first n node off, exec (.scratchSave dt k first n node off) s = .next t →
      OtherTiles k u t ∧ BytesOutside node off (64 * saveRows n) u t) ∧
    (∀ node off, exec (.scratchRestore dt k node off) s = .next t →
      TileWorkAndBytes k k (64 * rowBytes (u.rowAt node off) 5 4) (64 * rowBytes (u.rowAt node off) 9 6) u t) ∧
    (∀ first n f p g0 g1, ∀ c ∈ [Instr.tagset dt k first n f, .regionSet dt k e g0 g1 p, .scratchCommit dt k e p, .scratchRollback dt k e,
      .scratchSwap dt k e], exec c s = .next t → OnlyTileWork k u t)

/-- For every sector and every site of it: sites 5 and 10 hold stacks; site 15 of sector 5, site 3 of sector 9, site 12 of sector 6 and
site 0 of sector 10, whose coordinates are the four central ones, hold the two hubs; every other site holds a compute die. Sectors 5,
6, 9 and 10 have 13 compute dies, each other sector 14, 220 in all. -/
def Obligations.SiteAssignment : Prop :=
  (∀ c : Fin 16, ∀ i : Fin 16, let g := c.val * 16 + i.val
    siteKind g = (if i.val = 5 ∨ i.val = 10 then 1 else if g = 95 ∨ g = 147 then 2 else if g = 108 ∨ g = 160 then 3 else 0) ∧
    siteX g = c.val % 4 * 4 + i.val % 4 ∧ siteY g = c.val / 4 * 4 + i.val / 4 ∧ (isCompute g = true ↔ siteKind g = 0)) ∧
  (siteAt 7 7 = 95 ∧ siteAt 7 8 = 147 ∧ siteAt 8 7 = 108 ∧ siteAt 8 8 = 160 ∧ 5 * 16 + 15 = 95 ∧ 9 * 16 + 3 = 147 ∧ 6 * 16 + 12 = 108 ∧ 10 * 16 + 0 = 160) ∧
  (∀ c : Fin 16, ((List.range 16).filter (fun i => isCompute (c.val * 16 + i))).length = if c.val = 5 ∨ c.val = 6 ∨ c.val = 9 ∨ c.val = 10 then 13 else 14) ∧
  ((List.range 256).filter isCompute).length = 220

/-- For every queue and watermark: the token that it shows to the unit bound under that watermark is exactly the one that no earlier token
of that watermark stands before. Tokens of another watermark put in front of it or behind it change nothing of what is shown. End-of-
configuration tokens belong to R110 and are shown there. -/
def Obligations.VisibleToken : Prop :=
  ∀ (q : Queue) (w : Fin 4),
    (∀ r, q.visible w = some r ↔ ∃ before after, q.toks = before ++ r :: after ∧ r.tok.wm = w ∧ r.tok.kind ≠ 3 ∧
      ∀ x ∈ before, ¬ (x.tok.wm = w ∧ x.tok.kind ≠ 3)) ∧
    (∀ a b, (∀ x ∈ a ++ b, x.tok.wm ≠ w) → ({ q with toks := a ++ q.toks ++ b } : Queue).visible w = q.visible w)

/-- For every state, session below FACTORY (level 3), index in areas 0xF0 to 0xFF and subindex: a READ's check answers LEVEL and no
object, and a WRITE of any bytes answers LEVEL and leaves the state as it was. -/
def Obligations.FactoryAreasAnswerLevel : Prop :=
  ∀ (s : State) (x : Session) (ix sub : Nat) (b : List Nat), 0xF00000 ≤ ix → ix ≤ 0xFFFFFF → x.level < 3 →
    s.readCheck x ix sub = (stLevel, none) ∧ s.writeEntry x.level ix sub b = (stLevel, s)

/-- THERMAL_RESISTANCE_SAMPLE of a sector that draws enough, with a baseline: the ratio that it publishes is the effective resistance (the
mean of the last 60 samples) divided by the baseline, in thousandths. The sector's state is DERATED (3) from 1.30 upwards, or while it
was DERATED and the ratio is at least 1.25; else WARNING (2) from 1.15 upwards, or while it was WARNING or DERATED and the ratio is at
least 1.10; else NORMAL (1). -/
def Obligations.ThermalRatioStates : Prop :=
  ∀ (dt : Nat) (c : Fin 16) (s : State), let i := c.val
    let u := s.tick dt
    let dies := (sectorDies i).filter u.dieActive
    let sum : Int := (dies.map (fun g => toSigned 32 (u.odGet (oThermalSiteTempMc g)))).foldl (· + ·) 0
    let mean := sum / (max dies.length 1 : Nat)
    let w := u.odGet (oPowerSectorPowerW i)
    let sample := ((mean - toSigned 32 (u.odGet oThermalPlateInletMc)) / (w : Int)).toNat
    let r := meanN (lastN 60 ((u.sector i).rSamples ++ [sample]))
    let base := u.odGet (oThermalSectorBaselineMkw i)
    let ratio := r * 1000 / base
    let old := u.odGet (oThermalSectorState i)
    u.stewardGood i = true → dies ≠ [] → w ≠ 0 → u.odGet (oPowerSectorCapA i) * 40 ≤ u.odGet (oPowerSectorCurrentA i) * 100 → base ≠ 0 →
    ∃ t, exec (.thermalResistanceSample dt c) s = .next t ∧
      t.odGet (oThermalSectorRatioMilli i) = min ratio 65535 ∧
      t.odGet (oThermalSectorState i) = (if 1300 ≤ ratio ∨ old = 3 ∧ 1250 ≤ ratio then 3 else if 1150 ≤ ratio ∨ 2 ≤ old ∧ 1100 ≤ ratio then 2 else 1)
end

