-- ==== Sys2Proof/Laws/Engine.lean ====
section
/-!
SUPPORT. What the shared entries of commands do, said once: a stack's engine with a packet, a host port with a datagram.
-/
namespace Sys2Proof.Machine
open Sys2Proof

theorem any_ne_zero (l : List Nat) : l.any (· != 0) = !l.all (· == 0) := by
  rw [List.not_all_eq_any_not]; congr 1

/-- A command that the engine takes runs, where the packet's source may send it (R192). -/
theorem State.engine_takes {dt : Nat} {p : Pkt} {i t used : Nat} {a : Nat → Bool} {run : Nat → State → State} {s : State}
    (h : EngineTakes dt p i t used s) : (s.tick dt).engine p t used a run =
      .next (if a i then run i ((s.tick dt).takePkt p) else ((s.tick dt).takePkt p).dropPkt p.dest p causeFirmwareOnly 0) := by
  obtain ⟨e1, e2, e3, e4, e5, e6, e7⟩ := h
  have o : (s.tick dt).inOrder p = true := e1
  have f : (((s.tick dt).takePkt p).stackUnit i).offline = false := e6
  have w : (p.op.drop used).any (· != 0) = false := by rw [any_ne_zero, e5]; rfl
  have q : ¬ (t ≠ 0x18 ∧ ((s.tick dt).takePkt p).clk < (((s.tick dt).takePkt p).stackUnit i).pauseUntil) := by
    rintro ⟨x, y⟩
    rcases e7 with e7 | e7
    · exact x e7
    · exact absurd y (Nat.not_lt.mpr e7)
  unfold State.engine
  simp only [o, Bool.not_true, Bool.false_eq_true, if_false, e2, e3, e4, w, f, ne_eq, not_true_eq_false, or_self]
  rw [if_neg q]
  cases a i <;> simp

/-- The packets that do not run the engine's command (R168, R192, R206, R207). -/
theorem State.engine_drops (dt : Nat) (p : Pkt) (t used : Nat) (a : Nat → Bool) (run : Nat → State → State) (s : State) :
    EngineDrops dt p t used a s ((s.tick dt).engine p t used a run) := by
  have o : ∀ b, s.inOrder p = b → (s.tick dt).inOrder p = b := fun _ h => h
  refine ⟨?_, ?_, ?_, ?_⟩
  · intro h
    unfold State.engine
    simp only [o _ h, Bool.not_false, if_true]
  · intro c h h2
    unfold State.engine
    simp only [o _ h, h2, Bool.not_true, Bool.false_eq_true, if_false]
  · intro h h2 h3
    unfold State.engine
    simp only [o _ h, h2, Bool.not_true, Bool.false_eq_true, if_false, any_ne_zero]
    congr 1
    split
    · rename_i j f hj
      rw [if_pos]
      rcases h3 with h3 | h3 | h3
      · exact .inl (fun q => h3 j (q ▸ hj))
      · exact .inr (.inl h3)
      · exact .inr (.inr (by rw [h3]; rfl))
    · rfl
  · intro i h h2 h3 h4 h5
    have w : (p.op.drop used).any (· != 0) = false := by rw [any_ne_zero, h5]; rfl
    unfold State.engine
    simp only [o _ h, h2, h3, h4, w, Bool.not_true, Bool.false_eq_true, if_false, ne_eq, not_true_eq_false, or_self]
    refine ⟨fun h6 => ?_, fun h6 h7 h8 => ?_, fun h6 h7 h8 => ?_⟩
    · rw [if_pos (by exact h6)]
    · rw [if_neg (by rw [show (((s.tick dt).takePkt p).stackUnit i).offline = false from h6]; simp), if_pos (by exact ⟨h7, h8⟩)]
    · rw [if_neg (by rw [show (((s.tick dt).takePkt p).stackUnit i).offline = false from h6]; simp), if_neg]
      · simp [h8]
      · rintro ⟨x, y⟩
        rcases h7 with h7 | h7
        · exact x h7
        · exact absurd y (Nat.not_lt.mpr h7)

/-- A datagram that is taken is acted on (R274). -/
theorem State.rt_takes {dt : Nat} {d : Dgram} {t : Nat} {ok : List Nat → Bool} {run : Nat → Nat → Nat → List Nat → State → State} {s : State}
    (h : RtTakes dt d t ok s) : (s.tick dt).rt d t ok run =
      run (leAt d.body 4 4) (leAt d.body 8 4) (leAt d.body 14 1) (d.body.drop 32) (((s.tick dt).rtCount d).heard d.src (leAt d.body 4 4)) := by
  obtain ⟨h1, h2, h3, h4, h5, h6⟩ := h
  have u : (s.tick dt).hostUp d.port = true := h1
  have c : ¬ ((s.tick dt).inCascade = true ∧ (!(s.tick dt).cascadeMaster) = true) := by
    rintro ⟨x, y⟩
    rcases h2 with h2 | h2
    · rw [show (s.tick dt).inCascade = false from h2] at x; cases x
    · rw [show (s.tick dt).cascadeMaster = true from h2] at y; cases y
  unfold State.rt
  simp only [u, Bool.not_true, Bool.false_eq_true, if_false, h3, false_or, h5, h6]
  rw [if_neg c, if_neg (by simpa using h4)]

/-- A datagram that is not taken (R271, R272, R410). -/
theorem State.rt_drops (dt : Nat) (d : Dgram) (t : Nat) (ok : List Nat → Bool) (run : Nat → Nat → Nat → List Nat → State → State) (s : State) :
    RtDrops dt d t ok s (.next ((s.tick dt).rt d t ok run)) := by
  refine ⟨fun h => ?_, fun h h2 h3 => ?_, fun h h2 h3 => ?_⟩ <;> unfold State.rt <;>
    simp only [show (s.tick dt).hostUp d.port = _ from h, Bool.not_true, Bool.not_false, Bool.false_eq_true, if_false, if_true]
  · rw [if_pos (by simp [show (s.tick dt).inCascade = true from h2, show (s.tick dt).cascadeMaster = false from h3])]
  · rw [if_neg (by
      rintro ⟨x, y⟩
      rcases h2 with h2 | h2
      · rw [show (s.tick dt).inCascade = false from h2] at x; cases x
      · rw [show (s.tick dt).cascadeMaster = true from h2] at y; cases y)]
    split
    · rfl
    · rename_i q
      rw [if_pos]
      rcases h3 with h3 | h3 | h3 | h3
      · exact absurd (.inl h3) q
      · exact absurd (.inr h3) q
      · exact .inl (by simp [h3])
      · exact .inr (by simp [h3])

/-- A datagram that EOP takes is acted on (R292). -/
theorem State.eop_takes {dt : Nat} {d : Dgram} {k : Nat} {run : State → State} {s : State} (h : EopReaches dt d s) (h2 : eopHeadOk k d.body = true) :
    (s.tick dt).eop d k run = run (eopCounted dt d s) := by
  obtain ⟨h3, h4, h5⟩ := h
  unfold State.eop
  by_cases q : d.port < 16
  · obtain ⟨a, b, c⟩ := h4 q
    rw [if_neg (by omega), if_neg (by simpa using (show (s.tick dt).hostUp d.port = true from a))]
    simp only [eopCounted, if_pos q] at c h5 ⊢
    rw [if_neg (by rw [b]; simpa using c), if_neg (by simp [h5]), if_neg (by simp [h2])]
  · simp only [eopCounted, if_neg q] at h5 ⊢
    rw [if_pos (by omega), if_neg (by rintro (x | x); exact x (h3 (by omega)); simp [h5] at x), if_neg (by simp [h2])]

/-- A session's oldest request with the op is taken from its queue and served (R302). -/
theorem State.serve_takes {s : State} {id op : Nat} {run : State → Session → Nat → List Nat → State} {x : Session} {pt : List Nat}
    {t : List (List Nat)} (h : s.session id = some x) (h2 : x.inbox = pt :: t) (h3 : leAt pt 0 1 = op) :
    s.serve id op run = run (s.setSession { x with inbox := t }) { x with inbox := t } (leAt pt 4 4) (pt.drop 8) := by
  unfold State.serve; rw [h]; simp only [h2]; rw [if_neg (by simp [h3])]

/-- A session that does not ask for it has nothing served. -/
theorem State.serve_idle {s : State} {id op : Nat} {run : State → Session → Nat → List Nat → State} (h : asksFor s id op = false) :
    s.serve id op run = s := by
  unfold State.serve
  unfold asksFor at h
  cases hx : s.session id with
  | none => rfl
  | some x =>
    rw [hx] at h
    cases hi : x.inbox with
    | nil => simp only [hi]
    | cons pt t =>
      simp only [hi] at h ⊢
      rw [if_pos (by simpa using h)]

end Sys2Proof.Machine
end

