-- ==== Sys2Proof/Laws/State.lean ====
section
/-!
SUPPORT. What each update of the state leaves alone: one lemma for each field and each update, true by rfl.
-/
namespace Sys2Proof.Machine

variable (s : State)

-- tick changes the clock alone.
@[simp] theorem State.tick_tbOn (dt : Nat) : (s.tick dt).tbOn = s.tbOn := rfl
@[simp] theorem State.tick_tbBase (dt : Nat) : (s.tick dt).tbBase = s.tbBase := rfl
@[simp] theorem State.tick_freeCtr (dt : Nat) : (s.tick dt).freeCtr = s.freeCtr := rfl
@[simp] theorem State.tick_pending (dt : Nat) : (s.tick dt).pending = s.pending := rfl
@[simp] theorem State.tick_out (dt : Nat) : (s.tick dt).out = s.out := rfl
@[simp] theorem State.tick_mem (dt : Nat) : (s.tick dt).mem = s.mem := rfl
@[simp] theorem State.tick_tags (dt : Nat) : (s.tick dt).tags = s.tags := rfl
@[simp] theorem State.tick_od (dt : Nat) : (s.tick dt).od = s.od := rfl
@[simp] theorem State.tick_events (dt : Nat) : (s.tick dt).events = s.events := rfl
@[simp] theorem State.tick_nextEvent (dt : Nat) : (s.tick dt).nextEvent = s.nextEvent := rfl
@[simp] theorem State.tick_lastEvent (dt : Nat) : (s.tick dt).lastEvent = s.lastEvent := rfl
@[simp] theorem State.tick_satSet (dt : Nat) : (s.tick dt).satSet = s.satSet := rfl
@[simp] theorem State.tick_satList (dt : Nat) : (s.tick dt).satList = s.satList := rfl
@[simp] theorem State.tick_tiles (dt : Nat) : (s.tick dt).tiles = s.tiles := rfl
@[simp] theorem State.tick_bank0 (dt : Nat) : (s.tick dt).bank0 = s.bank0 := rfl
@[simp] theorem State.tick_bank1 (dt : Nat) : (s.tick dt).bank1 = s.bank1 := rfl
@[simp] theorem State.tick_links (dt : Nat) : (s.tick dt).links = s.links := rfl
@[simp] theorem State.tick_mboxes (dt : Nat) : (s.tick dt).mboxes = s.mboxes := rfl
@[simp] theorem State.tick_scanRows (dt : Nat) : (s.tick dt).scanRows = s.scanRows := rfl
@[simp] theorem State.tick_chunks (dt : Nat) : (s.tick dt).chunks = s.chunks := rfl
@[simp] theorem State.tick_floorDue (dt : Nat) : (s.tick dt).floorDue = s.floorDue := rfl
@[simp] theorem State.tick_noticesA (dt : Nat) : (s.tick dt).noticesA = s.noticesA := rfl
@[simp] theorem State.tick_noticesB (dt : Nat) : (s.tick dt).noticesB = s.noticesB := rfl
@[simp] theorem State.tick_noticesOut (dt : Nat) : (s.tick dt).noticesOut = s.noticesOut := rfl
@[simp] theorem State.tick_backoffs (dt : Nat) : (s.tick dt).backoffs = s.backoffs := rfl
@[simp] theorem State.tick_fences (dt : Nat) : (s.tick dt).fences = s.fences := rfl
@[simp] theorem State.tick_fenceQueue (dt : Nat) : (s.tick dt).fenceQueue = s.fenceQueue := rfl
@[simp] theorem State.tick_laneLife (dt : Nat) : (s.tick dt).laneLife = s.laneLife := rfl
@[simp] theorem State.tick_abortDue (dt : Nat) : (s.tick dt).abortDue = s.abortDue := rfl
@[simp] theorem State.tick_heldLanes (dt : Nat) : (s.tick dt).heldLanes = s.heldLanes := rfl
@[simp] theorem State.tick_pslots (dt : Nat) : (s.tick dt).pslots = s.pslots := rfl
@[simp] theorem State.tick_lanes (dt : Nat) : (s.tick dt).lanes = s.lanes := rfl
@[simp] theorem State.tick_queue (dt : Nat) : (s.tick dt).queue = s.queue := rfl
@[simp] theorem State.tick_terms (dt : Nat) : (s.tick dt).terms = s.terms := rfl
@[simp] theorem State.tick_staging (dt : Nat) : (s.tick dt).staging = s.staging := rfl
@[simp] theorem State.tick_hostPorts (dt : Nat) : (s.tick dt).hostPorts = s.hostPorts := rfl
@[simp] theorem State.tick_ceRecs (dt : Nat) : (s.tick dt).ceRecs = s.ceRecs := rfl
@[simp] theorem State.tick_cages (dt : Nat) : (s.tick dt).cages = s.cages := rfl
@[simp] theorem State.tick_ptpCur (dt : Nat) : (s.tick dt).ptpCur = s.ptpCur := rfl
@[simp] theorem State.tick_fenceHist (dt : Nat) : (s.tick dt).fenceHist = s.fenceHist := rfl
@[simp] theorem State.tick_nodeLogs (dt : Nat) : (s.tick dt).nodeLogs = s.nodeLogs := rfl
@[simp] theorem State.tick_nextTxn (dt : Nat) : (s.tick dt).nextTxn = s.nextTxn := rfl
@[simp] theorem State.tick_kv (dt : Nat) : (s.tick dt).kv = s.kv := rfl
@[simp] theorem State.tick_groupEnts (dt : Nat) : (s.tick dt).groupEnts = s.groupEnts := rfl
@[simp] theorem State.tick_pgroups (dt : Nat) : (s.tick dt).pgroups = s.pgroups := rfl
@[simp] theorem State.tick_allocs (dt : Nat) : (s.tick dt).allocs = s.allocs := rfl
@[simp] theorem State.tick_faults (dt : Nat) : (s.tick dt).faults = s.faults := rfl
@[simp] theorem State.tick_evac (dt : Nat) : (s.tick dt).evac = s.evac := rfl
@[simp] theorem State.tick_rebalDue (dt : Nat) : (s.tick dt).rebalDue = s.rebalDue := rfl
@[simp] theorem State.tick_fullDue (dt : Nat) : (s.tick dt).fullDue = s.fullDue := rfl
@[simp] theorem State.tick_staleDies (dt : Nat) : (s.tick dt).staleDies = s.staleDies := rfl
@[simp] theorem State.tick_sparesChosen (dt : Nat) : (s.tick dt).sparesChosen = s.sparesChosen := rfl
@[simp] theorem State.tick_slowSince (dt : Nat) : (s.tick dt).slowSince = s.slowSince := rfl
@[simp] theorem State.tick_wakeWaiting (dt : Nat) : (s.tick dt).wakeWaiting = s.wakeWaiting := rfl
@[simp] theorem State.tick_eopParts (dt : Nat) : (s.tick dt).eopParts = s.eopParts := rfl
@[simp] theorem State.tick_halfOpen (dt : Nat) : (s.tick dt).halfOpen = s.halfOpen := rfl
@[simp] theorem State.tick_sessions (dt : Nat) : (s.tick dt).sessions = s.sessions := rfl
@[simp] theorem State.tick_refusedAt (dt : Nat) : (s.tick dt).refusedAt = s.refusedAt := rfl
@[simp] theorem State.tick_eopDiscards (dt : Nat) : (s.tick dt).eopDiscards = s.eopDiscards := rfl
@[simp] theorem State.tick_protoLog (dt : Nat) : (s.tick dt).protoLog = s.protoLog := rfl
@[simp] theorem State.tick_closeDue (dt : Nat) : (s.tick dt).closeDue = s.closeDue := rfl
@[simp] theorem State.tick_mgmtDue (dt : Nat) : (s.tick dt).mgmtDue = s.mgmtDue := rfl
@[simp] theorem State.tick_quorumTaken (dt : Nat) : (s.tick dt).quorumTaken = s.quorumTaken := rfl
@[simp] theorem State.tick_quorumQueue (dt : Nat) : (s.tick dt).quorumQueue = s.quorumQueue := rfl
@[simp] theorem State.tick_readyAt (dt : Nat) : (s.tick dt).readyAt = s.readyAt := rfl
@[simp] theorem State.tick_store0 (dt : Nat) : (s.tick dt).store0 = s.store0 := rfl
@[simp] theorem State.tick_store1 (dt : Nat) : (s.tick dt).store1 = s.store1 := rfl
@[simp] theorem State.tick_storeDirty (dt : Nat) : (s.tick dt).storeDirty = s.storeDirty := rfl
@[simp] theorem State.tick_recovery (dt : Nat) : (s.tick dt).recovery = s.recovery := rfl
@[simp] theorem State.tick_sectors (dt : Nat) : (s.tick dt).sectors = s.sectors := rfl
@[simp] theorem State.tick_spots (dt : Nat) : (s.tick dt).spots = s.spots := rfl
@[simp] theorem State.tick_dieTherm (dt : Nat) : (s.tick dt).dieTherm = s.dieTherm := rfl
@[simp] theorem State.tick_ramps (dt : Nat) : (s.tick dt).ramps = s.ramps := rfl
@[simp] theorem State.tick_rejoin (dt : Nat) : (s.tick dt).rejoin = s.rejoin := rfl
@[simp] theorem State.tick_watts (dt : Nat) : (s.tick dt).watts = s.watts := rfl
@[simp] theorem State.tick_ceilingAt (dt : Nat) : (s.tick dt).ceilingAt = s.ceilingAt := rfl
@[simp] theorem State.tick_tripped (dt : Nat) : (s.tick dt).tripped = s.tripped := rfl
@[simp] theorem State.tick_coolWarn (dt : Nat) : (s.tick dt).coolWarn = s.coolWarn := rfl
@[simp] theorem State.tick_coolFrom (dt : Nat) : (s.tick dt).coolFrom = s.coolFrom := rfl
@[simp] theorem State.tick_margins (dt : Nat) : (s.tick dt).margins = s.margins := rfl
@[simp] theorem State.tick_lowTiles (dt : Nat) : (s.tick dt).lowTiles = s.lowTiles := rfl
@[simp] theorem State.tick_factoryTrims (dt : Nat) : (s.tick dt).factoryTrims = s.factoryTrims := rfl
@[simp] theorem State.tick_floorTaken (dt : Nat) : (s.tick dt).floorTaken = s.floorTaken := rfl
@[simp] theorem State.tick_weakLanes (dt : Nat) : (s.tick dt).weakLanes = s.weakLanes := rfl
@[simp] theorem State.tick_eccRates (dt : Nat) : (s.tick dt).eccRates = s.eccRates := rfl
@[simp] theorem State.tick_marginPlan (dt : Nat) : (s.tick dt).marginPlan = s.marginPlan := rfl
@[simp] theorem State.tick_ageHistory (dt : Nat) : (s.tick dt).ageHistory = s.ageHistory := rfl
@[simp] theorem State.tick_poweredFrom (dt : Nat) : (s.tick dt).poweredFrom = s.poweredFrom := rfl
@[simp] theorem State.tick_beats (dt : Nat) : (s.tick dt).beats = s.beats := rfl
@[simp] theorem State.tick_hubMiss (dt : Nat) : (s.tick dt).hubMiss = s.hubMiss := rfl
@[simp] theorem State.tick_offMiss (dt : Nat) : (s.tick dt).offMiss = s.offMiss := rfl
@[simp] theorem State.tick_transientAt (dt : Nat) : (s.tick dt).transientAt = s.transientAt := rfl
@[simp] theorem State.tick_resent (dt : Nat) : (s.tick dt).resent = s.resent := rfl
@[simp] theorem State.tick_bgViol (dt : Nat) : (s.tick dt).bgViol = s.bgViol := rfl
@[simp] theorem State.tick_bgFrom (dt : Nat) : (s.tick dt).bgFrom = s.bgFrom := rfl
@[simp] theorem State.tick_bgHoldUntil (dt : Nat) : (s.tick dt).bgHoldUntil = s.bgHoldUntil := rfl
@[simp] theorem State.tick_bgHolds (dt : Nat) : (s.tick dt).bgHolds = s.bgHolds := rfl
@[simp] theorem State.tick_faultLog (dt : Nat) : (s.tick dt).faultLog = s.faultLog := rfl
@[simp] theorem State.tick_hubsLost (dt : Nat) : (s.tick dt).hubsLost = s.hubsLost := rfl
@[simp] theorem State.tick_stackRecs (dt : Nat) : (s.tick dt).stackRecs = s.stackRecs := rfl
@[simp] theorem State.tick_cas (dt : Nat) : (s.tick dt).cas = s.cas := rfl
@[simp] theorem State.tick_boot (dt : Nat) : (s.tick dt).boot = s.boot := rfl
@[simp] theorem State.tick_dump (dt : Nat) : (s.tick dt).dump = s.dump := rfl

-- odSet changes the object table alone.
@[simp] theorem State.odSet_clk (a v : Nat) : (s.odSet a v).clk = s.clk := rfl
@[simp] theorem State.odSet_tbOn (a v : Nat) : (s.odSet a v).tbOn = s.tbOn := rfl
@[simp] theorem State.odSet_tbBase (a v : Nat) : (s.odSet a v).tbBase = s.tbBase := rfl
@[simp] theorem State.odSet_freeCtr (a v : Nat) : (s.odSet a v).freeCtr = s.freeCtr := rfl
@[simp] theorem State.odSet_pending (a v : Nat) : (s.odSet a v).pending = s.pending := rfl
@[simp] theorem State.odSet_out (a v : Nat) : (s.odSet a v).out = s.out := rfl
@[simp] theorem State.odSet_mem (a v : Nat) : (s.odSet a v).mem = s.mem := rfl
@[simp] theorem State.odSet_tags (a v : Nat) : (s.odSet a v).tags = s.tags := rfl
@[simp] theorem State.odSet_events (a v : Nat) : (s.odSet a v).events = s.events := rfl
@[simp] theorem State.odSet_nextEvent (a v : Nat) : (s.odSet a v).nextEvent = s.nextEvent := rfl
@[simp] theorem State.odSet_lastEvent (a v : Nat) : (s.odSet a v).lastEvent = s.lastEvent := rfl
@[simp] theorem State.odSet_satSet (a v : Nat) : (s.odSet a v).satSet = s.satSet := rfl
@[simp] theorem State.odSet_satList (a v : Nat) : (s.odSet a v).satList = s.satList := rfl
@[simp] theorem State.odSet_tiles (a v : Nat) : (s.odSet a v).tiles = s.tiles := rfl
@[simp] theorem State.odSet_bank0 (a v : Nat) : (s.odSet a v).bank0 = s.bank0 := rfl
@[simp] theorem State.odSet_bank1 (a v : Nat) : (s.odSet a v).bank1 = s.bank1 := rfl
@[simp] theorem State.odSet_links (a v : Nat) : (s.odSet a v).links = s.links := rfl
@[simp] theorem State.odSet_mboxes (a v : Nat) : (s.odSet a v).mboxes = s.mboxes := rfl
@[simp] theorem State.odSet_scanRows (a v : Nat) : (s.odSet a v).scanRows = s.scanRows := rfl
@[simp] theorem State.odSet_chunks (a v : Nat) : (s.odSet a v).chunks = s.chunks := rfl
@[simp] theorem State.odSet_floorDue (a v : Nat) : (s.odSet a v).floorDue = s.floorDue := rfl
@[simp] theorem State.odSet_noticesA (a v : Nat) : (s.odSet a v).noticesA = s.noticesA := rfl
@[simp] theorem State.odSet_noticesB (a v : Nat) : (s.odSet a v).noticesB = s.noticesB := rfl
@[simp] theorem State.odSet_noticesOut (a v : Nat) : (s.odSet a v).noticesOut = s.noticesOut := rfl
@[simp] theorem State.odSet_backoffs (a v : Nat) : (s.odSet a v).backoffs = s.backoffs := rfl
@[simp] theorem State.odSet_fences (a v : Nat) : (s.odSet a v).fences = s.fences := rfl
@[simp] theorem State.odSet_fenceQueue (a v : Nat) : (s.odSet a v).fenceQueue = s.fenceQueue := rfl
@[simp] theorem State.odSet_laneLife (a v : Nat) : (s.odSet a v).laneLife = s.laneLife := rfl
@[simp] theorem State.odSet_abortDue (a v : Nat) : (s.odSet a v).abortDue = s.abortDue := rfl
@[simp] theorem State.odSet_heldLanes (a v : Nat) : (s.odSet a v).heldLanes = s.heldLanes := rfl
@[simp] theorem State.odSet_pslots (a v : Nat) : (s.odSet a v).pslots = s.pslots := rfl
@[simp] theorem State.odSet_lanes (a v : Nat) : (s.odSet a v).lanes = s.lanes := rfl
@[simp] theorem State.odSet_queue (a v : Nat) : (s.odSet a v).queue = s.queue := rfl
@[simp] theorem State.odSet_terms (a v : Nat) : (s.odSet a v).terms = s.terms := rfl
@[simp] theorem State.odSet_staging (a v : Nat) : (s.odSet a v).staging = s.staging := rfl
@[simp] theorem State.odSet_hostPorts (a v : Nat) : (s.odSet a v).hostPorts = s.hostPorts := rfl
@[simp] theorem State.odSet_ceRecs (a v : Nat) : (s.odSet a v).ceRecs = s.ceRecs := rfl
@[simp] theorem State.odSet_cages (a v : Nat) : (s.odSet a v).cages = s.cages := rfl
@[simp] theorem State.odSet_ptpCur (a v : Nat) : (s.odSet a v).ptpCur = s.ptpCur := rfl
@[simp] theorem State.odSet_fenceHist (a v : Nat) : (s.odSet a v).fenceHist = s.fenceHist := rfl
@[simp] theorem State.odSet_nodeLogs (a v : Nat) : (s.odSet a v).nodeLogs = s.nodeLogs := rfl
@[simp] theorem State.odSet_nextTxn (a v : Nat) : (s.odSet a v).nextTxn = s.nextTxn := rfl
@[simp] theorem State.odSet_kv (a v : Nat) : (s.odSet a v).kv = s.kv := rfl
@[simp] theorem State.odSet_groupEnts (a v : Nat) : (s.odSet a v).groupEnts = s.groupEnts := rfl
@[simp] theorem State.odSet_pgroups (a v : Nat) : (s.odSet a v).pgroups = s.pgroups := rfl
@[simp] theorem State.odSet_allocs (a v : Nat) : (s.odSet a v).allocs = s.allocs := rfl
@[simp] theorem State.odSet_faults (a v : Nat) : (s.odSet a v).faults = s.faults := rfl
@[simp] theorem State.odSet_evac (a v : Nat) : (s.odSet a v).evac = s.evac := rfl
@[simp] theorem State.odSet_rebalDue (a v : Nat) : (s.odSet a v).rebalDue = s.rebalDue := rfl
@[simp] theorem State.odSet_fullDue (a v : Nat) : (s.odSet a v).fullDue = s.fullDue := rfl
@[simp] theorem State.odSet_staleDies (a v : Nat) : (s.odSet a v).staleDies = s.staleDies := rfl
@[simp] theorem State.odSet_sparesChosen (a v : Nat) : (s.odSet a v).sparesChosen = s.sparesChosen := rfl
@[simp] theorem State.odSet_slowSince (a v : Nat) : (s.odSet a v).slowSince = s.slowSince := rfl
@[simp] theorem State.odSet_wakeWaiting (a v : Nat) : (s.odSet a v).wakeWaiting = s.wakeWaiting := rfl
@[simp] theorem State.odSet_eopParts (a v : Nat) : (s.odSet a v).eopParts = s.eopParts := rfl
@[simp] theorem State.odSet_halfOpen (a v : Nat) : (s.odSet a v).halfOpen = s.halfOpen := rfl
@[simp] theorem State.odSet_sessions (a v : Nat) : (s.odSet a v).sessions = s.sessions := rfl
@[simp] theorem State.odSet_refusedAt (a v : Nat) : (s.odSet a v).refusedAt = s.refusedAt := rfl
@[simp] theorem State.odSet_eopDiscards (a v : Nat) : (s.odSet a v).eopDiscards = s.eopDiscards := rfl
@[simp] theorem State.odSet_protoLog (a v : Nat) : (s.odSet a v).protoLog = s.protoLog := rfl
@[simp] theorem State.odSet_closeDue (a v : Nat) : (s.odSet a v).closeDue = s.closeDue := rfl
@[simp] theorem State.odSet_mgmtDue (a v : Nat) : (s.odSet a v).mgmtDue = s.mgmtDue := rfl
@[simp] theorem State.odSet_quorumTaken (a v : Nat) : (s.odSet a v).quorumTaken = s.quorumTaken := rfl
@[simp] theorem State.odSet_quorumQueue (a v : Nat) : (s.odSet a v).quorumQueue = s.quorumQueue := rfl
@[simp] theorem State.odSet_readyAt (a v : Nat) : (s.odSet a v).readyAt = s.readyAt := rfl
@[simp] theorem State.odSet_store0 (a v : Nat) : (s.odSet a v).store0 = s.store0 := rfl
@[simp] theorem State.odSet_store1 (a v : Nat) : (s.odSet a v).store1 = s.store1 := rfl
@[simp] theorem State.odSet_storeDirty (a v : Nat) : (s.odSet a v).storeDirty = s.storeDirty := rfl
@[simp] theorem State.odSet_recovery (a v : Nat) : (s.odSet a v).recovery = s.recovery := rfl
@[simp] theorem State.odSet_sectors (a v : Nat) : (s.odSet a v).sectors = s.sectors := rfl
@[simp] theorem State.odSet_spots (a v : Nat) : (s.odSet a v).spots = s.spots := rfl
@[simp] theorem State.odSet_dieTherm (a v : Nat) : (s.odSet a v).dieTherm = s.dieTherm := rfl
@[simp] theorem State.odSet_ramps (a v : Nat) : (s.odSet a v).ramps = s.ramps := rfl
@[simp] theorem State.odSet_rejoin (a v : Nat) : (s.odSet a v).rejoin = s.rejoin := rfl
@[simp] theorem State.odSet_watts (a v : Nat) : (s.odSet a v).watts = s.watts := rfl
@[simp] theorem State.odSet_ceilingAt (a v : Nat) : (s.odSet a v).ceilingAt = s.ceilingAt := rfl
@[simp] theorem State.odSet_tripped (a v : Nat) : (s.odSet a v).tripped = s.tripped := rfl
@[simp] theorem State.odSet_coolWarn (a v : Nat) : (s.odSet a v).coolWarn = s.coolWarn := rfl
@[simp] theorem State.odSet_coolFrom (a v : Nat) : (s.odSet a v).coolFrom = s.coolFrom := rfl
@[simp] theorem State.odSet_margins (a v : Nat) : (s.odSet a v).margins = s.margins := rfl
@[simp] theorem State.odSet_lowTiles (a v : Nat) : (s.odSet a v).lowTiles = s.lowTiles := rfl
@[simp] theorem State.odSet_factoryTrims (a v : Nat) : (s.odSet a v).factoryTrims = s.factoryTrims := rfl
@[simp] theorem State.odSet_floorTaken (a v : Nat) : (s.odSet a v).floorTaken = s.floorTaken := rfl
@[simp] theorem State.odSet_weakLanes (a v : Nat) : (s.odSet a v).weakLanes = s.weakLanes := rfl
@[simp] theorem State.odSet_eccRates (a v : Nat) : (s.odSet a v).eccRates = s.eccRates := rfl
@[simp] theorem State.odSet_marginPlan (a v : Nat) : (s.odSet a v).marginPlan = s.marginPlan := rfl
@[simp] theorem State.odSet_ageHistory (a v : Nat) : (s.odSet a v).ageHistory = s.ageHistory := rfl
@[simp] theorem State.odSet_poweredFrom (a v : Nat) : (s.odSet a v).poweredFrom = s.poweredFrom := rfl
@[simp] theorem State.odSet_beats (a v : Nat) : (s.odSet a v).beats = s.beats := rfl
@[simp] theorem State.odSet_hubMiss (a v : Nat) : (s.odSet a v).hubMiss = s.hubMiss := rfl
@[simp] theorem State.odSet_offMiss (a v : Nat) : (s.odSet a v).offMiss = s.offMiss := rfl
@[simp] theorem State.odSet_transientAt (a v : Nat) : (s.odSet a v).transientAt = s.transientAt := rfl
@[simp] theorem State.odSet_resent (a v : Nat) : (s.odSet a v).resent = s.resent := rfl
@[simp] theorem State.odSet_bgViol (a v : Nat) : (s.odSet a v).bgViol = s.bgViol := rfl
@[simp] theorem State.odSet_bgFrom (a v : Nat) : (s.odSet a v).bgFrom = s.bgFrom := rfl
@[simp] theorem State.odSet_bgHoldUntil (a v : Nat) : (s.odSet a v).bgHoldUntil = s.bgHoldUntil := rfl
@[simp] theorem State.odSet_bgHolds (a v : Nat) : (s.odSet a v).bgHolds = s.bgHolds := rfl
@[simp] theorem State.odSet_faultLog (a v : Nat) : (s.odSet a v).faultLog = s.faultLog := rfl
@[simp] theorem State.odSet_hubsLost (a v : Nat) : (s.odSet a v).hubsLost = s.hubsLost := rfl
@[simp] theorem State.odSet_stackRecs (a v : Nat) : (s.odSet a v).stackRecs = s.stackRecs := rfl
@[simp] theorem State.odSet_cas (a v : Nat) : (s.odSet a v).cas = s.cas := rfl
@[simp] theorem State.odSet_boot (a v : Nat) : (s.odSet a v).boot = s.boot := rfl
@[simp] theorem State.odSet_dump (a v : Nat) : (s.odSet a v).dump = s.dump := rfl

-- stageFloor changes the floor-plan fields that wait for the next generation alone.
@[simp] theorem State.stageFloor_clk (a v : Nat) : (s.stageFloor a v).clk = s.clk := rfl
@[simp] theorem State.stageFloor_tbOn (a v : Nat) : (s.stageFloor a v).tbOn = s.tbOn := rfl
@[simp] theorem State.stageFloor_tbBase (a v : Nat) : (s.stageFloor a v).tbBase = s.tbBase := rfl
@[simp] theorem State.stageFloor_freeCtr (a v : Nat) : (s.stageFloor a v).freeCtr = s.freeCtr := rfl
@[simp] theorem State.stageFloor_pending (a v : Nat) : (s.stageFloor a v).pending = s.pending := rfl
@[simp] theorem State.stageFloor_out (a v : Nat) : (s.stageFloor a v).out = s.out := rfl
@[simp] theorem State.stageFloor_mem (a v : Nat) : (s.stageFloor a v).mem = s.mem := rfl
@[simp] theorem State.stageFloor_tags (a v : Nat) : (s.stageFloor a v).tags = s.tags := rfl
@[simp] theorem State.stageFloor_od (a v : Nat) : (s.stageFloor a v).od = s.od := rfl
@[simp] theorem State.stageFloor_events (a v : Nat) : (s.stageFloor a v).events = s.events := rfl
@[simp] theorem State.stageFloor_nextEvent (a v : Nat) : (s.stageFloor a v).nextEvent = s.nextEvent := rfl
@[simp] theorem State.stageFloor_lastEvent (a v : Nat) : (s.stageFloor a v).lastEvent = s.lastEvent := rfl
@[simp] theorem State.stageFloor_satSet (a v : Nat) : (s.stageFloor a v).satSet = s.satSet := rfl
@[simp] theorem State.stageFloor_satList (a v : Nat) : (s.stageFloor a v).satList = s.satList := rfl
@[simp] theorem State.stageFloor_tiles (a v : Nat) : (s.stageFloor a v).tiles = s.tiles := rfl
@[simp] theorem State.stageFloor_bank0 (a v : Nat) : (s.stageFloor a v).bank0 = s.bank0 := rfl
@[simp] theorem State.stageFloor_bank1 (a v : Nat) : (s.stageFloor a v).bank1 = s.bank1 := rfl
@[simp] theorem State.stageFloor_links (a v : Nat) : (s.stageFloor a v).links = s.links := rfl
@[simp] theorem State.stageFloor_mboxes (a v : Nat) : (s.stageFloor a v).mboxes = s.mboxes := rfl
@[simp] theorem State.stageFloor_scanRows (a v : Nat) : (s.stageFloor a v).scanRows = s.scanRows := rfl
@[simp] theorem State.stageFloor_chunks (a v : Nat) : (s.stageFloor a v).chunks = s.chunks := rfl
@[simp] theorem State.stageFloor_noticesA (a v : Nat) : (s.stageFloor a v).noticesA = s.noticesA := rfl
@[simp] theorem State.stageFloor_noticesB (a v : Nat) : (s.stageFloor a v).noticesB = s.noticesB := rfl
@[simp] theorem State.stageFloor_noticesOut (a v : Nat) : (s.stageFloor a v).noticesOut = s.noticesOut := rfl
@[simp] theorem State.stageFloor_backoffs (a v : Nat) : (s.stageFloor a v).backoffs = s.backoffs := rfl
@[simp] theorem State.stageFloor_fences (a v : Nat) : (s.stageFloor a v).fences = s.fences := rfl
@[simp] theorem State.stageFloor_fenceQueue (a v : Nat) : (s.stageFloor a v).fenceQueue = s.fenceQueue := rfl
@[simp] theorem State.stageFloor_laneLife (a v : Nat) : (s.stageFloor a v).laneLife = s.laneLife := rfl
@[simp] theorem State.stageFloor_abortDue (a v : Nat) : (s.stageFloor a v).abortDue = s.abortDue := rfl
@[simp] theorem State.stageFloor_heldLanes (a v : Nat) : (s.stageFloor a v).heldLanes = s.heldLanes := rfl
@[simp] theorem State.stageFloor_pslots (a v : Nat) : (s.stageFloor a v).pslots = s.pslots := rfl
@[simp] theorem State.stageFloor_lanes (a v : Nat) : (s.stageFloor a v).lanes = s.lanes := rfl
@[simp] theorem State.stageFloor_queue (a v : Nat) : (s.stageFloor a v).queue = s.queue := rfl
@[simp] theorem State.stageFloor_terms (a v : Nat) : (s.stageFloor a v).terms = s.terms := rfl
@[simp] theorem State.stageFloor_staging (a v : Nat) : (s.stageFloor a v).staging = s.staging := rfl
@[simp] theorem State.stageFloor_hostPorts (a v : Nat) : (s.stageFloor a v).hostPorts = s.hostPorts := rfl
@[simp] theorem State.stageFloor_ceRecs (a v : Nat) : (s.stageFloor a v).ceRecs = s.ceRecs := rfl
@[simp] theorem State.stageFloor_cages (a v : Nat) : (s.stageFloor a v).cages = s.cages := rfl
@[simp] theorem State.stageFloor_ptpCur (a v : Nat) : (s.stageFloor a v).ptpCur = s.ptpCur := rfl
@[simp] theorem State.stageFloor_fenceHist (a v : Nat) : (s.stageFloor a v).fenceHist = s.fenceHist := rfl
@[simp] theorem State.stageFloor_nodeLogs (a v : Nat) : (s.stageFloor a v).nodeLogs = s.nodeLogs := rfl
@[simp] theorem State.stageFloor_nextTxn (a v : Nat) : (s.stageFloor a v).nextTxn = s.nextTxn := rfl
@[simp] theorem State.stageFloor_kv (a v : Nat) : (s.stageFloor a v).kv = s.kv := rfl
@[simp] theorem State.stageFloor_groupEnts (a v : Nat) : (s.stageFloor a v).groupEnts = s.groupEnts := rfl
@[simp] theorem State.stageFloor_pgroups (a v : Nat) : (s.stageFloor a v).pgroups = s.pgroups := rfl
@[simp] theorem State.stageFloor_allocs (a v : Nat) : (s.stageFloor a v).allocs = s.allocs := rfl
@[simp] theorem State.stageFloor_faults (a v : Nat) : (s.stageFloor a v).faults = s.faults := rfl
@[simp] theorem State.stageFloor_evac (a v : Nat) : (s.stageFloor a v).evac = s.evac := rfl
@[simp] theorem State.stageFloor_rebalDue (a v : Nat) : (s.stageFloor a v).rebalDue = s.rebalDue := rfl
@[simp] theorem State.stageFloor_fullDue (a v : Nat) : (s.stageFloor a v).fullDue = s.fullDue := rfl
@[simp] theorem State.stageFloor_staleDies (a v : Nat) : (s.stageFloor a v).staleDies = s.staleDies := rfl
@[simp] theorem State.stageFloor_sparesChosen (a v : Nat) : (s.stageFloor a v).sparesChosen = s.sparesChosen := rfl
@[simp] theorem State.stageFloor_slowSince (a v : Nat) : (s.stageFloor a v).slowSince = s.slowSince := rfl
@[simp] theorem State.stageFloor_wakeWaiting (a v : Nat) : (s.stageFloor a v).wakeWaiting = s.wakeWaiting := rfl
@[simp] theorem State.stageFloor_eopParts (a v : Nat) : (s.stageFloor a v).eopParts = s.eopParts := rfl
@[simp] theorem State.stageFloor_halfOpen (a v : Nat) : (s.stageFloor a v).halfOpen = s.halfOpen := rfl
@[simp] theorem State.stageFloor_sessions (a v : Nat) : (s.stageFloor a v).sessions = s.sessions := rfl
@[simp] theorem State.stageFloor_refusedAt (a v : Nat) : (s.stageFloor a v).refusedAt = s.refusedAt := rfl
@[simp] theorem State.stageFloor_eopDiscards (a v : Nat) : (s.stageFloor a v).eopDiscards = s.eopDiscards := rfl
@[simp] theorem State.stageFloor_protoLog (a v : Nat) : (s.stageFloor a v).protoLog = s.protoLog := rfl
@[simp] theorem State.stageFloor_closeDue (a v : Nat) : (s.stageFloor a v).closeDue = s.closeDue := rfl
@[simp] theorem State.stageFloor_mgmtDue (a v : Nat) : (s.stageFloor a v).mgmtDue = s.mgmtDue := rfl
@[simp] theorem State.stageFloor_quorumTaken (a v : Nat) : (s.stageFloor a v).quorumTaken = s.quorumTaken := rfl
@[simp] theorem State.stageFloor_quorumQueue (a v : Nat) : (s.stageFloor a v).quorumQueue = s.quorumQueue := rfl
@[simp] theorem State.stageFloor_readyAt (a v : Nat) : (s.stageFloor a v).readyAt = s.readyAt := rfl
@[simp] theorem State.stageFloor_store0 (a v : Nat) : (s.stageFloor a v).store0 = s.store0 := rfl
@[simp] theorem State.stageFloor_store1 (a v : Nat) : (s.stageFloor a v).store1 = s.store1 := rfl
@[simp] theorem State.stageFloor_storeDirty (a v : Nat) : (s.stageFloor a v).storeDirty = s.storeDirty := rfl
@[simp] theorem State.stageFloor_recovery (a v : Nat) : (s.stageFloor a v).recovery = s.recovery := rfl
@[simp] theorem State.stageFloor_sectors (a v : Nat) : (s.stageFloor a v).sectors = s.sectors := rfl
@[simp] theorem State.stageFloor_spots (a v : Nat) : (s.stageFloor a v).spots = s.spots := rfl
@[simp] theorem State.stageFloor_dieTherm (a v : Nat) : (s.stageFloor a v).dieTherm = s.dieTherm := rfl
@[simp] theorem State.stageFloor_ramps (a v : Nat) : (s.stageFloor a v).ramps = s.ramps := rfl
@[simp] theorem State.stageFloor_rejoin (a v : Nat) : (s.stageFloor a v).rejoin = s.rejoin := rfl
@[simp] theorem State.stageFloor_watts (a v : Nat) : (s.stageFloor a v).watts = s.watts := rfl
@[simp] theorem State.stageFloor_ceilingAt (a v : Nat) : (s.stageFloor a v).ceilingAt = s.ceilingAt := rfl
@[simp] theorem State.stageFloor_tripped (a v : Nat) : (s.stageFloor a v).tripped = s.tripped := rfl
@[simp] theorem State.stageFloor_coolWarn (a v : Nat) : (s.stageFloor a v).coolWarn = s.coolWarn := rfl
@[simp] theorem State.stageFloor_coolFrom (a v : Nat) : (s.stageFloor a v).coolFrom = s.coolFrom := rfl
@[simp] theorem State.stageFloor_margins (a v : Nat) : (s.stageFloor a v).margins = s.margins := rfl
@[simp] theorem State.stageFloor_lowTiles (a v : Nat) : (s.stageFloor a v).lowTiles = s.lowTiles := rfl
@[simp] theorem State.stageFloor_factoryTrims (a v : Nat) : (s.stageFloor a v).factoryTrims = s.factoryTrims := rfl
@[simp] theorem State.stageFloor_floorTaken (a v : Nat) : (s.stageFloor a v).floorTaken = s.floorTaken := rfl
@[simp] theorem State.stageFloor_weakLanes (a v : Nat) : (s.stageFloor a v).weakLanes = s.weakLanes := rfl
@[simp] theorem State.stageFloor_eccRates (a v : Nat) : (s.stageFloor a v).eccRates = s.eccRates := rfl
@[simp] theorem State.stageFloor_marginPlan (a v : Nat) : (s.stageFloor a v).marginPlan = s.marginPlan := rfl
@[simp] theorem State.stageFloor_ageHistory (a v : Nat) : (s.stageFloor a v).ageHistory = s.ageHistory := rfl
@[simp] theorem State.stageFloor_poweredFrom (a v : Nat) : (s.stageFloor a v).poweredFrom = s.poweredFrom := rfl
@[simp] theorem State.stageFloor_beats (a v : Nat) : (s.stageFloor a v).beats = s.beats := rfl
@[simp] theorem State.stageFloor_hubMiss (a v : Nat) : (s.stageFloor a v).hubMiss = s.hubMiss := rfl
@[simp] theorem State.stageFloor_offMiss (a v : Nat) : (s.stageFloor a v).offMiss = s.offMiss := rfl
@[simp] theorem State.stageFloor_transientAt (a v : Nat) : (s.stageFloor a v).transientAt = s.transientAt := rfl
@[simp] theorem State.stageFloor_resent (a v : Nat) : (s.stageFloor a v).resent = s.resent := rfl
@[simp] theorem State.stageFloor_bgViol (a v : Nat) : (s.stageFloor a v).bgViol = s.bgViol := rfl
@[simp] theorem State.stageFloor_bgFrom (a v : Nat) : (s.stageFloor a v).bgFrom = s.bgFrom := rfl
@[simp] theorem State.stageFloor_bgHoldUntil (a v : Nat) : (s.stageFloor a v).bgHoldUntil = s.bgHoldUntil := rfl
@[simp] theorem State.stageFloor_bgHolds (a v : Nat) : (s.stageFloor a v).bgHolds = s.bgHolds := rfl
@[simp] theorem State.stageFloor_faultLog (a v : Nat) : (s.stageFloor a v).faultLog = s.faultLog := rfl
@[simp] theorem State.stageFloor_hubsLost (a v : Nat) : (s.stageFloor a v).hubsLost = s.hubsLost := rfl
@[simp] theorem State.stageFloor_stackRecs (a v : Nat) : (s.stageFloor a v).stackRecs = s.stackRecs := rfl
@[simp] theorem State.stageFloor_cas (a v : Nat) : (s.stageFloor a v).cas = s.cas := rfl
@[simp] theorem State.stageFloor_boot (a v : Nat) : (s.stageFloor a v).boot = s.boot := rfl
@[simp] theorem State.stageFloor_dump (a v : Nat) : (s.stageFloor a v).dump = s.dump := rfl

-- burn changes the counter of free values alone.
@[simp] theorem State.burn_clk : (s.burn).clk = s.clk := rfl
@[simp] theorem State.burn_tbOn : (s.burn).tbOn = s.tbOn := rfl
@[simp] theorem State.burn_tbBase : (s.burn).tbBase = s.tbBase := rfl
@[simp] theorem State.burn_pending : (s.burn).pending = s.pending := rfl
@[simp] theorem State.burn_out : (s.burn).out = s.out := rfl
@[simp] theorem State.burn_mem : (s.burn).mem = s.mem := rfl
@[simp] theorem State.burn_tags : (s.burn).tags = s.tags := rfl
@[simp] theorem State.burn_od : (s.burn).od = s.od := rfl
@[simp] theorem State.burn_events : (s.burn).events = s.events := rfl
@[simp] theorem State.burn_nextEvent : (s.burn).nextEvent = s.nextEvent := rfl
@[simp] theorem State.burn_lastEvent : (s.burn).lastEvent = s.lastEvent := rfl
@[simp] theorem State.burn_satSet : (s.burn).satSet = s.satSet := rfl
@[simp] theorem State.burn_satList : (s.burn).satList = s.satList := rfl
@[simp] theorem State.burn_tiles : (s.burn).tiles = s.tiles := rfl
@[simp] theorem State.burn_bank0 : (s.burn).bank0 = s.bank0 := rfl
@[simp] theorem State.burn_bank1 : (s.burn).bank1 = s.bank1 := rfl
@[simp] theorem State.burn_links : (s.burn).links = s.links := rfl
@[simp] theorem State.burn_mboxes : (s.burn).mboxes = s.mboxes := rfl
@[simp] theorem State.burn_scanRows : (s.burn).scanRows = s.scanRows := rfl
@[simp] theorem State.burn_chunks : (s.burn).chunks = s.chunks := rfl
@[simp] theorem State.burn_floorDue : (s.burn).floorDue = s.floorDue := rfl
@[simp] theorem State.burn_noticesA : (s.burn).noticesA = s.noticesA := rfl
@[simp] theorem State.burn_noticesB : (s.burn).noticesB = s.noticesB := rfl
@[simp] theorem State.burn_noticesOut : (s.burn).noticesOut = s.noticesOut := rfl
@[simp] theorem State.burn_backoffs : (s.burn).backoffs = s.backoffs := rfl
@[simp] theorem State.burn_fences : (s.burn).fences = s.fences := rfl
@[simp] theorem State.burn_fenceQueue : (s.burn).fenceQueue = s.fenceQueue := rfl
@[simp] theorem State.burn_laneLife : (s.burn).laneLife = s.laneLife := rfl
@[simp] theorem State.burn_abortDue : (s.burn).abortDue = s.abortDue := rfl
@[simp] theorem State.burn_heldLanes : (s.burn).heldLanes = s.heldLanes := rfl
@[simp] theorem State.burn_pslots : (s.burn).pslots = s.pslots := rfl
@[simp] theorem State.burn_lanes : (s.burn).lanes = s.lanes := rfl
@[simp] theorem State.burn_queue : (s.burn).queue = s.queue := rfl
@[simp] theorem State.burn_terms : (s.burn).terms = s.terms := rfl
@[simp] theorem State.burn_staging : (s.burn).staging = s.staging := rfl
@[simp] theorem State.burn_hostPorts : (s.burn).hostPorts = s.hostPorts := rfl
@[simp] theorem State.burn_ceRecs : (s.burn).ceRecs = s.ceRecs := rfl
@[simp] theorem State.burn_cages : (s.burn).cages = s.cages := rfl
@[simp] theorem State.burn_ptpCur : (s.burn).ptpCur = s.ptpCur := rfl
@[simp] theorem State.burn_fenceHist : (s.burn).fenceHist = s.fenceHist := rfl
@[simp] theorem State.burn_nodeLogs : (s.burn).nodeLogs = s.nodeLogs := rfl
@[simp] theorem State.burn_nextTxn : (s.burn).nextTxn = s.nextTxn := rfl
@[simp] theorem State.burn_kv : (s.burn).kv = s.kv := rfl
@[simp] theorem State.burn_groupEnts : (s.burn).groupEnts = s.groupEnts := rfl
@[simp] theorem State.burn_pgroups : (s.burn).pgroups = s.pgroups := rfl
@[simp] theorem State.burn_allocs : (s.burn).allocs = s.allocs := rfl
@[simp] theorem State.burn_faults : (s.burn).faults = s.faults := rfl
@[simp] theorem State.burn_evac : (s.burn).evac = s.evac := rfl
@[simp] theorem State.burn_rebalDue : (s.burn).rebalDue = s.rebalDue := rfl
@[simp] theorem State.burn_fullDue : (s.burn).fullDue = s.fullDue := rfl
@[simp] theorem State.burn_staleDies : (s.burn).staleDies = s.staleDies := rfl
@[simp] theorem State.burn_sparesChosen : (s.burn).sparesChosen = s.sparesChosen := rfl
@[simp] theorem State.burn_slowSince : (s.burn).slowSince = s.slowSince := rfl
@[simp] theorem State.burn_wakeWaiting : (s.burn).wakeWaiting = s.wakeWaiting := rfl
@[simp] theorem State.burn_eopParts : (s.burn).eopParts = s.eopParts := rfl
@[simp] theorem State.burn_halfOpen : (s.burn).halfOpen = s.halfOpen := rfl
@[simp] theorem State.burn_sessions : (s.burn).sessions = s.sessions := rfl
@[simp] theorem State.burn_refusedAt : (s.burn).refusedAt = s.refusedAt := rfl
@[simp] theorem State.burn_eopDiscards : (s.burn).eopDiscards = s.eopDiscards := rfl
@[simp] theorem State.burn_protoLog : (s.burn).protoLog = s.protoLog := rfl
@[simp] theorem State.burn_closeDue : (s.burn).closeDue = s.closeDue := rfl
@[simp] theorem State.burn_mgmtDue : (s.burn).mgmtDue = s.mgmtDue := rfl
@[simp] theorem State.burn_quorumTaken : (s.burn).quorumTaken = s.quorumTaken := rfl
@[simp] theorem State.burn_quorumQueue : (s.burn).quorumQueue = s.quorumQueue := rfl
@[simp] theorem State.burn_readyAt : (s.burn).readyAt = s.readyAt := rfl
@[simp] theorem State.burn_store0 : (s.burn).store0 = s.store0 := rfl
@[simp] theorem State.burn_store1 : (s.burn).store1 = s.store1 := rfl
@[simp] theorem State.burn_storeDirty : (s.burn).storeDirty = s.storeDirty := rfl
@[simp] theorem State.burn_recovery : (s.burn).recovery = s.recovery := rfl
@[simp] theorem State.burn_sectors : (s.burn).sectors = s.sectors := rfl
@[simp] theorem State.burn_spots : (s.burn).spots = s.spots := rfl
@[simp] theorem State.burn_dieTherm : (s.burn).dieTherm = s.dieTherm := rfl
@[simp] theorem State.burn_ramps : (s.burn).ramps = s.ramps := rfl
@[simp] theorem State.burn_rejoin : (s.burn).rejoin = s.rejoin := rfl
@[simp] theorem State.burn_watts : (s.burn).watts = s.watts := rfl
@[simp] theorem State.burn_ceilingAt : (s.burn).ceilingAt = s.ceilingAt := rfl
@[simp] theorem State.burn_tripped : (s.burn).tripped = s.tripped := rfl
@[simp] theorem State.burn_coolWarn : (s.burn).coolWarn = s.coolWarn := rfl
@[simp] theorem State.burn_coolFrom : (s.burn).coolFrom = s.coolFrom := rfl
@[simp] theorem State.burn_margins : (s.burn).margins = s.margins := rfl
@[simp] theorem State.burn_lowTiles : (s.burn).lowTiles = s.lowTiles := rfl
@[simp] theorem State.burn_factoryTrims : (s.burn).factoryTrims = s.factoryTrims := rfl
@[simp] theorem State.burn_floorTaken : (s.burn).floorTaken = s.floorTaken := rfl
@[simp] theorem State.burn_weakLanes : (s.burn).weakLanes = s.weakLanes := rfl
@[simp] theorem State.burn_eccRates : (s.burn).eccRates = s.eccRates := rfl
@[simp] theorem State.burn_marginPlan : (s.burn).marginPlan = s.marginPlan := rfl
@[simp] theorem State.burn_ageHistory : (s.burn).ageHistory = s.ageHistory := rfl
@[simp] theorem State.burn_poweredFrom : (s.burn).poweredFrom = s.poweredFrom := rfl
@[simp] theorem State.burn_beats : (s.burn).beats = s.beats := rfl
@[simp] theorem State.burn_hubMiss : (s.burn).hubMiss = s.hubMiss := rfl
@[simp] theorem State.burn_offMiss : (s.burn).offMiss = s.offMiss := rfl
@[simp] theorem State.burn_transientAt : (s.burn).transientAt = s.transientAt := rfl
@[simp] theorem State.burn_resent : (s.burn).resent = s.resent := rfl
@[simp] theorem State.burn_bgViol : (s.burn).bgViol = s.bgViol := rfl
@[simp] theorem State.burn_bgFrom : (s.burn).bgFrom = s.bgFrom := rfl
@[simp] theorem State.burn_bgHoldUntil : (s.burn).bgHoldUntil = s.bgHoldUntil := rfl
@[simp] theorem State.burn_bgHolds : (s.burn).bgHolds = s.bgHolds := rfl
@[simp] theorem State.burn_faultLog : (s.burn).faultLog = s.faultLog := rfl
@[simp] theorem State.burn_hubsLost : (s.burn).hubsLost = s.hubsLost := rfl
@[simp] theorem State.burn_stackRecs : (s.burn).stackRecs = s.stackRecs := rfl
@[simp] theorem State.burn_cas : (s.burn).cas = s.cas := rfl
@[simp] theorem State.burn_boot : (s.burn).boot = s.boot := rfl
@[simp] theorem State.burn_dump : (s.burn).dump = s.dump := rfl

-- send changes what the panel has sent alone.
@[simp] theorem State.send_clk (e : Emit) : (s.send e).clk = s.clk := rfl
@[simp] theorem State.send_tbOn (e : Emit) : (s.send e).tbOn = s.tbOn := rfl
@[simp] theorem State.send_tbBase (e : Emit) : (s.send e).tbBase = s.tbBase := rfl
@[simp] theorem State.send_freeCtr (e : Emit) : (s.send e).freeCtr = s.freeCtr := rfl
@[simp] theorem State.send_pending (e : Emit) : (s.send e).pending = s.pending := rfl
@[simp] theorem State.send_mem (e : Emit) : (s.send e).mem = s.mem := rfl
@[simp] theorem State.send_tags (e : Emit) : (s.send e).tags = s.tags := rfl
@[simp] theorem State.send_od (e : Emit) : (s.send e).od = s.od := rfl
@[simp] theorem State.send_events (e : Emit) : (s.send e).events = s.events := rfl
@[simp] theorem State.send_nextEvent (e : Emit) : (s.send e).nextEvent = s.nextEvent := rfl
@[simp] theorem State.send_lastEvent (e : Emit) : (s.send e).lastEvent = s.lastEvent := rfl
@[simp] theorem State.send_satSet (e : Emit) : (s.send e).satSet = s.satSet := rfl
@[simp] theorem State.send_satList (e : Emit) : (s.send e).satList = s.satList := rfl
@[simp] theorem State.send_tiles (e : Emit) : (s.send e).tiles = s.tiles := rfl
@[simp] theorem State.send_bank0 (e : Emit) : (s.send e).bank0 = s.bank0 := rfl
@[simp] theorem State.send_bank1 (e : Emit) : (s.send e).bank1 = s.bank1 := rfl
@[simp] theorem State.send_links (e : Emit) : (s.send e).links = s.links := rfl
@[simp] theorem State.send_mboxes (e : Emit) : (s.send e).mboxes = s.mboxes := rfl
@[simp] theorem State.send_scanRows (e : Emit) : (s.send e).scanRows = s.scanRows := rfl
@[simp] theorem State.send_chunks (e : Emit) : (s.send e).chunks = s.chunks := rfl
@[simp] theorem State.send_floorDue (e : Emit) : (s.send e).floorDue = s.floorDue := rfl
@[simp] theorem State.send_noticesA (e : Emit) : (s.send e).noticesA = s.noticesA := rfl
@[simp] theorem State.send_noticesB (e : Emit) : (s.send e).noticesB = s.noticesB := rfl
@[simp] theorem State.send_noticesOut (e : Emit) : (s.send e).noticesOut = s.noticesOut := rfl
@[simp] theorem State.send_backoffs (e : Emit) : (s.send e).backoffs = s.backoffs := rfl
@[simp] theorem State.send_fences (e : Emit) : (s.send e).fences = s.fences := rfl
@[simp] theorem State.send_fenceQueue (e : Emit) : (s.send e).fenceQueue = s.fenceQueue := rfl
@[simp] theorem State.send_laneLife (e : Emit) : (s.send e).laneLife = s.laneLife := rfl
@[simp] theorem State.send_abortDue (e : Emit) : (s.send e).abortDue = s.abortDue := rfl
@[simp] theorem State.send_heldLanes (e : Emit) : (s.send e).heldLanes = s.heldLanes := rfl
@[simp] theorem State.send_pslots (e : Emit) : (s.send e).pslots = s.pslots := rfl
@[simp] theorem State.send_lanes (e : Emit) : (s.send e).lanes = s.lanes := rfl
@[simp] theorem State.send_queue (e : Emit) : (s.send e).queue = s.queue := rfl
@[simp] theorem State.send_terms (e : Emit) : (s.send e).terms = s.terms := rfl
@[simp] theorem State.send_staging (e : Emit) : (s.send e).staging = s.staging := rfl
@[simp] theorem State.send_hostPorts (e : Emit) : (s.send e).hostPorts = s.hostPorts := rfl
@[simp] theorem State.send_ceRecs (e : Emit) : (s.send e).ceRecs = s.ceRecs := rfl
@[simp] theorem State.send_cages (e : Emit) : (s.send e).cages = s.cages := rfl
@[simp] theorem State.send_ptpCur (e : Emit) : (s.send e).ptpCur = s.ptpCur := rfl
@[simp] theorem State.send_fenceHist (e : Emit) : (s.send e).fenceHist = s.fenceHist := rfl
@[simp] theorem State.send_nodeLogs (e : Emit) : (s.send e).nodeLogs = s.nodeLogs := rfl
@[simp] theorem State.send_nextTxn (e : Emit) : (s.send e).nextTxn = s.nextTxn := rfl
@[simp] theorem State.send_kv (e : Emit) : (s.send e).kv = s.kv := rfl
@[simp] theorem State.send_groupEnts (e : Emit) : (s.send e).groupEnts = s.groupEnts := rfl
@[simp] theorem State.send_pgroups (e : Emit) : (s.send e).pgroups = s.pgroups := rfl
@[simp] theorem State.send_allocs (e : Emit) : (s.send e).allocs = s.allocs := rfl
@[simp] theorem State.send_faults (e : Emit) : (s.send e).faults = s.faults := rfl
@[simp] theorem State.send_evac (e : Emit) : (s.send e).evac = s.evac := rfl
@[simp] theorem State.send_rebalDue (e : Emit) : (s.send e).rebalDue = s.rebalDue := rfl
@[simp] theorem State.send_fullDue (e : Emit) : (s.send e).fullDue = s.fullDue := rfl
@[simp] theorem State.send_staleDies (e : Emit) : (s.send e).staleDies = s.staleDies := rfl
@[simp] theorem State.send_sparesChosen (e : Emit) : (s.send e).sparesChosen = s.sparesChosen := rfl
@[simp] theorem State.send_slowSince (e : Emit) : (s.send e).slowSince = s.slowSince := rfl
@[simp] theorem State.send_wakeWaiting (e : Emit) : (s.send e).wakeWaiting = s.wakeWaiting := rfl
@[simp] theorem State.send_eopParts (e : Emit) : (s.send e).eopParts = s.eopParts := rfl
@[simp] theorem State.send_halfOpen (e : Emit) : (s.send e).halfOpen = s.halfOpen := rfl
@[simp] theorem State.send_sessions (e : Emit) : (s.send e).sessions = s.sessions := rfl
@[simp] theorem State.send_refusedAt (e : Emit) : (s.send e).refusedAt = s.refusedAt := rfl
@[simp] theorem State.send_eopDiscards (e : Emit) : (s.send e).eopDiscards = s.eopDiscards := rfl
@[simp] theorem State.send_protoLog (e : Emit) : (s.send e).protoLog = s.protoLog := rfl
@[simp] theorem State.send_closeDue (e : Emit) : (s.send e).closeDue = s.closeDue := rfl
@[simp] theorem State.send_mgmtDue (e : Emit) : (s.send e).mgmtDue = s.mgmtDue := rfl
@[simp] theorem State.send_quorumTaken (e : Emit) : (s.send e).quorumTaken = s.quorumTaken := rfl
@[simp] theorem State.send_quorumQueue (e : Emit) : (s.send e).quorumQueue = s.quorumQueue := rfl
@[simp] theorem State.send_readyAt (e : Emit) : (s.send e).readyAt = s.readyAt := rfl
@[simp] theorem State.send_store0 (e : Emit) : (s.send e).store0 = s.store0 := rfl
@[simp] theorem State.send_store1 (e : Emit) : (s.send e).store1 = s.store1 := rfl
@[simp] theorem State.send_storeDirty (e : Emit) : (s.send e).storeDirty = s.storeDirty := rfl
@[simp] theorem State.send_recovery (e : Emit) : (s.send e).recovery = s.recovery := rfl
@[simp] theorem State.send_sectors (e : Emit) : (s.send e).sectors = s.sectors := rfl
@[simp] theorem State.send_spots (e : Emit) : (s.send e).spots = s.spots := rfl
@[simp] theorem State.send_dieTherm (e : Emit) : (s.send e).dieTherm = s.dieTherm := rfl
@[simp] theorem State.send_ramps (e : Emit) : (s.send e).ramps = s.ramps := rfl
@[simp] theorem State.send_rejoin (e : Emit) : (s.send e).rejoin = s.rejoin := rfl
@[simp] theorem State.send_watts (e : Emit) : (s.send e).watts = s.watts := rfl
@[simp] theorem State.send_ceilingAt (e : Emit) : (s.send e).ceilingAt = s.ceilingAt := rfl
@[simp] theorem State.send_tripped (e : Emit) : (s.send e).tripped = s.tripped := rfl
@[simp] theorem State.send_coolWarn (e : Emit) : (s.send e).coolWarn = s.coolWarn := rfl
@[simp] theorem State.send_coolFrom (e : Emit) : (s.send e).coolFrom = s.coolFrom := rfl
@[simp] theorem State.send_margins (e : Emit) : (s.send e).margins = s.margins := rfl
@[simp] theorem State.send_lowTiles (e : Emit) : (s.send e).lowTiles = s.lowTiles := rfl
@[simp] theorem State.send_factoryTrims (e : Emit) : (s.send e).factoryTrims = s.factoryTrims := rfl
@[simp] theorem State.send_floorTaken (e : Emit) : (s.send e).floorTaken = s.floorTaken := rfl
@[simp] theorem State.send_weakLanes (e : Emit) : (s.send e).weakLanes = s.weakLanes := rfl
@[simp] theorem State.send_eccRates (e : Emit) : (s.send e).eccRates = s.eccRates := rfl
@[simp] theorem State.send_marginPlan (e : Emit) : (s.send e).marginPlan = s.marginPlan := rfl
@[simp] theorem State.send_ageHistory (e : Emit) : (s.send e).ageHistory = s.ageHistory := rfl
@[simp] theorem State.send_poweredFrom (e : Emit) : (s.send e).poweredFrom = s.poweredFrom := rfl
@[simp] theorem State.send_beats (e : Emit) : (s.send e).beats = s.beats := rfl
@[simp] theorem State.send_hubMiss (e : Emit) : (s.send e).hubMiss = s.hubMiss := rfl
@[simp] theorem State.send_offMiss (e : Emit) : (s.send e).offMiss = s.offMiss := rfl
@[simp] theorem State.send_transientAt (e : Emit) : (s.send e).transientAt = s.transientAt := rfl
@[simp] theorem State.send_resent (e : Emit) : (s.send e).resent = s.resent := rfl
@[simp] theorem State.send_bgViol (e : Emit) : (s.send e).bgViol = s.bgViol := rfl
@[simp] theorem State.send_bgFrom (e : Emit) : (s.send e).bgFrom = s.bgFrom := rfl
@[simp] theorem State.send_bgHoldUntil (e : Emit) : (s.send e).bgHoldUntil = s.bgHoldUntil := rfl
@[simp] theorem State.send_bgHolds (e : Emit) : (s.send e).bgHolds = s.bgHolds := rfl
@[simp] theorem State.send_faultLog (e : Emit) : (s.send e).faultLog = s.faultLog := rfl
@[simp] theorem State.send_hubsLost (e : Emit) : (s.send e).hubsLost = s.hubsLost := rfl
@[simp] theorem State.send_stackRecs (e : Emit) : (s.send e).stackRecs = s.stackRecs := rfl
@[simp] theorem State.send_cas (e : Emit) : (s.send e).cas = s.cas := rfl
@[simp] theorem State.send_boot (e : Emit) : (s.send e).boot = s.boot := rfl
@[simp] theorem State.send_dump (e : Emit) : (s.send e).dump = s.dump := rfl

-- sendAll changes what the panel has sent alone.
@[simp] theorem State.sendAll_clk (l : List Emit) : (s.sendAll l).clk = s.clk := rfl
@[simp] theorem State.sendAll_tbOn (l : List Emit) : (s.sendAll l).tbOn = s.tbOn := rfl
@[simp] theorem State.sendAll_tbBase (l : List Emit) : (s.sendAll l).tbBase = s.tbBase := rfl
@[simp] theorem State.sendAll_freeCtr (l : List Emit) : (s.sendAll l).freeCtr = s.freeCtr := rfl
@[simp] theorem State.sendAll_pending (l : List Emit) : (s.sendAll l).pending = s.pending := rfl
@[simp] theorem State.sendAll_mem (l : List Emit) : (s.sendAll l).mem = s.mem := rfl
@[simp] theorem State.sendAll_tags (l : List Emit) : (s.sendAll l).tags = s.tags := rfl
@[simp] theorem State.sendAll_od (l : List Emit) : (s.sendAll l).od = s.od := rfl
@[simp] theorem State.sendAll_events (l : List Emit) : (s.sendAll l).events = s.events := rfl
@[simp] theorem State.sendAll_nextEvent (l : List Emit) : (s.sendAll l).nextEvent = s.nextEvent := rfl
@[simp] theorem State.sendAll_lastEvent (l : List Emit) : (s.sendAll l).lastEvent = s.lastEvent := rfl
@[simp] theorem State.sendAll_satSet (l : List Emit) : (s.sendAll l).satSet = s.satSet := rfl
@[simp] theorem State.sendAll_satList (l : List Emit) : (s.sendAll l).satList = s.satList := rfl
@[simp] theorem State.sendAll_tiles (l : List Emit) : (s.sendAll l).tiles = s.tiles := rfl
@[simp] theorem State.sendAll_bank0 (l : List Emit) : (s.sendAll l).bank0 = s.bank0 := rfl
@[simp] theorem State.sendAll_bank1 (l : List Emit) : (s.sendAll l).bank1 = s.bank1 := rfl
@[simp] theorem State.sendAll_links (l : List Emit) : (s.sendAll l).links = s.links := rfl
@[simp] theorem State.sendAll_mboxes (l : List Emit) : (s.sendAll l).mboxes = s.mboxes := rfl
@[simp] theorem State.sendAll_scanRows (l : List Emit) : (s.sendAll l).scanRows = s.scanRows := rfl
@[simp] theorem State.sendAll_chunks (l : List Emit) : (s.sendAll l).chunks = s.chunks := rfl
@[simp] theorem State.sendAll_floorDue (l : List Emit) : (s.sendAll l).floorDue = s.floorDue := rfl
@[simp] theorem State.sendAll_noticesA (l : List Emit) : (s.sendAll l).noticesA = s.noticesA := rfl
@[simp] theorem State.sendAll_noticesB (l : List Emit) : (s.sendAll l).noticesB = s.noticesB := rfl
@[simp] theorem State.sendAll_noticesOut (l : List Emit) : (s.sendAll l).noticesOut = s.noticesOut := rfl
@[simp] theorem State.sendAll_backoffs (l : List Emit) : (s.sendAll l).backoffs = s.backoffs := rfl
@[simp] theorem State.sendAll_fences (l : List Emit) : (s.sendAll l).fences = s.fences := rfl
@[simp] theorem State.sendAll_fenceQueue (l : List Emit) : (s.sendAll l).fenceQueue = s.fenceQueue := rfl
@[simp] theorem State.sendAll_laneLife (l : List Emit) : (s.sendAll l).laneLife = s.laneLife := rfl
@[simp] theorem State.sendAll_abortDue (l : List Emit) : (s.sendAll l).abortDue = s.abortDue := rfl
@[simp] theorem State.sendAll_heldLanes (l : List Emit) : (s.sendAll l).heldLanes = s.heldLanes := rfl
@[simp] theorem State.sendAll_pslots (l : List Emit) : (s.sendAll l).pslots = s.pslots := rfl
@[simp] theorem State.sendAll_lanes (l : List Emit) : (s.sendAll l).lanes = s.lanes := rfl
@[simp] theorem State.sendAll_queue (l : List Emit) : (s.sendAll l).queue = s.queue := rfl
@[simp] theorem State.sendAll_terms (l : List Emit) : (s.sendAll l).terms = s.terms := rfl
@[simp] theorem State.sendAll_staging (l : List Emit) : (s.sendAll l).staging = s.staging := rfl
@[simp] theorem State.sendAll_hostPorts (l : List Emit) : (s.sendAll l).hostPorts = s.hostPorts := rfl
@[simp] theorem State.sendAll_ceRecs (l : List Emit) : (s.sendAll l).ceRecs = s.ceRecs := rfl
@[simp] theorem State.sendAll_cages (l : List Emit) : (s.sendAll l).cages = s.cages := rfl
@[simp] theorem State.sendAll_ptpCur (l : List Emit) : (s.sendAll l).ptpCur = s.ptpCur := rfl
@[simp] theorem State.sendAll_fenceHist (l : List Emit) : (s.sendAll l).fenceHist = s.fenceHist := rfl
@[simp] theorem State.sendAll_nodeLogs (l : List Emit) : (s.sendAll l).nodeLogs = s.nodeLogs := rfl
@[simp] theorem State.sendAll_nextTxn (l : List Emit) : (s.sendAll l).nextTxn = s.nextTxn := rfl
@[simp] theorem State.sendAll_kv (l : List Emit) : (s.sendAll l).kv = s.kv := rfl
@[simp] theorem State.sendAll_groupEnts (l : List Emit) : (s.sendAll l).groupEnts = s.groupEnts := rfl
@[simp] theorem State.sendAll_pgroups (l : List Emit) : (s.sendAll l).pgroups = s.pgroups := rfl
@[simp] theorem State.sendAll_allocs (l : List Emit) : (s.sendAll l).allocs = s.allocs := rfl
@[simp] theorem State.sendAll_faults (l : List Emit) : (s.sendAll l).faults = s.faults := rfl
@[simp] theorem State.sendAll_evac (l : List Emit) : (s.sendAll l).evac = s.evac := rfl
@[simp] theorem State.sendAll_rebalDue (l : List Emit) : (s.sendAll l).rebalDue = s.rebalDue := rfl
@[simp] theorem State.sendAll_fullDue (l : List Emit) : (s.sendAll l).fullDue = s.fullDue := rfl
@[simp] theorem State.sendAll_staleDies (l : List Emit) : (s.sendAll l).staleDies = s.staleDies := rfl
@[simp] theorem State.sendAll_sparesChosen (l : List Emit) : (s.sendAll l).sparesChosen = s.sparesChosen := rfl
@[simp] theorem State.sendAll_slowSince (l : List Emit) : (s.sendAll l).slowSince = s.slowSince := rfl
@[simp] theorem State.sendAll_wakeWaiting (l : List Emit) : (s.sendAll l).wakeWaiting = s.wakeWaiting := rfl
@[simp] theorem State.sendAll_eopParts (l : List Emit) : (s.sendAll l).eopParts = s.eopParts := rfl
@[simp] theorem State.sendAll_halfOpen (l : List Emit) : (s.sendAll l).halfOpen = s.halfOpen := rfl
@[simp] theorem State.sendAll_sessions (l : List Emit) : (s.sendAll l).sessions = s.sessions := rfl
@[simp] theorem State.sendAll_refusedAt (l : List Emit) : (s.sendAll l).refusedAt = s.refusedAt := rfl
@[simp] theorem State.sendAll_eopDiscards (l : List Emit) : (s.sendAll l).eopDiscards = s.eopDiscards := rfl
@[simp] theorem State.sendAll_protoLog (l : List Emit) : (s.sendAll l).protoLog = s.protoLog := rfl
@[simp] theorem State.sendAll_closeDue (l : List Emit) : (s.sendAll l).closeDue = s.closeDue := rfl
@[simp] theorem State.sendAll_mgmtDue (l : List Emit) : (s.sendAll l).mgmtDue = s.mgmtDue := rfl
@[simp] theorem State.sendAll_quorumTaken (l : List Emit) : (s.sendAll l).quorumTaken = s.quorumTaken := rfl
@[simp] theorem State.sendAll_quorumQueue (l : List Emit) : (s.sendAll l).quorumQueue = s.quorumQueue := rfl
@[simp] theorem State.sendAll_readyAt (l : List Emit) : (s.sendAll l).readyAt = s.readyAt := rfl
@[simp] theorem State.sendAll_store0 (l : List Emit) : (s.sendAll l).store0 = s.store0 := rfl
@[simp] theorem State.sendAll_store1 (l : List Emit) : (s.sendAll l).store1 = s.store1 := rfl
@[simp] theorem State.sendAll_storeDirty (l : List Emit) : (s.sendAll l).storeDirty = s.storeDirty := rfl
@[simp] theorem State.sendAll_recovery (l : List Emit) : (s.sendAll l).recovery = s.recovery := rfl
@[simp] theorem State.sendAll_sectors (l : List Emit) : (s.sendAll l).sectors = s.sectors := rfl
@[simp] theorem State.sendAll_spots (l : List Emit) : (s.sendAll l).spots = s.spots := rfl
@[simp] theorem State.sendAll_dieTherm (l : List Emit) : (s.sendAll l).dieTherm = s.dieTherm := rfl
@[simp] theorem State.sendAll_ramps (l : List Emit) : (s.sendAll l).ramps = s.ramps := rfl
@[simp] theorem State.sendAll_rejoin (l : List Emit) : (s.sendAll l).rejoin = s.rejoin := rfl
@[simp] theorem State.sendAll_watts (l : List Emit) : (s.sendAll l).watts = s.watts := rfl
@[simp] theorem State.sendAll_ceilingAt (l : List Emit) : (s.sendAll l).ceilingAt = s.ceilingAt := rfl
@[simp] theorem State.sendAll_tripped (l : List Emit) : (s.sendAll l).tripped = s.tripped := rfl
@[simp] theorem State.sendAll_coolWarn (l : List Emit) : (s.sendAll l).coolWarn = s.coolWarn := rfl
@[simp] theorem State.sendAll_coolFrom (l : List Emit) : (s.sendAll l).coolFrom = s.coolFrom := rfl
@[simp] theorem State.sendAll_margins (l : List Emit) : (s.sendAll l).margins = s.margins := rfl
@[simp] theorem State.sendAll_lowTiles (l : List Emit) : (s.sendAll l).lowTiles = s.lowTiles := rfl
@[simp] theorem State.sendAll_factoryTrims (l : List Emit) : (s.sendAll l).factoryTrims = s.factoryTrims := rfl
@[simp] theorem State.sendAll_floorTaken (l : List Emit) : (s.sendAll l).floorTaken = s.floorTaken := rfl
@[simp] theorem State.sendAll_weakLanes (l : List Emit) : (s.sendAll l).weakLanes = s.weakLanes := rfl
@[simp] theorem State.sendAll_eccRates (l : List Emit) : (s.sendAll l).eccRates = s.eccRates := rfl
@[simp] theorem State.sendAll_marginPlan (l : List Emit) : (s.sendAll l).marginPlan = s.marginPlan := rfl
@[simp] theorem State.sendAll_ageHistory (l : List Emit) : (s.sendAll l).ageHistory = s.ageHistory := rfl
@[simp] theorem State.sendAll_poweredFrom (l : List Emit) : (s.sendAll l).poweredFrom = s.poweredFrom := rfl
@[simp] theorem State.sendAll_beats (l : List Emit) : (s.sendAll l).beats = s.beats := rfl
@[simp] theorem State.sendAll_hubMiss (l : List Emit) : (s.sendAll l).hubMiss = s.hubMiss := rfl
@[simp] theorem State.sendAll_offMiss (l : List Emit) : (s.sendAll l).offMiss = s.offMiss := rfl
@[simp] theorem State.sendAll_transientAt (l : List Emit) : (s.sendAll l).transientAt = s.transientAt := rfl
@[simp] theorem State.sendAll_resent (l : List Emit) : (s.sendAll l).resent = s.resent := rfl
@[simp] theorem State.sendAll_bgViol (l : List Emit) : (s.sendAll l).bgViol = s.bgViol := rfl
@[simp] theorem State.sendAll_bgFrom (l : List Emit) : (s.sendAll l).bgFrom = s.bgFrom := rfl
@[simp] theorem State.sendAll_bgHoldUntil (l : List Emit) : (s.sendAll l).bgHoldUntil = s.bgHoldUntil := rfl
@[simp] theorem State.sendAll_bgHolds (l : List Emit) : (s.sendAll l).bgHolds = s.bgHolds := rfl
@[simp] theorem State.sendAll_faultLog (l : List Emit) : (s.sendAll l).faultLog = s.faultLog := rfl
@[simp] theorem State.sendAll_hubsLost (l : List Emit) : (s.sendAll l).hubsLost = s.hubsLost := rfl
@[simp] theorem State.sendAll_stackRecs (l : List Emit) : (s.sendAll l).stackRecs = s.stackRecs := rfl
@[simp] theorem State.sendAll_cas (l : List Emit) : (s.sendAll l).cas = s.cas := rfl
@[simp] theorem State.sendAll_boot (l : List Emit) : (s.sendAll l).boot = s.boot := rfl
@[simp] theorem State.sendAll_dump (l : List Emit) : (s.sendAll l).dump = s.dump := rfl

-- take changes what the panel has sent alone.
@[simp] theorem State.take_clk (e : Emit) : (s.take e).clk = s.clk := rfl
@[simp] theorem State.take_tbOn (e : Emit) : (s.take e).tbOn = s.tbOn := rfl
@[simp] theorem State.take_tbBase (e : Emit) : (s.take e).tbBase = s.tbBase := rfl
@[simp] theorem State.take_freeCtr (e : Emit) : (s.take e).freeCtr = s.freeCtr := rfl
@[simp] theorem State.take_pending (e : Emit) : (s.take e).pending = s.pending := rfl
@[simp] theorem State.take_mem (e : Emit) : (s.take e).mem = s.mem := rfl
@[simp] theorem State.take_tags (e : Emit) : (s.take e).tags = s.tags := rfl
@[simp] theorem State.take_od (e : Emit) : (s.take e).od = s.od := rfl
@[simp] theorem State.take_events (e : Emit) : (s.take e).events = s.events := rfl
@[simp] theorem State.take_nextEvent (e : Emit) : (s.take e).nextEvent = s.nextEvent := rfl
@[simp] theorem State.take_lastEvent (e : Emit) : (s.take e).lastEvent = s.lastEvent := rfl
@[simp] theorem State.take_satSet (e : Emit) : (s.take e).satSet = s.satSet := rfl
@[simp] theorem State.take_satList (e : Emit) : (s.take e).satList = s.satList := rfl
@[simp] theorem State.take_tiles (e : Emit) : (s.take e).tiles = s.tiles := rfl
@[simp] theorem State.take_bank0 (e : Emit) : (s.take e).bank0 = s.bank0 := rfl
@[simp] theorem State.take_bank1 (e : Emit) : (s.take e).bank1 = s.bank1 := rfl
@[simp] theorem State.take_links (e : Emit) : (s.take e).links = s.links := rfl
@[simp] theorem State.take_mboxes (e : Emit) : (s.take e).mboxes = s.mboxes := rfl
@[simp] theorem State.take_scanRows (e : Emit) : (s.take e).scanRows = s.scanRows := rfl
@[simp] theorem State.take_chunks (e : Emit) : (s.take e).chunks = s.chunks := rfl
@[simp] theorem State.take_floorDue (e : Emit) : (s.take e).floorDue = s.floorDue := rfl
@[simp] theorem State.take_noticesA (e : Emit) : (s.take e).noticesA = s.noticesA := rfl
@[simp] theorem State.take_noticesB (e : Emit) : (s.take e).noticesB = s.noticesB := rfl
@[simp] theorem State.take_noticesOut (e : Emit) : (s.take e).noticesOut = s.noticesOut := rfl
@[simp] theorem State.take_backoffs (e : Emit) : (s.take e).backoffs = s.backoffs := rfl
@[simp] theorem State.take_fences (e : Emit) : (s.take e).fences = s.fences := rfl
@[simp] theorem State.take_fenceQueue (e : Emit) : (s.take e).fenceQueue = s.fenceQueue := rfl
@[simp] theorem State.take_laneLife (e : Emit) : (s.take e).laneLife = s.laneLife := rfl
@[simp] theorem State.take_abortDue (e : Emit) : (s.take e).abortDue = s.abortDue := rfl
@[simp] theorem State.take_heldLanes (e : Emit) : (s.take e).heldLanes = s.heldLanes := rfl
@[simp] theorem State.take_pslots (e : Emit) : (s.take e).pslots = s.pslots := rfl
@[simp] theorem State.take_lanes (e : Emit) : (s.take e).lanes = s.lanes := rfl
@[simp] theorem State.take_queue (e : Emit) : (s.take e).queue = s.queue := rfl
@[simp] theorem State.take_terms (e : Emit) : (s.take e).terms = s.terms := rfl
@[simp] theorem State.take_staging (e : Emit) : (s.take e).staging = s.staging := rfl
@[simp] theorem State.take_hostPorts (e : Emit) : (s.take e).hostPorts = s.hostPorts := rfl
@[simp] theorem State.take_ceRecs (e : Emit) : (s.take e).ceRecs = s.ceRecs := rfl
@[simp] theorem State.take_cages (e : Emit) : (s.take e).cages = s.cages := rfl
@[simp] theorem State.take_ptpCur (e : Emit) : (s.take e).ptpCur = s.ptpCur := rfl
@[simp] theorem State.take_fenceHist (e : Emit) : (s.take e).fenceHist = s.fenceHist := rfl
@[simp] theorem State.take_nodeLogs (e : Emit) : (s.take e).nodeLogs = s.nodeLogs := rfl
@[simp] theorem State.take_nextTxn (e : Emit) : (s.take e).nextTxn = s.nextTxn := rfl
@[simp] theorem State.take_kv (e : Emit) : (s.take e).kv = s.kv := rfl
@[simp] theorem State.take_groupEnts (e : Emit) : (s.take e).groupEnts = s.groupEnts := rfl
@[simp] theorem State.take_pgroups (e : Emit) : (s.take e).pgroups = s.pgroups := rfl
@[simp] theorem State.take_allocs (e : Emit) : (s.take e).allocs = s.allocs := rfl
@[simp] theorem State.take_faults (e : Emit) : (s.take e).faults = s.faults := rfl
@[simp] theorem State.take_evac (e : Emit) : (s.take e).evac = s.evac := rfl
@[simp] theorem State.take_rebalDue (e : Emit) : (s.take e).rebalDue = s.rebalDue := rfl
@[simp] theorem State.take_fullDue (e : Emit) : (s.take e).fullDue = s.fullDue := rfl
@[simp] theorem State.take_staleDies (e : Emit) : (s.take e).staleDies = s.staleDies := rfl
@[simp] theorem State.take_sparesChosen (e : Emit) : (s.take e).sparesChosen = s.sparesChosen := rfl
@[simp] theorem State.take_slowSince (e : Emit) : (s.take e).slowSince = s.slowSince := rfl
@[simp] theorem State.take_wakeWaiting (e : Emit) : (s.take e).wakeWaiting = s.wakeWaiting := rfl
@[simp] theorem State.take_eopParts (e : Emit) : (s.take e).eopParts = s.eopParts := rfl
@[simp] theorem State.take_halfOpen (e : Emit) : (s.take e).halfOpen = s.halfOpen := rfl
@[simp] theorem State.take_sessions (e : Emit) : (s.take e).sessions = s.sessions := rfl
@[simp] theorem State.take_refusedAt (e : Emit) : (s.take e).refusedAt = s.refusedAt := rfl
@[simp] theorem State.take_eopDiscards (e : Emit) : (s.take e).eopDiscards = s.eopDiscards := rfl
@[simp] theorem State.take_protoLog (e : Emit) : (s.take e).protoLog = s.protoLog := rfl
@[simp] theorem State.take_closeDue (e : Emit) : (s.take e).closeDue = s.closeDue := rfl
@[simp] theorem State.take_mgmtDue (e : Emit) : (s.take e).mgmtDue = s.mgmtDue := rfl
@[simp] theorem State.take_quorumTaken (e : Emit) : (s.take e).quorumTaken = s.quorumTaken := rfl
@[simp] theorem State.take_quorumQueue (e : Emit) : (s.take e).quorumQueue = s.quorumQueue := rfl
@[simp] theorem State.take_readyAt (e : Emit) : (s.take e).readyAt = s.readyAt := rfl
@[simp] theorem State.take_store0 (e : Emit) : (s.take e).store0 = s.store0 := rfl
@[simp] theorem State.take_store1 (e : Emit) : (s.take e).store1 = s.store1 := rfl
@[simp] theorem State.take_storeDirty (e : Emit) : (s.take e).storeDirty = s.storeDirty := rfl
@[simp] theorem State.take_recovery (e : Emit) : (s.take e).recovery = s.recovery := rfl
@[simp] theorem State.take_sectors (e : Emit) : (s.take e).sectors = s.sectors := rfl
@[simp] theorem State.take_spots (e : Emit) : (s.take e).spots = s.spots := rfl
@[simp] theorem State.take_dieTherm (e : Emit) : (s.take e).dieTherm = s.dieTherm := rfl
@[simp] theorem State.take_ramps (e : Emit) : (s.take e).ramps = s.ramps := rfl
@[simp] theorem State.take_rejoin (e : Emit) : (s.take e).rejoin = s.rejoin := rfl
@[simp] theorem State.take_watts (e : Emit) : (s.take e).watts = s.watts := rfl
@[simp] theorem State.take_ceilingAt (e : Emit) : (s.take e).ceilingAt = s.ceilingAt := rfl
@[simp] theorem State.take_tripped (e : Emit) : (s.take e).tripped = s.tripped := rfl
@[simp] theorem State.take_coolWarn (e : Emit) : (s.take e).coolWarn = s.coolWarn := rfl
@[simp] theorem State.take_coolFrom (e : Emit) : (s.take e).coolFrom = s.coolFrom := rfl
@[simp] theorem State.take_margins (e : Emit) : (s.take e).margins = s.margins := rfl
@[simp] theorem State.take_lowTiles (e : Emit) : (s.take e).lowTiles = s.lowTiles := rfl
@[simp] theorem State.take_factoryTrims (e : Emit) : (s.take e).factoryTrims = s.factoryTrims := rfl
@[simp] theorem State.take_floorTaken (e : Emit) : (s.take e).floorTaken = s.floorTaken := rfl
@[simp] theorem State.take_weakLanes (e : Emit) : (s.take e).weakLanes = s.weakLanes := rfl
@[simp] theorem State.take_eccRates (e : Emit) : (s.take e).eccRates = s.eccRates := rfl
@[simp] theorem State.take_marginPlan (e : Emit) : (s.take e).marginPlan = s.marginPlan := rfl
@[simp] theorem State.take_ageHistory (e : Emit) : (s.take e).ageHistory = s.ageHistory := rfl
@[simp] theorem State.take_poweredFrom (e : Emit) : (s.take e).poweredFrom = s.poweredFrom := rfl
@[simp] theorem State.take_beats (e : Emit) : (s.take e).beats = s.beats := rfl
@[simp] theorem State.take_hubMiss (e : Emit) : (s.take e).hubMiss = s.hubMiss := rfl
@[simp] theorem State.take_offMiss (e : Emit) : (s.take e).offMiss = s.offMiss := rfl
@[simp] theorem State.take_transientAt (e : Emit) : (s.take e).transientAt = s.transientAt := rfl
@[simp] theorem State.take_resent (e : Emit) : (s.take e).resent = s.resent := rfl
@[simp] theorem State.take_bgViol (e : Emit) : (s.take e).bgViol = s.bgViol := rfl
@[simp] theorem State.take_bgFrom (e : Emit) : (s.take e).bgFrom = s.bgFrom := rfl
@[simp] theorem State.take_bgHoldUntil (e : Emit) : (s.take e).bgHoldUntil = s.bgHoldUntil := rfl
@[simp] theorem State.take_bgHolds (e : Emit) : (s.take e).bgHolds = s.bgHolds := rfl
@[simp] theorem State.take_faultLog (e : Emit) : (s.take e).faultLog = s.faultLog := rfl
@[simp] theorem State.take_hubsLost (e : Emit) : (s.take e).hubsLost = s.hubsLost := rfl
@[simp] theorem State.take_stackRecs (e : Emit) : (s.take e).stackRecs = s.stackRecs := rfl
@[simp] theorem State.take_cas (e : Emit) : (s.take e).cas = s.cas := rfl
@[simp] theorem State.take_boot (e : Emit) : (s.take e).boot = s.boot := rfl
@[simp] theorem State.take_dump (e : Emit) : (s.take e).dump = s.dump := rfl

-- setTile changes the tiles alone.
@[simp] theorem State.setTile_clk (k : Nat) (t : Tile) : (s.setTile k t).clk = s.clk := rfl
@[simp] theorem State.setTile_tbOn (k : Nat) (t : Tile) : (s.setTile k t).tbOn = s.tbOn := rfl
@[simp] theorem State.setTile_tbBase (k : Nat) (t : Tile) : (s.setTile k t).tbBase = s.tbBase := rfl
@[simp] theorem State.setTile_freeCtr (k : Nat) (t : Tile) : (s.setTile k t).freeCtr = s.freeCtr := rfl
@[simp] theorem State.setTile_pending (k : Nat) (t : Tile) : (s.setTile k t).pending = s.pending := rfl
@[simp] theorem State.setTile_out (k : Nat) (t : Tile) : (s.setTile k t).out = s.out := rfl
@[simp] theorem State.setTile_mem (k : Nat) (t : Tile) : (s.setTile k t).mem = s.mem := rfl
@[simp] theorem State.setTile_tags (k : Nat) (t : Tile) : (s.setTile k t).tags = s.tags := rfl
@[simp] theorem State.setTile_od (k : Nat) (t : Tile) : (s.setTile k t).od = s.od := rfl
@[simp] theorem State.setTile_events (k : Nat) (t : Tile) : (s.setTile k t).events = s.events := rfl
@[simp] theorem State.setTile_nextEvent (k : Nat) (t : Tile) : (s.setTile k t).nextEvent = s.nextEvent := rfl
@[simp] theorem State.setTile_lastEvent (k : Nat) (t : Tile) : (s.setTile k t).lastEvent = s.lastEvent := rfl
@[simp] theorem State.setTile_satSet (k : Nat) (t : Tile) : (s.setTile k t).satSet = s.satSet := rfl
@[simp] theorem State.setTile_satList (k : Nat) (t : Tile) : (s.setTile k t).satList = s.satList := rfl
@[simp] theorem State.setTile_bank0 (k : Nat) (t : Tile) : (s.setTile k t).bank0 = s.bank0 := rfl
@[simp] theorem State.setTile_bank1 (k : Nat) (t : Tile) : (s.setTile k t).bank1 = s.bank1 := rfl
@[simp] theorem State.setTile_links (k : Nat) (t : Tile) : (s.setTile k t).links = s.links := rfl
@[simp] theorem State.setTile_mboxes (k : Nat) (t : Tile) : (s.setTile k t).mboxes = s.mboxes := rfl
@[simp] theorem State.setTile_scanRows (k : Nat) (t : Tile) : (s.setTile k t).scanRows = s.scanRows := rfl
@[simp] theorem State.setTile_chunks (k : Nat) (t : Tile) : (s.setTile k t).chunks = s.chunks := rfl
@[simp] theorem State.setTile_floorDue (k : Nat) (t : Tile) : (s.setTile k t).floorDue = s.floorDue := rfl
@[simp] theorem State.setTile_noticesA (k : Nat) (t : Tile) : (s.setTile k t).noticesA = s.noticesA := rfl
@[simp] theorem State.setTile_noticesB (k : Nat) (t : Tile) : (s.setTile k t).noticesB = s.noticesB := rfl
@[simp] theorem State.setTile_noticesOut (k : Nat) (t : Tile) : (s.setTile k t).noticesOut = s.noticesOut := rfl
@[simp] theorem State.setTile_backoffs (k : Nat) (t : Tile) : (s.setTile k t).backoffs = s.backoffs := rfl
@[simp] theorem State.setTile_fences (k : Nat) (t : Tile) : (s.setTile k t).fences = s.fences := rfl
@[simp] theorem State.setTile_fenceQueue (k : Nat) (t : Tile) : (s.setTile k t).fenceQueue = s.fenceQueue := rfl
@[simp] theorem State.setTile_laneLife (k : Nat) (t : Tile) : (s.setTile k t).laneLife = s.laneLife := rfl
@[simp] theorem State.setTile_abortDue (k : Nat) (t : Tile) : (s.setTile k t).abortDue = s.abortDue := rfl
@[simp] theorem State.setTile_heldLanes (k : Nat) (t : Tile) : (s.setTile k t).heldLanes = s.heldLanes := rfl
@[simp] theorem State.setTile_pslots (k : Nat) (t : Tile) : (s.setTile k t).pslots = s.pslots := rfl
@[simp] theorem State.setTile_lanes (k : Nat) (t : Tile) : (s.setTile k t).lanes = s.lanes := rfl
@[simp] theorem State.setTile_queue (k : Nat) (t : Tile) : (s.setTile k t).queue = s.queue := rfl
@[simp] theorem State.setTile_terms (k : Nat) (t : Tile) : (s.setTile k t).terms = s.terms := rfl
@[simp] theorem State.setTile_staging (k : Nat) (t : Tile) : (s.setTile k t).staging = s.staging := rfl
@[simp] theorem State.setTile_hostPorts (k : Nat) (t : Tile) : (s.setTile k t).hostPorts = s.hostPorts := rfl
@[simp] theorem State.setTile_ceRecs (k : Nat) (t : Tile) : (s.setTile k t).ceRecs = s.ceRecs := rfl
@[simp] theorem State.setTile_cages (k : Nat) (t : Tile) : (s.setTile k t).cages = s.cages := rfl
@[simp] theorem State.setTile_ptpCur (k : Nat) (t : Tile) : (s.setTile k t).ptpCur = s.ptpCur := rfl
@[simp] theorem State.setTile_fenceHist (k : Nat) (t : Tile) : (s.setTile k t).fenceHist = s.fenceHist := rfl
@[simp] theorem State.setTile_nodeLogs (k : Nat) (t : Tile) : (s.setTile k t).nodeLogs = s.nodeLogs := rfl
@[simp] theorem State.setTile_nextTxn (k : Nat) (t : Tile) : (s.setTile k t).nextTxn = s.nextTxn := rfl
@[simp] theorem State.setTile_kv (k : Nat) (t : Tile) : (s.setTile k t).kv = s.kv := rfl
@[simp] theorem State.setTile_groupEnts (k : Nat) (t : Tile) : (s.setTile k t).groupEnts = s.groupEnts := rfl
@[simp] theorem State.setTile_pgroups (k : Nat) (t : Tile) : (s.setTile k t).pgroups = s.pgroups := rfl
@[simp] theorem State.setTile_allocs (k : Nat) (t : Tile) : (s.setTile k t).allocs = s.allocs := rfl
@[simp] theorem State.setTile_faults (k : Nat) (t : Tile) : (s.setTile k t).faults = s.faults := rfl
@[simp] theorem State.setTile_evac (k : Nat) (t : Tile) : (s.setTile k t).evac = s.evac := rfl
@[simp] theorem State.setTile_rebalDue (k : Nat) (t : Tile) : (s.setTile k t).rebalDue = s.rebalDue := rfl
@[simp] theorem State.setTile_fullDue (k : Nat) (t : Tile) : (s.setTile k t).fullDue = s.fullDue := rfl
@[simp] theorem State.setTile_staleDies (k : Nat) (t : Tile) : (s.setTile k t).staleDies = s.staleDies := rfl
@[simp] theorem State.setTile_sparesChosen (k : Nat) (t : Tile) : (s.setTile k t).sparesChosen = s.sparesChosen := rfl
@[simp] theorem State.setTile_slowSince (k : Nat) (t : Tile) : (s.setTile k t).slowSince = s.slowSince := rfl
@[simp] theorem State.setTile_wakeWaiting (k : Nat) (t : Tile) : (s.setTile k t).wakeWaiting = s.wakeWaiting := rfl
@[simp] theorem State.setTile_eopParts (k : Nat) (t : Tile) : (s.setTile k t).eopParts = s.eopParts := rfl
@[simp] theorem State.setTile_halfOpen (k : Nat) (t : Tile) : (s.setTile k t).halfOpen = s.halfOpen := rfl
@[simp] theorem State.setTile_sessions (k : Nat) (t : Tile) : (s.setTile k t).sessions = s.sessions := rfl
@[simp] theorem State.setTile_refusedAt (k : Nat) (t : Tile) : (s.setTile k t).refusedAt = s.refusedAt := rfl
@[simp] theorem State.setTile_eopDiscards (k : Nat) (t : Tile) : (s.setTile k t).eopDiscards = s.eopDiscards := rfl
@[simp] theorem State.setTile_protoLog (k : Nat) (t : Tile) : (s.setTile k t).protoLog = s.protoLog := rfl
@[simp] theorem State.setTile_closeDue (k : Nat) (t : Tile) : (s.setTile k t).closeDue = s.closeDue := rfl
@[simp] theorem State.setTile_mgmtDue (k : Nat) (t : Tile) : (s.setTile k t).mgmtDue = s.mgmtDue := rfl
@[simp] theorem State.setTile_quorumTaken (k : Nat) (t : Tile) : (s.setTile k t).quorumTaken = s.quorumTaken := rfl
@[simp] theorem State.setTile_quorumQueue (k : Nat) (t : Tile) : (s.setTile k t).quorumQueue = s.quorumQueue := rfl
@[simp] theorem State.setTile_readyAt (k : Nat) (t : Tile) : (s.setTile k t).readyAt = s.readyAt := rfl
@[simp] theorem State.setTile_store0 (k : Nat) (t : Tile) : (s.setTile k t).store0 = s.store0 := rfl
@[simp] theorem State.setTile_store1 (k : Nat) (t : Tile) : (s.setTile k t).store1 = s.store1 := rfl
@[simp] theorem State.setTile_storeDirty (k : Nat) (t : Tile) : (s.setTile k t).storeDirty = s.storeDirty := rfl
@[simp] theorem State.setTile_recovery (k : Nat) (t : Tile) : (s.setTile k t).recovery = s.recovery := rfl
@[simp] theorem State.setTile_sectors (k : Nat) (t : Tile) : (s.setTile k t).sectors = s.sectors := rfl
@[simp] theorem State.setTile_spots (k : Nat) (t : Tile) : (s.setTile k t).spots = s.spots := rfl
@[simp] theorem State.setTile_dieTherm (k : Nat) (t : Tile) : (s.setTile k t).dieTherm = s.dieTherm := rfl
@[simp] theorem State.setTile_ramps (k : Nat) (t : Tile) : (s.setTile k t).ramps = s.ramps := rfl
@[simp] theorem State.setTile_rejoin (k : Nat) (t : Tile) : (s.setTile k t).rejoin = s.rejoin := rfl
@[simp] theorem State.setTile_watts (k : Nat) (t : Tile) : (s.setTile k t).watts = s.watts := rfl
@[simp] theorem State.setTile_ceilingAt (k : Nat) (t : Tile) : (s.setTile k t).ceilingAt = s.ceilingAt := rfl
@[simp] theorem State.setTile_tripped (k : Nat) (t : Tile) : (s.setTile k t).tripped = s.tripped := rfl
@[simp] theorem State.setTile_coolWarn (k : Nat) (t : Tile) : (s.setTile k t).coolWarn = s.coolWarn := rfl
@[simp] theorem State.setTile_coolFrom (k : Nat) (t : Tile) : (s.setTile k t).coolFrom = s.coolFrom := rfl
@[simp] theorem State.setTile_margins (k : Nat) (t : Tile) : (s.setTile k t).margins = s.margins := rfl
@[simp] theorem State.setTile_lowTiles (k : Nat) (t : Tile) : (s.setTile k t).lowTiles = s.lowTiles := rfl
@[simp] theorem State.setTile_factoryTrims (k : Nat) (t : Tile) : (s.setTile k t).factoryTrims = s.factoryTrims := rfl
@[simp] theorem State.setTile_floorTaken (k : Nat) (t : Tile) : (s.setTile k t).floorTaken = s.floorTaken := rfl
@[simp] theorem State.setTile_weakLanes (k : Nat) (t : Tile) : (s.setTile k t).weakLanes = s.weakLanes := rfl
@[simp] theorem State.setTile_eccRates (k : Nat) (t : Tile) : (s.setTile k t).eccRates = s.eccRates := rfl
@[simp] theorem State.setTile_marginPlan (k : Nat) (t : Tile) : (s.setTile k t).marginPlan = s.marginPlan := rfl
@[simp] theorem State.setTile_ageHistory (k : Nat) (t : Tile) : (s.setTile k t).ageHistory = s.ageHistory := rfl
@[simp] theorem State.setTile_poweredFrom (k : Nat) (t : Tile) : (s.setTile k t).poweredFrom = s.poweredFrom := rfl
@[simp] theorem State.setTile_beats (k : Nat) (t : Tile) : (s.setTile k t).beats = s.beats := rfl
@[simp] theorem State.setTile_hubMiss (k : Nat) (t : Tile) : (s.setTile k t).hubMiss = s.hubMiss := rfl
@[simp] theorem State.setTile_offMiss (k : Nat) (t : Tile) : (s.setTile k t).offMiss = s.offMiss := rfl
@[simp] theorem State.setTile_transientAt (k : Nat) (t : Tile) : (s.setTile k t).transientAt = s.transientAt := rfl
@[simp] theorem State.setTile_resent (k : Nat) (t : Tile) : (s.setTile k t).resent = s.resent := rfl
@[simp] theorem State.setTile_bgViol (k : Nat) (t : Tile) : (s.setTile k t).bgViol = s.bgViol := rfl
@[simp] theorem State.setTile_bgFrom (k : Nat) (t : Tile) : (s.setTile k t).bgFrom = s.bgFrom := rfl
@[simp] theorem State.setTile_bgHoldUntil (k : Nat) (t : Tile) : (s.setTile k t).bgHoldUntil = s.bgHoldUntil := rfl
@[simp] theorem State.setTile_bgHolds (k : Nat) (t : Tile) : (s.setTile k t).bgHolds = s.bgHolds := rfl
@[simp] theorem State.setTile_faultLog (k : Nat) (t : Tile) : (s.setTile k t).faultLog = s.faultLog := rfl
@[simp] theorem State.setTile_hubsLost (k : Nat) (t : Tile) : (s.setTile k t).hubsLost = s.hubsLost := rfl
@[simp] theorem State.setTile_stackRecs (k : Nat) (t : Tile) : (s.setTile k t).stackRecs = s.stackRecs := rfl
@[simp] theorem State.setTile_cas (k : Nat) (t : Tile) : (s.setTile k t).cas = s.cas := rfl
@[simp] theorem State.setTile_boot (k : Nat) (t : Tile) : (s.setTile k t).boot = s.boot := rfl
@[simp] theorem State.setTile_dump (k : Nat) (t : Tile) : (s.setTile k t).dump = s.dump := rfl

-- setTag changes the tags alone.
@[simp] theorem State.setTag_clk (tile row : Nat) (full : Bool) : (s.setTag tile row full).clk = s.clk := rfl
@[simp] theorem State.setTag_tbOn (tile row : Nat) (full : Bool) : (s.setTag tile row full).tbOn = s.tbOn := rfl
@[simp] theorem State.setTag_tbBase (tile row : Nat) (full : Bool) : (s.setTag tile row full).tbBase = s.tbBase := rfl
@[simp] theorem State.setTag_freeCtr (tile row : Nat) (full : Bool) : (s.setTag tile row full).freeCtr = s.freeCtr := rfl
@[simp] theorem State.setTag_pending (tile row : Nat) (full : Bool) : (s.setTag tile row full).pending = s.pending := rfl
@[simp] theorem State.setTag_out (tile row : Nat) (full : Bool) : (s.setTag tile row full).out = s.out := rfl
@[simp] theorem State.setTag_mem (tile row : Nat) (full : Bool) : (s.setTag tile row full).mem = s.mem := rfl
@[simp] theorem State.setTag_od (tile row : Nat) (full : Bool) : (s.setTag tile row full).od = s.od := rfl
@[simp] theorem State.setTag_events (tile row : Nat) (full : Bool) : (s.setTag tile row full).events = s.events := rfl
@[simp] theorem State.setTag_nextEvent (tile row : Nat) (full : Bool) : (s.setTag tile row full).nextEvent = s.nextEvent := rfl
@[simp] theorem State.setTag_lastEvent (tile row : Nat) (full : Bool) : (s.setTag tile row full).lastEvent = s.lastEvent := rfl
@[simp] theorem State.setTag_satSet (tile row : Nat) (full : Bool) : (s.setTag tile row full).satSet = s.satSet := rfl
@[simp] theorem State.setTag_satList (tile row : Nat) (full : Bool) : (s.setTag tile row full).satList = s.satList := rfl
@[simp] theorem State.setTag_tiles (tile row : Nat) (full : Bool) : (s.setTag tile row full).tiles = s.tiles := rfl
@[simp] theorem State.setTag_bank0 (tile row : Nat) (full : Bool) : (s.setTag tile row full).bank0 = s.bank0 := rfl
@[simp] theorem State.setTag_bank1 (tile row : Nat) (full : Bool) : (s.setTag tile row full).bank1 = s.bank1 := rfl
@[simp] theorem State.setTag_links (tile row : Nat) (full : Bool) : (s.setTag tile row full).links = s.links := rfl
@[simp] theorem State.setTag_mboxes (tile row : Nat) (full : Bool) : (s.setTag tile row full).mboxes = s.mboxes := rfl
@[simp] theorem State.setTag_scanRows (tile row : Nat) (full : Bool) : (s.setTag tile row full).scanRows = s.scanRows := rfl
@[simp] theorem State.setTag_chunks (tile row : Nat) (full : Bool) : (s.setTag tile row full).chunks = s.chunks := rfl
@[simp] theorem State.setTag_floorDue (tile row : Nat) (full : Bool) : (s.setTag tile row full).floorDue = s.floorDue := rfl
@[simp] theorem State.setTag_noticesA (tile row : Nat) (full : Bool) : (s.setTag tile row full).noticesA = s.noticesA := rfl
@[simp] theorem State.setTag_noticesB (tile row : Nat) (full : Bool) : (s.setTag tile row full).noticesB = s.noticesB := rfl
@[simp] theorem State.setTag_noticesOut (tile row : Nat) (full : Bool) : (s.setTag tile row full).noticesOut = s.noticesOut := rfl
@[simp] theorem State.setTag_backoffs (tile row : Nat) (full : Bool) : (s.setTag tile row full).backoffs = s.backoffs := rfl
@[simp] theorem State.setTag_fences (tile row : Nat) (full : Bool) : (s.setTag tile row full).fences = s.fences := rfl
@[simp] theorem State.setTag_fenceQueue (tile row : Nat) (full : Bool) : (s.setTag tile row full).fenceQueue = s.fenceQueue := rfl
@[simp] theorem State.setTag_laneLife (tile row : Nat) (full : Bool) : (s.setTag tile row full).laneLife = s.laneLife := rfl
@[simp] theorem State.setTag_abortDue (tile row : Nat) (full : Bool) : (s.setTag tile row full).abortDue = s.abortDue := rfl
@[simp] theorem State.setTag_heldLanes (tile row : Nat) (full : Bool) : (s.setTag tile row full).heldLanes = s.heldLanes := rfl
@[simp] theorem State.setTag_pslots (tile row : Nat) (full : Bool) : (s.setTag tile row full).pslots = s.pslots := rfl
@[simp] theorem State.setTag_lanes (tile row : Nat) (full : Bool) : (s.setTag tile row full).lanes = s.lanes := rfl
@[simp] theorem State.setTag_queue (tile row : Nat) (full : Bool) : (s.setTag tile row full).queue = s.queue := rfl
@[simp] theorem State.setTag_terms (tile row : Nat) (full : Bool) : (s.setTag tile row full).terms = s.terms := rfl
@[simp] theorem State.setTag_staging (tile row : Nat) (full : Bool) : (s.setTag tile row full).staging = s.staging := rfl
@[simp] theorem State.setTag_hostPorts (tile row : Nat) (full : Bool) : (s.setTag tile row full).hostPorts = s.hostPorts := rfl
@[simp] theorem State.setTag_ceRecs (tile row : Nat) (full : Bool) : (s.setTag tile row full).ceRecs = s.ceRecs := rfl
@[simp] theorem State.setTag_cages (tile row : Nat) (full : Bool) : (s.setTag tile row full).cages = s.cages := rfl
@[simp] theorem State.setTag_ptpCur (tile row : Nat) (full : Bool) : (s.setTag tile row full).ptpCur = s.ptpCur := rfl
@[simp] theorem State.setTag_fenceHist (tile row : Nat) (full : Bool) : (s.setTag tile row full).fenceHist = s.fenceHist := rfl
@[simp] theorem State.setTag_nodeLogs (tile row : Nat) (full : Bool) : (s.setTag tile row full).nodeLogs = s.nodeLogs := rfl
@[simp] theorem State.setTag_nextTxn (tile row : Nat) (full : Bool) : (s.setTag tile row full).nextTxn = s.nextTxn := rfl
@[simp] theorem State.setTag_kv (tile row : Nat) (full : Bool) : (s.setTag tile row full).kv = s.kv := rfl
@[simp] theorem State.setTag_groupEnts (tile row : Nat) (full : Bool) : (s.setTag tile row full).groupEnts = s.groupEnts := rfl
@[simp] theorem State.setTag_pgroups (tile row : Nat) (full : Bool) : (s.setTag tile row full).pgroups = s.pgroups := rfl
@[simp] theorem State.setTag_allocs (tile row : Nat) (full : Bool) : (s.setTag tile row full).allocs = s.allocs := rfl
@[simp] theorem State.setTag_faults (tile row : Nat) (full : Bool) : (s.setTag tile row full).faults = s.faults := rfl
@[simp] theorem State.setTag_evac (tile row : Nat) (full : Bool) : (s.setTag tile row full).evac = s.evac := rfl
@[simp] theorem State.setTag_rebalDue (tile row : Nat) (full : Bool) : (s.setTag tile row full).rebalDue = s.rebalDue := rfl
@[simp] theorem State.setTag_fullDue (tile row : Nat) (full : Bool) : (s.setTag tile row full).fullDue = s.fullDue := rfl
@[simp] theorem State.setTag_staleDies (tile row : Nat) (full : Bool) : (s.setTag tile row full).staleDies = s.staleDies := rfl
@[simp] theorem State.setTag_sparesChosen (tile row : Nat) (full : Bool) : (s.setTag tile row full).sparesChosen = s.sparesChosen := rfl
@[simp] theorem State.setTag_slowSince (tile row : Nat) (full : Bool) : (s.setTag tile row full).slowSince = s.slowSince := rfl
@[simp] theorem State.setTag_wakeWaiting (tile row : Nat) (full : Bool) : (s.setTag tile row full).wakeWaiting = s.wakeWaiting := rfl
@[simp] theorem State.setTag_eopParts (tile row : Nat) (full : Bool) : (s.setTag tile row full).eopParts = s.eopParts := rfl
@[simp] theorem State.setTag_halfOpen (tile row : Nat) (full : Bool) : (s.setTag tile row full).halfOpen = s.halfOpen := rfl
@[simp] theorem State.setTag_sessions (tile row : Nat) (full : Bool) : (s.setTag tile row full).sessions = s.sessions := rfl
@[simp] theorem State.setTag_refusedAt (tile row : Nat) (full : Bool) : (s.setTag tile row full).refusedAt = s.refusedAt := rfl
@[simp] theorem State.setTag_eopDiscards (tile row : Nat) (full : Bool) : (s.setTag tile row full).eopDiscards = s.eopDiscards := rfl
@[simp] theorem State.setTag_protoLog (tile row : Nat) (full : Bool) : (s.setTag tile row full).protoLog = s.protoLog := rfl
@[simp] theorem State.setTag_closeDue (tile row : Nat) (full : Bool) : (s.setTag tile row full).closeDue = s.closeDue := rfl
@[simp] theorem State.setTag_mgmtDue (tile row : Nat) (full : Bool) : (s.setTag tile row full).mgmtDue = s.mgmtDue := rfl
@[simp] theorem State.setTag_quorumTaken (tile row : Nat) (full : Bool) : (s.setTag tile row full).quorumTaken = s.quorumTaken := rfl
@[simp] theorem State.setTag_quorumQueue (tile row : Nat) (full : Bool) : (s.setTag tile row full).quorumQueue = s.quorumQueue := rfl
@[simp] theorem State.setTag_readyAt (tile row : Nat) (full : Bool) : (s.setTag tile row full).readyAt = s.readyAt := rfl
@[simp] theorem State.setTag_store0 (tile row : Nat) (full : Bool) : (s.setTag tile row full).store0 = s.store0 := rfl
@[simp] theorem State.setTag_store1 (tile row : Nat) (full : Bool) : (s.setTag tile row full).store1 = s.store1 := rfl
@[simp] theorem State.setTag_storeDirty (tile row : Nat) (full : Bool) : (s.setTag tile row full).storeDirty = s.storeDirty := rfl
@[simp] theorem State.setTag_recovery (tile row : Nat) (full : Bool) : (s.setTag tile row full).recovery = s.recovery := rfl
@[simp] theorem State.setTag_sectors (tile row : Nat) (full : Bool) : (s.setTag tile row full).sectors = s.sectors := rfl
@[simp] theorem State.setTag_spots (tile row : Nat) (full : Bool) : (s.setTag tile row full).spots = s.spots := rfl
@[simp] theorem State.setTag_dieTherm (tile row : Nat) (full : Bool) : (s.setTag tile row full).dieTherm = s.dieTherm := rfl
@[simp] theorem State.setTag_ramps (tile row : Nat) (full : Bool) : (s.setTag tile row full).ramps = s.ramps := rfl
@[simp] theorem State.setTag_rejoin (tile row : Nat) (full : Bool) : (s.setTag tile row full).rejoin = s.rejoin := rfl
@[simp] theorem State.setTag_watts (tile row : Nat) (full : Bool) : (s.setTag tile row full).watts = s.watts := rfl
@[simp] theorem State.setTag_ceilingAt (tile row : Nat) (full : Bool) : (s.setTag tile row full).ceilingAt = s.ceilingAt := rfl
@[simp] theorem State.setTag_tripped (tile row : Nat) (full : Bool) : (s.setTag tile row full).tripped = s.tripped := rfl
@[simp] theorem State.setTag_coolWarn (tile row : Nat) (full : Bool) : (s.setTag tile row full).coolWarn = s.coolWarn := rfl
@[simp] theorem State.setTag_coolFrom (tile row : Nat) (full : Bool) : (s.setTag tile row full).coolFrom = s.coolFrom := rfl
@[simp] theorem State.setTag_margins (tile row : Nat) (full : Bool) : (s.setTag tile row full).margins = s.margins := rfl
@[simp] theorem State.setTag_lowTiles (tile row : Nat) (full : Bool) : (s.setTag tile row full).lowTiles = s.lowTiles := rfl
@[simp] theorem State.setTag_factoryTrims (tile row : Nat) (full : Bool) : (s.setTag tile row full).factoryTrims = s.factoryTrims := rfl
@[simp] theorem State.setTag_floorTaken (tile row : Nat) (full : Bool) : (s.setTag tile row full).floorTaken = s.floorTaken := rfl
@[simp] theorem State.setTag_weakLanes (tile row : Nat) (full : Bool) : (s.setTag tile row full).weakLanes = s.weakLanes := rfl
@[simp] theorem State.setTag_eccRates (tile row : Nat) (full : Bool) : (s.setTag tile row full).eccRates = s.eccRates := rfl
@[simp] theorem State.setTag_marginPlan (tile row : Nat) (full : Bool) : (s.setTag tile row full).marginPlan = s.marginPlan := rfl
@[simp] theorem State.setTag_ageHistory (tile row : Nat) (full : Bool) : (s.setTag tile row full).ageHistory = s.ageHistory := rfl
@[simp] theorem State.setTag_poweredFrom (tile row : Nat) (full : Bool) : (s.setTag tile row full).poweredFrom = s.poweredFrom := rfl
@[simp] theorem State.setTag_beats (tile row : Nat) (full : Bool) : (s.setTag tile row full).beats = s.beats := rfl
@[simp] theorem State.setTag_hubMiss (tile row : Nat) (full : Bool) : (s.setTag tile row full).hubMiss = s.hubMiss := rfl
@[simp] theorem State.setTag_offMiss (tile row : Nat) (full : Bool) : (s.setTag tile row full).offMiss = s.offMiss := rfl
@[simp] theorem State.setTag_transientAt (tile row : Nat) (full : Bool) : (s.setTag tile row full).transientAt = s.transientAt := rfl
@[simp] theorem State.setTag_resent (tile row : Nat) (full : Bool) : (s.setTag tile row full).resent = s.resent := rfl
@[simp] theorem State.setTag_bgViol (tile row : Nat) (full : Bool) : (s.setTag tile row full).bgViol = s.bgViol := rfl
@[simp] theorem State.setTag_bgFrom (tile row : Nat) (full : Bool) : (s.setTag tile row full).bgFrom = s.bgFrom := rfl
@[simp] theorem State.setTag_bgHoldUntil (tile row : Nat) (full : Bool) : (s.setTag tile row full).bgHoldUntil = s.bgHoldUntil := rfl
@[simp] theorem State.setTag_bgHolds (tile row : Nat) (full : Bool) : (s.setTag tile row full).bgHolds = s.bgHolds := rfl
@[simp] theorem State.setTag_faultLog (tile row : Nat) (full : Bool) : (s.setTag tile row full).faultLog = s.faultLog := rfl
@[simp] theorem State.setTag_hubsLost (tile row : Nat) (full : Bool) : (s.setTag tile row full).hubsLost = s.hubsLost := rfl
@[simp] theorem State.setTag_stackRecs (tile row : Nat) (full : Bool) : (s.setTag tile row full).stackRecs = s.stackRecs := rfl
@[simp] theorem State.setTag_cas (tile row : Nat) (full : Bool) : (s.setTag tile row full).cas = s.cas := rfl
@[simp] theorem State.setTag_boot (tile row : Nat) (full : Bool) : (s.setTag tile row full).boot = s.boot := rfl
@[simp] theorem State.setTag_dump (tile row : Nat) (full : Bool) : (s.setTag tile row full).dump = s.dump := rfl

-- publish changes the event ring alone.
@[simp] theorem State.publish_clk (a : Nat) (val : List Nat) : (s.publish a val).clk = s.clk := rfl
@[simp] theorem State.publish_tbOn (a : Nat) (val : List Nat) : (s.publish a val).tbOn = s.tbOn := rfl
@[simp] theorem State.publish_tbBase (a : Nat) (val : List Nat) : (s.publish a val).tbBase = s.tbBase := rfl
@[simp] theorem State.publish_freeCtr (a : Nat) (val : List Nat) : (s.publish a val).freeCtr = s.freeCtr := rfl
@[simp] theorem State.publish_pending (a : Nat) (val : List Nat) : (s.publish a val).pending = s.pending := rfl
@[simp] theorem State.publish_out (a : Nat) (val : List Nat) : (s.publish a val).out = s.out := rfl
@[simp] theorem State.publish_mem (a : Nat) (val : List Nat) : (s.publish a val).mem = s.mem := rfl
@[simp] theorem State.publish_tags (a : Nat) (val : List Nat) : (s.publish a val).tags = s.tags := rfl
@[simp] theorem State.publish_od (a : Nat) (val : List Nat) : (s.publish a val).od = s.od := rfl
@[simp] theorem State.publish_satSet (a : Nat) (val : List Nat) : (s.publish a val).satSet = s.satSet := rfl
@[simp] theorem State.publish_satList (a : Nat) (val : List Nat) : (s.publish a val).satList = s.satList := rfl
@[simp] theorem State.publish_tiles (a : Nat) (val : List Nat) : (s.publish a val).tiles = s.tiles := rfl
@[simp] theorem State.publish_bank0 (a : Nat) (val : List Nat) : (s.publish a val).bank0 = s.bank0 := rfl
@[simp] theorem State.publish_bank1 (a : Nat) (val : List Nat) : (s.publish a val).bank1 = s.bank1 := rfl
@[simp] theorem State.publish_links (a : Nat) (val : List Nat) : (s.publish a val).links = s.links := rfl
@[simp] theorem State.publish_mboxes (a : Nat) (val : List Nat) : (s.publish a val).mboxes = s.mboxes := rfl
@[simp] theorem State.publish_scanRows (a : Nat) (val : List Nat) : (s.publish a val).scanRows = s.scanRows := rfl
@[simp] theorem State.publish_chunks (a : Nat) (val : List Nat) : (s.publish a val).chunks = s.chunks := rfl
@[simp] theorem State.publish_floorDue (a : Nat) (val : List Nat) : (s.publish a val).floorDue = s.floorDue := rfl
@[simp] theorem State.publish_noticesA (a : Nat) (val : List Nat) : (s.publish a val).noticesA = s.noticesA := rfl
@[simp] theorem State.publish_noticesB (a : Nat) (val : List Nat) : (s.publish a val).noticesB = s.noticesB := rfl
@[simp] theorem State.publish_noticesOut (a : Nat) (val : List Nat) : (s.publish a val).noticesOut = s.noticesOut := rfl
@[simp] theorem State.publish_backoffs (a : Nat) (val : List Nat) : (s.publish a val).backoffs = s.backoffs := rfl
@[simp] theorem State.publish_fences (a : Nat) (val : List Nat) : (s.publish a val).fences = s.fences := rfl
@[simp] theorem State.publish_fenceQueue (a : Nat) (val : List Nat) : (s.publish a val).fenceQueue = s.fenceQueue := rfl
@[simp] theorem State.publish_laneLife (a : Nat) (val : List Nat) : (s.publish a val).laneLife = s.laneLife := rfl
@[simp] theorem State.publish_abortDue (a : Nat) (val : List Nat) : (s.publish a val).abortDue = s.abortDue := rfl
@[simp] theorem State.publish_heldLanes (a : Nat) (val : List Nat) : (s.publish a val).heldLanes = s.heldLanes := rfl
@[simp] theorem State.publish_pslots (a : Nat) (val : List Nat) : (s.publish a val).pslots = s.pslots := rfl
@[simp] theorem State.publish_lanes (a : Nat) (val : List Nat) : (s.publish a val).lanes = s.lanes := rfl
@[simp] theorem State.publish_queue (a : Nat) (val : List Nat) : (s.publish a val).queue = s.queue := rfl
@[simp] theorem State.publish_terms (a : Nat) (val : List Nat) : (s.publish a val).terms = s.terms := rfl
@[simp] theorem State.publish_staging (a : Nat) (val : List Nat) : (s.publish a val).staging = s.staging := rfl
@[simp] theorem State.publish_hostPorts (a : Nat) (val : List Nat) : (s.publish a val).hostPorts = s.hostPorts := rfl
@[simp] theorem State.publish_ceRecs (a : Nat) (val : List Nat) : (s.publish a val).ceRecs = s.ceRecs := rfl
@[simp] theorem State.publish_cages (a : Nat) (val : List Nat) : (s.publish a val).cages = s.cages := rfl
@[simp] theorem State.publish_ptpCur (a : Nat) (val : List Nat) : (s.publish a val).ptpCur = s.ptpCur := rfl
@[simp] theorem State.publish_fenceHist (a : Nat) (val : List Nat) : (s.publish a val).fenceHist = s.fenceHist := rfl
@[simp] theorem State.publish_nodeLogs (a : Nat) (val : List Nat) : (s.publish a val).nodeLogs = s.nodeLogs := rfl
@[simp] theorem State.publish_nextTxn (a : Nat) (val : List Nat) : (s.publish a val).nextTxn = s.nextTxn := rfl
@[simp] theorem State.publish_kv (a : Nat) (val : List Nat) : (s.publish a val).kv = s.kv := rfl
@[simp] theorem State.publish_groupEnts (a : Nat) (val : List Nat) : (s.publish a val).groupEnts = s.groupEnts := rfl
@[simp] theorem State.publish_pgroups (a : Nat) (val : List Nat) : (s.publish a val).pgroups = s.pgroups := rfl
@[simp] theorem State.publish_allocs (a : Nat) (val : List Nat) : (s.publish a val).allocs = s.allocs := rfl
@[simp] theorem State.publish_faults (a : Nat) (val : List Nat) : (s.publish a val).faults = s.faults := rfl
@[simp] theorem State.publish_evac (a : Nat) (val : List Nat) : (s.publish a val).evac = s.evac := rfl
@[simp] theorem State.publish_rebalDue (a : Nat) (val : List Nat) : (s.publish a val).rebalDue = s.rebalDue := rfl
@[simp] theorem State.publish_fullDue (a : Nat) (val : List Nat) : (s.publish a val).fullDue = s.fullDue := rfl
@[simp] theorem State.publish_staleDies (a : Nat) (val : List Nat) : (s.publish a val).staleDies = s.staleDies := rfl
@[simp] theorem State.publish_sparesChosen (a : Nat) (val : List Nat) : (s.publish a val).sparesChosen = s.sparesChosen := rfl
@[simp] theorem State.publish_slowSince (a : Nat) (val : List Nat) : (s.publish a val).slowSince = s.slowSince := rfl
@[simp] theorem State.publish_wakeWaiting (a : Nat) (val : List Nat) : (s.publish a val).wakeWaiting = s.wakeWaiting := rfl
@[simp] theorem State.publish_eopParts (a : Nat) (val : List Nat) : (s.publish a val).eopParts = s.eopParts := rfl
@[simp] theorem State.publish_halfOpen (a : Nat) (val : List Nat) : (s.publish a val).halfOpen = s.halfOpen := rfl
@[simp] theorem State.publish_sessions (a : Nat) (val : List Nat) : (s.publish a val).sessions = s.sessions := rfl
@[simp] theorem State.publish_refusedAt (a : Nat) (val : List Nat) : (s.publish a val).refusedAt = s.refusedAt := rfl
@[simp] theorem State.publish_eopDiscards (a : Nat) (val : List Nat) : (s.publish a val).eopDiscards = s.eopDiscards := rfl
@[simp] theorem State.publish_protoLog (a : Nat) (val : List Nat) : (s.publish a val).protoLog = s.protoLog := rfl
@[simp] theorem State.publish_closeDue (a : Nat) (val : List Nat) : (s.publish a val).closeDue = s.closeDue := rfl
@[simp] theorem State.publish_mgmtDue (a : Nat) (val : List Nat) : (s.publish a val).mgmtDue = s.mgmtDue := rfl
@[simp] theorem State.publish_quorumTaken (a : Nat) (val : List Nat) : (s.publish a val).quorumTaken = s.quorumTaken := rfl
@[simp] theorem State.publish_quorumQueue (a : Nat) (val : List Nat) : (s.publish a val).quorumQueue = s.quorumQueue := rfl
@[simp] theorem State.publish_readyAt (a : Nat) (val : List Nat) : (s.publish a val).readyAt = s.readyAt := rfl
@[simp] theorem State.publish_store0 (a : Nat) (val : List Nat) : (s.publish a val).store0 = s.store0 := rfl
@[simp] theorem State.publish_store1 (a : Nat) (val : List Nat) : (s.publish a val).store1 = s.store1 := rfl
@[simp] theorem State.publish_storeDirty (a : Nat) (val : List Nat) : (s.publish a val).storeDirty = s.storeDirty := rfl
@[simp] theorem State.publish_recovery (a : Nat) (val : List Nat) : (s.publish a val).recovery = s.recovery := rfl
@[simp] theorem State.publish_sectors (a : Nat) (val : List Nat) : (s.publish a val).sectors = s.sectors := rfl
@[simp] theorem State.publish_spots (a : Nat) (val : List Nat) : (s.publish a val).spots = s.spots := rfl
@[simp] theorem State.publish_dieTherm (a : Nat) (val : List Nat) : (s.publish a val).dieTherm = s.dieTherm := rfl
@[simp] theorem State.publish_ramps (a : Nat) (val : List Nat) : (s.publish a val).ramps = s.ramps := rfl
@[simp] theorem State.publish_rejoin (a : Nat) (val : List Nat) : (s.publish a val).rejoin = s.rejoin := rfl
@[simp] theorem State.publish_watts (a : Nat) (val : List Nat) : (s.publish a val).watts = s.watts := rfl
@[simp] theorem State.publish_ceilingAt (a : Nat) (val : List Nat) : (s.publish a val).ceilingAt = s.ceilingAt := rfl
@[simp] theorem State.publish_tripped (a : Nat) (val : List Nat) : (s.publish a val).tripped = s.tripped := rfl
@[simp] theorem State.publish_coolWarn (a : Nat) (val : List Nat) : (s.publish a val).coolWarn = s.coolWarn := rfl
@[simp] theorem State.publish_coolFrom (a : Nat) (val : List Nat) : (s.publish a val).coolFrom = s.coolFrom := rfl
@[simp] theorem State.publish_margins (a : Nat) (val : List Nat) : (s.publish a val).margins = s.margins := rfl
@[simp] theorem State.publish_lowTiles (a : Nat) (val : List Nat) : (s.publish a val).lowTiles = s.lowTiles := rfl
@[simp] theorem State.publish_factoryTrims (a : Nat) (val : List Nat) : (s.publish a val).factoryTrims = s.factoryTrims := rfl
@[simp] theorem State.publish_floorTaken (a : Nat) (val : List Nat) : (s.publish a val).floorTaken = s.floorTaken := rfl
@[simp] theorem State.publish_weakLanes (a : Nat) (val : List Nat) : (s.publish a val).weakLanes = s.weakLanes := rfl
@[simp] theorem State.publish_eccRates (a : Nat) (val : List Nat) : (s.publish a val).eccRates = s.eccRates := rfl
@[simp] theorem State.publish_marginPlan (a : Nat) (val : List Nat) : (s.publish a val).marginPlan = s.marginPlan := rfl
@[simp] theorem State.publish_ageHistory (a : Nat) (val : List Nat) : (s.publish a val).ageHistory = s.ageHistory := rfl
@[simp] theorem State.publish_poweredFrom (a : Nat) (val : List Nat) : (s.publish a val).poweredFrom = s.poweredFrom := rfl
@[simp] theorem State.publish_beats (a : Nat) (val : List Nat) : (s.publish a val).beats = s.beats := rfl
@[simp] theorem State.publish_hubMiss (a : Nat) (val : List Nat) : (s.publish a val).hubMiss = s.hubMiss := rfl
@[simp] theorem State.publish_offMiss (a : Nat) (val : List Nat) : (s.publish a val).offMiss = s.offMiss := rfl
@[simp] theorem State.publish_transientAt (a : Nat) (val : List Nat) : (s.publish a val).transientAt = s.transientAt := rfl
@[simp] theorem State.publish_resent (a : Nat) (val : List Nat) : (s.publish a val).resent = s.resent := rfl
@[simp] theorem State.publish_bgViol (a : Nat) (val : List Nat) : (s.publish a val).bgViol = s.bgViol := rfl
@[simp] theorem State.publish_bgFrom (a : Nat) (val : List Nat) : (s.publish a val).bgFrom = s.bgFrom := rfl
@[simp] theorem State.publish_bgHoldUntil (a : Nat) (val : List Nat) : (s.publish a val).bgHoldUntil = s.bgHoldUntil := rfl
@[simp] theorem State.publish_bgHolds (a : Nat) (val : List Nat) : (s.publish a val).bgHolds = s.bgHolds := rfl
@[simp] theorem State.publish_faultLog (a : Nat) (val : List Nat) : (s.publish a val).faultLog = s.faultLog := rfl
@[simp] theorem State.publish_hubsLost (a : Nat) (val : List Nat) : (s.publish a val).hubsLost = s.hubsLost := rfl
@[simp] theorem State.publish_stackRecs (a : Nat) (val : List Nat) : (s.publish a val).stackRecs = s.stackRecs := rfl
@[simp] theorem State.publish_cas (a : Nat) (val : List Nat) : (s.publish a val).cas = s.cas := rfl
@[simp] theorem State.publish_boot (a : Nat) (val : List Nat) : (s.publish a val).boot = s.boot := rfl
@[simp] theorem State.publish_dump (a : Nat) (val : List Nat) : (s.publish a val).dump = s.dump := rfl

-- publish24 changes the event ring alone.
@[simp] theorem State.publish24_clk (a : Nat) (b : List Nat) : (s.publish24 a b).clk = s.clk := rfl
@[simp] theorem State.publish24_tbOn (a : Nat) (b : List Nat) : (s.publish24 a b).tbOn = s.tbOn := rfl
@[simp] theorem State.publish24_tbBase (a : Nat) (b : List Nat) : (s.publish24 a b).tbBase = s.tbBase := rfl
@[simp] theorem State.publish24_freeCtr (a : Nat) (b : List Nat) : (s.publish24 a b).freeCtr = s.freeCtr := rfl
@[simp] theorem State.publish24_pending (a : Nat) (b : List Nat) : (s.publish24 a b).pending = s.pending := rfl
@[simp] theorem State.publish24_out (a : Nat) (b : List Nat) : (s.publish24 a b).out = s.out := rfl
@[simp] theorem State.publish24_mem (a : Nat) (b : List Nat) : (s.publish24 a b).mem = s.mem := rfl
@[simp] theorem State.publish24_tags (a : Nat) (b : List Nat) : (s.publish24 a b).tags = s.tags := rfl
@[simp] theorem State.publish24_od (a : Nat) (b : List Nat) : (s.publish24 a b).od = s.od := rfl
@[simp] theorem State.publish24_satSet (a : Nat) (b : List Nat) : (s.publish24 a b).satSet = s.satSet := rfl
@[simp] theorem State.publish24_satList (a : Nat) (b : List Nat) : (s.publish24 a b).satList = s.satList := rfl
@[simp] theorem State.publish24_tiles (a : Nat) (b : List Nat) : (s.publish24 a b).tiles = s.tiles := rfl
@[simp] theorem State.publish24_bank0 (a : Nat) (b : List Nat) : (s.publish24 a b).bank0 = s.bank0 := rfl
@[simp] theorem State.publish24_bank1 (a : Nat) (b : List Nat) : (s.publish24 a b).bank1 = s.bank1 := rfl
@[simp] theorem State.publish24_links (a : Nat) (b : List Nat) : (s.publish24 a b).links = s.links := rfl
@[simp] theorem State.publish24_mboxes (a : Nat) (b : List Nat) : (s.publish24 a b).mboxes = s.mboxes := rfl
@[simp] theorem State.publish24_scanRows (a : Nat) (b : List Nat) : (s.publish24 a b).scanRows = s.scanRows := rfl
@[simp] theorem State.publish24_chunks (a : Nat) (b : List Nat) : (s.publish24 a b).chunks = s.chunks := rfl
@[simp] theorem State.publish24_floorDue (a : Nat) (b : List Nat) : (s.publish24 a b).floorDue = s.floorDue := rfl
@[simp] theorem State.publish24_noticesA (a : Nat) (b : List Nat) : (s.publish24 a b).noticesA = s.noticesA := rfl
@[simp] theorem State.publish24_noticesB (a : Nat) (b : List Nat) : (s.publish24 a b).noticesB = s.noticesB := rfl
@[simp] theorem State.publish24_noticesOut (a : Nat) (b : List Nat) : (s.publish24 a b).noticesOut = s.noticesOut := rfl
@[simp] theorem State.publish24_backoffs (a : Nat) (b : List Nat) : (s.publish24 a b).backoffs = s.backoffs := rfl
@[simp] theorem State.publish24_fences (a : Nat) (b : List Nat) : (s.publish24 a b).fences = s.fences := rfl
@[simp] theorem State.publish24_fenceQueue (a : Nat) (b : List Nat) : (s.publish24 a b).fenceQueue = s.fenceQueue := rfl
@[simp] theorem State.publish24_laneLife (a : Nat) (b : List Nat) : (s.publish24 a b).laneLife = s.laneLife := rfl
@[simp] theorem State.publish24_abortDue (a : Nat) (b : List Nat) : (s.publish24 a b).abortDue = s.abortDue := rfl
@[simp] theorem State.publish24_heldLanes (a : Nat) (b : List Nat) : (s.publish24 a b).heldLanes = s.heldLanes := rfl
@[simp] theorem State.publish24_pslots (a : Nat) (b : List Nat) : (s.publish24 a b).pslots = s.pslots := rfl
@[simp] theorem State.publish24_lanes (a : Nat) (b : List Nat) : (s.publish24 a b).lanes = s.lanes := rfl
@[simp] theorem State.publish24_queue (a : Nat) (b : List Nat) : (s.publish24 a b).queue = s.queue := rfl
@[simp] theorem State.publish24_terms (a : Nat) (b : List Nat) : (s.publish24 a b).terms = s.terms := rfl
@[simp] theorem State.publish24_staging (a : Nat) (b : List Nat) : (s.publish24 a b).staging = s.staging := rfl
@[simp] theorem State.publish24_hostPorts (a : Nat) (b : List Nat) : (s.publish24 a b).hostPorts = s.hostPorts := rfl
@[simp] theorem State.publish24_ceRecs (a : Nat) (b : List Nat) : (s.publish24 a b).ceRecs = s.ceRecs := rfl
@[simp] theorem State.publish24_cages (a : Nat) (b : List Nat) : (s.publish24 a b).cages = s.cages := rfl
@[simp] theorem State.publish24_ptpCur (a : Nat) (b : List Nat) : (s.publish24 a b).ptpCur = s.ptpCur := rfl
@[simp] theorem State.publish24_fenceHist (a : Nat) (b : List Nat) : (s.publish24 a b).fenceHist = s.fenceHist := rfl
@[simp] theorem State.publish24_nodeLogs (a : Nat) (b : List Nat) : (s.publish24 a b).nodeLogs = s.nodeLogs := rfl
@[simp] theorem State.publish24_nextTxn (a : Nat) (b : List Nat) : (s.publish24 a b).nextTxn = s.nextTxn := rfl
@[simp] theorem State.publish24_kv (a : Nat) (b : List Nat) : (s.publish24 a b).kv = s.kv := rfl
@[simp] theorem State.publish24_groupEnts (a : Nat) (b : List Nat) : (s.publish24 a b).groupEnts = s.groupEnts := rfl
@[simp] theorem State.publish24_pgroups (a : Nat) (b : List Nat) : (s.publish24 a b).pgroups = s.pgroups := rfl
@[simp] theorem State.publish24_allocs (a : Nat) (b : List Nat) : (s.publish24 a b).allocs = s.allocs := rfl
@[simp] theorem State.publish24_faults (a : Nat) (b : List Nat) : (s.publish24 a b).faults = s.faults := rfl
@[simp] theorem State.publish24_evac (a : Nat) (b : List Nat) : (s.publish24 a b).evac = s.evac := rfl
@[simp] theorem State.publish24_rebalDue (a : Nat) (b : List Nat) : (s.publish24 a b).rebalDue = s.rebalDue := rfl
@[simp] theorem State.publish24_fullDue (a : Nat) (b : List Nat) : (s.publish24 a b).fullDue = s.fullDue := rfl
@[simp] theorem State.publish24_staleDies (a : Nat) (b : List Nat) : (s.publish24 a b).staleDies = s.staleDies := rfl
@[simp] theorem State.publish24_sparesChosen (a : Nat) (b : List Nat) : (s.publish24 a b).sparesChosen = s.sparesChosen := rfl
@[simp] theorem State.publish24_slowSince (a : Nat) (b : List Nat) : (s.publish24 a b).slowSince = s.slowSince := rfl
@[simp] theorem State.publish24_wakeWaiting (a : Nat) (b : List Nat) : (s.publish24 a b).wakeWaiting = s.wakeWaiting := rfl
@[simp] theorem State.publish24_eopParts (a : Nat) (b : List Nat) : (s.publish24 a b).eopParts = s.eopParts := rfl
@[simp] theorem State.publish24_halfOpen (a : Nat) (b : List Nat) : (s.publish24 a b).halfOpen = s.halfOpen := rfl
@[simp] theorem State.publish24_sessions (a : Nat) (b : List Nat) : (s.publish24 a b).sessions = s.sessions := rfl
@[simp] theorem State.publish24_refusedAt (a : Nat) (b : List Nat) : (s.publish24 a b).refusedAt = s.refusedAt := rfl
@[simp] theorem State.publish24_eopDiscards (a : Nat) (b : List Nat) : (s.publish24 a b).eopDiscards = s.eopDiscards := rfl
@[simp] theorem State.publish24_protoLog (a : Nat) (b : List Nat) : (s.publish24 a b).protoLog = s.protoLog := rfl
@[simp] theorem State.publish24_closeDue (a : Nat) (b : List Nat) : (s.publish24 a b).closeDue = s.closeDue := rfl
@[simp] theorem State.publish24_mgmtDue (a : Nat) (b : List Nat) : (s.publish24 a b).mgmtDue = s.mgmtDue := rfl
@[simp] theorem State.publish24_quorumTaken (a : Nat) (b : List Nat) : (s.publish24 a b).quorumTaken = s.quorumTaken := rfl
@[simp] theorem State.publish24_quorumQueue (a : Nat) (b : List Nat) : (s.publish24 a b).quorumQueue = s.quorumQueue := rfl
@[simp] theorem State.publish24_readyAt (a : Nat) (b : List Nat) : (s.publish24 a b).readyAt = s.readyAt := rfl
@[simp] theorem State.publish24_store0 (a : Nat) (b : List Nat) : (s.publish24 a b).store0 = s.store0 := rfl
@[simp] theorem State.publish24_store1 (a : Nat) (b : List Nat) : (s.publish24 a b).store1 = s.store1 := rfl
@[simp] theorem State.publish24_storeDirty (a : Nat) (b : List Nat) : (s.publish24 a b).storeDirty = s.storeDirty := rfl
@[simp] theorem State.publish24_recovery (a : Nat) (b : List Nat) : (s.publish24 a b).recovery = s.recovery := rfl
@[simp] theorem State.publish24_sectors (a : Nat) (b : List Nat) : (s.publish24 a b).sectors = s.sectors := rfl
@[simp] theorem State.publish24_spots (a : Nat) (b : List Nat) : (s.publish24 a b).spots = s.spots := rfl
@[simp] theorem State.publish24_dieTherm (a : Nat) (b : List Nat) : (s.publish24 a b).dieTherm = s.dieTherm := rfl
@[simp] theorem State.publish24_ramps (a : Nat) (b : List Nat) : (s.publish24 a b).ramps = s.ramps := rfl
@[simp] theorem State.publish24_rejoin (a : Nat) (b : List Nat) : (s.publish24 a b).rejoin = s.rejoin := rfl
@[simp] theorem State.publish24_watts (a : Nat) (b : List Nat) : (s.publish24 a b).watts = s.watts := rfl
@[simp] theorem State.publish24_ceilingAt (a : Nat) (b : List Nat) : (s.publish24 a b).ceilingAt = s.ceilingAt := rfl
@[simp] theorem State.publish24_tripped (a : Nat) (b : List Nat) : (s.publish24 a b).tripped = s.tripped := rfl
@[simp] theorem State.publish24_coolWarn (a : Nat) (b : List Nat) : (s.publish24 a b).coolWarn = s.coolWarn := rfl
@[simp] theorem State.publish24_coolFrom (a : Nat) (b : List Nat) : (s.publish24 a b).coolFrom = s.coolFrom := rfl
@[simp] theorem State.publish24_margins (a : Nat) (b : List Nat) : (s.publish24 a b).margins = s.margins := rfl
@[simp] theorem State.publish24_lowTiles (a : Nat) (b : List Nat) : (s.publish24 a b).lowTiles = s.lowTiles := rfl
@[simp] theorem State.publish24_factoryTrims (a : Nat) (b : List Nat) : (s.publish24 a b).factoryTrims = s.factoryTrims := rfl
@[simp] theorem State.publish24_floorTaken (a : Nat) (b : List Nat) : (s.publish24 a b).floorTaken = s.floorTaken := rfl
@[simp] theorem State.publish24_weakLanes (a : Nat) (b : List Nat) : (s.publish24 a b).weakLanes = s.weakLanes := rfl
@[simp] theorem State.publish24_eccRates (a : Nat) (b : List Nat) : (s.publish24 a b).eccRates = s.eccRates := rfl
@[simp] theorem State.publish24_marginPlan (a : Nat) (b : List Nat) : (s.publish24 a b).marginPlan = s.marginPlan := rfl
@[simp] theorem State.publish24_ageHistory (a : Nat) (b : List Nat) : (s.publish24 a b).ageHistory = s.ageHistory := rfl
@[simp] theorem State.publish24_poweredFrom (a : Nat) (b : List Nat) : (s.publish24 a b).poweredFrom = s.poweredFrom := rfl
@[simp] theorem State.publish24_beats (a : Nat) (b : List Nat) : (s.publish24 a b).beats = s.beats := rfl
@[simp] theorem State.publish24_hubMiss (a : Nat) (b : List Nat) : (s.publish24 a b).hubMiss = s.hubMiss := rfl
@[simp] theorem State.publish24_offMiss (a : Nat) (b : List Nat) : (s.publish24 a b).offMiss = s.offMiss := rfl
@[simp] theorem State.publish24_transientAt (a : Nat) (b : List Nat) : (s.publish24 a b).transientAt = s.transientAt := rfl
@[simp] theorem State.publish24_resent (a : Nat) (b : List Nat) : (s.publish24 a b).resent = s.resent := rfl
@[simp] theorem State.publish24_bgViol (a : Nat) (b : List Nat) : (s.publish24 a b).bgViol = s.bgViol := rfl
@[simp] theorem State.publish24_bgFrom (a : Nat) (b : List Nat) : (s.publish24 a b).bgFrom = s.bgFrom := rfl
@[simp] theorem State.publish24_bgHoldUntil (a : Nat) (b : List Nat) : (s.publish24 a b).bgHoldUntil = s.bgHoldUntil := rfl
@[simp] theorem State.publish24_bgHolds (a : Nat) (b : List Nat) : (s.publish24 a b).bgHolds = s.bgHolds := rfl
@[simp] theorem State.publish24_faultLog (a : Nat) (b : List Nat) : (s.publish24 a b).faultLog = s.faultLog := rfl
@[simp] theorem State.publish24_hubsLost (a : Nat) (b : List Nat) : (s.publish24 a b).hubsLost = s.hubsLost := rfl
@[simp] theorem State.publish24_stackRecs (a : Nat) (b : List Nat) : (s.publish24 a b).stackRecs = s.stackRecs := rfl
@[simp] theorem State.publish24_cas (a : Nat) (b : List Nat) : (s.publish24 a b).cas = s.cas := rfl
@[simp] theorem State.publish24_boot (a : Nat) (b : List Nat) : (s.publish24 a b).boot = s.boot := rfl
@[simp] theorem State.publish24_dump (a : Nat) (b : List Nat) : (s.publish24 a b).dump = s.dump := rfl

-- putRow changes memory alone.
@[simp] theorem State.putRow_clk (node off : Nat) (r : Row) : (s.putRow node off r).clk = s.clk := rfl
@[simp] theorem State.putRow_tbOn (node off : Nat) (r : Row) : (s.putRow node off r).tbOn = s.tbOn := rfl
@[simp] theorem State.putRow_tbBase (node off : Nat) (r : Row) : (s.putRow node off r).tbBase = s.tbBase := rfl
@[simp] theorem State.putRow_freeCtr (node off : Nat) (r : Row) : (s.putRow node off r).freeCtr = s.freeCtr := rfl
@[simp] theorem State.putRow_pending (node off : Nat) (r : Row) : (s.putRow node off r).pending = s.pending := rfl
@[simp] theorem State.putRow_out (node off : Nat) (r : Row) : (s.putRow node off r).out = s.out := rfl
@[simp] theorem State.putRow_tags (node off : Nat) (r : Row) : (s.putRow node off r).tags = s.tags := rfl
@[simp] theorem State.putRow_od (node off : Nat) (r : Row) : (s.putRow node off r).od = s.od := rfl
@[simp] theorem State.putRow_events (node off : Nat) (r : Row) : (s.putRow node off r).events = s.events := rfl
@[simp] theorem State.putRow_nextEvent (node off : Nat) (r : Row) : (s.putRow node off r).nextEvent = s.nextEvent := rfl
@[simp] theorem State.putRow_lastEvent (node off : Nat) (r : Row) : (s.putRow node off r).lastEvent = s.lastEvent := rfl
@[simp] theorem State.putRow_satSet (node off : Nat) (r : Row) : (s.putRow node off r).satSet = s.satSet := rfl
@[simp] theorem State.putRow_satList (node off : Nat) (r : Row) : (s.putRow node off r).satList = s.satList := rfl
@[simp] theorem State.putRow_tiles (node off : Nat) (r : Row) : (s.putRow node off r).tiles = s.tiles := rfl
@[simp] theorem State.putRow_bank0 (node off : Nat) (r : Row) : (s.putRow node off r).bank0 = s.bank0 := rfl
@[simp] theorem State.putRow_bank1 (node off : Nat) (r : Row) : (s.putRow node off r).bank1 = s.bank1 := rfl
@[simp] theorem State.putRow_links (node off : Nat) (r : Row) : (s.putRow node off r).links = s.links := rfl
@[simp] theorem State.putRow_mboxes (node off : Nat) (r : Row) : (s.putRow node off r).mboxes = s.mboxes := rfl
@[simp] theorem State.putRow_scanRows (node off : Nat) (r : Row) : (s.putRow node off r).scanRows = s.scanRows := rfl
@[simp] theorem State.putRow_chunks (node off : Nat) (r : Row) : (s.putRow node off r).chunks = s.chunks := rfl
@[simp] theorem State.putRow_floorDue (node off : Nat) (r : Row) : (s.putRow node off r).floorDue = s.floorDue := rfl
@[simp] theorem State.putRow_noticesA (node off : Nat) (r : Row) : (s.putRow node off r).noticesA = s.noticesA := rfl
@[simp] theorem State.putRow_noticesB (node off : Nat) (r : Row) : (s.putRow node off r).noticesB = s.noticesB := rfl
@[simp] theorem State.putRow_noticesOut (node off : Nat) (r : Row) : (s.putRow node off r).noticesOut = s.noticesOut := rfl
@[simp] theorem State.putRow_backoffs (node off : Nat) (r : Row) : (s.putRow node off r).backoffs = s.backoffs := rfl
@[simp] theorem State.putRow_fences (node off : Nat) (r : Row) : (s.putRow node off r).fences = s.fences := rfl
@[simp] theorem State.putRow_fenceQueue (node off : Nat) (r : Row) : (s.putRow node off r).fenceQueue = s.fenceQueue := rfl
@[simp] theorem State.putRow_laneLife (node off : Nat) (r : Row) : (s.putRow node off r).laneLife = s.laneLife := rfl
@[simp] theorem State.putRow_abortDue (node off : Nat) (r : Row) : (s.putRow node off r).abortDue = s.abortDue := rfl
@[simp] theorem State.putRow_heldLanes (node off : Nat) (r : Row) : (s.putRow node off r).heldLanes = s.heldLanes := rfl
@[simp] theorem State.putRow_pslots (node off : Nat) (r : Row) : (s.putRow node off r).pslots = s.pslots := rfl
@[simp] theorem State.putRow_lanes (node off : Nat) (r : Row) : (s.putRow node off r).lanes = s.lanes := rfl
@[simp] theorem State.putRow_queue (node off : Nat) (r : Row) : (s.putRow node off r).queue = s.queue := rfl
@[simp] theorem State.putRow_terms (node off : Nat) (r : Row) : (s.putRow node off r).terms = s.terms := rfl
@[simp] theorem State.putRow_staging (node off : Nat) (r : Row) : (s.putRow node off r).staging = s.staging := rfl
@[simp] theorem State.putRow_hostPorts (node off : Nat) (r : Row) : (s.putRow node off r).hostPorts = s.hostPorts := rfl
@[simp] theorem State.putRow_ceRecs (node off : Nat) (r : Row) : (s.putRow node off r).ceRecs = s.ceRecs := rfl
@[simp] theorem State.putRow_cages (node off : Nat) (r : Row) : (s.putRow node off r).cages = s.cages := rfl
@[simp] theorem State.putRow_ptpCur (node off : Nat) (r : Row) : (s.putRow node off r).ptpCur = s.ptpCur := rfl
@[simp] theorem State.putRow_fenceHist (node off : Nat) (r : Row) : (s.putRow node off r).fenceHist = s.fenceHist := rfl
@[simp] theorem State.putRow_nodeLogs (node off : Nat) (r : Row) : (s.putRow node off r).nodeLogs = s.nodeLogs := rfl
@[simp] theorem State.putRow_nextTxn (node off : Nat) (r : Row) : (s.putRow node off r).nextTxn = s.nextTxn := rfl
@[simp] theorem State.putRow_kv (node off : Nat) (r : Row) : (s.putRow node off r).kv = s.kv := rfl
@[simp] theorem State.putRow_groupEnts (node off : Nat) (r : Row) : (s.putRow node off r).groupEnts = s.groupEnts := rfl
@[simp] theorem State.putRow_pgroups (node off : Nat) (r : Row) : (s.putRow node off r).pgroups = s.pgroups := rfl
@[simp] theorem State.putRow_allocs (node off : Nat) (r : Row) : (s.putRow node off r).allocs = s.allocs := rfl
@[simp] theorem State.putRow_faults (node off : Nat) (r : Row) : (s.putRow node off r).faults = s.faults := rfl
@[simp] theorem State.putRow_evac (node off : Nat) (r : Row) : (s.putRow node off r).evac = s.evac := rfl
@[simp] theorem State.putRow_rebalDue (node off : Nat) (r : Row) : (s.putRow node off r).rebalDue = s.rebalDue := rfl
@[simp] theorem State.putRow_fullDue (node off : Nat) (r : Row) : (s.putRow node off r).fullDue = s.fullDue := rfl
@[simp] theorem State.putRow_staleDies (node off : Nat) (r : Row) : (s.putRow node off r).staleDies = s.staleDies := rfl
@[simp] theorem State.putRow_sparesChosen (node off : Nat) (r : Row) : (s.putRow node off r).sparesChosen = s.sparesChosen := rfl
@[simp] theorem State.putRow_slowSince (node off : Nat) (r : Row) : (s.putRow node off r).slowSince = s.slowSince := rfl
@[simp] theorem State.putRow_wakeWaiting (node off : Nat) (r : Row) : (s.putRow node off r).wakeWaiting = s.wakeWaiting := rfl
@[simp] theorem State.putRow_eopParts (node off : Nat) (r : Row) : (s.putRow node off r).eopParts = s.eopParts := rfl
@[simp] theorem State.putRow_halfOpen (node off : Nat) (r : Row) : (s.putRow node off r).halfOpen = s.halfOpen := rfl
@[simp] theorem State.putRow_sessions (node off : Nat) (r : Row) : (s.putRow node off r).sessions = s.sessions := rfl
@[simp] theorem State.putRow_refusedAt (node off : Nat) (r : Row) : (s.putRow node off r).refusedAt = s.refusedAt := rfl
@[simp] theorem State.putRow_eopDiscards (node off : Nat) (r : Row) : (s.putRow node off r).eopDiscards = s.eopDiscards := rfl
@[simp] theorem State.putRow_protoLog (node off : Nat) (r : Row) : (s.putRow node off r).protoLog = s.protoLog := rfl
@[simp] theorem State.putRow_closeDue (node off : Nat) (r : Row) : (s.putRow node off r).closeDue = s.closeDue := rfl
@[simp] theorem State.putRow_mgmtDue (node off : Nat) (r : Row) : (s.putRow node off r).mgmtDue = s.mgmtDue := rfl
@[simp] theorem State.putRow_quorumTaken (node off : Nat) (r : Row) : (s.putRow node off r).quorumTaken = s.quorumTaken := rfl
@[simp] theorem State.putRow_quorumQueue (node off : Nat) (r : Row) : (s.putRow node off r).quorumQueue = s.quorumQueue := rfl
@[simp] theorem State.putRow_readyAt (node off : Nat) (r : Row) : (s.putRow node off r).readyAt = s.readyAt := rfl
@[simp] theorem State.putRow_store0 (node off : Nat) (r : Row) : (s.putRow node off r).store0 = s.store0 := rfl
@[simp] theorem State.putRow_store1 (node off : Nat) (r : Row) : (s.putRow node off r).store1 = s.store1 := rfl
@[simp] theorem State.putRow_storeDirty (node off : Nat) (r : Row) : (s.putRow node off r).storeDirty = s.storeDirty := rfl
@[simp] theorem State.putRow_recovery (node off : Nat) (r : Row) : (s.putRow node off r).recovery = s.recovery := rfl
@[simp] theorem State.putRow_sectors (node off : Nat) (r : Row) : (s.putRow node off r).sectors = s.sectors := rfl
@[simp] theorem State.putRow_spots (node off : Nat) (r : Row) : (s.putRow node off r).spots = s.spots := rfl
@[simp] theorem State.putRow_dieTherm (node off : Nat) (r : Row) : (s.putRow node off r).dieTherm = s.dieTherm := rfl
@[simp] theorem State.putRow_ramps (node off : Nat) (r : Row) : (s.putRow node off r).ramps = s.ramps := rfl
@[simp] theorem State.putRow_rejoin (node off : Nat) (r : Row) : (s.putRow node off r).rejoin = s.rejoin := rfl
@[simp] theorem State.putRow_watts (node off : Nat) (r : Row) : (s.putRow node off r).watts = s.watts := rfl
@[simp] theorem State.putRow_ceilingAt (node off : Nat) (r : Row) : (s.putRow node off r).ceilingAt = s.ceilingAt := rfl
@[simp] theorem State.putRow_tripped (node off : Nat) (r : Row) : (s.putRow node off r).tripped = s.tripped := rfl
@[simp] theorem State.putRow_coolWarn (node off : Nat) (r : Row) : (s.putRow node off r).coolWarn = s.coolWarn := rfl
@[simp] theorem State.putRow_coolFrom (node off : Nat) (r : Row) : (s.putRow node off r).coolFrom = s.coolFrom := rfl
@[simp] theorem State.putRow_margins (node off : Nat) (r : Row) : (s.putRow node off r).margins = s.margins := rfl
@[simp] theorem State.putRow_lowTiles (node off : Nat) (r : Row) : (s.putRow node off r).lowTiles = s.lowTiles := rfl
@[simp] theorem State.putRow_factoryTrims (node off : Nat) (r : Row) : (s.putRow node off r).factoryTrims = s.factoryTrims := rfl
@[simp] theorem State.putRow_floorTaken (node off : Nat) (r : Row) : (s.putRow node off r).floorTaken = s.floorTaken := rfl
@[simp] theorem State.putRow_weakLanes (node off : Nat) (r : Row) : (s.putRow node off r).weakLanes = s.weakLanes := rfl
@[simp] theorem State.putRow_eccRates (node off : Nat) (r : Row) : (s.putRow node off r).eccRates = s.eccRates := rfl
@[simp] theorem State.putRow_marginPlan (node off : Nat) (r : Row) : (s.putRow node off r).marginPlan = s.marginPlan := rfl
@[simp] theorem State.putRow_ageHistory (node off : Nat) (r : Row) : (s.putRow node off r).ageHistory = s.ageHistory := rfl
@[simp] theorem State.putRow_poweredFrom (node off : Nat) (r : Row) : (s.putRow node off r).poweredFrom = s.poweredFrom := rfl
@[simp] theorem State.putRow_beats (node off : Nat) (r : Row) : (s.putRow node off r).beats = s.beats := rfl
@[simp] theorem State.putRow_hubMiss (node off : Nat) (r : Row) : (s.putRow node off r).hubMiss = s.hubMiss := rfl
@[simp] theorem State.putRow_offMiss (node off : Nat) (r : Row) : (s.putRow node off r).offMiss = s.offMiss := rfl
@[simp] theorem State.putRow_transientAt (node off : Nat) (r : Row) : (s.putRow node off r).transientAt = s.transientAt := rfl
@[simp] theorem State.putRow_resent (node off : Nat) (r : Row) : (s.putRow node off r).resent = s.resent := rfl
@[simp] theorem State.putRow_bgViol (node off : Nat) (r : Row) : (s.putRow node off r).bgViol = s.bgViol := rfl
@[simp] theorem State.putRow_bgFrom (node off : Nat) (r : Row) : (s.putRow node off r).bgFrom = s.bgFrom := rfl
@[simp] theorem State.putRow_bgHoldUntil (node off : Nat) (r : Row) : (s.putRow node off r).bgHoldUntil = s.bgHoldUntil := rfl
@[simp] theorem State.putRow_bgHolds (node off : Nat) (r : Row) : (s.putRow node off r).bgHolds = s.bgHolds := rfl
@[simp] theorem State.putRow_faultLog (node off : Nat) (r : Row) : (s.putRow node off r).faultLog = s.faultLog := rfl
@[simp] theorem State.putRow_hubsLost (node off : Nat) (r : Row) : (s.putRow node off r).hubsLost = s.hubsLost := rfl
@[simp] theorem State.putRow_stackRecs (node off : Nat) (r : Row) : (s.putRow node off r).stackRecs = s.stackRecs := rfl
@[simp] theorem State.putRow_cas (node off : Nat) (r : Row) : (s.putRow node off r).cas = s.cas := rfl
@[simp] theorem State.putRow_boot (node off : Nat) (r : Row) : (s.putRow node off r).boot = s.boot := rfl
@[simp] theorem State.putRow_dump (node off : Nat) (r : Row) : (s.putRow node off r).dump = s.dump := rfl

-- putBytes changes memory alone.
@[simp] theorem State.putBytes_clk (node off : Nat) (b : List Nat) : (s.putBytes node off b).clk = s.clk := rfl
@[simp] theorem State.putBytes_tbOn (node off : Nat) (b : List Nat) : (s.putBytes node off b).tbOn = s.tbOn := rfl
@[simp] theorem State.putBytes_tbBase (node off : Nat) (b : List Nat) : (s.putBytes node off b).tbBase = s.tbBase := rfl
@[simp] theorem State.putBytes_freeCtr (node off : Nat) (b : List Nat) : (s.putBytes node off b).freeCtr = s.freeCtr := rfl
@[simp] theorem State.putBytes_pending (node off : Nat) (b : List Nat) : (s.putBytes node off b).pending = s.pending := rfl
@[simp] theorem State.putBytes_out (node off : Nat) (b : List Nat) : (s.putBytes node off b).out = s.out := rfl
@[simp] theorem State.putBytes_tags (node off : Nat) (b : List Nat) : (s.putBytes node off b).tags = s.tags := rfl
@[simp] theorem State.putBytes_od (node off : Nat) (b : List Nat) : (s.putBytes node off b).od = s.od := rfl
@[simp] theorem State.putBytes_events (node off : Nat) (b : List Nat) : (s.putBytes node off b).events = s.events := rfl
@[simp] theorem State.putBytes_nextEvent (node off : Nat) (b : List Nat) : (s.putBytes node off b).nextEvent = s.nextEvent := rfl
@[simp] theorem State.putBytes_lastEvent (node off : Nat) (b : List Nat) : (s.putBytes node off b).lastEvent = s.lastEvent := rfl
@[simp] theorem State.putBytes_satSet (node off : Nat) (b : List Nat) : (s.putBytes node off b).satSet = s.satSet := rfl
@[simp] theorem State.putBytes_satList (node off : Nat) (b : List Nat) : (s.putBytes node off b).satList = s.satList := rfl
@[simp] theorem State.putBytes_tiles (node off : Nat) (b : List Nat) : (s.putBytes node off b).tiles = s.tiles := rfl
@[simp] theorem State.putBytes_bank0 (node off : Nat) (b : List Nat) : (s.putBytes node off b).bank0 = s.bank0 := rfl
@[simp] theorem State.putBytes_bank1 (node off : Nat) (b : List Nat) : (s.putBytes node off b).bank1 = s.bank1 := rfl
@[simp] theorem State.putBytes_links (node off : Nat) (b : List Nat) : (s.putBytes node off b).links = s.links := rfl
@[simp] theorem State.putBytes_mboxes (node off : Nat) (b : List Nat) : (s.putBytes node off b).mboxes = s.mboxes := rfl
@[simp] theorem State.putBytes_scanRows (node off : Nat) (b : List Nat) : (s.putBytes node off b).scanRows = s.scanRows := rfl
@[simp] theorem State.putBytes_chunks (node off : Nat) (b : List Nat) : (s.putBytes node off b).chunks = s.chunks := rfl
@[simp] theorem State.putBytes_floorDue (node off : Nat) (b : List Nat) : (s.putBytes node off b).floorDue = s.floorDue := rfl
@[simp] theorem State.putBytes_noticesA (node off : Nat) (b : List Nat) : (s.putBytes node off b).noticesA = s.noticesA := rfl
@[simp] theorem State.putBytes_noticesB (node off : Nat) (b : List Nat) : (s.putBytes node off b).noticesB = s.noticesB := rfl
@[simp] theorem State.putBytes_noticesOut (node off : Nat) (b : List Nat) : (s.putBytes node off b).noticesOut = s.noticesOut := rfl
@[simp] theorem State.putBytes_backoffs (node off : Nat) (b : List Nat) : (s.putBytes node off b).backoffs = s.backoffs := rfl
@[simp] theorem State.putBytes_fences (node off : Nat) (b : List Nat) : (s.putBytes node off b).fences = s.fences := rfl
@[simp] theorem State.putBytes_fenceQueue (node off : Nat) (b : List Nat) : (s.putBytes node off b).fenceQueue = s.fenceQueue := rfl
@[simp] theorem State.putBytes_laneLife (node off : Nat) (b : List Nat) : (s.putBytes node off b).laneLife = s.laneLife := rfl
@[simp] theorem State.putBytes_abortDue (node off : Nat) (b : List Nat) : (s.putBytes node off b).abortDue = s.abortDue := rfl
@[simp] theorem State.putBytes_heldLanes (node off : Nat) (b : List Nat) : (s.putBytes node off b).heldLanes = s.heldLanes := rfl
@[simp] theorem State.putBytes_pslots (node off : Nat) (b : List Nat) : (s.putBytes node off b).pslots = s.pslots := rfl
@[simp] theorem State.putBytes_lanes (node off : Nat) (b : List Nat) : (s.putBytes node off b).lanes = s.lanes := rfl
@[simp] theorem State.putBytes_queue (node off : Nat) (b : List Nat) : (s.putBytes node off b).queue = s.queue := rfl
@[simp] theorem State.putBytes_terms (node off : Nat) (b : List Nat) : (s.putBytes node off b).terms = s.terms := rfl
@[simp] theorem State.putBytes_staging (node off : Nat) (b : List Nat) : (s.putBytes node off b).staging = s.staging := rfl
@[simp] theorem State.putBytes_hostPorts (node off : Nat) (b : List Nat) : (s.putBytes node off b).hostPorts = s.hostPorts := rfl
@[simp] theorem State.putBytes_ceRecs (node off : Nat) (b : List Nat) : (s.putBytes node off b).ceRecs = s.ceRecs := rfl
@[simp] theorem State.putBytes_cages (node off : Nat) (b : List Nat) : (s.putBytes node off b).cages = s.cages := rfl
@[simp] theorem State.putBytes_ptpCur (node off : Nat) (b : List Nat) : (s.putBytes node off b).ptpCur = s.ptpCur := rfl
@[simp] theorem State.putBytes_fenceHist (node off : Nat) (b : List Nat) : (s.putBytes node off b).fenceHist = s.fenceHist := rfl
@[simp] theorem State.putBytes_nodeLogs (node off : Nat) (b : List Nat) : (s.putBytes node off b).nodeLogs = s.nodeLogs := rfl
@[simp] theorem State.putBytes_nextTxn (node off : Nat) (b : List Nat) : (s.putBytes node off b).nextTxn = s.nextTxn := rfl
@[simp] theorem State.putBytes_kv (node off : Nat) (b : List Nat) : (s.putBytes node off b).kv = s.kv := rfl
@[simp] theorem State.putBytes_groupEnts (node off : Nat) (b : List Nat) : (s.putBytes node off b).groupEnts = s.groupEnts := rfl
@[simp] theorem State.putBytes_pgroups (node off : Nat) (b : List Nat) : (s.putBytes node off b).pgroups = s.pgroups := rfl
@[simp] theorem State.putBytes_allocs (node off : Nat) (b : List Nat) : (s.putBytes node off b).allocs = s.allocs := rfl
@[simp] theorem State.putBytes_faults (node off : Nat) (b : List Nat) : (s.putBytes node off b).faults = s.faults := rfl
@[simp] theorem State.putBytes_evac (node off : Nat) (b : List Nat) : (s.putBytes node off b).evac = s.evac := rfl
@[simp] theorem State.putBytes_rebalDue (node off : Nat) (b : List Nat) : (s.putBytes node off b).rebalDue = s.rebalDue := rfl
@[simp] theorem State.putBytes_fullDue (node off : Nat) (b : List Nat) : (s.putBytes node off b).fullDue = s.fullDue := rfl
@[simp] theorem State.putBytes_staleDies (node off : Nat) (b : List Nat) : (s.putBytes node off b).staleDies = s.staleDies := rfl
@[simp] theorem State.putBytes_sparesChosen (node off : Nat) (b : List Nat) : (s.putBytes node off b).sparesChosen = s.sparesChosen := rfl
@[simp] theorem State.putBytes_slowSince (node off : Nat) (b : List Nat) : (s.putBytes node off b).slowSince = s.slowSince := rfl
@[simp] theorem State.putBytes_wakeWaiting (node off : Nat) (b : List Nat) : (s.putBytes node off b).wakeWaiting = s.wakeWaiting := rfl
@[simp] theorem State.putBytes_eopParts (node off : Nat) (b : List Nat) : (s.putBytes node off b).eopParts = s.eopParts := rfl
@[simp] theorem State.putBytes_halfOpen (node off : Nat) (b : List Nat) : (s.putBytes node off b).halfOpen = s.halfOpen := rfl
@[simp] theorem State.putBytes_sessions (node off : Nat) (b : List Nat) : (s.putBytes node off b).sessions = s.sessions := rfl
@[simp] theorem State.putBytes_refusedAt (node off : Nat) (b : List Nat) : (s.putBytes node off b).refusedAt = s.refusedAt := rfl
@[simp] theorem State.putBytes_eopDiscards (node off : Nat) (b : List Nat) : (s.putBytes node off b).eopDiscards = s.eopDiscards := rfl
@[simp] theorem State.putBytes_protoLog (node off : Nat) (b : List Nat) : (s.putBytes node off b).protoLog = s.protoLog := rfl
@[simp] theorem State.putBytes_closeDue (node off : Nat) (b : List Nat) : (s.putBytes node off b).closeDue = s.closeDue := rfl
@[simp] theorem State.putBytes_mgmtDue (node off : Nat) (b : List Nat) : (s.putBytes node off b).mgmtDue = s.mgmtDue := rfl
@[simp] theorem State.putBytes_quorumTaken (node off : Nat) (b : List Nat) : (s.putBytes node off b).quorumTaken = s.quorumTaken := rfl
@[simp] theorem State.putBytes_quorumQueue (node off : Nat) (b : List Nat) : (s.putBytes node off b).quorumQueue = s.quorumQueue := rfl
@[simp] theorem State.putBytes_readyAt (node off : Nat) (b : List Nat) : (s.putBytes node off b).readyAt = s.readyAt := rfl
@[simp] theorem State.putBytes_store0 (node off : Nat) (b : List Nat) : (s.putBytes node off b).store0 = s.store0 := rfl
@[simp] theorem State.putBytes_store1 (node off : Nat) (b : List Nat) : (s.putBytes node off b).store1 = s.store1 := rfl
@[simp] theorem State.putBytes_storeDirty (node off : Nat) (b : List Nat) : (s.putBytes node off b).storeDirty = s.storeDirty := rfl
@[simp] theorem State.putBytes_recovery (node off : Nat) (b : List Nat) : (s.putBytes node off b).recovery = s.recovery := rfl
@[simp] theorem State.putBytes_sectors (node off : Nat) (b : List Nat) : (s.putBytes node off b).sectors = s.sectors := rfl
@[simp] theorem State.putBytes_spots (node off : Nat) (b : List Nat) : (s.putBytes node off b).spots = s.spots := rfl
@[simp] theorem State.putBytes_dieTherm (node off : Nat) (b : List Nat) : (s.putBytes node off b).dieTherm = s.dieTherm := rfl
@[simp] theorem State.putBytes_ramps (node off : Nat) (b : List Nat) : (s.putBytes node off b).ramps = s.ramps := rfl
@[simp] theorem State.putBytes_rejoin (node off : Nat) (b : List Nat) : (s.putBytes node off b).rejoin = s.rejoin := rfl
@[simp] theorem State.putBytes_watts (node off : Nat) (b : List Nat) : (s.putBytes node off b).watts = s.watts := rfl
@[simp] theorem State.putBytes_ceilingAt (node off : Nat) (b : List Nat) : (s.putBytes node off b).ceilingAt = s.ceilingAt := rfl
@[simp] theorem State.putBytes_tripped (node off : Nat) (b : List Nat) : (s.putBytes node off b).tripped = s.tripped := rfl
@[simp] theorem State.putBytes_coolWarn (node off : Nat) (b : List Nat) : (s.putBytes node off b).coolWarn = s.coolWarn := rfl
@[simp] theorem State.putBytes_coolFrom (node off : Nat) (b : List Nat) : (s.putBytes node off b).coolFrom = s.coolFrom := rfl
@[simp] theorem State.putBytes_margins (node off : Nat) (b : List Nat) : (s.putBytes node off b).margins = s.margins := rfl
@[simp] theorem State.putBytes_lowTiles (node off : Nat) (b : List Nat) : (s.putBytes node off b).lowTiles = s.lowTiles := rfl
@[simp] theorem State.putBytes_factoryTrims (node off : Nat) (b : List Nat) : (s.putBytes node off b).factoryTrims = s.factoryTrims := rfl
@[simp] theorem State.putBytes_floorTaken (node off : Nat) (b : List Nat) : (s.putBytes node off b).floorTaken = s.floorTaken := rfl
@[simp] theorem State.putBytes_weakLanes (node off : Nat) (b : List Nat) : (s.putBytes node off b).weakLanes = s.weakLanes := rfl
@[simp] theorem State.putBytes_eccRates (node off : Nat) (b : List Nat) : (s.putBytes node off b).eccRates = s.eccRates := rfl
@[simp] theorem State.putBytes_marginPlan (node off : Nat) (b : List Nat) : (s.putBytes node off b).marginPlan = s.marginPlan := rfl
@[simp] theorem State.putBytes_ageHistory (node off : Nat) (b : List Nat) : (s.putBytes node off b).ageHistory = s.ageHistory := rfl
@[simp] theorem State.putBytes_poweredFrom (node off : Nat) (b : List Nat) : (s.putBytes node off b).poweredFrom = s.poweredFrom := rfl
@[simp] theorem State.putBytes_beats (node off : Nat) (b : List Nat) : (s.putBytes node off b).beats = s.beats := rfl
@[simp] theorem State.putBytes_hubMiss (node off : Nat) (b : List Nat) : (s.putBytes node off b).hubMiss = s.hubMiss := rfl
@[simp] theorem State.putBytes_offMiss (node off : Nat) (b : List Nat) : (s.putBytes node off b).offMiss = s.offMiss := rfl
@[simp] theorem State.putBytes_transientAt (node off : Nat) (b : List Nat) : (s.putBytes node off b).transientAt = s.transientAt := rfl
@[simp] theorem State.putBytes_resent (node off : Nat) (b : List Nat) : (s.putBytes node off b).resent = s.resent := rfl
@[simp] theorem State.putBytes_bgViol (node off : Nat) (b : List Nat) : (s.putBytes node off b).bgViol = s.bgViol := rfl
@[simp] theorem State.putBytes_bgFrom (node off : Nat) (b : List Nat) : (s.putBytes node off b).bgFrom = s.bgFrom := rfl
@[simp] theorem State.putBytes_bgHoldUntil (node off : Nat) (b : List Nat) : (s.putBytes node off b).bgHoldUntil = s.bgHoldUntil := rfl
@[simp] theorem State.putBytes_bgHolds (node off : Nat) (b : List Nat) : (s.putBytes node off b).bgHolds = s.bgHolds := rfl
@[simp] theorem State.putBytes_faultLog (node off : Nat) (b : List Nat) : (s.putBytes node off b).faultLog = s.faultLog := rfl
@[simp] theorem State.putBytes_hubsLost (node off : Nat) (b : List Nat) : (s.putBytes node off b).hubsLost = s.hubsLost := rfl
@[simp] theorem State.putBytes_stackRecs (node off : Nat) (b : List Nat) : (s.putBytes node off b).stackRecs = s.stackRecs := rfl
@[simp] theorem State.putBytes_cas (node off : Nat) (b : List Nat) : (s.putBytes node off b).cas = s.cas := rfl
@[simp] theorem State.putBytes_boot (node off : Nat) (b : List Nat) : (s.putBytes node off b).boot = s.boot := rfl
@[simp] theorem State.putBytes_dump (node off : Nat) (b : List Nat) : (s.putBytes node off b).dump = s.dump := rfl

-- setLane changes the stream table alone.
@[simp] theorem State.setLane_clk (l : Nat) (x : LaneRec) : (s.setLane l x).clk = s.clk := rfl
@[simp] theorem State.setLane_tbOn (l : Nat) (x : LaneRec) : (s.setLane l x).tbOn = s.tbOn := rfl
@[simp] theorem State.setLane_tbBase (l : Nat) (x : LaneRec) : (s.setLane l x).tbBase = s.tbBase := rfl
@[simp] theorem State.setLane_freeCtr (l : Nat) (x : LaneRec) : (s.setLane l x).freeCtr = s.freeCtr := rfl
@[simp] theorem State.setLane_pending (l : Nat) (x : LaneRec) : (s.setLane l x).pending = s.pending := rfl
@[simp] theorem State.setLane_out (l : Nat) (x : LaneRec) : (s.setLane l x).out = s.out := rfl
@[simp] theorem State.setLane_mem (l : Nat) (x : LaneRec) : (s.setLane l x).mem = s.mem := rfl
@[simp] theorem State.setLane_tags (l : Nat) (x : LaneRec) : (s.setLane l x).tags = s.tags := rfl
@[simp] theorem State.setLane_od (l : Nat) (x : LaneRec) : (s.setLane l x).od = s.od := rfl
@[simp] theorem State.setLane_events (l : Nat) (x : LaneRec) : (s.setLane l x).events = s.events := rfl
@[simp] theorem State.setLane_nextEvent (l : Nat) (x : LaneRec) : (s.setLane l x).nextEvent = s.nextEvent := rfl
@[simp] theorem State.setLane_lastEvent (l : Nat) (x : LaneRec) : (s.setLane l x).lastEvent = s.lastEvent := rfl
@[simp] theorem State.setLane_satSet (l : Nat) (x : LaneRec) : (s.setLane l x).satSet = s.satSet := rfl
@[simp] theorem State.setLane_satList (l : Nat) (x : LaneRec) : (s.setLane l x).satList = s.satList := rfl
@[simp] theorem State.setLane_tiles (l : Nat) (x : LaneRec) : (s.setLane l x).tiles = s.tiles := rfl
@[simp] theorem State.setLane_bank0 (l : Nat) (x : LaneRec) : (s.setLane l x).bank0 = s.bank0 := rfl
@[simp] theorem State.setLane_bank1 (l : Nat) (x : LaneRec) : (s.setLane l x).bank1 = s.bank1 := rfl
@[simp] theorem State.setLane_links (l : Nat) (x : LaneRec) : (s.setLane l x).links = s.links := rfl
@[simp] theorem State.setLane_mboxes (l : Nat) (x : LaneRec) : (s.setLane l x).mboxes = s.mboxes := rfl
@[simp] theorem State.setLane_scanRows (l : Nat) (x : LaneRec) : (s.setLane l x).scanRows = s.scanRows := rfl
@[simp] theorem State.setLane_chunks (l : Nat) (x : LaneRec) : (s.setLane l x).chunks = s.chunks := rfl
@[simp] theorem State.setLane_floorDue (l : Nat) (x : LaneRec) : (s.setLane l x).floorDue = s.floorDue := rfl
@[simp] theorem State.setLane_noticesA (l : Nat) (x : LaneRec) : (s.setLane l x).noticesA = s.noticesA := rfl
@[simp] theorem State.setLane_noticesB (l : Nat) (x : LaneRec) : (s.setLane l x).noticesB = s.noticesB := rfl
@[simp] theorem State.setLane_noticesOut (l : Nat) (x : LaneRec) : (s.setLane l x).noticesOut = s.noticesOut := rfl
@[simp] theorem State.setLane_backoffs (l : Nat) (x : LaneRec) : (s.setLane l x).backoffs = s.backoffs := rfl
@[simp] theorem State.setLane_fences (l : Nat) (x : LaneRec) : (s.setLane l x).fences = s.fences := rfl
@[simp] theorem State.setLane_fenceQueue (l : Nat) (x : LaneRec) : (s.setLane l x).fenceQueue = s.fenceQueue := rfl
@[simp] theorem State.setLane_laneLife (l : Nat) (x : LaneRec) : (s.setLane l x).laneLife = s.laneLife := rfl
@[simp] theorem State.setLane_abortDue (l : Nat) (x : LaneRec) : (s.setLane l x).abortDue = s.abortDue := rfl
@[simp] theorem State.setLane_heldLanes (l : Nat) (x : LaneRec) : (s.setLane l x).heldLanes = s.heldLanes := rfl
@[simp] theorem State.setLane_pslots (l : Nat) (x : LaneRec) : (s.setLane l x).pslots = s.pslots := rfl
@[simp] theorem State.setLane_queue (l : Nat) (x : LaneRec) : (s.setLane l x).queue = s.queue := rfl
@[simp] theorem State.setLane_terms (l : Nat) (x : LaneRec) : (s.setLane l x).terms = s.terms := rfl
@[simp] theorem State.setLane_staging (l : Nat) (x : LaneRec) : (s.setLane l x).staging = s.staging := rfl
@[simp] theorem State.setLane_hostPorts (l : Nat) (x : LaneRec) : (s.setLane l x).hostPorts = s.hostPorts := rfl
@[simp] theorem State.setLane_ceRecs (l : Nat) (x : LaneRec) : (s.setLane l x).ceRecs = s.ceRecs := rfl
@[simp] theorem State.setLane_cages (l : Nat) (x : LaneRec) : (s.setLane l x).cages = s.cages := rfl
@[simp] theorem State.setLane_ptpCur (l : Nat) (x : LaneRec) : (s.setLane l x).ptpCur = s.ptpCur := rfl
@[simp] theorem State.setLane_fenceHist (l : Nat) (x : LaneRec) : (s.setLane l x).fenceHist = s.fenceHist := rfl
@[simp] theorem State.setLane_nodeLogs (l : Nat) (x : LaneRec) : (s.setLane l x).nodeLogs = s.nodeLogs := rfl
@[simp] theorem State.setLane_nextTxn (l : Nat) (x : LaneRec) : (s.setLane l x).nextTxn = s.nextTxn := rfl
@[simp] theorem State.setLane_kv (l : Nat) (x : LaneRec) : (s.setLane l x).kv = s.kv := rfl
@[simp] theorem State.setLane_groupEnts (l : Nat) (x : LaneRec) : (s.setLane l x).groupEnts = s.groupEnts := rfl
@[simp] theorem State.setLane_pgroups (l : Nat) (x : LaneRec) : (s.setLane l x).pgroups = s.pgroups := rfl
@[simp] theorem State.setLane_allocs (l : Nat) (x : LaneRec) : (s.setLane l x).allocs = s.allocs := rfl
@[simp] theorem State.setLane_faults (l : Nat) (x : LaneRec) : (s.setLane l x).faults = s.faults := rfl
@[simp] theorem State.setLane_evac (l : Nat) (x : LaneRec) : (s.setLane l x).evac = s.evac := rfl
@[simp] theorem State.setLane_rebalDue (l : Nat) (x : LaneRec) : (s.setLane l x).rebalDue = s.rebalDue := rfl
@[simp] theorem State.setLane_fullDue (l : Nat) (x : LaneRec) : (s.setLane l x).fullDue = s.fullDue := rfl
@[simp] theorem State.setLane_staleDies (l : Nat) (x : LaneRec) : (s.setLane l x).staleDies = s.staleDies := rfl
@[simp] theorem State.setLane_sparesChosen (l : Nat) (x : LaneRec) : (s.setLane l x).sparesChosen = s.sparesChosen := rfl
@[simp] theorem State.setLane_slowSince (l : Nat) (x : LaneRec) : (s.setLane l x).slowSince = s.slowSince := rfl
@[simp] theorem State.setLane_wakeWaiting (l : Nat) (x : LaneRec) : (s.setLane l x).wakeWaiting = s.wakeWaiting := rfl
@[simp] theorem State.setLane_eopParts (l : Nat) (x : LaneRec) : (s.setLane l x).eopParts = s.eopParts := rfl
@[simp] theorem State.setLane_halfOpen (l : Nat) (x : LaneRec) : (s.setLane l x).halfOpen = s.halfOpen := rfl
@[simp] theorem State.setLane_sessions (l : Nat) (x : LaneRec) : (s.setLane l x).sessions = s.sessions := rfl
@[simp] theorem State.setLane_refusedAt (l : Nat) (x : LaneRec) : (s.setLane l x).refusedAt = s.refusedAt := rfl
@[simp] theorem State.setLane_eopDiscards (l : Nat) (x : LaneRec) : (s.setLane l x).eopDiscards = s.eopDiscards := rfl
@[simp] theorem State.setLane_protoLog (l : Nat) (x : LaneRec) : (s.setLane l x).protoLog = s.protoLog := rfl
@[simp] theorem State.setLane_closeDue (l : Nat) (x : LaneRec) : (s.setLane l x).closeDue = s.closeDue := rfl
@[simp] theorem State.setLane_mgmtDue (l : Nat) (x : LaneRec) : (s.setLane l x).mgmtDue = s.mgmtDue := rfl
@[simp] theorem State.setLane_quorumTaken (l : Nat) (x : LaneRec) : (s.setLane l x).quorumTaken = s.quorumTaken := rfl
@[simp] theorem State.setLane_quorumQueue (l : Nat) (x : LaneRec) : (s.setLane l x).quorumQueue = s.quorumQueue := rfl
@[simp] theorem State.setLane_readyAt (l : Nat) (x : LaneRec) : (s.setLane l x).readyAt = s.readyAt := rfl
@[simp] theorem State.setLane_store0 (l : Nat) (x : LaneRec) : (s.setLane l x).store0 = s.store0 := rfl
@[simp] theorem State.setLane_store1 (l : Nat) (x : LaneRec) : (s.setLane l x).store1 = s.store1 := rfl
@[simp] theorem State.setLane_storeDirty (l : Nat) (x : LaneRec) : (s.setLane l x).storeDirty = s.storeDirty := rfl
@[simp] theorem State.setLane_recovery (l : Nat) (x : LaneRec) : (s.setLane l x).recovery = s.recovery := rfl
@[simp] theorem State.setLane_sectors (l : Nat) (x : LaneRec) : (s.setLane l x).sectors = s.sectors := rfl
@[simp] theorem State.setLane_spots (l : Nat) (x : LaneRec) : (s.setLane l x).spots = s.spots := rfl
@[simp] theorem State.setLane_dieTherm (l : Nat) (x : LaneRec) : (s.setLane l x).dieTherm = s.dieTherm := rfl
@[simp] theorem State.setLane_ramps (l : Nat) (x : LaneRec) : (s.setLane l x).ramps = s.ramps := rfl
@[simp] theorem State.setLane_rejoin (l : Nat) (x : LaneRec) : (s.setLane l x).rejoin = s.rejoin := rfl
@[simp] theorem State.setLane_watts (l : Nat) (x : LaneRec) : (s.setLane l x).watts = s.watts := rfl
@[simp] theorem State.setLane_ceilingAt (l : Nat) (x : LaneRec) : (s.setLane l x).ceilingAt = s.ceilingAt := rfl
@[simp] theorem State.setLane_tripped (l : Nat) (x : LaneRec) : (s.setLane l x).tripped = s.tripped := rfl
@[simp] theorem State.setLane_coolWarn (l : Nat) (x : LaneRec) : (s.setLane l x).coolWarn = s.coolWarn := rfl
@[simp] theorem State.setLane_coolFrom (l : Nat) (x : LaneRec) : (s.setLane l x).coolFrom = s.coolFrom := rfl
@[simp] theorem State.setLane_margins (l : Nat) (x : LaneRec) : (s.setLane l x).margins = s.margins := rfl
@[simp] theorem State.setLane_lowTiles (l : Nat) (x : LaneRec) : (s.setLane l x).lowTiles = s.lowTiles := rfl
@[simp] theorem State.setLane_factoryTrims (l : Nat) (x : LaneRec) : (s.setLane l x).factoryTrims = s.factoryTrims := rfl
@[simp] theorem State.setLane_floorTaken (l : Nat) (x : LaneRec) : (s.setLane l x).floorTaken = s.floorTaken := rfl
@[simp] theorem State.setLane_weakLanes (l : Nat) (x : LaneRec) : (s.setLane l x).weakLanes = s.weakLanes := rfl
@[simp] theorem State.setLane_eccRates (l : Nat) (x : LaneRec) : (s.setLane l x).eccRates = s.eccRates := rfl
@[simp] theorem State.setLane_marginPlan (l : Nat) (x : LaneRec) : (s.setLane l x).marginPlan = s.marginPlan := rfl
@[simp] theorem State.setLane_ageHistory (l : Nat) (x : LaneRec) : (s.setLane l x).ageHistory = s.ageHistory := rfl
@[simp] theorem State.setLane_poweredFrom (l : Nat) (x : LaneRec) : (s.setLane l x).poweredFrom = s.poweredFrom := rfl
@[simp] theorem State.setLane_beats (l : Nat) (x : LaneRec) : (s.setLane l x).beats = s.beats := rfl
@[simp] theorem State.setLane_hubMiss (l : Nat) (x : LaneRec) : (s.setLane l x).hubMiss = s.hubMiss := rfl
@[simp] theorem State.setLane_offMiss (l : Nat) (x : LaneRec) : (s.setLane l x).offMiss = s.offMiss := rfl
@[simp] theorem State.setLane_transientAt (l : Nat) (x : LaneRec) : (s.setLane l x).transientAt = s.transientAt := rfl
@[simp] theorem State.setLane_resent (l : Nat) (x : LaneRec) : (s.setLane l x).resent = s.resent := rfl
@[simp] theorem State.setLane_bgViol (l : Nat) (x : LaneRec) : (s.setLane l x).bgViol = s.bgViol := rfl
@[simp] theorem State.setLane_bgFrom (l : Nat) (x : LaneRec) : (s.setLane l x).bgFrom = s.bgFrom := rfl
@[simp] theorem State.setLane_bgHoldUntil (l : Nat) (x : LaneRec) : (s.setLane l x).bgHoldUntil = s.bgHoldUntil := rfl
@[simp] theorem State.setLane_bgHolds (l : Nat) (x : LaneRec) : (s.setLane l x).bgHolds = s.bgHolds := rfl
@[simp] theorem State.setLane_faultLog (l : Nat) (x : LaneRec) : (s.setLane l x).faultLog = s.faultLog := rfl
@[simp] theorem State.setLane_hubsLost (l : Nat) (x : LaneRec) : (s.setLane l x).hubsLost = s.hubsLost := rfl
@[simp] theorem State.setLane_stackRecs (l : Nat) (x : LaneRec) : (s.setLane l x).stackRecs = s.stackRecs := rfl
@[simp] theorem State.setLane_cas (l : Nat) (x : LaneRec) : (s.setLane l x).cas = s.cas := rfl
@[simp] theorem State.setLane_boot (l : Nat) (x : LaneRec) : (s.setLane l x).boot = s.boot := rfl
@[simp] theorem State.setLane_dump (l : Nat) (x : LaneRec) : (s.setLane l x).dump = s.dump := rfl

-- setPslot changes the furnish slots alone.
@[simp] theorem State.setPslot_clk (i : Nat) (x : PSlot) : (s.setPslot i x).clk = s.clk := rfl
@[simp] theorem State.setPslot_tbOn (i : Nat) (x : PSlot) : (s.setPslot i x).tbOn = s.tbOn := rfl
@[simp] theorem State.setPslot_tbBase (i : Nat) (x : PSlot) : (s.setPslot i x).tbBase = s.tbBase := rfl
@[simp] theorem State.setPslot_freeCtr (i : Nat) (x : PSlot) : (s.setPslot i x).freeCtr = s.freeCtr := rfl
@[simp] theorem State.setPslot_pending (i : Nat) (x : PSlot) : (s.setPslot i x).pending = s.pending := rfl
@[simp] theorem State.setPslot_out (i : Nat) (x : PSlot) : (s.setPslot i x).out = s.out := rfl
@[simp] theorem State.setPslot_mem (i : Nat) (x : PSlot) : (s.setPslot i x).mem = s.mem := rfl
@[simp] theorem State.setPslot_tags (i : Nat) (x : PSlot) : (s.setPslot i x).tags = s.tags := rfl
@[simp] theorem State.setPslot_od (i : Nat) (x : PSlot) : (s.setPslot i x).od = s.od := rfl
@[simp] theorem State.setPslot_events (i : Nat) (x : PSlot) : (s.setPslot i x).events = s.events := rfl
@[simp] theorem State.setPslot_nextEvent (i : Nat) (x : PSlot) : (s.setPslot i x).nextEvent = s.nextEvent := rfl
@[simp] theorem State.setPslot_lastEvent (i : Nat) (x : PSlot) : (s.setPslot i x).lastEvent = s.lastEvent := rfl
@[simp] theorem State.setPslot_satSet (i : Nat) (x : PSlot) : (s.setPslot i x).satSet = s.satSet := rfl
@[simp] theorem State.setPslot_satList (i : Nat) (x : PSlot) : (s.setPslot i x).satList = s.satList := rfl
@[simp] theorem State.setPslot_tiles (i : Nat) (x : PSlot) : (s.setPslot i x).tiles = s.tiles := rfl
@[simp] theorem State.setPslot_bank0 (i : Nat) (x : PSlot) : (s.setPslot i x).bank0 = s.bank0 := rfl
@[simp] theorem State.setPslot_bank1 (i : Nat) (x : PSlot) : (s.setPslot i x).bank1 = s.bank1 := rfl
@[simp] theorem State.setPslot_links (i : Nat) (x : PSlot) : (s.setPslot i x).links = s.links := rfl
@[simp] theorem State.setPslot_mboxes (i : Nat) (x : PSlot) : (s.setPslot i x).mboxes = s.mboxes := rfl
@[simp] theorem State.setPslot_scanRows (i : Nat) (x : PSlot) : (s.setPslot i x).scanRows = s.scanRows := rfl
@[simp] theorem State.setPslot_chunks (i : Nat) (x : PSlot) : (s.setPslot i x).chunks = s.chunks := rfl
@[simp] theorem State.setPslot_floorDue (i : Nat) (x : PSlot) : (s.setPslot i x).floorDue = s.floorDue := rfl
@[simp] theorem State.setPslot_noticesA (i : Nat) (x : PSlot) : (s.setPslot i x).noticesA = s.noticesA := rfl
@[simp] theorem State.setPslot_noticesB (i : Nat) (x : PSlot) : (s.setPslot i x).noticesB = s.noticesB := rfl
@[simp] theorem State.setPslot_noticesOut (i : Nat) (x : PSlot) : (s.setPslot i x).noticesOut = s.noticesOut := rfl
@[simp] theorem State.setPslot_backoffs (i : Nat) (x : PSlot) : (s.setPslot i x).backoffs = s.backoffs := rfl
@[simp] theorem State.setPslot_fences (i : Nat) (x : PSlot) : (s.setPslot i x).fences = s.fences := rfl
@[simp] theorem State.setPslot_fenceQueue (i : Nat) (x : PSlot) : (s.setPslot i x).fenceQueue = s.fenceQueue := rfl
@[simp] theorem State.setPslot_laneLife (i : Nat) (x : PSlot) : (s.setPslot i x).laneLife = s.laneLife := rfl
@[simp] theorem State.setPslot_abortDue (i : Nat) (x : PSlot) : (s.setPslot i x).abortDue = s.abortDue := rfl
@[simp] theorem State.setPslot_heldLanes (i : Nat) (x : PSlot) : (s.setPslot i x).heldLanes = s.heldLanes := rfl
@[simp] theorem State.setPslot_lanes (i : Nat) (x : PSlot) : (s.setPslot i x).lanes = s.lanes := rfl
@[simp] theorem State.setPslot_queue (i : Nat) (x : PSlot) : (s.setPslot i x).queue = s.queue := rfl
@[simp] theorem State.setPslot_terms (i : Nat) (x : PSlot) : (s.setPslot i x).terms = s.terms := rfl
@[simp] theorem State.setPslot_staging (i : Nat) (x : PSlot) : (s.setPslot i x).staging = s.staging := rfl
@[simp] theorem State.setPslot_hostPorts (i : Nat) (x : PSlot) : (s.setPslot i x).hostPorts = s.hostPorts := rfl
@[simp] theorem State.setPslot_ceRecs (i : Nat) (x : PSlot) : (s.setPslot i x).ceRecs = s.ceRecs := rfl
@[simp] theorem State.setPslot_cages (i : Nat) (x : PSlot) : (s.setPslot i x).cages = s.cages := rfl
@[simp] theorem State.setPslot_ptpCur (i : Nat) (x : PSlot) : (s.setPslot i x).ptpCur = s.ptpCur := rfl
@[simp] theorem State.setPslot_fenceHist (i : Nat) (x : PSlot) : (s.setPslot i x).fenceHist = s.fenceHist := rfl
@[simp] theorem State.setPslot_nodeLogs (i : Nat) (x : PSlot) : (s.setPslot i x).nodeLogs = s.nodeLogs := rfl
@[simp] theorem State.setPslot_nextTxn (i : Nat) (x : PSlot) : (s.setPslot i x).nextTxn = s.nextTxn := rfl
@[simp] theorem State.setPslot_kv (i : Nat) (x : PSlot) : (s.setPslot i x).kv = s.kv := rfl
@[simp] theorem State.setPslot_groupEnts (i : Nat) (x : PSlot) : (s.setPslot i x).groupEnts = s.groupEnts := rfl
@[simp] theorem State.setPslot_pgroups (i : Nat) (x : PSlot) : (s.setPslot i x).pgroups = s.pgroups := rfl
@[simp] theorem State.setPslot_allocs (i : Nat) (x : PSlot) : (s.setPslot i x).allocs = s.allocs := rfl
@[simp] theorem State.setPslot_faults (i : Nat) (x : PSlot) : (s.setPslot i x).faults = s.faults := rfl
@[simp] theorem State.setPslot_evac (i : Nat) (x : PSlot) : (s.setPslot i x).evac = s.evac := rfl
@[simp] theorem State.setPslot_rebalDue (i : Nat) (x : PSlot) : (s.setPslot i x).rebalDue = s.rebalDue := rfl
@[simp] theorem State.setPslot_fullDue (i : Nat) (x : PSlot) : (s.setPslot i x).fullDue = s.fullDue := rfl
@[simp] theorem State.setPslot_staleDies (i : Nat) (x : PSlot) : (s.setPslot i x).staleDies = s.staleDies := rfl
@[simp] theorem State.setPslot_sparesChosen (i : Nat) (x : PSlot) : (s.setPslot i x).sparesChosen = s.sparesChosen := rfl
@[simp] theorem State.setPslot_slowSince (i : Nat) (x : PSlot) : (s.setPslot i x).slowSince = s.slowSince := rfl
@[simp] theorem State.setPslot_wakeWaiting (i : Nat) (x : PSlot) : (s.setPslot i x).wakeWaiting = s.wakeWaiting := rfl
@[simp] theorem State.setPslot_eopParts (i : Nat) (x : PSlot) : (s.setPslot i x).eopParts = s.eopParts := rfl
@[simp] theorem State.setPslot_halfOpen (i : Nat) (x : PSlot) : (s.setPslot i x).halfOpen = s.halfOpen := rfl
@[simp] theorem State.setPslot_sessions (i : Nat) (x : PSlot) : (s.setPslot i x).sessions = s.sessions := rfl
@[simp] theorem State.setPslot_refusedAt (i : Nat) (x : PSlot) : (s.setPslot i x).refusedAt = s.refusedAt := rfl
@[simp] theorem State.setPslot_eopDiscards (i : Nat) (x : PSlot) : (s.setPslot i x).eopDiscards = s.eopDiscards := rfl
@[simp] theorem State.setPslot_protoLog (i : Nat) (x : PSlot) : (s.setPslot i x).protoLog = s.protoLog := rfl
@[simp] theorem State.setPslot_closeDue (i : Nat) (x : PSlot) : (s.setPslot i x).closeDue = s.closeDue := rfl
@[simp] theorem State.setPslot_mgmtDue (i : Nat) (x : PSlot) : (s.setPslot i x).mgmtDue = s.mgmtDue := rfl
@[simp] theorem State.setPslot_quorumTaken (i : Nat) (x : PSlot) : (s.setPslot i x).quorumTaken = s.quorumTaken := rfl
@[simp] theorem State.setPslot_quorumQueue (i : Nat) (x : PSlot) : (s.setPslot i x).quorumQueue = s.quorumQueue := rfl
@[simp] theorem State.setPslot_readyAt (i : Nat) (x : PSlot) : (s.setPslot i x).readyAt = s.readyAt := rfl
@[simp] theorem State.setPslot_store0 (i : Nat) (x : PSlot) : (s.setPslot i x).store0 = s.store0 := rfl
@[simp] theorem State.setPslot_store1 (i : Nat) (x : PSlot) : (s.setPslot i x).store1 = s.store1 := rfl
@[simp] theorem State.setPslot_storeDirty (i : Nat) (x : PSlot) : (s.setPslot i x).storeDirty = s.storeDirty := rfl
@[simp] theorem State.setPslot_recovery (i : Nat) (x : PSlot) : (s.setPslot i x).recovery = s.recovery := rfl
@[simp] theorem State.setPslot_sectors (i : Nat) (x : PSlot) : (s.setPslot i x).sectors = s.sectors := rfl
@[simp] theorem State.setPslot_spots (i : Nat) (x : PSlot) : (s.setPslot i x).spots = s.spots := rfl
@[simp] theorem State.setPslot_dieTherm (i : Nat) (x : PSlot) : (s.setPslot i x).dieTherm = s.dieTherm := rfl
@[simp] theorem State.setPslot_ramps (i : Nat) (x : PSlot) : (s.setPslot i x).ramps = s.ramps := rfl
@[simp] theorem State.setPslot_rejoin (i : Nat) (x : PSlot) : (s.setPslot i x).rejoin = s.rejoin := rfl
@[simp] theorem State.setPslot_watts (i : Nat) (x : PSlot) : (s.setPslot i x).watts = s.watts := rfl
@[simp] theorem State.setPslot_ceilingAt (i : Nat) (x : PSlot) : (s.setPslot i x).ceilingAt = s.ceilingAt := rfl
@[simp] theorem State.setPslot_tripped (i : Nat) (x : PSlot) : (s.setPslot i x).tripped = s.tripped := rfl
@[simp] theorem State.setPslot_coolWarn (i : Nat) (x : PSlot) : (s.setPslot i x).coolWarn = s.coolWarn := rfl
@[simp] theorem State.setPslot_coolFrom (i : Nat) (x : PSlot) : (s.setPslot i x).coolFrom = s.coolFrom := rfl
@[simp] theorem State.setPslot_margins (i : Nat) (x : PSlot) : (s.setPslot i x).margins = s.margins := rfl
@[simp] theorem State.setPslot_lowTiles (i : Nat) (x : PSlot) : (s.setPslot i x).lowTiles = s.lowTiles := rfl
@[simp] theorem State.setPslot_factoryTrims (i : Nat) (x : PSlot) : (s.setPslot i x).factoryTrims = s.factoryTrims := rfl
@[simp] theorem State.setPslot_floorTaken (i : Nat) (x : PSlot) : (s.setPslot i x).floorTaken = s.floorTaken := rfl
@[simp] theorem State.setPslot_weakLanes (i : Nat) (x : PSlot) : (s.setPslot i x).weakLanes = s.weakLanes := rfl
@[simp] theorem State.setPslot_eccRates (i : Nat) (x : PSlot) : (s.setPslot i x).eccRates = s.eccRates := rfl
@[simp] theorem State.setPslot_marginPlan (i : Nat) (x : PSlot) : (s.setPslot i x).marginPlan = s.marginPlan := rfl
@[simp] theorem State.setPslot_ageHistory (i : Nat) (x : PSlot) : (s.setPslot i x).ageHistory = s.ageHistory := rfl
@[simp] theorem State.setPslot_poweredFrom (i : Nat) (x : PSlot) : (s.setPslot i x).poweredFrom = s.poweredFrom := rfl
@[simp] theorem State.setPslot_beats (i : Nat) (x : PSlot) : (s.setPslot i x).beats = s.beats := rfl
@[simp] theorem State.setPslot_hubMiss (i : Nat) (x : PSlot) : (s.setPslot i x).hubMiss = s.hubMiss := rfl
@[simp] theorem State.setPslot_offMiss (i : Nat) (x : PSlot) : (s.setPslot i x).offMiss = s.offMiss := rfl
@[simp] theorem State.setPslot_transientAt (i : Nat) (x : PSlot) : (s.setPslot i x).transientAt = s.transientAt := rfl
@[simp] theorem State.setPslot_resent (i : Nat) (x : PSlot) : (s.setPslot i x).resent = s.resent := rfl
@[simp] theorem State.setPslot_bgViol (i : Nat) (x : PSlot) : (s.setPslot i x).bgViol = s.bgViol := rfl
@[simp] theorem State.setPslot_bgFrom (i : Nat) (x : PSlot) : (s.setPslot i x).bgFrom = s.bgFrom := rfl
@[simp] theorem State.setPslot_bgHoldUntil (i : Nat) (x : PSlot) : (s.setPslot i x).bgHoldUntil = s.bgHoldUntil := rfl
@[simp] theorem State.setPslot_bgHolds (i : Nat) (x : PSlot) : (s.setPslot i x).bgHolds = s.bgHolds := rfl
@[simp] theorem State.setPslot_faultLog (i : Nat) (x : PSlot) : (s.setPslot i x).faultLog = s.faultLog := rfl
@[simp] theorem State.setPslot_hubsLost (i : Nat) (x : PSlot) : (s.setPslot i x).hubsLost = s.hubsLost := rfl
@[simp] theorem State.setPslot_stackRecs (i : Nat) (x : PSlot) : (s.setPslot i x).stackRecs = s.stackRecs := rfl
@[simp] theorem State.setPslot_cas (i : Nat) (x : PSlot) : (s.setPslot i x).cas = s.cas := rfl
@[simp] theorem State.setPslot_boot (i : Nat) (x : PSlot) : (s.setPslot i x).boot = s.boot := rfl
@[simp] theorem State.setPslot_dump (i : Nat) (x : PSlot) : (s.setPslot i x).dump = s.dump := rfl

-- setSector changes the stewards' state alone.
@[simp] theorem State.setSector_clk (i : Nat) (x : SectorPwr) : (s.setSector i x).clk = s.clk := rfl
@[simp] theorem State.setSector_tbOn (i : Nat) (x : SectorPwr) : (s.setSector i x).tbOn = s.tbOn := rfl
@[simp] theorem State.setSector_tbBase (i : Nat) (x : SectorPwr) : (s.setSector i x).tbBase = s.tbBase := rfl
@[simp] theorem State.setSector_freeCtr (i : Nat) (x : SectorPwr) : (s.setSector i x).freeCtr = s.freeCtr := rfl
@[simp] theorem State.setSector_pending (i : Nat) (x : SectorPwr) : (s.setSector i x).pending = s.pending := rfl
@[simp] theorem State.setSector_out (i : Nat) (x : SectorPwr) : (s.setSector i x).out = s.out := rfl
@[simp] theorem State.setSector_mem (i : Nat) (x : SectorPwr) : (s.setSector i x).mem = s.mem := rfl
@[simp] theorem State.setSector_tags (i : Nat) (x : SectorPwr) : (s.setSector i x).tags = s.tags := rfl
@[simp] theorem State.setSector_od (i : Nat) (x : SectorPwr) : (s.setSector i x).od = s.od := rfl
@[simp] theorem State.setSector_events (i : Nat) (x : SectorPwr) : (s.setSector i x).events = s.events := rfl
@[simp] theorem State.setSector_nextEvent (i : Nat) (x : SectorPwr) : (s.setSector i x).nextEvent = s.nextEvent := rfl
@[simp] theorem State.setSector_lastEvent (i : Nat) (x : SectorPwr) : (s.setSector i x).lastEvent = s.lastEvent := rfl
@[simp] theorem State.setSector_satSet (i : Nat) (x : SectorPwr) : (s.setSector i x).satSet = s.satSet := rfl
@[simp] theorem State.setSector_satList (i : Nat) (x : SectorPwr) : (s.setSector i x).satList = s.satList := rfl
@[simp] theorem State.setSector_tiles (i : Nat) (x : SectorPwr) : (s.setSector i x).tiles = s.tiles := rfl
@[simp] theorem State.setSector_bank0 (i : Nat) (x : SectorPwr) : (s.setSector i x).bank0 = s.bank0 := rfl
@[simp] theorem State.setSector_bank1 (i : Nat) (x : SectorPwr) : (s.setSector i x).bank1 = s.bank1 := rfl
@[simp] theorem State.setSector_links (i : Nat) (x : SectorPwr) : (s.setSector i x).links = s.links := rfl
@[simp] theorem State.setSector_mboxes (i : Nat) (x : SectorPwr) : (s.setSector i x).mboxes = s.mboxes := rfl
@[simp] theorem State.setSector_scanRows (i : Nat) (x : SectorPwr) : (s.setSector i x).scanRows = s.scanRows := rfl
@[simp] theorem State.setSector_chunks (i : Nat) (x : SectorPwr) : (s.setSector i x).chunks = s.chunks := rfl
@[simp] theorem State.setSector_floorDue (i : Nat) (x : SectorPwr) : (s.setSector i x).floorDue = s.floorDue := rfl
@[simp] theorem State.setSector_noticesA (i : Nat) (x : SectorPwr) : (s.setSector i x).noticesA = s.noticesA := rfl
@[simp] theorem State.setSector_noticesB (i : Nat) (x : SectorPwr) : (s.setSector i x).noticesB = s.noticesB := rfl
@[simp] theorem State.setSector_noticesOut (i : Nat) (x : SectorPwr) : (s.setSector i x).noticesOut = s.noticesOut := rfl
@[simp] theorem State.setSector_backoffs (i : Nat) (x : SectorPwr) : (s.setSector i x).backoffs = s.backoffs := rfl
@[simp] theorem State.setSector_fences (i : Nat) (x : SectorPwr) : (s.setSector i x).fences = s.fences := rfl
@[simp] theorem State.setSector_fenceQueue (i : Nat) (x : SectorPwr) : (s.setSector i x).fenceQueue = s.fenceQueue := rfl
@[simp] theorem State.setSector_laneLife (i : Nat) (x : SectorPwr) : (s.setSector i x).laneLife = s.laneLife := rfl
@[simp] theorem State.setSector_abortDue (i : Nat) (x : SectorPwr) : (s.setSector i x).abortDue = s.abortDue := rfl
@[simp] theorem State.setSector_heldLanes (i : Nat) (x : SectorPwr) : (s.setSector i x).heldLanes = s.heldLanes := rfl
@[simp] theorem State.setSector_pslots (i : Nat) (x : SectorPwr) : (s.setSector i x).pslots = s.pslots := rfl
@[simp] theorem State.setSector_lanes (i : Nat) (x : SectorPwr) : (s.setSector i x).lanes = s.lanes := rfl
@[simp] theorem State.setSector_queue (i : Nat) (x : SectorPwr) : (s.setSector i x).queue = s.queue := rfl
@[simp] theorem State.setSector_terms (i : Nat) (x : SectorPwr) : (s.setSector i x).terms = s.terms := rfl
@[simp] theorem State.setSector_staging (i : Nat) (x : SectorPwr) : (s.setSector i x).staging = s.staging := rfl
@[simp] theorem State.setSector_hostPorts (i : Nat) (x : SectorPwr) : (s.setSector i x).hostPorts = s.hostPorts := rfl
@[simp] theorem State.setSector_ceRecs (i : Nat) (x : SectorPwr) : (s.setSector i x).ceRecs = s.ceRecs := rfl
@[simp] theorem State.setSector_cages (i : Nat) (x : SectorPwr) : (s.setSector i x).cages = s.cages := rfl
@[simp] theorem State.setSector_ptpCur (i : Nat) (x : SectorPwr) : (s.setSector i x).ptpCur = s.ptpCur := rfl
@[simp] theorem State.setSector_fenceHist (i : Nat) (x : SectorPwr) : (s.setSector i x).fenceHist = s.fenceHist := rfl
@[simp] theorem State.setSector_nodeLogs (i : Nat) (x : SectorPwr) : (s.setSector i x).nodeLogs = s.nodeLogs := rfl
@[simp] theorem State.setSector_nextTxn (i : Nat) (x : SectorPwr) : (s.setSector i x).nextTxn = s.nextTxn := rfl
@[simp] theorem State.setSector_kv (i : Nat) (x : SectorPwr) : (s.setSector i x).kv = s.kv := rfl
@[simp] theorem State.setSector_groupEnts (i : Nat) (x : SectorPwr) : (s.setSector i x).groupEnts = s.groupEnts := rfl
@[simp] theorem State.setSector_pgroups (i : Nat) (x : SectorPwr) : (s.setSector i x).pgroups = s.pgroups := rfl
@[simp] theorem State.setSector_allocs (i : Nat) (x : SectorPwr) : (s.setSector i x).allocs = s.allocs := rfl
@[simp] theorem State.setSector_faults (i : Nat) (x : SectorPwr) : (s.setSector i x).faults = s.faults := rfl
@[simp] theorem State.setSector_evac (i : Nat) (x : SectorPwr) : (s.setSector i x).evac = s.evac := rfl
@[simp] theorem State.setSector_rebalDue (i : Nat) (x : SectorPwr) : (s.setSector i x).rebalDue = s.rebalDue := rfl
@[simp] theorem State.setSector_fullDue (i : Nat) (x : SectorPwr) : (s.setSector i x).fullDue = s.fullDue := rfl
@[simp] theorem State.setSector_staleDies (i : Nat) (x : SectorPwr) : (s.setSector i x).staleDies = s.staleDies := rfl
@[simp] theorem State.setSector_sparesChosen (i : Nat) (x : SectorPwr) : (s.setSector i x).sparesChosen = s.sparesChosen := rfl
@[simp] theorem State.setSector_slowSince (i : Nat) (x : SectorPwr) : (s.setSector i x).slowSince = s.slowSince := rfl
@[simp] theorem State.setSector_wakeWaiting (i : Nat) (x : SectorPwr) : (s.setSector i x).wakeWaiting = s.wakeWaiting := rfl
@[simp] theorem State.setSector_eopParts (i : Nat) (x : SectorPwr) : (s.setSector i x).eopParts = s.eopParts := rfl
@[simp] theorem State.setSector_halfOpen (i : Nat) (x : SectorPwr) : (s.setSector i x).halfOpen = s.halfOpen := rfl
@[simp] theorem State.setSector_sessions (i : Nat) (x : SectorPwr) : (s.setSector i x).sessions = s.sessions := rfl
@[simp] theorem State.setSector_refusedAt (i : Nat) (x : SectorPwr) : (s.setSector i x).refusedAt = s.refusedAt := rfl
@[simp] theorem State.setSector_eopDiscards (i : Nat) (x : SectorPwr) : (s.setSector i x).eopDiscards = s.eopDiscards := rfl
@[simp] theorem State.setSector_protoLog (i : Nat) (x : SectorPwr) : (s.setSector i x).protoLog = s.protoLog := rfl
@[simp] theorem State.setSector_closeDue (i : Nat) (x : SectorPwr) : (s.setSector i x).closeDue = s.closeDue := rfl
@[simp] theorem State.setSector_mgmtDue (i : Nat) (x : SectorPwr) : (s.setSector i x).mgmtDue = s.mgmtDue := rfl
@[simp] theorem State.setSector_quorumTaken (i : Nat) (x : SectorPwr) : (s.setSector i x).quorumTaken = s.quorumTaken := rfl
@[simp] theorem State.setSector_quorumQueue (i : Nat) (x : SectorPwr) : (s.setSector i x).quorumQueue = s.quorumQueue := rfl
@[simp] theorem State.setSector_readyAt (i : Nat) (x : SectorPwr) : (s.setSector i x).readyAt = s.readyAt := rfl
@[simp] theorem State.setSector_store0 (i : Nat) (x : SectorPwr) : (s.setSector i x).store0 = s.store0 := rfl
@[simp] theorem State.setSector_store1 (i : Nat) (x : SectorPwr) : (s.setSector i x).store1 = s.store1 := rfl
@[simp] theorem State.setSector_storeDirty (i : Nat) (x : SectorPwr) : (s.setSector i x).storeDirty = s.storeDirty := rfl
@[simp] theorem State.setSector_recovery (i : Nat) (x : SectorPwr) : (s.setSector i x).recovery = s.recovery := rfl
@[simp] theorem State.setSector_spots (i : Nat) (x : SectorPwr) : (s.setSector i x).spots = s.spots := rfl
@[simp] theorem State.setSector_dieTherm (i : Nat) (x : SectorPwr) : (s.setSector i x).dieTherm = s.dieTherm := rfl
@[simp] theorem State.setSector_ramps (i : Nat) (x : SectorPwr) : (s.setSector i x).ramps = s.ramps := rfl
@[simp] theorem State.setSector_rejoin (i : Nat) (x : SectorPwr) : (s.setSector i x).rejoin = s.rejoin := rfl
@[simp] theorem State.setSector_watts (i : Nat) (x : SectorPwr) : (s.setSector i x).watts = s.watts := rfl
@[simp] theorem State.setSector_ceilingAt (i : Nat) (x : SectorPwr) : (s.setSector i x).ceilingAt = s.ceilingAt := rfl
@[simp] theorem State.setSector_tripped (i : Nat) (x : SectorPwr) : (s.setSector i x).tripped = s.tripped := rfl
@[simp] theorem State.setSector_coolWarn (i : Nat) (x : SectorPwr) : (s.setSector i x).coolWarn = s.coolWarn := rfl
@[simp] theorem State.setSector_coolFrom (i : Nat) (x : SectorPwr) : (s.setSector i x).coolFrom = s.coolFrom := rfl
@[simp] theorem State.setSector_margins (i : Nat) (x : SectorPwr) : (s.setSector i x).margins = s.margins := rfl
@[simp] theorem State.setSector_lowTiles (i : Nat) (x : SectorPwr) : (s.setSector i x).lowTiles = s.lowTiles := rfl
@[simp] theorem State.setSector_factoryTrims (i : Nat) (x : SectorPwr) : (s.setSector i x).factoryTrims = s.factoryTrims := rfl
@[simp] theorem State.setSector_floorTaken (i : Nat) (x : SectorPwr) : (s.setSector i x).floorTaken = s.floorTaken := rfl
@[simp] theorem State.setSector_weakLanes (i : Nat) (x : SectorPwr) : (s.setSector i x).weakLanes = s.weakLanes := rfl
@[simp] theorem State.setSector_eccRates (i : Nat) (x : SectorPwr) : (s.setSector i x).eccRates = s.eccRates := rfl
@[simp] theorem State.setSector_marginPlan (i : Nat) (x : SectorPwr) : (s.setSector i x).marginPlan = s.marginPlan := rfl
@[simp] theorem State.setSector_ageHistory (i : Nat) (x : SectorPwr) : (s.setSector i x).ageHistory = s.ageHistory := rfl
@[simp] theorem State.setSector_poweredFrom (i : Nat) (x : SectorPwr) : (s.setSector i x).poweredFrom = s.poweredFrom := rfl
@[simp] theorem State.setSector_beats (i : Nat) (x : SectorPwr) : (s.setSector i x).beats = s.beats := rfl
@[simp] theorem State.setSector_hubMiss (i : Nat) (x : SectorPwr) : (s.setSector i x).hubMiss = s.hubMiss := rfl
@[simp] theorem State.setSector_offMiss (i : Nat) (x : SectorPwr) : (s.setSector i x).offMiss = s.offMiss := rfl
@[simp] theorem State.setSector_transientAt (i : Nat) (x : SectorPwr) : (s.setSector i x).transientAt = s.transientAt := rfl
@[simp] theorem State.setSector_resent (i : Nat) (x : SectorPwr) : (s.setSector i x).resent = s.resent := rfl
@[simp] theorem State.setSector_bgViol (i : Nat) (x : SectorPwr) : (s.setSector i x).bgViol = s.bgViol := rfl
@[simp] theorem State.setSector_bgFrom (i : Nat) (x : SectorPwr) : (s.setSector i x).bgFrom = s.bgFrom := rfl
@[simp] theorem State.setSector_bgHoldUntil (i : Nat) (x : SectorPwr) : (s.setSector i x).bgHoldUntil = s.bgHoldUntil := rfl
@[simp] theorem State.setSector_bgHolds (i : Nat) (x : SectorPwr) : (s.setSector i x).bgHolds = s.bgHolds := rfl
@[simp] theorem State.setSector_faultLog (i : Nat) (x : SectorPwr) : (s.setSector i x).faultLog = s.faultLog := rfl
@[simp] theorem State.setSector_hubsLost (i : Nat) (x : SectorPwr) : (s.setSector i x).hubsLost = s.hubsLost := rfl
@[simp] theorem State.setSector_stackRecs (i : Nat) (x : SectorPwr) : (s.setSector i x).stackRecs = s.stackRecs := rfl
@[simp] theorem State.setSector_cas (i : Nat) (x : SectorPwr) : (s.setSector i x).cas = s.cas := rfl
@[simp] theorem State.setSector_boot (i : Nat) (x : SectorPwr) : (s.setSector i x).boot = s.boot := rfl
@[simp] theorem State.setSector_dump (i : Nat) (x : SectorPwr) : (s.setSector i x).dump = s.dump := rfl

-- setStack changes the stacks alone.
@[simp] theorem State.setStack_clk (i : Nat) (x : StackUnit) : (s.setStack i x).clk = s.clk := rfl
@[simp] theorem State.setStack_tbOn (i : Nat) (x : StackUnit) : (s.setStack i x).tbOn = s.tbOn := rfl
@[simp] theorem State.setStack_tbBase (i : Nat) (x : StackUnit) : (s.setStack i x).tbBase = s.tbBase := rfl
@[simp] theorem State.setStack_freeCtr (i : Nat) (x : StackUnit) : (s.setStack i x).freeCtr = s.freeCtr := rfl
@[simp] theorem State.setStack_pending (i : Nat) (x : StackUnit) : (s.setStack i x).pending = s.pending := rfl
@[simp] theorem State.setStack_out (i : Nat) (x : StackUnit) : (s.setStack i x).out = s.out := rfl
@[simp] theorem State.setStack_mem (i : Nat) (x : StackUnit) : (s.setStack i x).mem = s.mem := rfl
@[simp] theorem State.setStack_tags (i : Nat) (x : StackUnit) : (s.setStack i x).tags = s.tags := rfl
@[simp] theorem State.setStack_od (i : Nat) (x : StackUnit) : (s.setStack i x).od = s.od := rfl
@[simp] theorem State.setStack_events (i : Nat) (x : StackUnit) : (s.setStack i x).events = s.events := rfl
@[simp] theorem State.setStack_nextEvent (i : Nat) (x : StackUnit) : (s.setStack i x).nextEvent = s.nextEvent := rfl
@[simp] theorem State.setStack_lastEvent (i : Nat) (x : StackUnit) : (s.setStack i x).lastEvent = s.lastEvent := rfl
@[simp] theorem State.setStack_satSet (i : Nat) (x : StackUnit) : (s.setStack i x).satSet = s.satSet := rfl
@[simp] theorem State.setStack_satList (i : Nat) (x : StackUnit) : (s.setStack i x).satList = s.satList := rfl
@[simp] theorem State.setStack_tiles (i : Nat) (x : StackUnit) : (s.setStack i x).tiles = s.tiles := rfl
@[simp] theorem State.setStack_bank0 (i : Nat) (x : StackUnit) : (s.setStack i x).bank0 = s.bank0 := rfl
@[simp] theorem State.setStack_bank1 (i : Nat) (x : StackUnit) : (s.setStack i x).bank1 = s.bank1 := rfl
@[simp] theorem State.setStack_links (i : Nat) (x : StackUnit) : (s.setStack i x).links = s.links := rfl
@[simp] theorem State.setStack_mboxes (i : Nat) (x : StackUnit) : (s.setStack i x).mboxes = s.mboxes := rfl
@[simp] theorem State.setStack_scanRows (i : Nat) (x : StackUnit) : (s.setStack i x).scanRows = s.scanRows := rfl
@[simp] theorem State.setStack_chunks (i : Nat) (x : StackUnit) : (s.setStack i x).chunks = s.chunks := rfl
@[simp] theorem State.setStack_floorDue (i : Nat) (x : StackUnit) : (s.setStack i x).floorDue = s.floorDue := rfl
@[simp] theorem State.setStack_noticesA (i : Nat) (x : StackUnit) : (s.setStack i x).noticesA = s.noticesA := rfl
@[simp] theorem State.setStack_noticesB (i : Nat) (x : StackUnit) : (s.setStack i x).noticesB = s.noticesB := rfl
@[simp] theorem State.setStack_noticesOut (i : Nat) (x : StackUnit) : (s.setStack i x).noticesOut = s.noticesOut := rfl
@[simp] theorem State.setStack_backoffs (i : Nat) (x : StackUnit) : (s.setStack i x).backoffs = s.backoffs := rfl
@[simp] theorem State.setStack_fences (i : Nat) (x : StackUnit) : (s.setStack i x).fences = s.fences := rfl
@[simp] theorem State.setStack_fenceQueue (i : Nat) (x : StackUnit) : (s.setStack i x).fenceQueue = s.fenceQueue := rfl
@[simp] theorem State.setStack_laneLife (i : Nat) (x : StackUnit) : (s.setStack i x).laneLife = s.laneLife := rfl
@[simp] theorem State.setStack_abortDue (i : Nat) (x : StackUnit) : (s.setStack i x).abortDue = s.abortDue := rfl
@[simp] theorem State.setStack_heldLanes (i : Nat) (x : StackUnit) : (s.setStack i x).heldLanes = s.heldLanes := rfl
@[simp] theorem State.setStack_pslots (i : Nat) (x : StackUnit) : (s.setStack i x).pslots = s.pslots := rfl
@[simp] theorem State.setStack_lanes (i : Nat) (x : StackUnit) : (s.setStack i x).lanes = s.lanes := rfl
@[simp] theorem State.setStack_queue (i : Nat) (x : StackUnit) : (s.setStack i x).queue = s.queue := rfl
@[simp] theorem State.setStack_terms (i : Nat) (x : StackUnit) : (s.setStack i x).terms = s.terms := rfl
@[simp] theorem State.setStack_staging (i : Nat) (x : StackUnit) : (s.setStack i x).staging = s.staging := rfl
@[simp] theorem State.setStack_hostPorts (i : Nat) (x : StackUnit) : (s.setStack i x).hostPorts = s.hostPorts := rfl
@[simp] theorem State.setStack_ceRecs (i : Nat) (x : StackUnit) : (s.setStack i x).ceRecs = s.ceRecs := rfl
@[simp] theorem State.setStack_cages (i : Nat) (x : StackUnit) : (s.setStack i x).cages = s.cages := rfl
@[simp] theorem State.setStack_ptpCur (i : Nat) (x : StackUnit) : (s.setStack i x).ptpCur = s.ptpCur := rfl
@[simp] theorem State.setStack_fenceHist (i : Nat) (x : StackUnit) : (s.setStack i x).fenceHist = s.fenceHist := rfl
@[simp] theorem State.setStack_nodeLogs (i : Nat) (x : StackUnit) : (s.setStack i x).nodeLogs = s.nodeLogs := rfl
@[simp] theorem State.setStack_nextTxn (i : Nat) (x : StackUnit) : (s.setStack i x).nextTxn = s.nextTxn := rfl
@[simp] theorem State.setStack_kv (i : Nat) (x : StackUnit) : (s.setStack i x).kv = s.kv := rfl
@[simp] theorem State.setStack_groupEnts (i : Nat) (x : StackUnit) : (s.setStack i x).groupEnts = s.groupEnts := rfl
@[simp] theorem State.setStack_pgroups (i : Nat) (x : StackUnit) : (s.setStack i x).pgroups = s.pgroups := rfl
@[simp] theorem State.setStack_allocs (i : Nat) (x : StackUnit) : (s.setStack i x).allocs = s.allocs := rfl
@[simp] theorem State.setStack_faults (i : Nat) (x : StackUnit) : (s.setStack i x).faults = s.faults := rfl
@[simp] theorem State.setStack_evac (i : Nat) (x : StackUnit) : (s.setStack i x).evac = s.evac := rfl
@[simp] theorem State.setStack_rebalDue (i : Nat) (x : StackUnit) : (s.setStack i x).rebalDue = s.rebalDue := rfl
@[simp] theorem State.setStack_fullDue (i : Nat) (x : StackUnit) : (s.setStack i x).fullDue = s.fullDue := rfl
@[simp] theorem State.setStack_staleDies (i : Nat) (x : StackUnit) : (s.setStack i x).staleDies = s.staleDies := rfl
@[simp] theorem State.setStack_sparesChosen (i : Nat) (x : StackUnit) : (s.setStack i x).sparesChosen = s.sparesChosen := rfl
@[simp] theorem State.setStack_slowSince (i : Nat) (x : StackUnit) : (s.setStack i x).slowSince = s.slowSince := rfl
@[simp] theorem State.setStack_wakeWaiting (i : Nat) (x : StackUnit) : (s.setStack i x).wakeWaiting = s.wakeWaiting := rfl
@[simp] theorem State.setStack_eopParts (i : Nat) (x : StackUnit) : (s.setStack i x).eopParts = s.eopParts := rfl
@[simp] theorem State.setStack_halfOpen (i : Nat) (x : StackUnit) : (s.setStack i x).halfOpen = s.halfOpen := rfl
@[simp] theorem State.setStack_sessions (i : Nat) (x : StackUnit) : (s.setStack i x).sessions = s.sessions := rfl
@[simp] theorem State.setStack_refusedAt (i : Nat) (x : StackUnit) : (s.setStack i x).refusedAt = s.refusedAt := rfl
@[simp] theorem State.setStack_eopDiscards (i : Nat) (x : StackUnit) : (s.setStack i x).eopDiscards = s.eopDiscards := rfl
@[simp] theorem State.setStack_protoLog (i : Nat) (x : StackUnit) : (s.setStack i x).protoLog = s.protoLog := rfl
@[simp] theorem State.setStack_closeDue (i : Nat) (x : StackUnit) : (s.setStack i x).closeDue = s.closeDue := rfl
@[simp] theorem State.setStack_mgmtDue (i : Nat) (x : StackUnit) : (s.setStack i x).mgmtDue = s.mgmtDue := rfl
@[simp] theorem State.setStack_quorumTaken (i : Nat) (x : StackUnit) : (s.setStack i x).quorumTaken = s.quorumTaken := rfl
@[simp] theorem State.setStack_quorumQueue (i : Nat) (x : StackUnit) : (s.setStack i x).quorumQueue = s.quorumQueue := rfl
@[simp] theorem State.setStack_readyAt (i : Nat) (x : StackUnit) : (s.setStack i x).readyAt = s.readyAt := rfl
@[simp] theorem State.setStack_store0 (i : Nat) (x : StackUnit) : (s.setStack i x).store0 = s.store0 := rfl
@[simp] theorem State.setStack_store1 (i : Nat) (x : StackUnit) : (s.setStack i x).store1 = s.store1 := rfl
@[simp] theorem State.setStack_storeDirty (i : Nat) (x : StackUnit) : (s.setStack i x).storeDirty = s.storeDirty := rfl
@[simp] theorem State.setStack_recovery (i : Nat) (x : StackUnit) : (s.setStack i x).recovery = s.recovery := rfl
@[simp] theorem State.setStack_sectors (i : Nat) (x : StackUnit) : (s.setStack i x).sectors = s.sectors := rfl
@[simp] theorem State.setStack_spots (i : Nat) (x : StackUnit) : (s.setStack i x).spots = s.spots := rfl
@[simp] theorem State.setStack_dieTherm (i : Nat) (x : StackUnit) : (s.setStack i x).dieTherm = s.dieTherm := rfl
@[simp] theorem State.setStack_ramps (i : Nat) (x : StackUnit) : (s.setStack i x).ramps = s.ramps := rfl
@[simp] theorem State.setStack_rejoin (i : Nat) (x : StackUnit) : (s.setStack i x).rejoin = s.rejoin := rfl
@[simp] theorem State.setStack_watts (i : Nat) (x : StackUnit) : (s.setStack i x).watts = s.watts := rfl
@[simp] theorem State.setStack_ceilingAt (i : Nat) (x : StackUnit) : (s.setStack i x).ceilingAt = s.ceilingAt := rfl
@[simp] theorem State.setStack_tripped (i : Nat) (x : StackUnit) : (s.setStack i x).tripped = s.tripped := rfl
@[simp] theorem State.setStack_coolWarn (i : Nat) (x : StackUnit) : (s.setStack i x).coolWarn = s.coolWarn := rfl
@[simp] theorem State.setStack_coolFrom (i : Nat) (x : StackUnit) : (s.setStack i x).coolFrom = s.coolFrom := rfl
@[simp] theorem State.setStack_margins (i : Nat) (x : StackUnit) : (s.setStack i x).margins = s.margins := rfl
@[simp] theorem State.setStack_lowTiles (i : Nat) (x : StackUnit) : (s.setStack i x).lowTiles = s.lowTiles := rfl
@[simp] theorem State.setStack_factoryTrims (i : Nat) (x : StackUnit) : (s.setStack i x).factoryTrims = s.factoryTrims := rfl
@[simp] theorem State.setStack_floorTaken (i : Nat) (x : StackUnit) : (s.setStack i x).floorTaken = s.floorTaken := rfl
@[simp] theorem State.setStack_weakLanes (i : Nat) (x : StackUnit) : (s.setStack i x).weakLanes = s.weakLanes := rfl
@[simp] theorem State.setStack_eccRates (i : Nat) (x : StackUnit) : (s.setStack i x).eccRates = s.eccRates := rfl
@[simp] theorem State.setStack_marginPlan (i : Nat) (x : StackUnit) : (s.setStack i x).marginPlan = s.marginPlan := rfl
@[simp] theorem State.setStack_ageHistory (i : Nat) (x : StackUnit) : (s.setStack i x).ageHistory = s.ageHistory := rfl
@[simp] theorem State.setStack_poweredFrom (i : Nat) (x : StackUnit) : (s.setStack i x).poweredFrom = s.poweredFrom := rfl
@[simp] theorem State.setStack_beats (i : Nat) (x : StackUnit) : (s.setStack i x).beats = s.beats := rfl
@[simp] theorem State.setStack_hubMiss (i : Nat) (x : StackUnit) : (s.setStack i x).hubMiss = s.hubMiss := rfl
@[simp] theorem State.setStack_offMiss (i : Nat) (x : StackUnit) : (s.setStack i x).offMiss = s.offMiss := rfl
@[simp] theorem State.setStack_transientAt (i : Nat) (x : StackUnit) : (s.setStack i x).transientAt = s.transientAt := rfl
@[simp] theorem State.setStack_resent (i : Nat) (x : StackUnit) : (s.setStack i x).resent = s.resent := rfl
@[simp] theorem State.setStack_bgViol (i : Nat) (x : StackUnit) : (s.setStack i x).bgViol = s.bgViol := rfl
@[simp] theorem State.setStack_bgFrom (i : Nat) (x : StackUnit) : (s.setStack i x).bgFrom = s.bgFrom := rfl
@[simp] theorem State.setStack_bgHoldUntil (i : Nat) (x : StackUnit) : (s.setStack i x).bgHoldUntil = s.bgHoldUntil := rfl
@[simp] theorem State.setStack_bgHolds (i : Nat) (x : StackUnit) : (s.setStack i x).bgHolds = s.bgHolds := rfl
@[simp] theorem State.setStack_faultLog (i : Nat) (x : StackUnit) : (s.setStack i x).faultLog = s.faultLog := rfl
@[simp] theorem State.setStack_hubsLost (i : Nat) (x : StackUnit) : (s.setStack i x).hubsLost = s.hubsLost := rfl
@[simp] theorem State.setStack_cas (i : Nat) (x : StackUnit) : (s.setStack i x).cas = s.cas := rfl
@[simp] theorem State.setStack_boot (i : Nat) (x : StackUnit) : (s.setStack i x).boot = s.boot := rfl
@[simp] theorem State.setStack_dump (i : Nat) (x : StackUnit) : (s.setStack i x).dump = s.dump := rfl

-- setLink changes the links alone.
@[simp] theorem State.setLink_clk (l : Nat) (x : LinkEnd) : (s.setLink l x).clk = s.clk := rfl
@[simp] theorem State.setLink_tbOn (l : Nat) (x : LinkEnd) : (s.setLink l x).tbOn = s.tbOn := rfl
@[simp] theorem State.setLink_tbBase (l : Nat) (x : LinkEnd) : (s.setLink l x).tbBase = s.tbBase := rfl
@[simp] theorem State.setLink_freeCtr (l : Nat) (x : LinkEnd) : (s.setLink l x).freeCtr = s.freeCtr := rfl
@[simp] theorem State.setLink_pending (l : Nat) (x : LinkEnd) : (s.setLink l x).pending = s.pending := rfl
@[simp] theorem State.setLink_out (l : Nat) (x : LinkEnd) : (s.setLink l x).out = s.out := rfl
@[simp] theorem State.setLink_mem (l : Nat) (x : LinkEnd) : (s.setLink l x).mem = s.mem := rfl
@[simp] theorem State.setLink_tags (l : Nat) (x : LinkEnd) : (s.setLink l x).tags = s.tags := rfl
@[simp] theorem State.setLink_od (l : Nat) (x : LinkEnd) : (s.setLink l x).od = s.od := rfl
@[simp] theorem State.setLink_events (l : Nat) (x : LinkEnd) : (s.setLink l x).events = s.events := rfl
@[simp] theorem State.setLink_nextEvent (l : Nat) (x : LinkEnd) : (s.setLink l x).nextEvent = s.nextEvent := rfl
@[simp] theorem State.setLink_lastEvent (l : Nat) (x : LinkEnd) : (s.setLink l x).lastEvent = s.lastEvent := rfl
@[simp] theorem State.setLink_satSet (l : Nat) (x : LinkEnd) : (s.setLink l x).satSet = s.satSet := rfl
@[simp] theorem State.setLink_satList (l : Nat) (x : LinkEnd) : (s.setLink l x).satList = s.satList := rfl
@[simp] theorem State.setLink_tiles (l : Nat) (x : LinkEnd) : (s.setLink l x).tiles = s.tiles := rfl
@[simp] theorem State.setLink_bank0 (l : Nat) (x : LinkEnd) : (s.setLink l x).bank0 = s.bank0 := rfl
@[simp] theorem State.setLink_bank1 (l : Nat) (x : LinkEnd) : (s.setLink l x).bank1 = s.bank1 := rfl
@[simp] theorem State.setLink_mboxes (l : Nat) (x : LinkEnd) : (s.setLink l x).mboxes = s.mboxes := rfl
@[simp] theorem State.setLink_scanRows (l : Nat) (x : LinkEnd) : (s.setLink l x).scanRows = s.scanRows := rfl
@[simp] theorem State.setLink_chunks (l : Nat) (x : LinkEnd) : (s.setLink l x).chunks = s.chunks := rfl
@[simp] theorem State.setLink_floorDue (l : Nat) (x : LinkEnd) : (s.setLink l x).floorDue = s.floorDue := rfl
@[simp] theorem State.setLink_noticesA (l : Nat) (x : LinkEnd) : (s.setLink l x).noticesA = s.noticesA := rfl
@[simp] theorem State.setLink_noticesB (l : Nat) (x : LinkEnd) : (s.setLink l x).noticesB = s.noticesB := rfl
@[simp] theorem State.setLink_noticesOut (l : Nat) (x : LinkEnd) : (s.setLink l x).noticesOut = s.noticesOut := rfl
@[simp] theorem State.setLink_backoffs (l : Nat) (x : LinkEnd) : (s.setLink l x).backoffs = s.backoffs := rfl
@[simp] theorem State.setLink_fences (l : Nat) (x : LinkEnd) : (s.setLink l x).fences = s.fences := rfl
@[simp] theorem State.setLink_fenceQueue (l : Nat) (x : LinkEnd) : (s.setLink l x).fenceQueue = s.fenceQueue := rfl
@[simp] theorem State.setLink_laneLife (l : Nat) (x : LinkEnd) : (s.setLink l x).laneLife = s.laneLife := rfl
@[simp] theorem State.setLink_abortDue (l : Nat) (x : LinkEnd) : (s.setLink l x).abortDue = s.abortDue := rfl
@[simp] theorem State.setLink_heldLanes (l : Nat) (x : LinkEnd) : (s.setLink l x).heldLanes = s.heldLanes := rfl
@[simp] theorem State.setLink_pslots (l : Nat) (x : LinkEnd) : (s.setLink l x).pslots = s.pslots := rfl
@[simp] theorem State.setLink_lanes (l : Nat) (x : LinkEnd) : (s.setLink l x).lanes = s.lanes := rfl
@[simp] theorem State.setLink_queue (l : Nat) (x : LinkEnd) : (s.setLink l x).queue = s.queue := rfl
@[simp] theorem State.setLink_terms (l : Nat) (x : LinkEnd) : (s.setLink l x).terms = s.terms := rfl
@[simp] theorem State.setLink_staging (l : Nat) (x : LinkEnd) : (s.setLink l x).staging = s.staging := rfl
@[simp] theorem State.setLink_hostPorts (l : Nat) (x : LinkEnd) : (s.setLink l x).hostPorts = s.hostPorts := rfl
@[simp] theorem State.setLink_ceRecs (l : Nat) (x : LinkEnd) : (s.setLink l x).ceRecs = s.ceRecs := rfl
@[simp] theorem State.setLink_cages (l : Nat) (x : LinkEnd) : (s.setLink l x).cages = s.cages := rfl
@[simp] theorem State.setLink_ptpCur (l : Nat) (x : LinkEnd) : (s.setLink l x).ptpCur = s.ptpCur := rfl
@[simp] theorem State.setLink_fenceHist (l : Nat) (x : LinkEnd) : (s.setLink l x).fenceHist = s.fenceHist := rfl
@[simp] theorem State.setLink_nodeLogs (l : Nat) (x : LinkEnd) : (s.setLink l x).nodeLogs = s.nodeLogs := rfl
@[simp] theorem State.setLink_nextTxn (l : Nat) (x : LinkEnd) : (s.setLink l x).nextTxn = s.nextTxn := rfl
@[simp] theorem State.setLink_kv (l : Nat) (x : LinkEnd) : (s.setLink l x).kv = s.kv := rfl
@[simp] theorem State.setLink_groupEnts (l : Nat) (x : LinkEnd) : (s.setLink l x).groupEnts = s.groupEnts := rfl
@[simp] theorem State.setLink_pgroups (l : Nat) (x : LinkEnd) : (s.setLink l x).pgroups = s.pgroups := rfl
@[simp] theorem State.setLink_allocs (l : Nat) (x : LinkEnd) : (s.setLink l x).allocs = s.allocs := rfl
@[simp] theorem State.setLink_faults (l : Nat) (x : LinkEnd) : (s.setLink l x).faults = s.faults := rfl
@[simp] theorem State.setLink_evac (l : Nat) (x : LinkEnd) : (s.setLink l x).evac = s.evac := rfl
@[simp] theorem State.setLink_rebalDue (l : Nat) (x : LinkEnd) : (s.setLink l x).rebalDue = s.rebalDue := rfl
@[simp] theorem State.setLink_fullDue (l : Nat) (x : LinkEnd) : (s.setLink l x).fullDue = s.fullDue := rfl
@[simp] theorem State.setLink_staleDies (l : Nat) (x : LinkEnd) : (s.setLink l x).staleDies = s.staleDies := rfl
@[simp] theorem State.setLink_sparesChosen (l : Nat) (x : LinkEnd) : (s.setLink l x).sparesChosen = s.sparesChosen := rfl
@[simp] theorem State.setLink_slowSince (l : Nat) (x : LinkEnd) : (s.setLink l x).slowSince = s.slowSince := rfl
@[simp] theorem State.setLink_wakeWaiting (l : Nat) (x : LinkEnd) : (s.setLink l x).wakeWaiting = s.wakeWaiting := rfl
@[simp] theorem State.setLink_eopParts (l : Nat) (x : LinkEnd) : (s.setLink l x).eopParts = s.eopParts := rfl
@[simp] theorem State.setLink_halfOpen (l : Nat) (x : LinkEnd) : (s.setLink l x).halfOpen = s.halfOpen := rfl
@[simp] theorem State.setLink_sessions (l : Nat) (x : LinkEnd) : (s.setLink l x).sessions = s.sessions := rfl
@[simp] theorem State.setLink_refusedAt (l : Nat) (x : LinkEnd) : (s.setLink l x).refusedAt = s.refusedAt := rfl
@[simp] theorem State.setLink_eopDiscards (l : Nat) (x : LinkEnd) : (s.setLink l x).eopDiscards = s.eopDiscards := rfl
@[simp] theorem State.setLink_protoLog (l : Nat) (x : LinkEnd) : (s.setLink l x).protoLog = s.protoLog := rfl
@[simp] theorem State.setLink_closeDue (l : Nat) (x : LinkEnd) : (s.setLink l x).closeDue = s.closeDue := rfl
@[simp] theorem State.setLink_mgmtDue (l : Nat) (x : LinkEnd) : (s.setLink l x).mgmtDue = s.mgmtDue := rfl
@[simp] theorem State.setLink_quorumTaken (l : Nat) (x : LinkEnd) : (s.setLink l x).quorumTaken = s.quorumTaken := rfl
@[simp] theorem State.setLink_quorumQueue (l : Nat) (x : LinkEnd) : (s.setLink l x).quorumQueue = s.quorumQueue := rfl
@[simp] theorem State.setLink_readyAt (l : Nat) (x : LinkEnd) : (s.setLink l x).readyAt = s.readyAt := rfl
@[simp] theorem State.setLink_store0 (l : Nat) (x : LinkEnd) : (s.setLink l x).store0 = s.store0 := rfl
@[simp] theorem State.setLink_store1 (l : Nat) (x : LinkEnd) : (s.setLink l x).store1 = s.store1 := rfl
@[simp] theorem State.setLink_storeDirty (l : Nat) (x : LinkEnd) : (s.setLink l x).storeDirty = s.storeDirty := rfl
@[simp] theorem State.setLink_recovery (l : Nat) (x : LinkEnd) : (s.setLink l x).recovery = s.recovery := rfl
@[simp] theorem State.setLink_sectors (l : Nat) (x : LinkEnd) : (s.setLink l x).sectors = s.sectors := rfl
@[simp] theorem State.setLink_spots (l : Nat) (x : LinkEnd) : (s.setLink l x).spots = s.spots := rfl
@[simp] theorem State.setLink_dieTherm (l : Nat) (x : LinkEnd) : (s.setLink l x).dieTherm = s.dieTherm := rfl
@[simp] theorem State.setLink_ramps (l : Nat) (x : LinkEnd) : (s.setLink l x).ramps = s.ramps := rfl
@[simp] theorem State.setLink_rejoin (l : Nat) (x : LinkEnd) : (s.setLink l x).rejoin = s.rejoin := rfl
@[simp] theorem State.setLink_watts (l : Nat) (x : LinkEnd) : (s.setLink l x).watts = s.watts := rfl
@[simp] theorem State.setLink_ceilingAt (l : Nat) (x : LinkEnd) : (s.setLink l x).ceilingAt = s.ceilingAt := rfl
@[simp] theorem State.setLink_tripped (l : Nat) (x : LinkEnd) : (s.setLink l x).tripped = s.tripped := rfl
@[simp] theorem State.setLink_coolWarn (l : Nat) (x : LinkEnd) : (s.setLink l x).coolWarn = s.coolWarn := rfl
@[simp] theorem State.setLink_coolFrom (l : Nat) (x : LinkEnd) : (s.setLink l x).coolFrom = s.coolFrom := rfl
@[simp] theorem State.setLink_margins (l : Nat) (x : LinkEnd) : (s.setLink l x).margins = s.margins := rfl
@[simp] theorem State.setLink_lowTiles (l : Nat) (x : LinkEnd) : (s.setLink l x).lowTiles = s.lowTiles := rfl
@[simp] theorem State.setLink_factoryTrims (l : Nat) (x : LinkEnd) : (s.setLink l x).factoryTrims = s.factoryTrims := rfl
@[simp] theorem State.setLink_floorTaken (l : Nat) (x : LinkEnd) : (s.setLink l x).floorTaken = s.floorTaken := rfl
@[simp] theorem State.setLink_weakLanes (l : Nat) (x : LinkEnd) : (s.setLink l x).weakLanes = s.weakLanes := rfl
@[simp] theorem State.setLink_eccRates (l : Nat) (x : LinkEnd) : (s.setLink l x).eccRates = s.eccRates := rfl
@[simp] theorem State.setLink_marginPlan (l : Nat) (x : LinkEnd) : (s.setLink l x).marginPlan = s.marginPlan := rfl
@[simp] theorem State.setLink_ageHistory (l : Nat) (x : LinkEnd) : (s.setLink l x).ageHistory = s.ageHistory := rfl
@[simp] theorem State.setLink_poweredFrom (l : Nat) (x : LinkEnd) : (s.setLink l x).poweredFrom = s.poweredFrom := rfl
@[simp] theorem State.setLink_beats (l : Nat) (x : LinkEnd) : (s.setLink l x).beats = s.beats := rfl
@[simp] theorem State.setLink_hubMiss (l : Nat) (x : LinkEnd) : (s.setLink l x).hubMiss = s.hubMiss := rfl
@[simp] theorem State.setLink_offMiss (l : Nat) (x : LinkEnd) : (s.setLink l x).offMiss = s.offMiss := rfl
@[simp] theorem State.setLink_transientAt (l : Nat) (x : LinkEnd) : (s.setLink l x).transientAt = s.transientAt := rfl
@[simp] theorem State.setLink_resent (l : Nat) (x : LinkEnd) : (s.setLink l x).resent = s.resent := rfl
@[simp] theorem State.setLink_bgViol (l : Nat) (x : LinkEnd) : (s.setLink l x).bgViol = s.bgViol := rfl
@[simp] theorem State.setLink_bgFrom (l : Nat) (x : LinkEnd) : (s.setLink l x).bgFrom = s.bgFrom := rfl
@[simp] theorem State.setLink_bgHoldUntil (l : Nat) (x : LinkEnd) : (s.setLink l x).bgHoldUntil = s.bgHoldUntil := rfl
@[simp] theorem State.setLink_bgHolds (l : Nat) (x : LinkEnd) : (s.setLink l x).bgHolds = s.bgHolds := rfl
@[simp] theorem State.setLink_faultLog (l : Nat) (x : LinkEnd) : (s.setLink l x).faultLog = s.faultLog := rfl
@[simp] theorem State.setLink_hubsLost (l : Nat) (x : LinkEnd) : (s.setLink l x).hubsLost = s.hubsLost := rfl
@[simp] theorem State.setLink_stackRecs (l : Nat) (x : LinkEnd) : (s.setLink l x).stackRecs = s.stackRecs := rfl
@[simp] theorem State.setLink_cas (l : Nat) (x : LinkEnd) : (s.setLink l x).cas = s.cas := rfl
@[simp] theorem State.setLink_boot (l : Nat) (x : LinkEnd) : (s.setLink l x).boot = s.boot := rfl
@[simp] theorem State.setLink_dump (l : Nat) (x : LinkEnd) : (s.setLink l x).dump = s.dump := rfl

end Sys2Proof.Machine
end

