-- ==== Sys2Proof/Laws/Tables.lean ====
section
/-!
SUPPORT. The sparse tables of the state: what a lookup gives after an update, for any list, and that updates keep the canonical form.
-/
namespace Sys2Proof.Machine

variable {α : Type}

@[simp] theorem mlook_nil (k : Nat) : mlook ([] : SMap α) k = none := rfl

/-- A lookup after an entry is put. -/
theorem mlook_mins (m : SMap α) (k j : Nat) (v : α) : mlook (mins m k v) j = if k = j then some v else mlook m j := by
  induction m with
  | nil => simp [mins, mlook]
  | cons p t ih =>
    obtain ⟨a, w⟩ := p
    simp only [mins]
    split
    · simp [mlook]
    · split
      · subst_vars
        by_cases h : a = j <;> simp [mlook, h]
      · simp only [mlook, ih]
        by_cases h1 : a = j <;> by_cases h2 : k = j <;> simp_all

@[simp] theorem mlook_mins_same (m : SMap α) (k : Nat) (v : α) : mlook (mins m k v) k = some v := by simp [mlook_mins]

@[simp] theorem mlook_mins_other (m : SMap α) {k j : Nat} (v : α) (h : k ≠ j) : mlook (mins m k v) j = mlook m j := by
  simp [mlook_mins, h]

/-- A lookup after an entry is removed. -/
theorem mlook_mdel (m : SMap α) (k j : Nat) : mlook (mdel m k) j = if k = j then none else mlook m j := by
  induction m with
  | nil => simp [mdel, mlook]
  | cons p t ih =>
    obtain ⟨a, w⟩ := p
    simp only [mdel] at ih ⊢
    by_cases h : a = k
    · rw [List.filter_cons_of_neg (by simp [h]), ih]
      by_cases h2 : k = j <;> simp [mlook, h, h2]
    · rw [List.filter_cons_of_pos (by simp [h])]
      simp only [mlook, ih]
      by_cases h2 : a = j <;> by_cases h3 : k = j <;> simp_all

@[simp] theorem mlook_mdel_same (m : SMap α) (k : Nat) : mlook (mdel m k) k = none := by simp [mlook_mdel]

@[simp] theorem mlook_mdel_other (m : SMap α) {k j : Nat} (h : k ≠ j) : mlook (mdel m k) j = mlook m j := by simp [mlook_mdel, h]

variable [DecidableEq α]

/-- A read after a write of a table with a default. -/
theorem mget_mset (d : α) (m : SMap α) (k j : Nat) (v : α) : mget d (mset d m k v) j = if k = j then v else mget d m j := by
  unfold mget mset
  by_cases hv : v = d
  · subst hv
    by_cases h : k = j <;> simp [h]
  · by_cases h : k = j <;> simp [h, hv]

@[simp] theorem mget_mset_same (d : α) (m : SMap α) (k : Nat) (v : α) : mget d (mset d m k v) k = v := by simp [mget_mset]

@[simp] theorem mget_mset_other (d : α) (m : SMap α) {k j : Nat} (v : α) (h : k ≠ j) : mget d (mset d m k v) j = mget d m j := by
  simp [mget_mset, h]

-- ------------------------------------------------------------------ the canonical form

/-- Every key of a table is above a bound. -/
def keysAbove (n : Nat) (m : SMap α) : Prop := ∀ p ∈ m, n < p.1

omit [DecidableEq α] in
theorem keysRise_cons (a : Nat) (w : α) (t : SMap α) : keysRise ((a, w) :: t) = true ↔ keysAbove a t ∧ keysRise t = true := by
  induction t generalizing a w with
  | nil => simp [keysRise, keysAbove]
  | cons p t ih =>
    obtain ⟨b, v⟩ := p
    simp only [keysRise, Bool.and_eq_true, decide_eq_true_eq]
    constructor
    · rintro ⟨h1, h2⟩
      refine ⟨?_, h2⟩
      have h3 := (ih b v).1 h2
      intro q hq
      rcases List.mem_cons.1 hq with rfl | hq
      · exact h1
      · exact Nat.lt_trans h1 (h3.1 q hq)
    · rintro ⟨h1, h2⟩
      exact ⟨h1 (b, v) (by simp), h2⟩

omit [DecidableEq α] in
theorem mem_mins (m : SMap α) (k : Nat) (v : α) (p : Nat × α) (h : p ∈ mins m k v) : p = (k, v) ∨ p ∈ m := by
  induction m with
  | nil => simpa [mins] using h
  | cons q t ih =>
    obtain ⟨a, w⟩ := q
    simp only [mins] at h
    split at h
    · simpa using h
    · split at h
      · rcases List.mem_cons.1 h with h | h <;> simp [h]
      · rcases List.mem_cons.1 h with h | h
        · simp [h]
        · rcases ih h with h | h <;> simp [h]

omit [DecidableEq α] in
theorem keysRise_mins (m : SMap α) (k : Nat) (v : α) (h : keysRise m = true) : keysRise (mins m k v) = true := by
  induction m with
  | nil => simp [mins, keysRise]
  | cons q t ih =>
    obtain ⟨a, w⟩ := q
    have h0 := (keysRise_cons a w t).1 h
    simp only [mins]
    split
    · rename_i hk
      refine (keysRise_cons _ _ _).2 ⟨?_, h⟩
      intro p hp
      rcases List.mem_cons.1 hp with rfl | hp
      · exact hk
      · exact Nat.lt_trans hk (h0.1 p hp)
    · split
      · subst_vars; exact (keysRise_cons _ _ _).2 h0
      · refine (keysRise_cons _ _ _).2 ⟨?_, ih h0.2⟩
        intro p hp
        rcases mem_mins t k v p hp with rfl | hp
        · simp only; omega
        · exact h0.1 p hp

omit [DecidableEq α] in
theorem keysRise_filter (m : SMap α) (f : Nat × α → Bool) (h : keysRise m = true) : keysRise (m.filter f) = true := by
  induction m with
  | nil => simp [keysRise]
  | cons q t ih =>
    obtain ⟨a, w⟩ := q
    have h0 := (keysRise_cons a w t).1 h
    by_cases hf : f (a, w)
    · rw [List.filter_cons_of_pos hf]
      refine (keysRise_cons _ _ _).2 ⟨?_, ih h0.2⟩
      intro p hp
      exact h0.1 p ((List.mem_filter.1 hp).1)
    · rw [List.filter_cons_of_neg hf]
      exact ih h0.2

/-- A write keeps the canonical form. -/
theorem mwf_mset (d : α) (m : SMap α) (k : Nat) (v : α) (h : mwf d m = true) : mwf d (mset d m k v) = true := by
  simp only [mwf, Bool.and_eq_true, List.all_eq_true, decide_eq_true_eq] at h ⊢
  unfold mset
  split
  · refine ⟨keysRise_filter _ _ h.1, fun p hp => h.2 p ((List.mem_filter.1 hp).1)⟩
  · rename_i hv
    refine ⟨keysRise_mins _ _ _ h.1, fun p hp => ?_⟩
    rcases mem_mins m k v p hp with rfl | hp
    · exact hv
    · exact h.2 p hp

/-- Removing entries keeps the canonical form. -/
theorem mwf_filter (d : α) (m : SMap α) (f : Nat × α → Bool) (h : mwf d m = true) : mwf d (m.filter f) = true := by
  simp only [mwf, Bool.and_eq_true, List.all_eq_true, decide_eq_true_eq] at h ⊢
  exact ⟨keysRise_filter _ _ h.1, fun p hp => h.2 p ((List.mem_filter.1 hp).1)⟩

theorem mwf_mclear (d : α) (m : SMap α) (lo hi : Nat) (h : mwf d m = true) : mwf d (mclear m lo hi) = true := mwf_filter d m _ h

end Sys2Proof.Machine
end

