-- ==== Sys2Proof/Laws/Objects.lean ====
section
/-!
SUPPORT. Reads of the object table, of tiles and of memory after updates: what each shared operation of Ops.lean does, said once.
-/
namespace Sys2Proof.Machine

-- ------------------------------------------------------------------ objects

/-- An update that leaves the object table alone leaves every object alone. -/
theorem odGet_congr {s t : State} (h : t.od = s.od) (a : Nat) : t.odGet a = s.odGet a := by simp [State.odGet, State.variant, h]

theorem floorNow_congr {s t : State} (h : t.od = s.od) (h' : t.floorDue = s.floorDue) (a : Nat) : t.floorNow a = s.floorNow a := by
  simp [State.floorNow, odGet_congr h, h']

@[simp] theorem clk_tick (s : State) (dt : Nat) : (s.tick dt).clk = s.clk + dt := rfl
@[simp] theorem odGet_tick (s : State) (dt a : Nat) : (s.tick dt).odGet a = s.odGet a := odGet_congr rfl a
@[simp] theorem odGet_send (s : State) (e : Emit) (a : Nat) : (s.send e).odGet a = s.odGet a := odGet_congr rfl a
@[simp] theorem odGet_sendAll (s : State) (l : List Emit) (a : Nat) : (s.sendAll l).odGet a = s.odGet a := odGet_congr rfl a
@[simp] theorem odGet_take (s : State) (e : Emit) (a : Nat) : (s.take e).odGet a = s.odGet a := odGet_congr rfl a
@[simp] theorem odGet_burn (s : State) (a : Nat) : s.burn.odGet a = s.odGet a := odGet_congr rfl a
@[simp] theorem odGet_stageFloor (s : State) (b v a : Nat) : (s.stageFloor b v).odGet a = s.odGet a := odGet_congr rfl a
@[simp] theorem odGet_publish (s : State) (b : Nat) (x : List Nat) (a : Nat) : (s.publish b x).odGet a = s.odGet a := odGet_congr rfl a
@[simp] theorem odGet_publish24 (s : State) (b : Nat) (x : List Nat) (a : Nat) : (s.publish24 b x).odGet a = s.odGet a := odGet_congr rfl a
@[simp] theorem odGet_setTile (s : State) (k : Nat) (t : Tile) (a : Nat) : (s.setTile k t).odGet a = s.odGet a := odGet_congr rfl a
@[simp] theorem odGet_setTag (s : State) (k r : Nat) (f : Bool) (a : Nat) : (s.setTag k r f).odGet a = s.odGet a := odGet_congr rfl a
@[simp] theorem odGet_putRow (s : State) (n o : Nat) (r : Row) (a : Nat) : (s.putRow n o r).odGet a = s.odGet a := odGet_congr rfl a
@[simp] theorem odGet_putBytes (s : State) (n o : Nat) (b : List Nat) (a : Nat) : (s.putBytes n o b).odGet a = s.odGet a := odGet_congr rfl a
@[simp] theorem odGet_setLane (s : State) (l : Nat) (x : LaneRec) (a : Nat) : (s.setLane l x).odGet a = s.odGet a := odGet_congr rfl a
@[simp] theorem odGet_setPslot (s : State) (i : Nat) (x : PSlot) (a : Nat) : (s.setPslot i x).odGet a = s.odGet a := odGet_congr rfl a
@[simp] theorem odGet_setSector (s : State) (i : Nat) (x : SectorPwr) (a : Nat) : (s.setSector i x).odGet a = s.odGet a := odGet_congr rfl a
@[simp] theorem odGet_setStack (s : State) (i : Nat) (x : StackUnit) (a : Nat) : (s.setStack i x).odGet a = s.odGet a := odGet_congr rfl a
@[simp] theorem odGet_setLink (s : State) (l : Nat) (x : LinkEnd) (a : Nat) : (s.setLink l x).odGet a = s.odGet a := odGet_congr rfl a

/-- The variant is one of the objects. -/
theorem variant_odSet (s : State) {a : Nat} (v : Nat) (h : a ≠ oFloorPanelVariant) : (s.odSet a v).variant = s.variant := by
  unfold State.variant State.odSet
  split <;> simp [h]

/-- An object after it has been set, and every other object (but for the variant, which sets other defaults). -/
theorem odGet_odSet (s : State) {a : Nat} (v b : Nat) (h : a ≠ oFloorPanelVariant) :
    (s.odSet a v).odGet b = if a = b then v else s.odGet b := by
  have hv := variant_odSet s v h
  unfold State.odGet
  rw [hv]
  unfold State.odSet
  by_cases hd : v = odDefault s.variant a
  · by_cases hb : a = b
    · subst hb; simp [hd]
    · simp [hd, hb]
  · by_cases hb : a = b
    · subst hb; simp [hd]
    · simp [hd, hb]

@[simp] theorem odGet_odSet_same (s : State) {a : Nat} (v : Nat) (h : a ≠ oFloorPanelVariant) : (s.odSet a v).odGet a = v := by
  simp [odGet_odSet s v a h]

theorem odGet_odSet_other (s : State) {a b : Nat} (v : Nat) (h : a ≠ oFloorPanelVariant) (hb : a ≠ b) :
    (s.odSet a v).odGet b = s.odGet b := by
  simp [odGet_odSet s v b h, hb]

-- ------------------------------------------------------------------ tiles

@[simp] theorem tile_tick (s : State) (dt k : Nat) : (s.tick dt).tile k = s.tile k := rfl
@[simp] theorem tile_odSet (s : State) (a v k : Nat) : (s.odSet a v).tile k = s.tile k := rfl
@[simp] theorem tile_send (s : State) (e : Emit) (k : Nat) : (s.send e).tile k = s.tile k := rfl
@[simp] theorem tile_publish (s : State) (a : Nat) (x : List Nat) (k : Nat) : (s.publish a x).tile k = s.tile k := rfl
@[simp] theorem tile_publish24 (s : State) (a : Nat) (x : List Nat) (k : Nat) : (s.publish24 a x).tile k = s.tile k := rfl
@[simp] theorem tile_setTile_same (s : State) (k : Nat) (t : Tile) : (s.setTile k t).tile k = t := mget_mset_same _ _ _ _
@[simp] theorem tile_setTile_other (s : State) {k j : Nat} (t : Tile) (h : k ≠ j) : (s.setTile k t).tile j = s.tile j :=
  mget_mset_other _ _ _ h

@[simp] theorem slot_setSlot_same (t : Tile) (i : Nat) (x : Slot) : (t.setSlot i x).slot i = x := mget_mset_same _ _ _ _
@[simp] theorem slot_setSlot_other (t : Tile) {i j : Nat} (x : Slot) (h : i ≠ j) : (t.setSlot i x).slot j = t.slot j := mget_mset_other _ _ _ h
@[simp] theorem region_setRegion_same (t : Tile) (i : Nat) (x : Region) : (t.setRegion i x).region i = x := mget_mset_same _ _ _ _
@[simp] theorem region_setRegion_other (t : Tile) {i j : Nat} (x : Region) (h : i ≠ j) : (t.setRegion i x).region j = t.region j :=
  mget_mset_other _ _ _ h
@[simp] theorem queue_setQueue_same (t : Tile) (i : Nat) (x : Queue) : (t.setQueue i x).queue i = x := mget_mset_same _ _ _ _
@[simp] theorem queue_setQueue_other (t : Tile) {i j : Nat} (x : Queue) (h : i ≠ j) : (t.setQueue i x).queue j = t.queue j :=
  mget_mset_other _ _ _ h

-- ------------------------------------------------------------------ memory

/-- A byte after one byte has been written. -/
theorem memByte_memSet (m : List Host.Cell) (a b : Nat) (v : BitVec 8) : memByte (memSet m a v) b = if a = b then v else memByte m b :=
  mget_mset _ _ _ _ _

theorem wf_memSet (m : List Host.Cell) (a : Nat) (v : BitVec 8) (h : Memory.wf m = true) : Memory.wf (memSet m a v) = true := mwf_mset _ _ _ _ h

/-- Every write of bytes keeps the canonical form. -/
theorem wf_memWrite (b : List Nat) : ∀ (m : List Host.Cell) (a : Nat), Memory.wf m = true → Memory.wf (memWrite m a b) = true := by
  induction b with
  | nil => intro m a h; exact h
  | cons x t ih => intro m a h; exact ih _ _ (wf_memSet _ _ _ h)

theorem wf_memZero (m : List Host.Cell) (a n : Nat) (h : Memory.wf m = true) : Memory.wf (memZero m a n) = true := mwf_mclear _ _ _ _ h

/-- A byte outside the bytes written reads as before. -/
theorem memByte_memWrite_outside (b : List Nat) : ∀ (m : List Host.Cell) (a j : Nat), (j < a ∨ a + b.length ≤ j) →
    memByte (memWrite m a b) j = memByte m j := by
  induction b with
  | nil => intro m a j _; rfl
  | cons x t ih =>
    intro m a j h
    have h1 := ih (memSet m a (BitVec.ofNat 8 x)) (a + 1) j (by simp only [List.length_cons] at h; omega)
    have h2 : a ≠ j := by simp only [List.length_cons] at h; omega
    rw [show memWrite m a (x :: t) = memWrite (memSet m a (BitVec.ofNat 8 x)) (a + 1) t from rfl, h1, memByte_memSet]
    simp [h2]

theorem wf_putRow (s : State) (n o : Nat) (r : Row) (h : Memory.wf s.mem = true) : Memory.wf (s.putRow n o r).mem = true := wf_memWrite _ _ _ h
theorem wf_putBytes (s : State) (n o : Nat) (b : List Nat) (h : Memory.wf s.mem = true) : Memory.wf (s.putBytes n o b).mem = true :=
  wf_memWrite _ _ _ h

-- ------------------------------------------------------------------ folds

/-- What every step of a fold keeps, the fold keeps: one lemma for the frames of all loops over the state. -/
theorem foldl_keeps {α β : Type} (P : α → Prop) (f : α → β → α) (hf : ∀ a b, P a → P (f a b)) :
    ∀ (l : List β) (a : α), P a → P (l.foldl f a) := by
  intro l
  induction l with
  | nil => intro a h; exact h
  | cons x t ih => intro a h; exact ih _ (hf a x h)

/-- A field that no step of a fold changes is as it was. -/
theorem foldl_same {α β γ : Type} (g : α → γ) (f : α → β → α) (hf : ∀ a b, g (f a b) = g a) (l : List β) (a : α) : g (l.foldl f a) = g a :=
  foldl_keeps (fun x => g x = g a) f (fun x b h => (hf x b).trans h) l a rfl

end Sys2Proof.Machine
end

