-- ==== Sys2Proof/Laws/Memory.lean ====
section
/-!
SUPPORT. Bytes and rows of memory read after they have been written, and the bound of a CRC-32.
-/
namespace Sys2Proof.Machine

@[simp] theorem length_toLE (n v : Nat) : (toLE n v).length = n := by
  induction n generalizing v with
  | zero => rfl
  | succ n ih => simp [toLE, ih]

/-- The number that the little-endian bytes of a number spell. -/
theorem ofLE_toLE (n v : Nat) : ofLE (toLE n v) = v % 256 ^ n := by
  induction n generalizing v with
  | zero => simp [toLE, ofLE, Nat.mod_one]
  | succ n ih =>
    simp only [toLE, ofLE, ih]
    rw [Nat.pow_succ, Nat.mul_comm (256 ^ n) 256, Nat.mod_mul, Nat.mod_mod]

set_option exponentiation.threshold 600 in
/-- A row's bytes spell the row. -/
theorem rowOf_bytesOfRow (r : Row) : rowOf (bytesOfRow r) = r := by
  unfold rowOf bytesOfRow
  rw [List.take_of_length_le (by simp), ofLE_toLE]
  have h : (256 : Nat) ^ 64 = 2 ^ 512 := by rw [show (256 : Nat) = 2 ^ 8 from rfl, ← Nat.pow_mul]
  rw [h, Nat.mod_eq_of_lt r.isLt, BitVec.ofNat_toNat]
  exact BitVec.setWidth_eq r

theorem toLE_lt (n v : Nat) : ∀ x ∈ toLE n v, x < 256 := by
  induction n generalizing v with
  | zero => simp [toLE]
  | succ n ih =>
    intro x hx
    simp only [toLE, List.mem_cons] at hx
    rcases hx with rfl | hx
    · exact Nat.mod_lt _ (by decide)
    · exact ih _ x hx

/-- Bytes read where they have been written (values above 255 lose their upper bits). -/
theorem memRead_memWrite (b : List Nat) : ∀ (m : List Host.Cell) (a : Nat), memRead (memWrite m a b) a b.length = b.map (· % 256) := by
  induction b with
  | nil => intro m a; rfl
  | cons x t ih =>
    intro m a
    simp only [memWrite, List.length_cons, memRead, List.map_cons, ih]
    rw [memByte_memWrite_outside t _ _ _ (by omega), memByte_memSet]
    simp

/-- Bytes read outside those written are as before. -/
theorem memRead_memWrite_outside (b : List Nat) (n : Nat) : ∀ (m : List Host.Cell) (a c : Nat), (c + n ≤ a ∨ a + b.length ≤ c) →
    memRead (memWrite m a b) c n = memRead m c n := by
  induction n with
  | zero => intro m a c _; rfl
  | succ n ih =>
    intro m a c h
    simp only [memRead]
    rw [ih m a (c + 1) (by omega), memByte_memWrite_outside b _ _ _ (by omega)]

/-- A row read where it has been written. -/
@[simp] theorem rowAt_putRow_same (s : State) (n o : Nat) (r : Row) : (s.putRow n o r).rowAt n o = r := by
  unfold State.rowAt State.putRow
  have h := memRead_memWrite (bytesOfRow r) s.mem (gaddr n o)
  rw [show (bytesOfRow r).length = 64 from length_toLE 64 _] at h
  dsimp only
  rw [h]
  have : (bytesOfRow r).map (· % 256) = bytesOfRow r := by
    calc (bytesOfRow r).map (· % 256) = (bytesOfRow r).map id :=
          List.map_congr_left (fun x hx => Nat.mod_eq_of_lt (toLE_lt _ _ x hx))
      _ = bytesOfRow r := List.map_id _
  rw [this, rowOf_bytesOfRow]

/-- A row read elsewhere on the node is as before. -/
theorem rowAt_putRow_other (s : State) (n o p : Nat) (r : Row) (h : p + 64 ≤ o ∨ o + 64 ≤ p) : (s.putRow n o r).rowAt n p = s.rowAt n p := by
  unfold State.rowAt State.putRow
  dsimp only
  rw [memRead_memWrite_outside _ _ _ _ _ (by
    rw [show (bytesOfRow r).length = 64 from length_toLE 64 _]; unfold gaddr; omega)]

theorem rowAt_putRows_below (n : Nat) (l : List Row) : ∀ (s : State) (o p : Nat), p + 64 ≤ o → (s.putRows n o l).rowAt n p = s.rowAt n p := by
  induction l with
  | nil => intro s o p _; rfl
  | cons r t ih =>
    intro s o p h
    simp only [State.putRows]
    rw [ih _ _ _ (by omega), rowAt_putRow_other _ _ _ _ _ (by omega)]

/-- Rows read where they have been written. -/
theorem rowsAt_putRows (n : Nat) (l : List Row) : ∀ (s : State) (o : Nat), (s.putRows n o l).rowsAt n o l.length = l := by
  induction l with
  | nil => intro s o; rfl
  | cons r t ih =>
    intro s o
    have h := ih (s.putRow n o r) (o + 64)
    unfold State.rowsAt at h ⊢
    simp only [List.length_cons, List.range_succ_eq_map, List.map_cons, State.putRows, List.map_map, Nat.mul_zero, Nat.add_zero]
    rw [rowAt_putRows_below _ _ _ _ _ (by omega), rowAt_putRow_same]
    have e : ((fun i => ((s.putRow n o r).putRows n (o + 64) t).rowAt n (o + 64 * i)) ∘ Nat.succ) =
        (fun i => ((s.putRow n o r).putRows n (o + 64) t).rowAt n (o + 64 + 64 * i)) := by
      funext i
      rw [show o + 64 + 64 * i = o + 64 * (i + 1) from by omega]
      rfl
    rw [e, h]

/-- A CRC-32 is a 32-bit number. -/
theorem crc32_lt (b : List Nat) : crc32 b < 2 ^ 32 := by
  have hb : ∀ n c, c < 2 ^ 32 → crcBits 0xEDB88320 n c < 2 ^ 32 := by
    intro n
    induction n with
    | zero => intro c h; exact h
    | succ n ih =>
      intro c h
      simp only [crcBits]
      apply ih
      split
      · exact Nat.xor_lt_two_pow (by omega) (by decide)
      · omega
  have hf : ∀ (l : List Nat) c, c < 2 ^ 32 → l.foldl (fun c x => crcBits 0xEDB88320 8 (c ^^^ (x % 256))) c < 2 ^ 32 := by
    intro l
    induction l with
    | nil => intro c h; exact h
    | cons x t ih => intro c h; exact ih _ (hb 8 _ (Nat.xor_lt_two_pow h (by omega)))
  exact Nat.xor_lt_two_pow (hf b _ (by decide)) (by decide)

end Sys2Proof.Machine
end

