-- ==== Sys2Proof/Laws/Ops.lean ====
section
/-!
SUPPORT. What a counter's bump and the other shared operations can do, said once: only objects change, and which.
-/
namespace Sys2Proof.Machine

theorem OnlyObjects.refl (s : State) : OnlyObjects s s := rfl
theorem OnlyObjects.trans {s t u : State} (h : OnlyObjects s t) (h' : OnlyObjects t u) : OnlyObjects s u := by
  unfold OnlyObjects at *
  rw [h']
  rw [h]

theorem odSet_only (s : State) (a v : Nat) : OnlyObjects s (s.odSet a v) := rfl
theorem publish_only (s : State) (a : Nat) (b : List Nat) : OnlyObjects s (s.publish a b) := rfl

/-- A counter that reaches its maximum changes objects and events alone. -/
theorem saturate_only (s : State) (a : Nat) : OnlyObjects s (s.saturate a) := by
  dsimp only [State.saturate]
  split <;> rfl

/-- A count changes objects alone, and events where the counter reaches its maximum. -/
theorem bumpN_only (s : State) (a n : Nat) : OnlyObjects s (s.bumpN a n) := by
  dsimp only [State.bumpN]
  split
  · exact (odSet_only s a _).trans (saturate_only _ a)
  · rfl
theorem bump_only (s : State) (a : Nat) : OnlyObjects s (s.bump a) := bumpN_only s a 1

@[simp] theorem tile_saturate (s : State) (a k : Nat) : (s.saturate a).tile k = s.tile k := by rw [saturate_only s a]; rfl
@[simp] theorem tile_bumpN (s : State) (a n k : Nat) : (s.bumpN a n).tile k = s.tile k := by rw [bumpN_only s a n]; rfl
@[simp] theorem tile_bump (s : State) (a k : Nat) : (s.bump a).tile k = s.tile k := tile_bumpN s a 1 k
@[simp] theorem bump_clk (s : State) (a : Nat) : (s.bump a).clk = s.clk := by rw [bump_only s a]
@[simp] theorem bump_mem (s : State) (a : Nat) : (s.bump a).mem = s.mem := by rw [bump_only s a]
@[simp] theorem bump_tags (s : State) (a : Nat) : (s.bump a).tags = s.tags := by rw [bump_only s a]
@[simp] theorem bump_out (s : State) (a : Nat) : (s.bump a).out = s.out := by rw [bump_only s a]
@[simp] theorem bump_tiles (s : State) (a : Nat) : (s.bump a).tiles = s.tiles := by rw [bump_only s a]
@[simp] theorem bumpN_clk (s : State) (a n : Nat) : (s.bumpN a n).clk = s.clk := by rw [bumpN_only s a n]
@[simp] theorem bumpN_mem (s : State) (a n : Nat) : (s.bumpN a n).mem = s.mem := by rw [bumpN_only s a n]
@[simp] theorem bumpN_out (s : State) (a n : Nat) : (s.bumpN a n).out = s.out := by rw [bumpN_only s a n]
@[simp] theorem bumpN_tiles (s : State) (a n : Nat) : (s.bumpN a n).tiles = s.tiles := by rw [bumpN_only s a n]

/-- What a saturation writes among the objects: the list's full bit, and nothing else. -/
theorem odGet_saturate (s : State) {a b : Nat} (h : b ≠ oOdCounterListFull) : (s.saturate a).odGet b = s.odGet b := by
  dsimp only [State.saturate]
  split
  · exact odGet_congr rfl b
  · rw [odGet_odSet_other _ _ (by decide) (Ne.symm h)]
    exact odGet_congr rfl b

/-- The value of a counter after it has counted (R328). -/
theorem odGet_bumpN_same (s : State) {a : Nat} (n : Nat) (h : a ≠ oFloorPanelVariant) (h' : a ≠ oOdCounterListFull) :
    (s.bumpN a n).odGet a = min (s.odGet a + n) maxCount := by
  dsimp only [State.bumpN]
  split
  · rw [odGet_saturate _ h', odGet_odSet_same _ _ h]
  · rw [odGet_odSet_same _ _ h]

/-- Every other object after a counter has counted. -/
theorem odGet_bumpN_other (s : State) {a b : Nat} (n : Nat) (h : a ≠ oFloorPanelVariant) (hb : a ≠ b) (h' : b ≠ oOdCounterListFull) :
    (s.bumpN a n).odGet b = s.odGet b := by
  dsimp only [State.bumpN]
  split
  · rw [odGet_saturate _ h', odGet_odSet_other _ _ h hb]
  · rw [odGet_odSet_other _ _ h hb]

/-- A packet or message sent changes what is in flight alone. -/
theorem send_frame (s : State) (e : Emit) : s.send e = { s with out := s.out ++ [s.stamp e] } := rfl

/-- A doorbell bit rung changes objects alone, and events where the count of coalesced rings reaches its maximum. -/
theorem ring_only (s : State) (node bit : Nat) : OnlyObjects s (s.ring node bit) := by
  dsimp only [State.ring]
  split
  · rfl
  · split
    · exact bump_only _ _
    · rfl

end Sys2Proof.Machine
end

