-- ==== Sys2Proof/Laws/Frames.lean ====
section
/-!
SUPPORT. What the shared operations of a tile's firings can change, said once: one tile, the tags of its rows, what is in flight,
objects and events.
-/
namespace Sys2Proof.Machine

variable {k : Nat} {s t u : State}

theorem OnlyTileWork.refl (k : Nat) (s : State) : OnlyTileWork k s s := ⟨rfl, fun _ _ => rfl, fun _ _ _ _ => rfl⟩

theorem OnlyTileWork.trans (h : OnlyTileWork k s t) (h' : OnlyTileWork k t u) : OnlyTileWork k s u := by
  refine ⟨?_, fun j hj => (h'.2.1 j hj).trans (h.2.1 j hj), fun j r hj hr => (h'.2.2 j r hj hr).trans (h.2.2 j r hj hr)⟩
  rw [h'.1, h.1]

/-- A count, an event or an object value is work of any tile. -/
theorem OnlyObjects.work (h : OnlyObjects s t) : OnlyTileWork k s t := by
  unfold OnlyObjects at h
  exact ⟨by rw [h], fun j _ => by rw [h]; rfl, fun j r _ _ => by rw [h]; rfl⟩

theorem bump_work (s : State) (a : Nat) : OnlyTileWork k s (s.bump a) := (bump_only s a).work
theorem bumpN_work (s : State) (a n : Nat) : OnlyTileWork k s (s.bumpN a n) := (bumpN_only s a n).work
theorem publish_work (s : State) (a : Nat) (b : List Nat) : OnlyTileWork k s (s.publish a b) := (publish_only s a b).work
theorem publish24_work (s : State) (a : Nat) (b : List Nat) : OnlyTileWork k s (s.publish24 a b) := publish_work s a _
theorem send_work (s : State) (e : Emit) : OnlyTileWork k s (s.send e) := ⟨rfl, fun _ _ => rfl, fun _ _ _ _ => rfl⟩
theorem bumpTxn_work (s : State) : OnlyTileWork k s s.bumpTxn := ⟨rfl, fun _ _ => rfl, fun _ _ _ _ => rfl⟩
theorem setTile_work (s : State) (k : Nat) (x : Tile) : OnlyTileWork k s (s.setTile k x) :=
  ⟨rfl, fun _ h => tile_setTile_other s x (Ne.symm h), fun _ _ _ _ => rfl⟩

theorem setTag_work (s : State) {k r : Nat} (f : Bool) (h : r < 65536) : OnlyTileWork k s (s.setTag k r f) :=
  ⟨rfl, fun _ _ => rfl, fun j q hj hq => mget_mset_other _ _ _ (by omega)⟩

/-- Tags set within a tile's rows are that tile's. -/
theorem setTags_work (k : Nat) (f : Bool) (n : Nat) : ∀ (s : State) (r : Nat), r + n ≤ 65536 → OnlyTileWork k s (s.setTags k r f n) := by
  induction n with
  | zero => intro s r _; exact OnlyTileWork.refl k s
  | succ n ih => intro s r h; exact (setTag_work s f (by omega)).trans (ih _ _ (by omega))

theorem logTile_work (s : State) (k : Nat) (e : FaultEntry) : OnlyTileWork k s (s.logTile k e) := by
  have key : ∀ (b : Bool) (c : Prop) [Decidable c] (x : Tile),
      OnlyTileWork k s (if c then (if b = true then ((s.setTile k x).bump (oTileFaultCount k)).bump (oTileFaultLost k)
        else (s.setTile k x).bump (oTileFaultCount k)).bump oTilePanelViolations
      else if b = true then ((s.setTile k x).bump (oTileFaultCount k)).bump (oTileFaultLost k) else (s.setTile k x).bump (oTileFaultCount k)) := by
    intro b c _ x
    have h1 : OnlyTileWork k s ((s.setTile k x).bump (oTileFaultCount k)) := (setTile_work s k _).trans (bump_work _ _)
    have h2 : OnlyTileWork k s (if b = true then ((s.setTile k x).bump (oTileFaultCount k)).bump (oTileFaultLost k)
        else (s.setTile k x).bump (oTileFaultCount k)) := by
      split
      · exact h1.trans (bump_work _ _)
      · exact h1
    split
    · exact h2.trans (bump_work _ _)
    · exact h2
  exact key _ _ _

theorem sendError_work (s : State) (node dst txn sl : Nat) (e : FaultEntry) (l : List Nat) : OnlyTileWork k s (s.sendError node dst txn sl e l) :=
  (send_work _ _).trans (bump_work _ _)

theorem violateTok_work (s : State) (k i q : Nat) (r : TokRec) (c a d : Nat) : OnlyTileWork k s (s.violateTok k i q r c a d) :=
  ((setTile_work s k _).trans (sendError_work _ _ _ _ _ _ _)).trans (logTile_work _ _ _)

theorem violate_work (s : State) (k i : Nat) (l : List (Nat × TokRec)) (c a d : Nat) : OnlyTileWork k s (s.violate k i l c a d) := by
  cases l with
  | nil => exact OnlyTileWork.refl k s
  | cons p l => exact ((setTile_work s k _).trans (bump_work _ _)).trans (violateTok_work _ _ _ _ _ _ _ _)

theorem errorFire_work (s : State) (k i : Nat) (l : List (Nat × TokRec)) (e : TokRec) : OnlyTileWork k s (s.errorFire k i l e) :=
  (setTile_work s k _).trans (bump_work _ _)

theorem tagWait_work (s : State) (j : Nat) : OnlyTileWork k s (s.tagWait j) := bump_work _ _

theorem slotWait_work (s : State) (k i : Nat) (r : TokRec) : OnlyTileWork k s (s.slotWait k i r) := by
  unfold State.slotWait
  dsimp only
  split
  · exact OnlyTileWork.refl k s
  · exact (setTile_work s k _).trans (tagWait_work _ _)

theorem arbitrate_work (s : State) (k u : Nat) (l : List Nat) (c : List (Fin 32 × Fin 5)) : OnlyTileWork k s (s.arbitrate k u l c).1 := by
  unfold State.arbitrate
  dsimp only
  split
  · exact OnlyTileWork.refl k s
  · exact (setTile_work s k _).trans (bumpN_work _ _ _)

/-- What a user does once its banks are granted is one tile's work where the act is. -/
theorem granted_work {k u : Nat} {l : List Nat} {c : List (Fin 32 × Fin 5)} {act : State → State}
    (h : ∀ v, OnlyTileWork k s v → OnlyTileWork k s (act v)) : OnlyTileWork k s (s.granted k u l c act) := by
  unfold State.granted
  dsimp only
  split
  · exact h _ (arbitrate_work s k u l c)
  · exact arbitrate_work s k u l c

theorem violateAt_work (s : State) (k i : Nat) (l : List (Nat × TokRec)) (n : Nat) (r : TokRec) (c a d : Nat) :
    OnlyTileWork k s (s.violateAt k i l n r c a d) :=
  ((setTile_work s k _).trans (bump_work _ _)).trans (violateTok_work _ _ _ _ _ _ _ _)

theorem endFire_work (s : State) (k i : Nat) (l : List (Nat × TokRec)) (o : List TokRec) : OnlyTileWork k s (s.endFire k i l o) :=
  (setTile_work s k _).trans (bump_work _ _)

theorem hazard_work (s : State) (k e w row p : Nat) : OnlyTileWork k s (s.hazard k e w row p) := by
  have key : ∀ b : Bool, OnlyTileWork k s (if b = true then
      (((s.bump (oScratchpadTileHazards k)).bump oScratchpadPanelHazards).setTile k
        { ((s.bump (oScratchpadTileHazards k)).bump oScratchpadPanelHazards).tile k with lastHazard := some s.clk }).publish24 oScratchpadPanelHazard
        (toLE 2 k ++ [e, w] ++ toLE 2 (rResident ((s.tile k).region e)) ++ toLE 2 row ++ toLE 2 p)
      else (s.bump (oScratchpadTileHazards k)).bump oScratchpadPanelHazards) := by
    intro b
    split
    · exact (((bump_work s _).trans (bump_work _ _)).trans (setTile_work _ _ _)).trans (publish24_work _ _ _)
    · exact (bump_work s _).trans (bump_work _ _)
  exact key _

theorem emptyRows_work (s : State) (k : Nat) (r : Region) (i first n : Nat) (h : first + n ≤ 65536) : OnlyTileWork k s (s.emptyRows k r i first n) := by
  unfold State.emptyRows
  split
  · exact setTags_work k _ n s first h
  · exact OnlyTileWork.refl k s

theorem fillRows_work (s : State) (k : Nat) (r : Region) (first n : Nat) (h : first + n ≤ 65536) : OnlyTileWork k s (s.fillRows k r first n) := by
  unfold State.fillRows
  split
  · exact setTags_work k _ n s first h
  · exact OnlyTileWork.refl k s

theorem bits_lt (w hi lo : Nat) : bits w hi lo < 2 ^ (hi + 1 - lo) := Nat.mod_lt _ (Nat.two_pow_pos _)

/-- The rows of a region are rows of the tile (R131). -/
theorem rLimit_lt (r : Region) : rLimit r < 65536 := bits_lt _ 47 32

theorem inRegion_bound {r : Region} {first n : Nat} (h : inRegion r first n = true) : first + n ≤ 65536 := by
  have := rLimit_lt r
  simp [inRegion] at h
  omega

/-- What an access of a memory unit resolves to lies within its deckle and its region (R133). -/
theorem resolve_inside {d : Desc} {r : Region} {w : Bool} {off n first q : Nat} (h : resolve d r w off n = .rows first q) :
    inDeckle d first n = true ∧ inRegion r first n = true := by
  unfold resolve at h
  dsimp only at h
  repeat' split at h
  all_goals first
    | (simp at h; done)
    | (simp only [Access.rows.injEq] at h
       rw [← h.1]
       simp only [Bool.and_eq_true] at *
       exact ‹_ ∧ inRegion r _ n = true›)

theorem resolve_bound {d : Desc} {r : Region} {w : Bool} {off n first q : Nat} (h : resolve d r w off n = .rows first q) : first + n ≤ 65536 :=
  inRegion_bound (resolve_inside h).2

theorem releaseRuns_work (s : State) (k i : Nat) (l : List (Nat × Nat)) : OnlyTileWork k s (s.releaseRuns k i l) := by
  refine foldl_keeps (fun u => OnlyTileWork k s u) _ (fun u p h => ?_) l s (OnlyTileWork.refl k s)
  refine foldl_keeps (fun u => OnlyTileWork k s u) _ (fun v j h' => ?_) _ u h
  split
  · rename_i e r q
    refine h'.trans (emptyRows_work _ _ _ _ _ _ ?_)
    unfold Tile.regionOfRow at q
    cases hf : (v.tile k).regions.find? (fun x => rHas x.2 (p.1 + j)) with
    | none => rw [hf] at q; cases q
    | some x =>
      have := List.find?_some hf
      have := rLimit_lt x.2
      simp [rHas] at *
      omega
  · exact h'

theorem arith_work (s : State) (j n c : Nat) : OnlyTileWork k s (s.arith j n c) := (bumpN_work s _ _).trans (bumpN_work _ _ _)
theorem noteConv_work (s : State) (j : Nat) (l : List ConvNote) : OnlyTileWork k s (s.noteConv j l) :=
  ((arith_work s _ _ _).trans (arith_work _ _ _ _)).trans (arith_work _ _ _ _)

theorem vectorFire_work (s : State) (k i : Nat) (x : Tile) (l : List (Nat × TokRec)) : OnlyTileWork k s (s.vectorFire k i x l) := by
  unfold State.vectorFire
  dsimp only
  exact ((((((setTile_work s k _).trans (bump_work _ _)).trans (bumpN_work _ _ _)).trans (arith_work _ _ _ _)).trans (arith_work _ _ _ _)).trans
    (noteConv_work _ _ _)).trans ((arith_work _ _ _ _).trans (arith_work _ _ _ _))

theorem addBlock_work (s : State) (k i : Nat) (m : MatProg) (d : Desc) : OnlyTileWork k s (s.addBlock k i m d) := by
  unfold State.addBlock
  dsimp only
  refine OnlyTileWork.trans ?_ (releaseRuns_work _ _ _ _)
  split
  · exact ((setTile_work s k _).trans (bumpN_work _ _ _)).trans (arith_work _ _ _ _)
  · exact (setTile_work s k _).trans (bumpN_work _ _ _)

theorem runBlocks_work (k i : Nat) (d : Desc) (n : Nat) : ∀ s : State, OnlyTileWork k s (s.runBlocks k i d n) := by
  induction n with
  | zero => intro s; exact OnlyTileWork.refl k s
  | succ n ih =>
    intro s
    unfold State.runBlocks
    split
    · exact OnlyTileWork.refl k s
    · split
      · exact OnlyTileWork.refl k s
      · split
        · split
          · exact OnlyTileWork.refl k s
          · exact (setTile_work s k _).trans (tagWait_work _ _)
        · exact (addBlock_work s k i _ d).trans (ih _)

theorem emitResult_work (s : State) (k i : Nat) (m : MatProg) (d : Desc) : OnlyTileWork k s (s.emitResult k i m d) := by
  unfold State.emitResult
  dsimp only
  exact ((setTile_work s k _).trans (noteConv_work _ _ _)).trans (releaseRuns_work _ _ _ _)

theorem steer_work (s : State) (k i kind : Nat) (r : Desc → List (Nat × TokRec) → List (Nat × TokRec)) : OnlyTileWork k s (s.steer k i kind r) := by
  unfold State.steer
  split
  · exact OnlyTileWork.refl k s
  · dsimp only
    split
    · exact (setTile_work s k _).trans (errorFire_work _ _ _ _ _)
    · exact ((setTile_work s k _).trans (setTile_work _ k _)).trans (bump_work _ _)

theorem mboxSend_work (s : State) (j i : Nat) (r : TokRec) (g : MboxTarget) : OnlyTileWork k s (s.mboxSend j i r g) := by
  unfold State.mboxSend
  dsimp only
  split
  · exact send_work _ _
  · exact send_work _ _
  · exact OnlyTileWork.refl k s

theorem switchSlot_work (s : State) (k i : Nat) (d : Desc) (l : List (Nat × TokRec)) : OnlyTileWork k s (s.switchSlot k i d l) :=
  (((setTile_work s k _).trans (bumpN_work _ _ _)).trans (bumpN_work _ _ _)).trans (bump_work _ _)

theorem cmdDone_work (s : State) (k : Nat) : OnlyTileWork k s (s.cmdDone k) := (setTile_work s k _).trans (bump_work _ _)
theorem cmdRefused_work (s : State) (k : Nat) : OnlyTileWork k s (s.cmdRefused k) := setTile_work s k _

theorem commitRegion_work (s : State) (k e p : Nat) : OnlyTileWork k s (s.commitRegion k e p) := by
  dsimp only [State.commitRegion]
  split
  · exact ((setTile_work s k _).trans (bump_work _ _)).trans (cmdDone_work _ _)
  · exact cmdRefused_work s k

theorem rollbackRegion_work (s : State) (k e : Nat) : OnlyTileWork k s (s.rollbackRegion k e) := by
  dsimp only [State.rollbackRegion]
  split
  · exact ((setTile_work s k _).trans (bump_work _ _)).trans (cmdDone_work _ _)
  · exact cmdRefused_work s k

theorem rollbackOrWait_work (s : State) (k e : Nat) : OnlyTileWork k s (s.rollbackOrWait k e) := by
  dsimp only [State.rollbackOrWait]
  split
  · exact setTile_work s k _
  · exact rollbackRegion_work s k e

-- ------------------------------------------------------------------ firings and commands that also store

variable {node off n : Nat}

theorem TileWorkAndBytes.refl (k node off n : Nat) (s : State) : TileWorkAndBytes k node off n s s :=
  ⟨rfl, fun _ _ => rfl, fun _ _ _ _ => rfl, fun _ _ => rfl⟩

theorem TileWorkAndBytes.trans (h : TileWorkAndBytes k node off n s t) (h' : TileWorkAndBytes k node off n t u) :
    TileWorkAndBytes k node off n s u := by
  refine ⟨?_, fun j hj => (h'.2.1 j hj).trans (h.2.1 j hj), fun j r hj hr => (h'.2.2.1 j r hj hr).trans (h.2.2.1 j r hj hr),
    fun a ha => (h'.2.2.2 a ha).trans (h.2.2.2 a ha)⟩
  rw [h'.1, h.1]

/-- One tile's work stores nothing. -/
theorem OnlyTileWork.bytes (h : OnlyTileWork k s t) : TileWorkAndBytes k node off n s t :=
  ⟨by rw [h.1], h.2.1, h.2.2, fun a _ => by rw [h.1]⟩

theorem putRow_bytes (s : State) (o : Nat) (r : Row) (h : off ≤ o) (h' : o + 64 ≤ off + n) : TileWorkAndBytes k node off n s (s.putRow node o r) := by
  refine ⟨rfl, fun _ _ => rfl, fun _ _ _ _ => rfl, fun a ha => ?_⟩
  unfold State.putRow
  dsimp only
  rw [memByte_memWrite_outside _ _ _ _ (by
    rw [show (bytesOfRow r).length = 64 from length_toLE 64 _]; unfold gaddr at *; omega)]

/-- Rows stored within a range change no byte outside it. -/
theorem putRows_bytes (l : List Row) : ∀ (s : State) (o : Nat), off ≤ o → o + 64 * l.length ≤ off + n →
    TileWorkAndBytes k node off n s (s.putRows node o l) := by
  induction l with
  | nil => intro s o _ _; exact TileWorkAndBytes.refl k node off n s
  | cons r l ih =>
    intro s o h h'
    simp only [List.length_cons] at h'
    exact (putRow_bytes s o r h (by omega)).trans (ih _ _ (by omega) (by omega))

theorem hubHazards_work (s : State) (k first n : Nat) : OnlyTileWork k s (s.hubHazards k first n) :=
  foldl_keeps (fun u => OnlyTileWork k s u) _ (fun _ _ h => h.trans (hazard_work _ _ _ _ _ _)) _ s (OnlyTileWork.refl k s)

theorem swapRegion_work (s : State) (k e : Nat) : OnlyTileWork k s (s.swapRegion k e) :=
  ((setTile_work s k _).trans (bump_work _ _)).trans (cmdDone_work _ _)

/-- A read firing goes on within its own tile, its rows being rows of the tile (R131, R135). -/
theorem pumpRead_work (s : State) (k i : Nat) (h : ∀ b, ((s.tile k).slot i).reading = some b → b.first + b.rows ≤ 65536) :
    OnlyTileWork k s (s.pumpRead k i) := by
  unfold State.pumpRead
  dsimp only
  split
  · exact OnlyTileWork.refl k s
  · rename_i b hb
    split
    · refine (setTile_work s k _).trans (emptyRows_work _ _ _ _ _ _ ?_)
      unfold Slot.pump at hb
      split at hb
      · rename_i c; rw [c] at hb; cases hb
      · rename_i c hc; have := h c hc; simp only [Option.some.injEq] at hb; rw [← hb]; exact this
    · exact setTile_work s k _

theorem putTags_work (k : Nat) (l : List Bool) : ∀ (s : State) (r : Nat), r + l.length ≤ 65536 → OnlyTileWork k s (s.putTags k r l) := by
  induction l with
  | nil => intro s r _; exact OnlyTileWork.refl k s
  | cons b l ih =>
    intro s r h
    simp only [List.length_cons] at h
    exact (setTag_work s b (by omega)).trans (ih _ _ (by omega))

end Sys2Proof.Machine
end

