-- ==== Sys2Proof/Tests/Slice0.lean ====
section
/-!
SUPPORT. Tests: an ill-formed command for each check of WellFormed, and for every statement of Obligations.lean that has hypotheses a
small state and operands that meet them. Expected values are worked from the spec's own rules and examples.
-/
namespace Sys2Proof.Tests
open Sys2Proof Sys2Proof.Machine
set_option maxRecDepth 4096
set_option Elab.async false

-- ------------------------------------------------------------------ well-formedness

/-- A tile at a stack site (R17). -/
theorem test_wf_tile : (Instr.tileHold 0 (5 * 64)).wf = false := by decide
/-- A stack at a compute site. -/
theorem test_wf_stack : (Instr.scrubPass 0 0 0 []).wf = false := by decide
/-- A die reading at a stack site. -/
theorem test_wf_die : (Instr.marginRead 0 5 [] 0).wf = false := by decide
/-- A link off the panel's north edge where no port die attaches (R20). -/
theorem test_wf_link : (Instr.ackTimeoutRetrain 0 0).wf = false := by decide
/-- A value that is no byte. -/
theorem test_wf_bytes : (Instr.fwImageWrite 0 [256]).wf = false := by decide
/-- A packet whose destination does not fit 16 bits (R155), and a control packet of 18 words (R177). -/
theorem test_wf_packet : (Instr.tokensPacket 0 { dest := 65536 }).wf = false := by decide
theorem test_wf_control : (Instr.doorbell 0 { words := List.replicate 18 0 }).wf = false := by decide
/-- A datagram from a port that does not fit 16 bits. -/
theorem test_wf_datagram : (Instr.hello 0 { src := { port := 65536 } }).wf = false := by decide
/-- Well-formed commands. -/
theorem test_wf_ok : (Instr.tileHold 0 64).wf = true ∧ (Instr.ackTimeoutRetrain 0 (18 * 4)).wf = true := by decide

-- ------------------------------------------------------------------ the spec's worked examples

/-- Rounding 1.3 into E4M3, by RNE and by RTZ (02, worked example). -/
theorem test_example_rounding :
    (encodeFloat e4m3 .rne true (f32 0x3FA66666)).1 = 0x3A ∧ (encodeFloat e4m3 .rtz true (f32 0x3FA66666)).1 = 0x3A ∧
    (encodeFloat e4m3 .rne true (numOfInt 500)).1 = 0x7E ∧ (encodeFloat e4m3 .rne false (numOfInt 500)).1 = 0x7F ∧
    (encodeFloat e5m2 .rne true (numOfInt 500)).1 = 0x60 := by decide +kernel
/-- The accumulator of an MX dot product with three nonzero pairs, and its outputs (02, worked example). -/
theorem test_example_dot :
    let ps := [(0x3, 0x3A), (0xD, 0x40), (0x1, 0xAC)].map (fun p => (decodeFloat e2m1 p.1).mul (decodeFloat e4m3 p.2))
    let x := ({} : Acc).mxBlock true (-1) ps
    x.acc = -9261023232 ∧ ofSigned 96 x.acc = 0xFFFFFFFFFFFFFFFDD8000000 ∧
    (encodeFloat bf16 .rne false (x.value (.fin false 1 0))).1 = 0xC00A ∧
    (encodeFloat e4m3 .rne true (x.value (.fin false 1 0))).1 = 0xC1 := by decide +kernel
/-- One element of a ream of three contributions (02, worked example): scale and integers. -/
theorem test_example_ream :
    siExp (numOfFix 7 (-1)) = -28 ∧ siQuant (numOfFix 3 (-2)) (-28) = 201326592 ∧ siQuant (numOfFix (-7) (-1)) (-28) = -939524096 := by
  decide +kernel
/-- Naming one tile (00, worked example): sector 2, site 6, tile 5. -/
theorem test_example_tile :
    siteX 38 = 10 ∧ siteY 38 = 1 ∧ siteNode 38 + 5 = 0x0985 ∧ gaddr 0x0985 0x1000 = 0x0985 * 2 ^ 48 + 0x1000 ∧ siteAt 10 1 = 38 := by
  decide +kernel
/-- The detour around the failed die at (9,3) from tile 0x0985 to the stack at 0x1940 (06, worked example): seven crossings. -/
theorem test_example_detour :
    (({ built := true, blockedSites := [siteAt 9 3] } : Bank).nodePath 0x0985 0x1940).map (fun p => (p.map (fun g => (siteX g, siteY g)), crossingsOf p)) =
      some ([(10, 1), (9, 1), (9, 2), (8, 2), (8, 3), (8, 4), (8, 5), (9, 5)], 7) := by decide +kernel
/-- One KV window (05, worked example): 800 positions of 5 rows; the replay's write of position 1,038. -/
theorem test_example_window :
    let r : Region := { g0 := 0x00008F9F80000004, g1 := 0x1204, tail := 236, commit := 1033, head := 1033 }
    rCap r = 800 ∧ rLane r = 0x12 ∧ positionOf r.commit 0x040E = 1038 ∧ rBase r + 1038 % rCap r * rEntryRows r = 0x84A6 := by decide +kernel
/-- Pass A's first write slides the full window's tail by one (05, worked example). -/
theorem test_example_slide :
    let r : Region := { g0 := 0x00008F9F80000004, g1 := 0x1204, tail := 230, commit := 1030, head := 1030 }
    (afterWrite {} r 5 1030).1.tail = 231 ∧ (afterWrite {} r 5 1030).1.head = 1031 := by decide +kernel
/-- One tile's fault log in a dump (18, worked example). -/
theorem test_example_dump : statusAt + 0x985 = 0x4985 ∧ recordAt 0x985 = 0x5AD1F400 ∧ recordAt 0x985 + 0xC00 = 0x5AD20000 := by decide +kernel

-- ------------------------------------------------------------------ small states

/-- A panel with one byte in tile 64's scratchpad and a FILL of a row of it in front. -/
def memState : State := { mem := [(gaddr 64 0, 7)], pending := [.scratchFill 0 64 0 1 0xFF true] }

/-- An image with the version, the row count, the consistent mark and the CRC that R125 asks for, in stack space. -/
theorem scanInWitness : ∃ s : State, (s.tile 65).run = .hold ∧ s.validRange 0x140 0 (64 * 2304) = true ∧
    imgOk (s.rowsAt 0x140 0 2304) = true := by
  let body : List Row := List.replicate 2303 0
  let c := crc32 (rowsBytes body)
  let h : Row := BitVec.ofNat 512 (1 + 2 ^ 40 + 0x900 * 2 ^ 192 + c * 2 ^ 224)
  have hc : c < 2 ^ 32 := crc32_lt _
  refine ⟨({ tiles := [(65, { run := .hold })] } : State).putRows 0x140 0 (h :: body), ?_, ?_, ?_⟩
  · have : ∀ (l : List Row) (s : State) o, (s.putRows 0x140 o l).tiles = s.tiles := by
      intro l; induction l with
      | nil => intro s o; rfl
      | cons r t ih => intro s o; exact ih _ _
    unfold State.tile; rw [this]; rfl
  · have : ∀ (l : List Row) (s : State) o, (s.putRows 0x140 o l).od = s.od := by
      intro l; induction l with
      | nil => intro s o; rfl
      | cons r t ih => intro s o; exact ih _ _
    unfold State.validRange State.variant; rw [this]; decide +kernel
  · have e : (h :: body).length = 2304 := by rw [List.length_cons, List.length_replicate]
    rw [← e, rowsAt_putRows]
    have hn : h.toNat = 1 + 2 ^ 40 + 0x900 * 2 ^ 192 + c * 2 ^ 224 := by
      simp only [h, BitVec.toNat_ofNat]
      apply Nat.mod_eq_of_lt
      generalize c = d at hc
      omega
    have h1 : rowBytes h 1 0 = 1 := by
      unfold rowBytes; rw [hn, Nat.shiftRight_eq_div_pow]; generalize c = d at hc; omega
    have h2 : rowBytes h 27 24 = 0x900 := by
      unfold rowBytes; rw [hn, Nat.shiftRight_eq_div_pow]; generalize c = d at hc; omega
    have h3 : rowBytes h 31 28 = c := by
      unfold rowBytes; rw [hn, Nat.shiftRight_eq_div_pow]; generalize c = d at hc; omega
    have h4 : rowByte h 5 = 1 := by
      unfold rowByte; rw [hn, Nat.shiftRight_eq_div_pow]; generalize c = d at hc; omega
    unfold imgOk
    simp only [imgRow, List.getD_cons_zero, List.tail_cons, h1, h2, h3, h4]
    simp [c]

/-- A header row with a version, a CRC at bytes 32 to 35 and zeros (R151). -/
theorem saveHeader (c : Nat) (hc : c < 2 ^ 32) : ∃ h : Row, rowBytes h 1 0 = 1 ∧ rowBytes h 5 4 = 0 ∧ rowBytes h 9 6 = 0 ∧ rowBytes h 35 32 = c := by
  have hn : (BitVec.ofNat 512 (1 + c * 2 ^ 256)).toNat = 1 + c * 2 ^ 256 := by
    simp only [BitVec.toNat_ofNat]
    exact Nat.mod_eq_of_lt (by omega)
  refine ⟨BitVec.ofNat 512 (1 + c * 2 ^ 256), ?_, ?_, ?_, ?_⟩ <;>
    (unfold rowBytes; rw [hn, Nat.shiftRight_eq_div_pow]; omega)

/-- A save image of no rows with its CRC, in stack space, as RESTORE asks for (R151). -/
theorem restoreWitness : ∃ s : State,
    let h := s.rowAt 0x140 0
    (s.tile 64).mayCommand (rowBytes h 5 4) (rowBytes h 9 6) = true ∧ s.validRange 0x140 0 (64 * saveRows (rowBytes h 9 6)) = true ∧
    saveOk (s.rowsAt 0x140 0 (saveRows (rowBytes h 9 6))) = true := by
  obtain ⟨body, hb⟩ : ∃ b : List Row, b.length = 16 := ⟨List.replicate 16 0, rfl⟩
  obtain ⟨h, h1, h2, h3, h4⟩ := saveHeader _ (crc32_lt (rowsBytes body))
  have e : (h :: body).length = saveRows 0 := by rw [List.length_cons, hb]; rfl
  have r := rowsAt_putRows 0x140 (h :: body) {} 0
  have r0 : (({} : State).putRows 0x140 0 (h :: body)).rowAt 0x140 0 = h := by
    simp only [State.putRows]
    rw [rowAt_putRows_below _ _ _ _ _ (by omega), rowAt_putRow_same]
  have keep : ∀ (l : List Row) (s : State) o, (s.putRows 0x140 o l).tiles = s.tiles ∧ (s.putRows 0x140 o l).od = s.od := by
    intro l; induction l with
    | nil => intro s o; exact ⟨rfl, rfl⟩
    | cons r t ih => intro s o; exact ih _ _
  refine ⟨({} : State).putRows 0x140 0 (h :: body), ?_⟩
  dsimp only
  rw [r0, h2, h3, ← e, r]
  refine ⟨?_, ?_, ?_⟩
  · unfold State.tile; rw [(keep _ _ _).1]; decide +kernel
  · unfold State.validRange State.variant; rw [(keep _ _ _).2, e]; decide +kernel
  · unfold saveOk
    simp only [imgRow, List.getD_cons_zero, List.tail_cons, h1, h2, h3, h4, e]
    simp

-- ------------------------------------------------------------------ StepRunsFrontCommand

theorem wit_StepRunsFrontCommand :
    ({ pending := [.holdCmd 5] } : State).pending = .holdCmd 5 :: [] ∧ ({} : State).pending = [] := by decide

-- ------------------------------------------------------------------ EveryCommandAnswersNext

theorem test_absent_tile : (match exec (.tileHold 7 320) {} with | .next t => decide (t = { clk := 7 }) | _ => false) = true := by decide +kernel

-- ------------------------------------------------------------------ QueueUntouchedByCommands

theorem wit_QueueUntouchedByCommands : (match exec (.holdCmd 7) {} with | .next t => decide (t.clk = 7) | _ => false) = true := by decide +kernel

-- ------------------------------------------------------------------ StepKeepsMemoryCanonical

theorem wit_StepKeepsMemoryCanonical :
    Memory.wf memState.mem = true ∧ (match step memState with | .next t => Memory.wf t.mem && t.mem != memState.mem | _ => false) = true := by decide +kernel

-- ------------------------------------------------------------------ TokenArrivalForms

/-- Tile 64: slot 0 binds queue 0, which holds nothing. -/
def armed : Tile := ({} : Tile).setSlot 0 { cur := { d0 := 7, d1 := 0x0000FFFF00FFFFC0#64 } }
def armedState : State := { tiles := [(64, armed)] }
theorem wit_TokenArrival_accept : isTile 64 = true ∧ (armedState.tile 64).arrival 0 {} = .accept := by decide +kernel
theorem wit_TokenArrival_dead : (armedState.tile 64).arrival 0 { life := 4 } = .dead := by decide +kernel
theorem wit_TokenArrival_bad : (armedState.tile 64).arrival 1 {} = .bad causeMisrouted := by decide +kernel
theorem wit_TokenArrival_wait :
    let s : State := { tiles := [(64, { armed with run := .scanIn })] }
    (s.tile 64).arrival 0 {} = .wait ∧ (s.tile 64).idle = false := by decide +kernel
/-- Tile 65 holds two tokens in an emit buffer: the second stands behind the first. -/
theorem wit_TokenArrival_behind :
    let s : State := { tiles := [(64, armed), (65, ({} : Tile).setSlot 0 { emit0 := [{}, { tok := { tag := 1 } }] })] }
    (isTile 65 && (s.tile 65).behind { tag := 1 }) = true ∧ (isTile 65 && (s.tile 65).behind {}) = false := by decide +kernel
/-- A split unit in slot 0 on queue 0, for watermark w (R61). -/
def splitRow (w : Nat) : Row := BitVec.ofNat 512 (0x0000FFFF00FFFFC0 * 2 ^ 64 + w * 256 + 0xA)
theorem wit_ConfigToken_fits :
    let s : State := {}
    let d := descOfRow (splitRow 1)
    (s.tile 64).run ≠ .scanIn ∧ (s.tile 64).idle = false ∧ descBroken d = none ∧ (dWm d == (s.tile 64).wm + 1 &&
      (s.tile 64).slotWm (dSlot d) == (s.tile 64).wm && ((s.tile 64).slot (dSlot d)).shadow.isNone) = true := by decide +kernel
theorem wit_ConfigToken_unfit :
    let s : State := {}
    let d := descOfRow (splitRow 2)
    descBroken d = none ∧ (dWm d == (s.tile 64).wm + 1 && (s.tile 64).slotWm (dSlot d) == (s.tile 64).wm &&
      ((s.tile 64).slot (dSlot d)).shadow.isNone) = false := by decide +kernel
theorem wit_ConfigToken_scan : (({ tiles := [(64, { run := .scanIn })] } : State).tile 64).run = .scanIn := by decide +kernel
/-- A join in slot 0 on queues 0 and 1, with a token in queue 0 alone. -/
def joinTile : Tile :=
  (({} : Tile).setSlot 0 { cur := { d0 := 0xB, d1 := 0x0000FFFF00FFF040#64 } }).setQueue 0 { toks := [{}] }
theorem wit_MatchingStoreMove :
    let s : State := { tiles := [(64, joinTile)] }
    let t := s.tile 64
    let x := t.slot 0
    t.run = .run ∧ (boundIns x.cur).contains 0 = true ∧ 2 ≤ (firingSet x.cur).length ∧ dKind x.cur ≠ 10 ∧
    (t.queue (dIn x.cur 0)).visible x.wm = some {} ∧
    (t.readySets 0).any (fun l => l.any (fun p => p.1 == 0 && p.2.order == 0)) = false ∧ t.store.length < 64 ∧
    (t.store.filter (fun e => e.slot == 0)).length < 32 := by decide +kernel
/-- The same with 32 tokens of the slot in the store, none with the key of the token in queue 0. -/
theorem wit_MatchingStoreMove_full :
    let t := { joinTile with store := List.replicate 32 ⟨{ tok := { tag := 1 } }, 0, 0⟩ }
    (t.readySets 0).any (fun l => l.any (fun p => p.1 == 0 && p.2.order == 0)) = false ∧
    32 ≤ (t.store.filter (fun e => e.slot == 0)).length := by decide +kernel
/-- The routing tables of bank 0 have been computed, with nothing blocked. -/
def routed : State := { bank0 := { built := true } }
/-- A packet from tile 65 to tile 64 of a type, on its channel, with one payload flit. -/
def tilePkt (t : Nat) : Pkt := { dest := 64, src := 65, ptype := t, vc := if t = 4 ∨ t = 5 ∨ t = 6 then 1 else 0, body := if t = 3 ∨ t = 4 then [] else [{}] }
theorem wit_PacketsOfTokens :
    let p := tilePkt 1
    let q := { tilePkt 7 with src := 0x17C0, vc := 2 }
    isTile 64 = true ∧ PacketArrives 0 p routed ∧ PacketArrives 0 q routed ∧
    -- one of a dead generation, one that is not accepted, and one behind another of its flow
    (routed.takePkt { p with gen := 1 }).packetFault { p with gen := 1 } ≠ none ∧ (isTile q.dest && q.ptype == 1) = false ∧
    ({ routed with out := [.pkt { p with txn := 1 }, .pkt p] } : State).inOrder p = false := by
  unfold PacketArrives; decide +kernel

-- ------------------------------------------------------------------ MatrixVectorAndScratchpadFire

/-- A matrix unit in slot 0 on queue 0, with a group of one token row in it (R69). -/
def matTile : Tile :=
  (({} : Tile).setSlot 0 { cur := { d0 := 0x0000FFFF00000001#64, d1 := 0x0000FFFF00FFFFC0#64 } }).setQueue 0
    { toks := [{ tok := { payload := BitVec.ofNat 512 (1 * 2 ^ 32) } }] }
def matTok : TokRec := { tok := { payload := BitVec.ofNat 512 (1 * 2 ^ 32) } }
theorem wit_MatrixGroupFire :
    let t := matTile
    let d := (t.slot 0).cur
    dKind d = 1 ∧ t.mayFire 0 = true ∧ t.outRoom 0 = true ∧ t.hasCredit 0 = true ∧ (t.slot 0).mat = none ∧ t.ready 0 = some [(0, matTok)] ∧
    matTok.tok.kind ≠ 4 ∧ grpOk matTok.tok = true ∧ t.groupOutside d matTok.tok = none := by decide +kernel
/-- The boundaries: a group of no token rows is malformed, and a deckle of no row holds none of a group's. -/
theorem wit_MatrixGroupFire_bad :
    grpOk {} = false ∧ matTile.groupOutside { d0 := 0x0000000000100001#64 } { payload := BitVec.ofNat 512 (1 * 2 ^ 32 + 7) } ≠ none := by decide +kernel
/-- The group under way, with a column block (of one chunk) in the partial store, or not. -/
def matGoing (kc : Nat) : State := State.tick { tiles := [(64, matTile.setSlot 0 { matTile.slot 0 with mat := some { group := matTok, kc := kc } })] } 0
theorem wit_MatrixEmit (kc : Fin 2) :
    let s := matGoing kc.val
    let t := (s.tile 64).refill 0
    let d := (t.slot 0).cur
    let m : MatProg := { group := matTok, kc := kc.val }
    (t.slot 0).mat = some m ∧ t.run = .run ∧ t.idle = false ∧ t.outRoom 0 = true ∧ (s.setTile 64 t).matServes 64 0 = true ∧
    (s.setTile 64 t).groupFault 64 d m.group.tok m = none ∧ mChunks d = 1 ∧
    (s.setTile 64 t).runsReady 64 (blockReads d m.group.tok 0 0) = true := by revert kc; decide +kernel
/-- A vector unit in slot 0 on queue 0 whose program is one no-operation (R73, R76). -/
def vecTile : Tile := (({} : Tile).setSlot 0 { cur := { d0 := 2, d1 := 0x0000FFFF00FFFFC0#64 } }).setQueue 0 { toks := [{}] }
theorem wit_VectorFire :
    let s : State := State.tick { tiles := [(64, vecTile)] } 0
    let t := (s.tile 64).refill 0
    let x := t.slot 0
    dKind x.cur = 2 ∧ t.mayFire 0 = true ∧ t.outRoom 0 = true ∧ t.hasCredit 0 = true ∧ t.ready 0 = some [(0, {})] ∧
    errorIn [(0, {})] = none ∧ badTrits x.cur (t.program x.cur) [(0, {})] = none ∧ t.constBarred x.cur (t.program x.cur) = none ∧
    t.space 0 = true ∧ s.constsReady 64 x.cur (t.program x.cur) = true := by decide +kernel
/-- Tile 64 with a memory unit of a kind in slot 0 on queue 0, a token in it, and a FLAT region 0 of rows 0 to 15. -/
def memTile (kind : Nat) : Tile :=
  ((({} : Tile).setSlot 0 { cur := { d0 := BitVec.ofNat 64 (0x0000000F00000000 + kind), d1 := 0x0000FFFF00FFFFC0#64 } }).setQueue 0
    { toks := [{}] }).setRegion 0 { g0 := 0x0000000F00000001 }
def memUnitState (kind : Nat) : State := State.tick { tiles := [(64, memTile kind)] } 0
theorem wit_ScratchpadReadFire :
    let s := memUnitState 3
    let t := (s.tile 64).refill 0
    s.startFire 64 0 [3] = some (t, [(0, {})]) ∧ errorIn [(0, ({} : TokRec))] = none ∧
    resolve (t.slot 0).cur (t.region 0) false 0 1 = .rows 0 0 ∧ s.rowsReady 64 (t.region 0) 0 1 true = true := by decide +kernel
theorem wit_ScratchpadWriteFire :
    let s := memUnitState 4
    let t := (s.tile 64).refill 0
    s.startFire 64 0 [4] = some (t, [(0, {})]) ∧ (t.slot 0).writeRow (t.region 0) {} = .rows 0 0 ∧
    s.rowsReady 64 (t.region 0) 0 1 false = true ∧ (s.arbitrate 64 1 [0] []).2 = true := by decide +kernel
/-- A tagged region whose rows are all empty holds a read up, and one whose row is full holds a write up (R136); the deckle's last row
is row 15. -/
def taggedTile (kind : Nat) : Tile := (memTile kind).setRegion 0 { g0 := 0x0000000F00000041 }
theorem wit_ScratchpadFires_wait :
    let s : State := { tiles := [(64, taggedTile 3)] }
    let u : State := { tiles := [(64, taggedTile 4)], tags := [(64 * 65536, true)] }
    s.rowsReady 64 ((s.tile 64).region 0) 0 1 true = false ∧ u.rowsReady 64 ((u.tile 64).region 0) 0 1 false = false := by decide +kernel
theorem wit_ScratchpadFires_violation :
    let r : Region := { g0 := 0x0000000F00000001, head := 16, tail := 16 }
    let x := (memTile 4).slot 0
    (match x.writeRow r {} with | .violation _ _ => true | _ => false) = true ∧
    (match resolve x.cur r false 0 1 with | .violation _ _ => true | _ => false) = true := by decide +kernel

-- ------------------------------------------------------------------ TransferAndMailboxUnitFirings

/-- A DMA in slot 0 over region 0 with a buffer of two rows (and, for the last row of it, one past its end): on tile 65, or its own. -/
def dmaState (node len : Nat) : State := State.tick { tiles := [(64, { memTile 5 with buffers := [(0, some ⟨node, 0, len⟩)] })] } 0
theorem wit_DmaFire :
    let s := dmaState 65 128
    let t := (s.tile 64).refill 0
    s.startFire 64 0 [5] = some (t, [(0, {})]) ∧ errorIn [(0, ({} : TokRec))] = none ∧
    (t.buffer 0).bind (fun b => s.bufferFor b 0) = some ⟨65, 0, 128⟩ ∧ uRows (t.slot 0).cur = 1 ∧
    resolve (t.slot 0).cur (t.region 0) true 0 1 = .rows 0 0 ∧ s.rowsReady 64 (t.region 0) 0 1 false = true ∧
    ((memTile 5).buffer 0).bind (fun b => s.bufferFor b 0) = none := by decide +kernel
theorem wit_DmaFire_local :
    let s := dmaState 64 128
    let t := (s.tile 64).refill 0
    (t.buffer 0).bind (fun b => s.bufferFor b 0) = some ⟨64, 0, 128⟩ ∧
    (s.rowsReady 64 (t.region 0) 0 1 false && s.sideReady 64 0 1 true) = true := by decide +kernel
/-- The boundaries of a buffer of one row: offset 0 fits, offset 64 passes its end, offset 1 is no row; an empty buffer fits none. -/
theorem wit_DmaFire_bounds : ¬ ((64 : Nat) < 0 + 64 * 1) ∧ (64 : Nat) < 64 + 64 * 1 ∧ 1 % 64 ≠ 0 ∧ (0 : Nat) < 0 + 64 * 1 := by decide
theorem wit_DmaFire_waits :
    let s : State := { tiles := [(64, taggedTile 5)], tags := [(64 * 65536, true)] }
    s.rowsReady 64 ((s.tile 64).region 0) 0 1 false = false := by decide +kernel
/-- A page gather in slot 0 whose out1 route entry names stack 0's engine (R194). -/
def gatherTile : Tile :=
  { (memTile 6).setSlot 0 { cur := { d0 := 0x0000000F00000006#64, d1 := 0x000000FF00FFFFC0#64 } } with
    routes := [(0, some ⟨0x141, 3⟩)] }
theorem wit_PageGatherFire :
    let s : State := State.tick { tiles := [(64, gatherTile)] } 0
    let t := (s.tile 64).refill 0
    s.startFire 64 0 [6] = some (t, [(0, {})]) ∧ (t.route (dOut (t.slot 0).cur 1)).isSome = true ∧ rKind (t.region 0) = 1 ∧
    (inDeckle (t.slot 0).cur 0 0 && inRegion (t.region 0) 0 0) = true ∧ s.rowsReady 64 (t.region 0) 0 0 false = true := by decide +kernel
/-- The same with a directory entry of one row and a tagged region whose row is full. -/
theorem wit_PageGatherFire_waits :
    let s : State := { tiles := [(64, gatherTile.setRegion 0 { g0 := 0x0000000F00000041 })], tags := [(64 * 65536, true)] }
    s.rowsReady 64 ((s.tile 64).region 0) 0 1 false = false := by decide +kernel
def mailIn : State := { tiles := [(64, ({} : Tile).setSlot 0 { cur := { d0 := 0xC } })], mboxes := [(64 * 256, 9)] }
theorem wit_InboundMailbox :
    let t := (mailIn.tile 64).refill 0
    let x := t.slot 0
    dKind x.cur = 12 ∧ bOutbound x.cur = false ∧ t.mayFire 0 = true ∧ t.outRoom 0 = true ∧ 1 ≤ t.creditV ∧
    mlook mailIn.mboxes (mboxKey 64 (bMbox x.cur)) = some 9 ∧ mlook ({} : State).mboxes (mboxKey 64 (bMbox x.cur)) = none := by decide +kernel
/-- An outbound mailbox unit whose route entry 0 names tile 65's mailbox 0. -/
def mailOutTile : Tile :=
  { ((({} : Tile).setSlot 0 { cur := { d0 := 0xC, d1 := 0x0000FFFF00FFFFC0#64, d2 := 1 } }).setQueue 0 { toks := [{}] }) with
    routes := [(0, some ⟨65, 0⟩)] }
theorem wit_OutboundMailbox :
    let s : State := State.tick { tiles := [(64, mailOutTile)] } 0
    let t := (s.tile 64).refill 0
    s.startFire 64 0 [12] = some (t, [(0, {})]) ∧ errorIn [(0, ({} : TokRec))] = none ∧ t.mboxTargetOf 0 = .mbox 65 0 := by decide +kernel
/-- Queue 0x28 of a hub names no doorbell bit, and queue 0x27 the last (R182). -/
theorem wit_OutboundMailbox_refused :
    mboxTarget ⟨0x17C0, 0x28⟩ 0 = .refused ∧ mboxTarget ⟨0x17C0, 0x27⟩ 1 = .bell 0 31 ∧ mboxTarget ⟨65, 1⟩ 0 = .refused := by decide +kernel
theorem wit_MailboxRetry :
    let t := mailOutTile.setSlot 0 { mailOutTile.slot 0 with held := some {}, retryAt := 3 }
    (t.slot 0).held = some {} ∧ (t.slot 0).retryAt ≠ 0 ∧ (t.slot 0).retryAt ≤ 0 + 3 ∧ t.run = .run ∧ t.idle = false := by decide +kernel

-- ------------------------------------------------------------------ SteeringFirings

/-- A steering unit of a kind in slot 0, its inputs on queues 0, 1 and 2, each with a token of one key. -/
def steerTile (kind ins : Nat) (third : List TokRec) : Tile :=
  (((({} : Tile).setSlot 0 { cur := { d0 := BitVec.ofNat 64 kind, d1 := BitVec.ofNat 64 (0x0000FFFF00000000 + ins) } }).setQueue 0
    { toks := [{}] }).setQueue 1 { toks := [{}] }).setQueue 2 { toks := third }
def steerState (kind ins : Nat) (third : List TokRec) : State := State.tick { tiles := [(64, steerTile kind ins third)] } 0
theorem wit_SteeringFirings :
    let two := [(0, ({} : TokRec)), (1, {})]
    let sw := steerState 7 0xFFF040 []
    let ga := steerState 9 0xFFF040 []
    let jo := steerState 11 0xFFF040 []
    sw.startFire 64 0 [7] = some ((sw.tile 64).refill 0, two) ∧ tokAt two 0 = some {} ∧ tokAt two 1 = some {} ∧ errorIn two = none ∧
    ga.startFire 64 0 [9] = some ((ga.tile 64).refill 0, two) ∧ jo.startFire 64 0 [11] = some ((jo.tile 64).refill 0, two) := by
  decide +kernel
theorem wit_MergeAndSplit :
    let mg := steerState 8 0xFC2040 [{}]
    let sp := steerState 10 0xFFFFC0 []
    mg.startFire 64 0 [8] = some ((mg.tile 64).refill 0, [(2, {}), (0, {})]) ∧
    ([(2, ({} : TokRec)), (0, {})]).filter (fun p => p.1 != 2) = [(0, {})] ∧ errorIn [(2, ({} : TokRec)), (0, {})] = none ∧
    sp.startFire 64 0 [10] = some ((sp.tile 64).refill 0, [(0, {})]) ∧
    tokAt [(0, ({} : TokRec))] 0 = some {} := by decide +kernel
theorem wit_ErrorTokenFire :
    let s : State := { tiles := [(64, (steerTile 11 0xFFF040 []).setQueue 1 { toks := [{ tok := { kind := 4 } }] })] }
    let t := (s.tile 64).refill 0
    let l := [(0, ({} : TokRec)), (1, { tok := { kind := 4 } })]
    t.mayFire 0 = true ∧ (t.slot 0).mat = none ∧ t.outRoom 0 = true ∧ t.hasCredit 0 = true ∧ t.ready 0 = some l ∧
    errorIn l = some { tok := { kind := 4 } } ∧ (s.tick 0).startFire 64 0 [11] = some (t, l) := by decide +kernel
/-- The decision bit picks the output: the unit's default decision of an empty control token is 0. -/
theorem wit_SwitchDecision : decision ({} : Desc) {} = false := by decide +kernel

-- ------------------------------------------------------------------ StallSwitchAndRunStates

/-- The join of joinTile, its token waiting since 0; the threshold is 1 ms by default. -/
def waitTile : Tile := joinTile.setSlot 0 { joinTile.slot 0 with waitSince := some 0 }
theorem wit_StallDetected :
    let s : State := { tiles := [(64, waitTile)] }
    let x := (s.tile 64).slot 0
    x.waitSince = some 0 ∧ (s.tile 64).oldestWaiting 0 = some ({}, 0) ∧ (s.tile 64).run = .run ∧ x.stall = none ∧
    0 + x.waitHeld + 1000 * s.odGet oDataflowPanelStallThresholdUs = 10 ^ 6 := by decide +kernel
/-- A join in slot 0 whose two queues show end-of-configuration tokens of two IDs, or of one, with a shadow. -/
def switchTile (id : Nat) : Tile :=
  ((({} : Tile).setSlot 0 { cur := { d0 := 0xB, d1 := 0x0000FFFF00FFF040#64 }, shadow := some { d0 := 0x10B } }).setQueue 0
    { toks := [{ tok := { kind := 3, wm := 1 } }] }).setQueue 1 { toks := [{ tok := { kind := 3, wm := 1, payload := BitVec.ofNat 512 id } }] }
theorem wit_SlotSwitch (id : Fin 2) :
    let t := switchTile id.val
    let x := t.slot 0
    let r : TokRec := { tok := { kind := 3, wm := 1 } }
    let r' : TokRec := { tok := { kind := 3, wm := 1, payload := BitVec.ofNat 512 id.val } }
    x.shadow = some { d0 := 0x10B } ∧ t.run = .run ∧ t.outRoom 0 = true ∧ x.busy = none ∧ x.held = none ∧ x.reading = none ∧ x.mat = none ∧
    (boundIns x.cur).filterMap (fun n => ((t.queue (dIn x.cur n)).visibleEoc).map (fun r => (n, r))) = [(0, r), (1, r')] ∧
    (([(1, r')] : List (Nat × TokRec)).find? (fun p => rowBytes p.2.tok.payload 7 0 != rowBytes r.tok.payload 7 0)).isSome = decide (id.val = 1) := by
  revert id; decide +kernel
theorem wit_TileRunStates :
    (({} : State).tile 64).run = .run ∧ (({ tiles := [(64, { run := .hold })] } : State).tile 64).run = .hold := by decide +kernel
theorem wit_TileScanOut : ({} : State).validRange 0x140 0 (64 * 2304) = true ∧ ({} : State).writable 0x140 0 (64 * 2304) = true ∧
    ({} : State).validRange 0x4000 0 (64 * 2304) = false := by decide +kernel
theorem wit_TileScanIn : ∃ s : State, (s.tile 65).run = .hold ∧ s.validRange 0x140 0 (64 * 2304) = true ∧
    imgOk (s.rowsAt 0x140 0 2304) = true := scanInWitness
theorem wit_TileScanIn_readable : ({} : State).readable 0x140 = true := by decide +kernel

-- ------------------------------------------------------------------ FencesEpochsAndPasses

theorem wit_Fences :
    let s : State := { fences := [(3, { advance := 1, toApply := [64] })] }
    let u : State := { tiles := [(64, { ackDue := [3] })] }
    mlook s.fences 3 = some { advance := 1, toApply := [64] } ∧ [64].contains 64 = true ∧ [64].contains 65 = false ∧
    (u.tile 64).ackDue.contains 3 = true ∧ (u.tile 64).deadOf (· == 3) = 0 ∧
    ((({ ackDue := [3] } : Tile).setQueue 0 { toks := [{ tok := { lane := 3, life := 4 } }] }).deadOf (· == 3)) = 1 := by decide +kernel
/-- A furnish in slot 0 whose commit region is region 0 of logical tile 0, placed on tile 64, and a lane with a pass. -/
def verifyPass : Pass := { kind := 1, base := 5, drafts := 1, count := 2, life := 2 }
def expressLane : LaneRec :=
  { st := 2, sub := { maxTokens := 100, drafts := 1 }, leadTokens := 8, pass := some verifyPass, history := List.replicate 64 true }
def laneState : State :=
  { lanes := [(3, expressLane)], od := [(oDeviceStateState, 4), (oPlacementSlotState 0, 4)], mboxes := [(0x17C0 * 256, 0x0000034000000000#64)],
    pslots := [(0, { furn := some { commitRegion := 0 }, placed := some { tiles := [(0, 64)] } })] }
def recordRegion0 : Region := { g0 := 0xFFF000FF00000003 }
def epochState : State :=
  { laneState with tiles := [(64, ({} : Tile).setRegion 0 recordRegion0)], mem := [(gaddr 64 192, 2), (gaddr 64 193, 3)] }
theorem wit_EpochEnd :
    let s := epochState
    let w := 0x0000034000000000#64
    let t := tokenOf 0 (rowBytes (s.rowAt 64 (64 * (rBase recordRegion0 + cwLane w.toNat))) 3 0)
    mlook s.mboxes (mboxKey (hubNode s.actingHub) 0) = some w ∧ s.lane (cwLane w.toNat) = some expressLane ∧
    expressLane.pass = some verifyPass ∧ expressLane.aborted = false ∧ expressLane.terminal = none ∧
    s.abortDue.contains (cwLane w.toNat) = false ∧ verifyPass.life.val = cwLife w.toNat ∧
    s.recordRegion 0 = some (64, recordRegion0) ∧ ((s.pslot 0).furn.map (·.commitRegion)) = some 0 ∧
    t.tag.toNat = cwTag w.toNat ∧ t.lane.val = cwLane w.toNat ∧ t.life.val = cwLife w.toNat := by decide +kernel
/-- The same with a record of another life. -/
theorem wit_EpochEnd_bad :
    let s : State := { epochState with mem := [] }
    (tokenOf 0 (rowBytes (s.rowAt 64 192) 3 0)).lane.val ≠ 3 := by decide +kernel
theorem wit_EpochAbort : ({ laneState with abortDue := [3] } : State).abortDue.contains 3 = true := by decide
theorem wit_PassIssue :
    let x : LaneRec := { expressLane with pass := none }
    let s : State := { laneState with lanes := [(3, x)] }
    s.lane 3 = some x ∧ x.replayDue = false ∧ (s.tick 0).mayIssue 3 x = true := by decide +kernel
theorem wit_RunaheadIssue :
    let s := laneState
    let x := expressLane
    s.lane 3 = some x ∧ s.dev ≠ 7 ∧ x.express = true ∧ x.runAhead = none ∧ x.fill + 1 + 1 ≤ x.leadTokens ∧ s.runAheadPays x = true ∧
    s.heldLanes.contains 3 = false ∧ s.lifeLag 3 = 0 ∧ 1 + 1 < x.left := by decide +kernel

-- ------------------------------------------------------------------ ScratchFillsAndDescriptors

/-- Tile 64 in HOLD with region 0 POSITION (positions 0 to 8 written) and region 1 resident of two copies. -/
def cmdTile : Tile :=
  ((({ run := .hold } : Tile).setRegion 0 { g0 := 0x0000000F00000004, head := 8 })).setRegion 1 { g0 := 0x0000000F00000023 }
theorem wit_ScratchFills :
    let t := cmdTile
    t.usesRegion 0 = false ∧ (memTile 3).usesRegion 0 = true ∧ regionWordsOk 0x0000000F00000001 0 = true ∧
    regionWordsOk 0x0000000F00000007 0 = false ∧ t.mayCommand 65532 4 = true ∧ t.mayCommand 65533 4 = false := by decide +kernel

-- ------------------------------------------------------------------ ScratchPositionsCopiesAndImages

theorem wit_ScratchPositions :
    let t := cmdTile
    rKind (t.region 0) = 4 ∧ serLe 32 (t.region 0).tail 0 = true ∧ serLe 32 8 (t.region 0).head = true ∧ serLe 32 9 (t.region 0).head = false ∧
    serLe 32 (t.region 0).tail (2 ^ 32 - 1) = false ∧ t.deadBusy (rLane (t.region 0)) = false ∧ rKind (t.region 1) ≠ 4 ∧
    rKind (t.region 1) = 3 ∧ rTwo (t.region 1) = true ∧ rTwo ({ g0 := 0x0000000F00000003 } : Region) = false := by decide +kernel
/-- A DMA of lane 0 and life 4 is under way on a tile whose life is 0. -/
theorem wit_ScratchRollback_waits :
    (cmdTile.setSlot 0 { busy := some ⟨{ tok := { life := 4 } }, 0, 1, 9, 1, 0⟩ }).deadBusy (rLane (cmdTile.region 0)) = true := by decide +kernel
theorem wit_ScratchSave :
    ({} : State).validRange 0x140 0 (64 * saveRows 4) = true ∧ ({} : State).writable 0x140 0 (64 * saveRows 4) = true ∧
    ({} : State).validRange 0x4000 0 (64 * saveRows 4) = false ∧ ({} : State).readable 0x140 = true := by decide +kernel
theorem wit_ScratchRestore : ∃ s : State,
    let h := s.rowAt 0x140 0
    (s.tile 64).mayCommand (rowBytes h 5 4) (rowBytes h 9 6) = true ∧ s.validRange 0x140 0 (64 * saveRows (rowBytes h 9 6)) = true ∧
    saveOk (s.rowsAt 0x140 0 (saveRows (rowBytes h 9 6))) = true := restoreWitness
theorem wit_SwapProtocol :
    (({} : State).quiesce 0).1 = true ∧ (laneState.quiesce 0).1 = false := by decide +kernel

-- ------------------------------------------------------------------ PacketDeliveries

theorem wit_PacketDeliveries :
    let u := routed
    PacketArrives 0 (tilePkt 2) u ∧ PacketArrives 0 (tilePkt 3) u ∧ PacketArrives 0 { tilePkt 2 with dest := 0x140 } u ∧
    PacketArrives 0 { tilePkt 3 with dest := 0x140 } u ∧ PacketArrives 0 { tilePkt 4 with dest := 0x140 } u ∧ PacketArrives 0 (tilePkt 6) u ∧
    nodeKind 64 = .tile 64 ∧ nodeKind 0x140 = .stack 0 0 ∧ (u.tile 64).requestRoom (tilePkt 2) = true ∧
    u.remoteReady 64 0 1 false = true ∧ u.remoteReady 64 0 1 true = true ∧ (u.tile 64).busySlot 0 0xF = none := by
  unfold PacketArrives; decide +kernel
/-- The last row of the scratchpad fits a packet of one row; the boundary is past it. -/
theorem wit_PacketRange : 0x3FFFC0 % 64 = 0 ∧ 0x3FFFC0 + 64 * 1 ≤ 0x400000 ∧ 0x400000 < 0x400000 + 64 * 1 := by decide
/-- Eight requests of the kind fill the table; a tagged row that is full holds a write up, and one that is empty a read (R129, R167). -/
theorem wit_PacketWaits :
    let p := tilePkt 2
    ({ rreqs := List.replicate 8 { p with txn := 1 } } : Tile).requestRoom p = false ∧
    (let s : State := { tiles := [(64, taggedTile 4)], tags := [(64 * 65536, true)] }
     s.remoteReady 64 0 1 false = false ∧ s.remoteReady 64 1 1 true = false) := by decide +kernel
def busyTile (what : Nat) : Tile := ({} : Tile).setSlot 0 { busy := some ⟨{}, 0, 1, 9, what, 0⟩ }
theorem wit_Answers :
    let u (what : Nat) : State := { routed with tiles := [(64, busyTile what)] }
    PacketArrives 0 { tilePkt 4 with txn := 9, srcSlot := 0 } (u 1) ∧ PacketArrives 0 { tilePkt 5 with txn := 9, srcSlot := 0 } (u 0) ∧
    ((u 1).tile 64).busySlot 9 0 = some (0, ⟨{}, 0, 1, 9, 1, 0⟩) ∧ ((u 0).tile 64).busySlot 9 0 = some (0, ⟨{}, 0, 1, 9, 0, 0⟩) := by
  unfold PacketArrives; decide +kernel

-- ------------------------------------------------------------------ TablesAndMulticast

theorem wit_Install :
    let p : Pkt := { dest := 64, src := 0x17C0, ptype := 8, vc := 2 }
    isTile 64 = true ∧ PacketArrives 0 p routed ∧ PacketArrives 0 { p with src := 65 } routed ∧ isHubNode 0x17C0 = true ∧ isHubNode 65 = false ∧
    installFits ⟨63, .routes [{}]⟩ = true ∧ installFits ⟨63, .routes [{}, {}]⟩ = false := by unfold PacketArrives; decide +kernel
theorem wit_MulticastForward :
    let u : State := { bank0 := { built := true, mcast := [(0 * 768 + 5, (4, 2, 1))] } }
    let p : Pkt := { dest := 0x8005, src := 65, ptype := 2, vc := 3, body := [{}] }
    isCompute 0 = true ∧ groupIndex 0x8005 = some 5 ∧ (u.bank 0).tree 0 5 = some (4, 2, 1) ∧ pktFormOk p = true ∧ u.genLive 0 = true ∧
    (u.bank 0).tree 1 5 = none := by decide +kernel
theorem wit_BankFlip :
    let s : State := { floorDue := [(oFloorSiteState 0, 1)] }
    (s.tick 0).idleBank = true ∧ (s.tick 0).generationDue = true ∧ ({ bank1 := { drainUntil := some 5 } } : State).idleBank = false := by decide +kernel
theorem wit_BankDrainEnd : (({ bank0 := { drainUntil := some 5 } } : State).bank 0).drainUntil = some 5 := by decide
theorem wit_LinkAdmit :
    let u : State := { bank0 := { built := true, blockedSites := [0] }, od := [(oFloorSiteState 0, 1)] }
    let b := u.bank u.activeBank
    b.built = true ∧ b.blockedSites.any (fun g => !u.blockedNow.1.contains g) = true ∧ u.idleBank = true ∧
    (u.slotsWhere (fun _ => true)) = [] ∧ u.out = [] := by decide +kernel
theorem wit_LinkAdmit_held :
    let u : State := { epochState with
      bank0 := { built := true, blockedSites := [2] }, od := [(oFloorSiteState 2, 1)]
      tiles := [(64, { routes := [(0, some ⟨192, 0⟩)] })] }
    let b := u.bank u.activeBank
    let next : Bank := { b with blockedSites := u.blockedNow.1, blockedLinks := u.blockedNow.2 }
    b.blockedSites.any (fun g => !u.blockedNow.1.contains g) = true ∧
    ((u.slotsWhere (fun p => b.nodePath p.1 p.2 != next.nodePath p.1 p.2)).map u.lanesOf).flatten = [3] ∧
    [3].all u.laneQuiet = false := by decide +kernel

-- ------------------------------------------------------------------ LinkProtocolSteps

/-- Link 72: the north edge of site 18, where port die 0 attaches (R20); link 1: the east edge of site 0, towards site 1. -/
def upLink : State := { od := [(oFabricLinkState 1, 2)], links := [(1, { oldestAt := some 0, retraining := true })] }
theorem wit_LinkProtocol :
    let u := (upLink.tick 0).take (.block 7 {})
    let w := u.setLink 1 (((u.linkEnd 1).drain []).watch 0)
    linkExists 1 = true ∧ linkOther 1 = some 7 ∧ upLink.linkPassable 1 = true ∧ w.linkPassable 1 = true ∧
    (w.takeAck 1 {}).linkPassable 1 = true ∧ ({} : Block).seq = ((w.takeAck 1 {}).linkEnd 1).expected ∧
    (upLink.linkEnd 1).oldestAt = some 0 ∧ (upLink.linkEnd 1).retraining = true ∧ ({} : State).linkPassable 1 = false ∧
    upLink.odGet (oFabricLinkState 1) = 2 ∧ (upLink.linkEnd 1).failedRetrains < 2 := by decide +kernel
theorem wit_LinkBlock_crc : crcHolds (withCrc {}) = true ∧ crcHolds { withCrc {} with crc := 0 } = false := by decide +kernel
/-- Eight replays of one block have failed: the ninth NAK starts a retrain, and the link is passable no more (R172, R173). -/
theorem wit_LinkBlock_gone :
    let s : State := { upLink with links := [(1, { sent := [{}], nextSeq := 1, failedReplays := 8 })] }
    (s.takeAck 1 { nak := true, ackSeq := 0xFFFF }).linkPassable 1 = false := by decide +kernel

-- ------------------------------------------------------------------ MailboxWrites

/-- A tile's word for mailbox 0 of the leading hub (R180), a mailbox of no node, and a unit that waits for its answer. -/
def mboxCtl (op n : Nat) : Ctl := { src := 64, dest := 0x17C0, op := op, txn := 0, words := [n, 7, 0] }
theorem wit_ControlArrives :
    ControlArrives (mboxCtl 1 0) 1 {} ∧ ControlArrives { mboxCtl 2 0 with dest := 64 } 2 {} ∧ ControlArrives (mboxCtl 3 0) 3 {} ∧
    ControlArrives (mboxCtl 4 0) 4 {} ∧ ControlArrives { mboxCtl 5 0 with src := 0x17C1 } 5 {} ∧
    ctlFormOk { mboxCtl 1 0 with rsv := 1 } = false ∧ nodeKind 0x4000 = .nothing := by unfold ControlArrives; decide +kernel
/-- Every way out of site 0 is blocked for the control network. -/
theorem wit_ControlUnreachable :
    ({ bank0 := { built := true, ctlSites := List.range 256 } } : State).ctlReaches 64 0x17C0 = false := by decide +kernel
theorem wit_MailboxWrites :
    (mailbox 0x17C0 0).isSome = true ∧ mayWriteMbox 64 0x17C0 = true ∧ mailbox 0x17C0 0x40 = none ∧ (mailbox 0x17C0 0x3F).isSome = true ∧
    mayWriteMbox 64 (stewardNode 0) = false ∧ mboxBell 64 0x17C0 0x3F = some 4 ∧ mboxBell 64 65 0 = none ∧
    (bellObj 0x17C0).isSome = true ∧ mayRing 64 0x17C0 0x1F = true ∧ mayRing 64 0x17C0 0xF = false := by decide +kernel
theorem wit_MailboxFull : (mailbox 0x17C0 0).bind (fun key => mlook ({ mboxes := [(key, 1)] } : State).mboxes key) = some 1 := by decide +kernel
theorem wit_MailboxAnswer :
    let s : State := { tiles := [(64, ({} : Tile).setSlot 0 { held := some {} })] }
    nodeKind 64 = .tile 64 ∧ ((s.tile 64).slot (0 % 16)).held = some {} := by decide +kernel

-- ------------------------------------------------------------------ NoticesAndTurns

theorem wit_TileSequencer : isTile 64 = true := by decide
theorem wit_FaultNotice :
    let c : Ctl := { mboxCtl 9 0 with words := List.replicate 8 0 }
    ControlArrives c 9 {} ∧ nodeKind 0x17C0 = .hub 0 0 ∧ (({} : State).notices 0).length < 1024 ∧ ControlArrives { c with dest := 64 } 9 {} ∧
    1024 ≤ (({ noticesA := List.replicate 1024 ⟨64, {}⟩ } : State).notices 0).length := by unfold ControlArrives; decide +kernel
theorem wit_NoticeResp :
    let c : Ctl := { mboxCtl 10 0 with dest := 64, src := 0x17C0, txn := 3 }
    let s : State := { noticesOut := [(64, [({}, 5, 3)])] }
    ControlArrives c 10 s ∧ (mget [] s.noticesOut 64).any (fun n => n.2.2 == 3) = true ∧ (mget [] s.noticesOut 64).any (fun n => n.2.2 == 4) = false ∧
    (mget [] s.noticesOut 64).filter (fun n => n.2.2 != 3) = [] ∧ (s.tile 64).log.length ≤ (s.tile 64).drained ∧
    ((mget [] s.noticesOut 64).find? (fun n => n.2.1 != 0 && decide (n.2.1 ≤ 5))).isSome = true ∧
    ((mget [] s.noticesOut 64).find? (fun n => n.2.1 != 0 && decide (n.2.1 ≤ 4))).isNone = true := by unfold ControlArrives; decide +kernel
theorem wit_FirmwareTurns_hub :
    let s := State.tick { od := [(oDeviceStateState, 3)] } 0
    s.hubRuns 1 = true ∧ 1 ≠ s.leadHub ∧ s.hubRuns 0 = true ∧ 0 = s.leadHub ∧ ({} : State).hubRuns 0 = false := by decide +kernel
theorem wit_FirmwareTurns_steward :
    let s : State := { od := [(oDeviceStateState, 2)] }
    2 ≤ s.dev ∧ s.dev ≠ 6 ∧ s.stewardGood 0 = true ∧ ({} : State).dev < 2 := by decide +kernel
/-- One undrained entry: one notice, of the tile's transaction, in flight and outstanding. -/
theorem test_TileSequencer_notice :
    let s : State := { tiles := [(64, { log := [{ cause := 4 }] })] }
    (match exec (.tileSequencerDispatch 0 64) s with
      | .next t => t.out == [noticeMsg (hubNode 0) 64 0 { cause := 4 }] && mget [] t.noticesOut 64 == [({ cause := 4 }, 0, 0)]
      | _ => false) = true := by decide +kernel

-- ------------------------------------------------------------------ ControlReads

theorem wit_ControlReads :
    ControlArrives { mboxCtl 6 0 with dest := 64 } 6 {} ∧ ControlArrives (mboxCtl 7 0) 7 {} ∧ ControlArrives { mboxCtl 0x10 0 with dest := 64, cls := 1 } 0x10 {} ∧
    ControlArrives { mboxCtl 0x11 512 with dest := 64, cls := 1 } 0x11 {} ∧ ControlArrives { mboxCtl 0x11 0 with cls := 1 } 0x11 {} ∧
    ControlArrives { mboxCtl 0x12 0 with dest := 64, cls := 1 } 0x12 {} ∧ ControlArrives { mboxCtl 0x13 0 with cls := 1 } 0x13 {} ∧
    nodeKind 64 = .tile 64 ∧ nodeKind 0x17C0 = .hub 0 0 ∧ ctlWord (mboxCtl 0x10 65535) 0 < 65536 ∧ 65536 ≤ ctlWord (mboxCtl 0x10 65536) 0 := by
  unfold ControlArrives; decide +kernel

-- ------------------------------------------------------------------ StackEngineCommands

def enginePkt (t src : Nat) (op : List Nat) : Pkt := { dest := 0x141, src := src, ptype := t, op := op }
theorem wit_StackEngine :
    let s := routed
    let u := (routed.tick 0).takePkt (enginePkt 0x11 0x17C0 [])
    EngineTakes 0 (enginePkt 0x11 0x17C0 []) 0 0x11 20 s ∧ EngineTakes 0 (enginePkt 0x12 0x17C0 []) 0 0x12 20 s ∧
    EngineTakes 0 (enginePkt 0x13 0x17C0 []) 0 0x13 14 s ∧ EngineTakes 0 (enginePkt 0x19 0x17C0 [1]) 0 0x19 1 s ∧
    EngineTakes 0 (enginePkt 0x14 0x17C0 [0, 11]) 0 0x14 36 s ∧ isHubNode 0x17C0 = true ∧ isHubNode 64 = false ∧
    nodeKind 0x140 = .stack 0 0 ∧ nodeKind 64 = .tile 64 ∧ u.validRange 64 0 64 = true ∧ u.validRange 64 0x400000 64 = false ∧
    u.hitsParity 0 0 64 = false := by unfold EngineTakes; decide +kernel
/-- Operand byte 20 belongs to no command of FILL or COPY; a stack off line; one in a pause. -/
theorem wit_StackEngine_drops :
    let p := enginePkt 0x11 0x17C0 (List.replicate 20 0 ++ [1])
    let down : State := { routed with stackRecs := [(0, { offline := true })] }
    let paused : State := { routed with stackRecs := [(0, { pauseUntil := 5 })] }
    (p.op.drop 20).all (· == 0) = false ∧ ((routed.tick 0).takePkt p).packetFault p = none ∧ (down.stackUnit 0).offline = true ∧
    paused.clk < (paused.stackUnit 0).pauseUntil ∧ ((routed.tick 0).takePkt (enginePkt 0x11 64 [])).packetFault (enginePkt 0x11 64 []) = none := by
  decide +kernel
/-- Bounds: the last row of a parity slab, an entry of 4,096 bytes, one of 4,160, key 63 and role 12. -/
theorem wit_StackEngine_bounds :
    let u : State := { routed with groupEnts := [(0, { valid := true, role := 10, slabRows := 2 })] }
    u.hitsParity 0 64 64 = true ∧ u.hitsParity 0 128 64 = false ∧
    (let o := enginePkt 0x13 0x17C0 [0, 63, 0, 0, 0, 0, 0, 0, 0, 16, 0, 0, 0, 1]
     leAt o.op 1 1 < 64 ∧ leAt o.op 13 1 = 1 ∧ leAt o.op 8 2 = 4096) ∧
    4160 % 64 = 0 ∧ 4096 < 4160 ∧ 12 ≤ leAt [0, 12] 1 1 := by decide +kernel

-- ------------------------------------------------------------------ GatherAndParityCommands

theorem wit_Gather :
    let u : State := { routed with kv := [(kvKey 0 0 0, { valid := true, entryBytes := 64, pages := 1 })] }
    let e := mget {} u.kv (kvKey 0 0 0)
    EngineTakes 0 (enginePkt 0x10 64 []) 0 0x10 12 u ∧ isTile 64 = true ∧ e.valid = true ∧ (u.pgroup e.group).state ≠ 5 ∧
    (u.tile 0).regionOfRow 0 = none ∧ isTile 0 = true ∧ (mget {} u.kv (kvKey 0 0 1)).valid = false ∧ 0 + 256 ≤ e.pages * 256 ∧ e.pages * 256 < 0 + 257 := by
  unfold EngineTakes; decide +kernel
/-- A row reported uncorrectable that nothing can give, and a group that is lost. -/
theorem wit_Gather_lost :
    (({} : State).goodRow 0 0).isNone = true ∧ ({ original := List.replicate 12 0x140, members := List.replicate 12 0xFFFF } : PGroup).state = 5 := by decide +kernel
theorem wit_ParityGroup :
    let ms := 0x140 :: List.replicate 11 0xFFFF
    let u : State := { routed with groupEnts := [(0, { valid := true, role := 11, slabRows := 1, members := ms }),
      (1, { valid := true, slabRows := 1, openRows := [0], members := ms }), (2, { valid := true, role := 10, members := ms.take 11 ++ [0x1C0] })] }
    EngineTakes 0 { enginePkt 0x15 0x140 [] with body := [{}] } 0 0x15 8 u ∧ EngineTakes 0 (enginePkt 0x16 0x140 []) 0 0x16 6 u ∧
    EngineTakes 0 (enginePkt 0x17 0x17C0 []) 0 0x17 10 u ∧ EngineTakes 0 (enginePkt 0x18 0x17C0 []) 0 0x18 12 u ∧
    u.fromMember (enginePkt 0x15 0x140 []) 0 = true ∧ (u.groupEnt 0 0).valid = true ∧ (u.groupEnt 0 0).role = 11 ∧
    mlook (u.groupEnt 0 0).applied 0 = none ∧ (u.groupEnt 0 2).role = 10 ∧ (u.groupEnt 0 2).p1 ≠ 0xFFFF ∧
    (u.groupEnt 0 0).openRows.contains 0 = false ∧ (u.groupEnt 0 1).openRows.contains 0 = true ∧
    u.codeOpen 0 64 = false ∧ ({ u with pgroups := [(1, { members := ms })] } : State).codeOpen 0 0 = true := by unfold EngineTakes; decide +kernel
theorem wit_Rebuild :
    let x : PGroup := { original := [0x140], members := 0xFFFF :: List.replicate 11 0x180, slabRows := 1 }
    x.lost.contains 0 = true ∧ x.lost.length ≤ 2 ∧ x.rebuild = [] ∧ ({} : State).validRange 0x140 0 64 = true ∧
    (stackOfNode 0x140).isSome = true ∧ (stackOfNode 64).isSome = false := by decide +kernel

-- ------------------------------------------------------------------ StackUpkeep

theorem wit_StackUpkeep :
    let s : State := { stackRecs := [(0, { offline := true, coolFrom := some 0 })], clk := 60 * 10 ^ 9, od := [(oFloorSiteState 5, 5)], pgroups := [(0, { rebuild := [⟨11, 0x180, 0, none⟩] })] }
    isStackSite 5 = true ∧ isStackSite 0 = false ∧ (s.stackUnit (stackIdx 5)).offline = true ∧ (s.stackUnit (stackIdx 5)).coolFrom = some 0 ∧
    (s.tick 0).floorNow (oFloorSiteState 5) = 5 ∧
    (({} : State).stackUnit (stackIdx 5)).offline = false ∧ ({} : State).odGet (oStackUnitLevel (stackIdx 5)) = 0 ∧
    (({} : State).stackUnit (stackIdx 5)).suspect = false ∧ s.faults.any (fun f => f.kind == 4 && f.ident == 5) = false ∧
    (s.pgroup 0).rebuild.find? (fun r => r.lost == 11) = some ⟨11, 0x180, 0, none⟩ ∧ (s.pgroup 0).slabRows = 0 ∧
    (s.pgroup 0).rebuild.find? (fun r => r.lost == 10) = none := by decide +kernel
/-- At 85 °C level 1 begins, at 105 °C level 3; downwards a level holds until 3 °C below its threshold (R205); 4,001 m°C for one
second make the sensor suspect, 2,000 for 60 s clear it (R206). -/
theorem wit_StackTemp :
    stackLevel 0 84999 = 0 ∧ stackLevel 0 85000 = 1 ∧ stackLevel 0 105000 = 3 ∧ stackLevel 1 82001 = 1 ∧ stackLevel 1 82000 = 0 ∧
    (({ offFrom := some 0 } : StackUnit).judge (10 ^ 9) 4001 0).2 = 2 ∧ (({ offFrom := some 0 } : StackUnit).judge (10 ^ 9) 4000 0).2 = 0 ∧
    (({ suspect := true, backFrom := some 0 } : StackUnit).judge (60 * 10 ^ 9) 2000 0).2 = 3 := by decide +kernel
/-- Section 9 of slot 0 has a copy left on stack 0. -/
def copyState : State :=
  { bank0 := { built := true }, od := [(oFloorSiteState 5, 1), (oFloorSiteState 10, 1), (oFloorSiteState 85, 1), (oFloorSiteState 90, 1)], pslots := [(0, { furn := some { sects := [{ id := 9, kind := 0, off := 0, len := 64 }] }, placed := some { copies := [(9, [(0, 0), (0x104, 0)])] } })] }
theorem wit_WeightCopyRestore :
    let u := copyState
    (u.pslot 0).placed.bind (fun x => x.copies.find? (fun c => c.1 == 9)) = some (9, [(0, 0), (0x104, 0)]) ∧
    (u.sectionOf 0 9).isSome = true ∧ liveCopies [(0, 0), (0x104, 0)] = [(0, 0)] ∧
    (u.nearStacks (mostDie (readersOf (u.seats 0) 0 9)) (fun k => k / 2 != 0 && (u.fit k 64).isSome)) ≠ [] ∧
    (u.allocate 1 64 0).isSome = true ∧ liveCopies ([] : List (Nat × Nat)) = [] := by decide +kernel
/-- A pass begun two hours ago where the period is one hour; escalated. -/
theorem wit_ForcedPause :
    let s : State := { bank0 := { built := true }, clk := 7200 * 10 ^ 9, od := [(oFloorSiteState 5, 1), (oStackPanelScrubPeriodH, 1), (oFaultBgState 2, 4)] }
    (let w := s.stackUnit 0
     isStackSite 5 && (s.odGet (oFaultBgState 2) == 4 || w.pauseUntil != 0) &&
      decide (s.odGet oStackPanelScrubPeriodH ≤ (s.clk - w.scrubStart) / (3600 * 10 ^ 9) - s.odGet oStackPanelScrubPeriodH) &&
      (w.pauseUntil == 0 || decide (w.pauseUntil + 999000000 ≤ s.clk)) && s.stackOnline 0) = true := by decide +kernel

-- ------------------------------------------------------------------ SlotImageCommands

theorem wit_SlotImage :
    let u (st : Nat) : State := (({} : State).odSet (oFloorSiteState 5) 1).odSet (oPlacementSlotImageLength 0) 64 |>.odSet (oPlacementSlotState 0) st
    (u 0).slotRunning 0 = false ∧ (u 0).inCascade = false ∧ (u 0).slotState 0 = 0 ∧ ((u 0).stagePieces 64).2 = 0 ∧
    (u 1).imageOpen 0 = true ∧ (u 2).imageOpen 0 = false ∧ (u 1).odGet (oPlacementSlotCursor 0) + 64 ≤ (u 1).odGet (oPlacementSlotImageLength 0) ∧
    ((u 1).odSet (oPlacementSlotCommand 0) 1).slotRunning 0 = true := by decide +kernel
theorem wit_SlotCommit :
    let u : State := { od := [(oPlacementSlotState 0, 1)] }
    u.slotRunning 0 = false ∧ u.slotState 0 = 1 ∧ u.odGet (oPlacementSlotCursor 0) = u.odGet (oPlacementSlotImageLength 0) := by decide +kernel
theorem wit_LoadChecksDone :
    let u : State := { od := [(oPlacementSlotState 0, 2)] }
    u.slotState 0 = 2 ∧ u.faults = [] ∧ (u.loadError []).isSome = true := by decide +kernel

-- ------------------------------------------------------------------ SlotPlacementCommands

/-- Slot 0 waits with an empty furnish; then placed; then unloading with no lane. -/
theorem wit_SlotPlacement :
    let u : State := { od := [(oPlacementSlotState 0, 3)], pslots := [(0, { furn := some {} })] }
    (u.pslot 0).furn.isSome = true ∧ u.slotState 0 = 3 ∧ u.faults = [] ∧ u.idleBank = true ∧
    ((List.range 8).filter (fun j => u.slotState j == 3)).any (fun j => decide (u.placeRank j < u.placeRank 0)) = false := by decide +kernel
theorem wit_SlotUnload :
    let u : State := { od := [(oPlacementSlotState 0, 4)] }
    u.slotRunning 0 = false ∧ u.slotState 0 = 4 ∧ u.lanes.any (fun p => p.2.slot == 0 && !p.2.ended) = false ∧ (u.pslot 0).resupply = [] ∧
    (let v : State := { od := [(oPlacementSlotState 0, 6)] }; v.reap.slotState 0 = 6 ∧ v.reap.lanesOf 0 = [] ∧ v.reap.idleBank = true) := by
  decide +kernel
theorem wit_ResupplyTimeout :
    (let u : State := { clk := 10 ^ 9, pslots := [(0, { resupply := [(9, 0)] })], od := [(oFaultPanelResupplyWaitS, 1)] }
     (u.pslot 0).resupply.any (fun r => decide (r.2 + 10 ^ 9 * u.odGet oFaultPanelResupplyWaitS ≤ u.clk)) = true ∧
     (u.pslot 0).resupply.any (fun r => decide (r.2 + 10 ^ 9 * u.odGet oFaultPanelResupplyWaitS ≤ u.clk - 1)) = false) := by decide +kernel
/-- A slot past its slice; at a couch point. -/
theorem wit_Slice :
    let u : State := { clk := 10 ^ 9, od := [(oPlacementPanelSliceMs, 1), (oPlacementSlotState 0, 4), (oPlacementSlotState 1, 5)] }
    u.slotState 1 = 5 ∧ u.pinned 0 = false ∧ (u.couch [0]).1 = true ∧ (u.couch []).1 = true ∧
    u.odGet (oPlacementSlotPlacedAt 0) + 10 ^ 6 * u.odGet oPlacementPanelSliceMs * (u.hints 0).weight ≤ u.now := by decide +kernel

-- ------------------------------------------------------------------ ReplanningSteps

theorem wit_Rebalance :
    let u : State := { rebalDue := true }
    u.evacPairs 4 = [] ∧ (u.couch u.placedSlots).1 = true ∧
    stepMoves (((u.couch u.placedSlots).2.placedSlots.foldl State.redecide (u.couch u.placedSlots).2).rematch).targets 4 = [] := by decide +kernel
/-- A repair waits: no couch point (R238). -/
theorem wit_Rebalance_waits : (({ rebalDue := true, faults := [{ kind := 1, ident := 0, at' := 0 }] } : State).couch []).1 = false := by decide +kernel
theorem wit_Evac :
    ({ evac := [(0, 5)], od := [(oFloorSiteState 0, 1), (oFloorSiteState 1, 2)], bank0 := { built := true } } : State).evacPairs 4 ≠ [] := by decide +kernel
theorem wit_FullReplan :
    let u : State := { fullDue := true }
    (u.couch u.placedSlots).1 = true ∧ (u.couch u.placedSlots).2.spareStep = none ∧ u.odGet oPlacementPanelReplanForce = 0 := by decide +kernel
theorem wit_Respare : (List.range 16).find? (fun sec => ({} : State).spares.filter (fun g => sectorOf g == sec) == [] &&
      (sectorDies sec).any ({} : State).dieActive) = none ∧
    (let u : State := { od := [(oFloorSiteState 0, 1)] }
     (List.range 16).find? (fun sec => u.spares.filter (fun g => sectorOf g == sec) == [] && (sectorDies sec).any u.dieActive) = some 0 ∧
     u.spares.length < 16) := by decide +kernel
/-- Three of a sector's dies are spares: one too many (R225). -/
theorem wit_FullReplan_spare :
    ({ bank0 := { built := true }, od := [(oFloorSiteState 0, 2), (oFloorSiteState 1, 2), (oFloorSiteState 2, 2)] } : State).spareStep.isSome = true := by
  decide +kernel
/-- Sixteen spares, two in each of eight sectors, for a die of a bare sector. -/
theorem wit_Respare_donor :
    let l := [16, 17, 32, 33, 48, 49, 64, 65, 80, 81, 96, 97, 112, 113, 128, 129]
    let u : State := { bank0 := { built := true }, od := (oFloorSiteState 0, 1) :: l.map (fun g => (oFloorSiteState g, 2)) }
    (List.range 16).find? (fun sec => u.spares.filter (fun g => sectorOf g == sec) == [] && (sectorDies sec).any u.dieActive) = some 0 ∧
    u.spares.length = 16 ∧ u.spares.filter (fun h => (u.spares.filter (fun g => sectorOf g == sectorOf h)).length == 2) ≠ [] := by decide +kernel
theorem wit_SpeedSample :
    let u : State := { od := [(oFloorSiteState 0, 1)] }
    u.dieActive 0 = true ∧ ({} : State).dieActive 0 = false ∧
    1000 - 10 * 10 ≤ 900 * 1000 / 1000 ∧ 899 * 1000 / 1000 < 1000 - 10 * 10 := by decide +kernel

-- ------------------------------------------------------------------ SubmitsAndAdmission

/-- A host port that is UP, and an RT message's header (R274). -/
def hostState : State := { od := [(oRtPortRole 2, 1), (oRtPortState 2, 2)] }
def rtHeader (mtype stream len : Nat) : List Nat :=
  toLE 2 0x5254 ++ [1, mtype] ++ toLE 4 stream ++ toLE 4 1 ++ toLE 2 len ++ List.replicate 18 0
def rtDgram (mtype : Nat) (b : List Nat) : Dgram := { port := 2, udp := hostState.odGet (oRtPortRtUdp 2), body := rtHeader mtype 7 b.length ++ b }
/-- Fragment 0 of 1 with no token, and one without a header; a port that is not UP; one byte too many. -/
theorem wit_SubmitFragment :
    RtTakes 0 (rtDgram 1 (toLE 4 0x10000 ++ List.replicate 108 0)) 1 fragOk hostState ∧ hostState.hostUp 3 = false ∧
    fragOk (toLE 4 0x10000 ++ List.replicate 109 0) = false ∧ hostState.inCascade = false ∧
    ({ hostState with od := [(oRtPortRole 2, 1), (oRtPortState 2, 2)] } : State).staged = 0 := by unfold RtTakes; decide +kernel
theorem wit_RtSubmit :
    let e : StageEnt := ⟨7, 2, {}, 0, 0, [(0, toLE 4 0x10000 ++ List.replicate 108 0)]⟩
    let u : State := { hostState with staging := [e] }
    (u.stageOf 7 {}).isSome = true ∧ e.complete = true ∧ ({ e with frags := [] } : StageEnt).complete = false ∧
    hostState.stageOf 7 {} = none ∧ (u.unstage 7 {}).laneOf 7 = none ∧ (u.unstage 7 {}).term 7 = none ∧ (u.unstage 7 {}).queue = [] ∧
    (({ u with lanes := [(3, { expressLane with sub := { stream := 7 } })] } : State).unstage 7 {}).laneOf 7 ≠ none := by decide +kernel
theorem wit_RtSubmit_known :
    let t : TermRec := { stream := 7, reason := 0, detail := 0, lastIndex := none, count := 0, endSeq := 1, port := 2, reply := {}, alt := {}, ctlIn := 0, ctlOut := 0, at' := 0 }
    let q : QueueEnt := { sub := { stream := 7 }, port := 2, src := {}, arrived := 0, clkAt := 0, limit := 0 }
    (({ terms := [t] } : State).term 7) = some t ∧ (({ queue := [q] } : State).queue.find? (fun q => q.sub.stream == 7)) = some q ∧
    0 + 10 ^ 9 * ({} : State).odGet oStreamPanelTerminalKeepS ≤ 10 ^ 13 := by decide +kernel
theorem wit_Admission :
    ({ od := [(oDeviceStateState, 3)] } : State).reap.serves = true ∧ ({} : State).reap.serves = false ∧ ({} : State).reap.cascadeMaster = false := by decide +kernel

-- ------------------------------------------------------------------ TransportMessages

def queuedStream : QueueEnt := { sub := { stream := 7 }, port := 2, src := {}, arrived := 0, clkAt := 0, limit := 0 }
def endedStream : TermRec :=
  { stream := 7, reason := 0, detail := 0, lastIndex := none, count := 0, endSeq := 1, port := 2, reply := {}, alt := {}, ctlIn := 0, ctlOut := 0, at' := 0 }
theorem wit_TransportMessages :
    let u : State := { hostState with lanes := [(3, { expressLane with sub := { stream := 7 } })], clk := 10 ^ 13 }
    let w : State := { hostState with queue := [queuedStream] }
    let z : State := { hostState with terms := [endedStream] }
    RtTakes 0 (rtDgram 4 (List.replicate 8 0)) 4 (fun b => b.length == 8 && zeroAt b 0 8) u ∧
    RtTakes 0 (rtDgram 7 (List.replicate 16 0)) 7 (fun b => decide (16 ≤ b.length) && decide (leAt b 8 1 ≤ 8) && b.length == 16 + 8 * leAt b 8 1 && zeroAt b 9 7) u ∧
    RtTakes 0 (rtDgram 6 (List.replicate 8 0)) 6 (fun b => b.length == 8 && zeroAt b 4 4) u ∧
    (u.laneOf 7).map (·.1) = some 3 ∧ newer 32 0 1 = true ∧ newer 32 1 1 = false ∧ u.ceClear {} = true ∧
    u.resend 7 [] [] = none ∧ 10 ^ 6 * u.odGet oRtPanelHostSilenceMs ≤ u.clk ∧
    w.laneOf 7 = none ∧ (w.queue.find? (fun q => q.sub.stream == 7 && q.port != seamPort)).isSome = true ∧
    z.laneOf 7 = none ∧ z.term 7 = some endedStream := by unfold RtTakes; decide +kernel
theorem wit_Congested : ({ ceRecs := [{ dst := {}, till := 10, last := some 0 }] } : State).ceClear {} = false := by decide +kernel

-- ------------------------------------------------------------------ ReleasesAndAdaptation

def pacedLane : LaneRec := { expressLane with toks := [1], reel := [⟨1, 10⟩], primed := true, st := 3, port := 2, limit := 5 }
theorem wit_Underrun :
    let u : State := { hostState with clk := 20, tbOn := true, tbBase := 0, lanes := [(3, pacedLane)] }
    pacedLane.express = true ∧ u.mayRelease pacedLane = true ∧ pacedLane.due pacedLane.released < u.timeAt 10 ∧ pacedLane.credited = true ∧
    ({ pacedLane with limit := 0 } : LaneRec).credited = false ∧ u.lane 4 = none ∧ expressLane.sub.cls ≠ 1 ∧ u.lane 3 = some pacedLane := by decide +kernel
/-- A token committed in time that is due now. -/
theorem wit_Release :
    let x : LaneRec := { pacedLane with anchor := 0, anchorT := 10 }
    let u : State := { hostState with clk := 20, tbOn := true, tbBase := 0, lanes := [(3, x)] }
    u.mayRelease x = true ∧ x.due x.released ≤ u.now ∧ u.timeAt 10 ≤ x.due x.released ∧ x.unpaced = false := by decide +kernel
theorem wit_Production : expressLane.sub.rate ≤ expressLane.prodCount ∧
    (let x : LaneRec := { expressLane with sub := { rate := 1 }, primed := true }
     x.express = true ∧ x.terminal = none ∧ x.prodCount < x.sub.rate) := by decide +kernel
theorem wit_Adaptation :
    let u : State := { od := [(oStreamDraftAdaptEnable 0, 1), (oPlacementSlotState 0, 4), (oStreamDraftAdaptSamples 0, 0)], pslots := [(1, { adapting := true })] }
    u.odGet (oStreamDraftAdaptEnable 0) = 1 ∧ (u.pslot 0).adapting = false ∧ u.slotState 0 = 4 ∧
    u.odGet (oStreamDraftAdaptSamples 0) ≤ (u.pslot 0).samples.length ∧ (u.pslot 1).adapting = true ∧ (u.quiesce 1).1 = true ∧
    (laneState.quiesce 0).1 = false := by decide +kernel

-- ------------------------------------------------------------------ FramesAndPauses

theorem wit_FramesAndPauses :
    let u : State := { hostState with hostPorts := [(4, { pausedAt := some 0 })] }.odSet (oRtPortPfcMask 2) 255
    u.hostUp 2 = true ∧ (u.odGet (oRtPortPfcMask 2)).testBit (u.odGet (oRtPortPcp 2)) = true ∧ (u.hostPort 2).pausedAt = none ∧
    (u.hostPort 4).pausedAt = some 0 ∧ u.hostUp 3 = false ∧ (hostState.odGet (oRtPortPfcMask 2)).testBit 8 = false := by decide +kernel

-- ------------------------------------------------------------------ PortsAndModules

theorem wit_Modules :
    let u : State := { od := [(oDeviceStateState, 3), (oRtPortRole 2, 1), (oRtModuleState 2, 3)] }
    u.dev = 3 ∧ u.odGet (oRtPortRole 2) = 1 ∧ u.odGet (oRtPortState 2) < 2 ∧ u.odGet (oRtModuleState 2) = 3 ∧ ({} : State).dev = 0 ∧
    0x50 % 256 = 0x50 ∧ 0x4F % 256 < 0x50 ∧ u.odGet (oRtModuleState 3) = 0 ∧ hostState.odGet (oRtPortState 2) = 2 := by decide +kernel
theorem wit_PortRoleWrite :
    let u : State := hostState
    (decide (1 ≤ 2) && u.odGet (oRtPortRole 3) != 3 && u.odGet (oRtPortRole 3) != 1 && !u.portBusy 3 &&
      (1 != 1 || decide (((List.range 16).filter (fun q => q != 3 && u.odGet (oRtPortRole q) == 1)).length < 4))) = true ∧
    ((hostState.altLost (((hostState.odSet (oRtPortState 2) 0).bump (oRtPortLinkDowns 2)).setHostPort 2 {})).altUsable 2) = false := by decide +kernel
/-- Port 3 is up as port 2's alternate. -/
theorem wit_Failover :
    let u : State := { od := [(oRtPortRole 2, 1), (oRtPortState 2, 2), (oRtPortAlternate 2, 3), (oRtPortRole 3, 1), (oRtPortState 3, 2)] }
    (u.altLost (((u.odSet (oRtPortState 2) 0).bump (oRtPortLinkDowns 2)).setHostPort 2 {})).altUsable 2 = true := by decide +kernel

-- ------------------------------------------------------------------ TimeAndClock

theorem wit_Ptp :
    let u : State := { hostState with ptpCur := 2 }
    u.hostUp 2 = true ∧ u.hostUp 3 = false ∧ ({ hostState with ptpCur := 0xFF } : State).ptpCur = 0xFF ∧
    (let v : State := { hostState with ptpCur := 5, hostPorts := [(2, { announce := true })] }
     v.hostUp 5 = false ∧ v.hostUp v.pickPtp = true ∧ v.pickPtp ≠ 0xFF) ∧ ({ ptpCur := 5 } : State).hostUp ({ ptpCur := 5 } : State).pickPtp = false := by
  decide +kernel
theorem wit_Clock :
    let u : State := { boot := { clock := [(3, 1), (95, 4)] } }
    mlook u.boot.clock 3 = some 1 ∧ mlook u.boot.clock 4 = none ∧ mlook u.boot.clock 95 = some 4 ∧ mlook u.boot.clock 108 ≠ some 4 := by decide +kernel
theorem wit_ClockSwitch :
    let u : State := { boot := { clock := [(95, 4), (108, 4)] }, od := [(oDeviceStateState, 3)] }
    u.clockAlive (if 1 - u.odGet oBootClockSource = 0 then 95 else 108) = true ∧ mlook u.boot.clock 95 = some 4 ∧ mlook u.boot.clock 108 = some 4 := by decide +kernel

-- ------------------------------------------------------------------ SessionsOpen

def eopHeader (kind len : Nat) : List Nat := toLE 2 0x4F45 ++ [1, kind] ++ toLE 12 0 ++ toLE 2 0 ++ toLE 2 1 ++ toLE 2 len ++ [0, 0]
def eopDgram (kind : Nat) (b : List Nat) : Dgram := { port := 16, udp := 49301, body := eopHeader kind b.length ++ b }
def eopSession : Session :=
  { id := 0, port := 16, src := {}, level := 0, keyId := 1, keys := {}, openedAt := 0, lastMsg := 0, startClk := 0, lastClk := 0, rxHigh := 0,
    rxSeen := [], cache := [], inbox := [[4], [3]] }
def halfSession : HalfOpen :=
  { id := 9, port := 16, src := {}, hello := List.replicate 1252 0, challenge := [], keys := {}, transcript := [], at' := 0, proof := some (1, []) }
def powered : State := { od := [(oDeviceStateState, 1)] }
theorem wit_Hello :
    let d := eopDgram 1 (List.replicate 1252 0)
    let h := d.body.drop 24
    EopReaches 0 d powered ∧ eopHeadOk 1 d.body = true ∧ powered.halfOpen = [] ∧
    (h.length == 1252 && leAt d.body 18 2 == 1 && zeroAt d.body 4 12 && zeroAt h 1248 4) = true ∧
    (({ powered with halfOpen := [halfSession] } : State).dropHalfOpen.halfOpen.find? (fun g => g.hello == h)).isSome = true ∧
    ((List.replicate 1251 0).length == 1252) = false := by unfold EopReaches; decide +kernel
theorem wit_EopDrops :
    let d := eopDgram 1 []
    ({ d with udp := 1 } : Dgram).udp ≠ 49301 ∧ (eopCounted 0 d {}).eopServed 16 = false ∧ hostState.hostUp 3 = false ∧
    EopReaches 0 { d with body := [] } powered ∧ eopHeadOk 1 [] = false := by unfold EopReaches; decide +kernel
theorem wit_ProtectedReceive :
    let d := eopDgram 3 []
    let u : State := { powered with sessions := [eopSession] }
    let w : State := { powered with halfOpen := [{ halfSession with id := 0, proof := none }] }
    EopReaches 0 d u ∧ eopHeadOk 3 d.body = true ∧ (u.session (leAt d.body 4 4)).isSome = true ∧ (u.eopJoin d).2 = some [] ∧
    powered.session (leAt d.body 4 4) = none ∧ w.halfOpen.any (fun h => h.id == leAt d.body 4 4) = true ∧ (w.eopJoin d).2 = some [] ∧
    (w.eopJoin { d with body := eopHeader 3 0 ++ [0] }).2 = some [0] := by unfold EopReaches; decide +kernel
theorem wit_Proof :
    let s : State := { halfOpen := [halfSession] }
    s.halfOpen.find? (fun h => h.id == 9) = some halfSession ∧ halfSession.proof = some (1, []) ∧ ({ halfSession with proof := none } : HalfOpen).proof = none ∧
    s.halfOpen.find? (fun h => h.id == 8) = none := by decide +kernel
theorem wit_Keepalive :
    let s : State := { sessions := [eopSession] }
    s.session 0 = some eopSession ∧ eopSession.inbox = [4] :: [[3]] ∧ asksFor s 0 3 = false ∧ asksFor s 1 4 = false := by decide +kernel

-- ------------------------------------------------------------------ SessionsEndAndQuorum

theorem wit_SessionEnds :
    let x : Session := { eopSession with inbox := [[3], [0x30]] }
    let y : Session := { eopSession with id := 1, level := 1, inbox := [[0x30]] }
    let s : State := { sessions := [x, y], clk := 12 * 3600 * 10 ^ 9 }
    s.session 0 = some x ∧ x.inbox = [3] :: [[0x30]] ∧ asksFor s 0 0x30 = false ∧ asksFor s 1 3 = false ∧ s.session 1 = some y ∧ s.session 2 = none ∧
    x.lastClk + 60 * 10 ^ 9 ≤ s.clk ∧ x.startClk + 12 * 3600 * 10 ^ 9 ≤ s.clk ∧ x.level < 1 ∧ 1 ≤ y.level ∧ quorumForm [] = false := by decide +kernel
/-- A QUORUM body with no signatures in the form of R312. -/
def quorumBody : List Nat := [1, 0, 1, 0] ++ List.replicate 132 0
theorem wit_QuorumForm : ∃ b : List Nat, quorumForm b = true := ⟨quorumBody, by decide +kernel⟩

-- ------------------------------------------------------------------ StoredWrites

theorem wit_QuorumSet : (({} : State).quorumSet (List.replicate 18220 0)).isSome = true ∧ (({} : State).quorumSet []).isSome = false := by decide +kernel
theorem wit_MgmtAddress : (({} : State).mgmtWrite 5 32).isSome = true ∧ (({} : State).mgmtWrite 5 33).isSome = false ∧
    (({} : State).mgmtWrite 8 128).isSome = true ∧ (({} : State).mgmtWrite 11 0).isSome = false := by decide +kernel
theorem wit_ObjectWrites :
    (({ od := [(oDeviceStateState, 3)] } : State).writeRow 0x4B0008 0).map (fun r => (r.access, r.type == 12)) = some (1, false) ∧
    (({ od := [(oDeviceStateState, 3)] } : State).writeRow 0x100010 0).map (fun r => (r.type, r.sub)) = some (12, 0) ∧
    (({} : State).writeRow 0 0).isSome = false := by decide +kernel
theorem wit_WriteReq :
    let x : Session := { eopSession with inbox := [[0x12, 0, 0, 0, 0, 0, 0, 0, 1, 0, 0, 0, 2, 0, 16, 1, 0, 0, 1, 0, 5, 0, 0, 0]] }
    let s : State := { sessions := [x] }
    s.session 0 = some x ∧ (writeEntries 1 [2, 0, 16, 1, 0, 0, 1, 0, 5, 0, 0, 0]).isSome = true ∧ zeroAt [1, 0, 0, 0] 1 3 = true ∧ asksFor s 0 0x10 = false := by
  decide +kernel

-- ------------------------------------------------------------------ SessionRequests

theorem wit_Requests :
    let x : Session := { eopSession with inbox := [[0x10, 0, 0, 0, 0, 0, 0, 0, 1, 0, 0, 0, 2, 0, 16, 1, 0, 0, 0, 0]], level := 1, subs := [{ num := 0, filters := [], nxt := 1 }] }
    let s : State := { sessions := [x] }
    s.session 0 = some x ∧ asksFor s 0 0x10 = true ∧ asksFor s 0 0x14 = false ∧ readOk [1, 0, 0, 0, 2, 0, 16, 1, 0, 0, 0, 0] = true ∧ readOk [] = false ∧
    (List.range 4).find? (fun n => !x.subs.any (fun u => u.num == n)) = some 1 ∧ x.subs.any (fun u => u.num == 0) = true ∧
    sumN (s.sessions.map (fun y => y.subs.length)) < 32 ∧ subOk (1 :: List.replicate 23 0) = true ∧ subOk [] = false ∧
    (x.subs.find? (fun u => u.num == 0)).isSome = true ∧ x.subs.find? (fun u => u.num == 3) = none := by decide +kernel
theorem wit_BulkRead :
    let v : State := { powered with sessions := [eopSession] }
    (v.readCheck eopSession 0x100002 1).2.isSome = true ∧ (v.readCheck eopSession 0 0).2.isSome = false ∧
    (match (v.readCheck eopSession 0x100002 1).2 with | some r => decide (0 < v.objLength 0x100002 r) | none => false) = true := by decide +kernel

-- ------------------------------------------------------------------ DeviceStateCommands

def devState (n : Nat) : State := { od := [(oDeviceStateState, n)] }
def quorumCmd (c ph : Nat) : QCmd :=
  { cmd := c, id := [], subject := 0, stream := 0, notAfter := 0, decidedAt := 0, session := 0, request := 0, phase := ph }
theorem wit_DeviceStateCommands :
    (devState 3).dev = 3 ∧ (devState 5).dev = 5 ∧ (devState 1).dev = 1 ∧ (devState 1).powerBusy = false ∧ (devState 4).dev = 4 ∧ (devState 7).dev = 7 ∧
    (devState 3).noStream = true ∧ (devState 3).odGet oDeviceStateRetired ≠ 1 ∧ (devState 6).dev = 6 ∧ (devState 6).quorumQueue = [] ∧
    ({ od := [(oDeviceStateState, 3), (oDeviceStateRetired, 1)] } : State).odGet oDeviceStateRetired = 1 ∧
    ({ od := [(oDeviceStateState, 3), (oDeviceControlPower, 1)] } : State).powerBusy = true := by decide +kernel

-- ------------------------------------------------------------------ StoreAndQuorumTurns

theorem wit_QuorumTurns :
    let s : State := { devState 1 with quorumQueue := [quorumCmd 2 0] }
    let t : State := { quorumQueue := [quorumCmd 2 1], clk := 2 * 10 ^ 9 }
    let r : State := { quorumQueue := [quorumCmd 3 1], cas := { couches := [] } }
    s.quorumQueue.head? = some (quorumCmd 2 0) ∧ (quorumCmd 2 0).phase = 0 ∧ s.faults = [] ∧ s.dev = 1 ∧ t.quorumQueue.head? = some (quorumCmd 2 1) ∧
    (quorumCmd 2 1).startClk + 2 * 10 ^ 9 ≤ t.clk ∧ (quorumCmd 2 1).phase ≠ 0 ∧ r.cas.couches.any (fun c => c.quorum) = false ∧
    r.quorumQueue.head? = some (quorumCmd 3 1) ∧ (quorumCmd 3 1).cmd = 3 ∧ (quorumCmd 1 0).cmd = 1 ∧ s.storeDirty = false := by decide +kernel

-- ------------------------------------------------------------------ SectorSupply

theorem wit_SectorSupply :
    let u (n : Nat) : State := { od := [(oBootProgressStep, 4), (oDeviceStateState, 2)], sectors := [(5, { upStep := n })] }
    let due (s : State) : Bool := s.odGet oDeviceStateState == 2 && s.odGet oBootProgressStep == 4 && !s.sectorSettled 5 && s.sectorTurn 5
    let l : State := { od := [(oPowerSectorLatched 5, 1)] }
    (due ((({} : State).odSet oDeviceStateState 2).odSet oBootProgressStep 4)) = true ∧ due (u 5) = false ∧ (({} : State).sector 0).upStep = 0 ∧
    ((u 5).sector 5).upStep ≠ 0 ∧ l.odGet (oPowerSectorLatched 5) = 1 ∧ l.sectorOut 5 = false ∧ l.faults = [] := by decide +kernel
theorem wit_Setpoints :
    let u : State := { ramps := [(setpointObj 0 0, (700, 690, 0))], clk := 10 ^ 7 }
    mlook u.ramps (setpointObj 0 0) = some (700, 690, 0) ∧ 1000 * (700 - 690) ≤ u.clk ∧ mlook u.ramps (setpointObj 1 0) = none := by decide +kernel

-- ------------------------------------------------------------------ SectorPace

theorem wit_SectorPace :
    let u : State := { sectors := [(0, { upStep := 5, droopUntil := some 0, belowFrom := some 0, capLevel := 60, capOkFrom := some 0 })], clk := 10 ^ 7 }
    u.stewardGood 0 = true ∧ ((u.odSet (oFloorOffgridState 0) 4).stewardGood 0) = false ∧ (u.sector 0).droopUntil = some 0 ∧ (u.sector 1).droopUntil = none ∧
    u.fixedLevel = none ∧ (u.odSet oPowerPanelPaceMode 1 |>.odSet oPowerPanelFixedLevel 5).fixedLevel = some 5 ∧ (u.sector 0).belowFrom = some 0 ∧
    0 * 100 < u.odGet (oPowerSectorCapA 0) * 95 ∧ u.odGet (oPowerSectorCapA 0) < 10 ^ 9 ∧ (u.sector 0).capLevel < 63 := by decide +kernel

-- ------------------------------------------------------------------ PanelPower

theorem wit_PanelPower :
    let w : State := { watts := List.replicate 9 1000000, od := [(oPowerPanelCeiling, 60)] }
    let v := w.recordInput 72000 1000000 []
    let q := ({} : State).recordInput 72000 10 []
    v.tripped = false ∧ 10 ≤ v.watts.length ∧ v.odGet oPowerPanelHardLimitW < meanN (lastN 10 v.watts) ∧ v.effectiveCap * 98 < 10 ^ 8 * 100 ∧
    0 < v.odGet oPowerPanelCeiling ∧ q.watts.length < 10 ∧ 0 * 100 ≤ q.effectiveCap * 98 ∧
    (({ tripped := true } : State).recordInput 0 0 []).tripped = true := by decide +kernel
theorem wit_Bricks : (({} : State).odSet (oPowerBrickState 3) 1).odGet (oPowerBrickState 3) = 1 ∧ ({} : State).odGet (oPowerBrickState 3) ≠ 1 ∧
    ({ boot := { fed := true } } : State).boot.fed = true ∧ ({} : State).boot.fed = false := by decide +kernel

-- ------------------------------------------------------------------ IdleAndWake

theorem wit_Idle :
    let s : State := { clk := 10 ^ 10, tiles := [(65, { idle := true })] }
    isTile 64 = true ∧ isTile (64 * 5) = false ∧ (s.tile 64).quiet = true ∧ (s.tile 64).idle = false ∧ 1000 * s.odGet oPowerPanelIdleEntryUs ≤ s.clk ∧
    (s.tile 65).idle = true ∧ s.mayIdle 65 = false ∧ (s.odSet (oFloorTileState 65) 1).mayIdle 65 = true ∧ s.boot.fused.contains 1 = false ∧
    (s.odSet (oFloorTileState 65) 1).stewardGood 0 = true ∧ (s.sector 0).wakes = [] ∧
    (s.odSet (oFloorOffgridState 0) 4).stewardGood 0 = false ∧ (s.odSet (oFloorOffgridState 0) 4).mayIdle 65 = true := by decide +kernel
theorem wit_WakeSteps :
    let w : WakeReq := { tiles := [71], own := [71], recovery := false, column := some 7, lastAt := 0 }
    let s : State := { clk := 10 ^ 6, sectors := [(0, { wakes := [w], trimFrom := some 0 })] }
    (s.sector 0).wakes = [w] ∧ w.lastAt + 2000 ≤ s.clk ∧ 50 * (w.tiles.filter (fun k => k % 8 == 7)).length ≤ s.headroom 0 ∧
    (s.sector 0).trimFrom = some 0 ∧ 0 + 10 ^ 5 ≤ s.clk ∧ (s.sector 1).trimFrom = none ∧ (s.sector 1).wakes.head? = none := by decide +kernel

-- ------------------------------------------------------------------ TemperaturesAndCooling

theorem wit_Temperatures :
    let u : State := (({ dieTherm := [(1, { coolFrom := some 0 })], clk := 60 * 10 ^ 9 } : State).odSet (oFloorSiteState 1) 4).odSet (oFloorSiteCause 1) 7
    isCompute 1 = true ∧ isCompute 5 = false ∧ (mget {} u.dieTherm 1).coolFrom = some 0 ∧ u.floorNow (oFloorSiteState 1) = 4 ∧ u.floorNow (oFloorSiteCause 1) = 7 ∧
    u.faults = [] ∧ u.stewardGood 0 = true ∧ u.odGet (oPowerSectorPowerW 0) = 0 := by decide +kernel
theorem wit_Resistance :
    let u : State := (((({} : State).odSet (oFloorSiteState 1) 1).odSet (oPowerSectorPowerW 0) 100).odSet (oPowerSectorCurrentA 0) 10000)
    (sectorDies 0).filter u.dieActive ≠ [] ∧ u.odGet (oPowerSectorPowerW 0) ≠ 0 ∧ u.odGet (oPowerSectorCapA 0) * 40 ≤ u.odGet (oPowerSectorCurrentA 0) * 100 := by
  decide +kernel
theorem wit_Cooling :
    let v : State := (({ coolFrom := some 0, clk := 10 ^ 10 } : State).odSet oThermalPlateInletMc 70000)
    v.coolCondition.isSome = true ∧ v.coolWarn = false ∧ v.coolFrom = some 0 ∧ 0 + 10 ^ 10 ≤ v.clk ∧
    (((({ coolFrom := some 0 } : State).odSet oThermalPlateInletMc 30000).odSet oThermalPlateFlowMlMin 50000).coolCondition) = none := by decide +kernel

-- ------------------------------------------------------------------ AgeingChecks

theorem wit_AgeingChecks :
    let s : State := ({ eccRates := [(0, { hours := 23 })], clk := 3600 * 10 ^ 9 } : State).odSet (oStackUnitEccCorrected 0) 1001
    isCompute 1 = true ∧ isStackSite 5 = true ∧ stackIdx 5 = 0 ∧ isStackSite 1 = false ∧ linkExists 1 = true ∧ (mget {} s.eccRates 0).hours = 23 ∧
    (mget {} s.eccRates 0).since + 3600 * 10 ^ 9 ≤ s.clk ∧ ({} : State).odGet oAgeingPanelReplanNow ≠ 1 ∧ (devState 3).marginPlan = none ∧
    (devState 3).faults = [] ∧ (({} : State).odSet oAgeingPanelReplanNow 1).odGet oAgeingPanelReplanNow = 1 := by decide +kernel
theorem wit_MarginReplan :
    let m : MarginPlan := ⟨[], 0, 0, 0, []⟩
    ({ devState 3 with marginPlan := some m } : State).marginPlan = some m ∧ (((m.trims.map (fun p => p.1 / 64)).eraseDups).take 1) = [] ∧
    ((([(64, 5)] : List (Nat × Nat)).map (fun p => p.1 / 64)).eraseDups).take ((devState 3).odGet oPlacementPanelReplanMaxDies) ≠ [] := by decide +kernel
theorem wit_ModuleLifeDaily :
    let s : State := ({ cages := [(0, { sum := 10, count := 2, warnUa := 100 })] } : State).odSet (oAgeingModuleEntry 0) 3
    (mget {} s.cages 0).count ≠ 0 ∧ s.odGet (oAgeingModuleEntry 0) < 64 ∧ (mget {} s.cages 1).count = 0 := by decide +kernel

-- ------------------------------------------------------------------ HeartbeatsAndLosses

def lostOf (k i : Nat) : State := { faults := [{ kind := k, ident := i, at' := 0 }] }
theorem wit_DieBeats :
    let u : State := (({} : State).odSet (oFloorSiteState 1) 1)
    isCompute 1 = true ∧ u.dieUsable 1 = true ∧ u.stewardGood (sectorOf 1) = true ∧ mlook u.beats 1 = none ∧ isCompute 5 = false ∧
    mlook ({ beats := [(1, (u.beatsOf 1, 2))] } : State).beats 1 = some (u.beatsOf 1, 2) := by decide +kernel
theorem wit_OtherBeats :
    (lostOf 6 0).faults.any (fun f => f.kind == 6 && f.ident == 0) = true ∧ (lostOf 8 3).faults.any (fun f => f.kind == 8 && f.ident == 3) = true ∧
    ({} : State).hubLost 0 = false ∧ ({} : State).hubLost 1 = false ∧ ({} : State).floorNow (oFloorOffgridState 3) ≠ 4 ∧
    ((({} : State).odSet (oFloorOffgridState 3) 4)).floorNow (oFloorOffgridState 3) = 4 ∧ (({} : State).odSet (oFloorOffgridState 16) 4).hubLost 0 = false ∧
    ({ boot := { badHubs := [0] } } : State).dev = 0 ∧ (devState 3).dev ≠ 0 := by decide +kernel
theorem wit_HubGone : ∃ u : State, u.hubLost 0 = true := ⟨({} : State).stageFloor (oFloorSiteState 95) 4, by decide +kernel⟩

-- ------------------------------------------------------------------ ContainmentAndRepair

theorem wit_Repairs :
    let f : FaultJob := { kind := 1, ident := 64, at' := 0 }
    let n : Notice := { src := 64, entry := { cause := 4 } }
    ({ faults := [f] } : State).faults = f :: [] ∧
    ((({} : State).setNotices ({} : State).actingHub [n]).notices ({} : State).actingHub).find? (fun n => decide (1 ≤ n.entry.cause ∧ n.entry.cause ≤ 9)) = some n ∧
    (({} : State).notices ({} : State).actingHub).find? (fun n => decide (1 ≤ n.entry.cause ∧ n.entry.cause ≤ 9)) = none := by decide +kernel
theorem wit_Background :
    let u : State := ({} : State).odSet (oFaultBgState 2) 3
    ({} : State).bgDue 0 = false ∧ 3 ≤ u.odGet (oFaultBgState 2) ∧ u.bgHoldUntil ≤ u.clk ∧ sumN ((u.bgHolds.filter (fun h => decide (u.clk < h.1 + 10 ^ 8))).map (·.2)) + 200 ≤ 2000 := by
  decide +kernel
theorem wit_FatalEntry :
    let one : State := (devState 3).stageFloor (oFloorSiteState 95) 4
    ({} : State).hubsLost = false ∧ (devState 7).dev = 7 ∧ 2 ≤ (devState 3).dev ∧ (devState 1).dev < 2 ∧ one.goodHubs.length = 1 := by decide +kernel

-- ------------------------------------------------------------------ SeamLinks

def seamState : State := { od := [(oDeviceStateState, 3)] }
theorem wit_SeamLinks :
    let u : State := ((seamState.odSet (oRtPortRole 8) 2).odSet (oRtModuleState 8) 3).odSet (oCascadeLinkState 8) 2
    u.odGet (oRtPortRole 8) = 2 ∧ u.odGet (oRtModuleState 8) = 3 ∧ u.odGet oCascadePanelState ≠ 5 ∧ u.dev = 3 ∧ 800000 < seamLatency (10 ^ 6) ∧
    seamLatency 1000 ≤ 800000 ∧ u.odGet (oRtPortRole 0) ≠ 2 ∧ u.odGet (oCascadeLinkState 8) = 2 ∧ u.odGet (oCascadeLinkState 9) = 0 ∧
    (u.odSet (oCascadeLinkState 9) 3).odGet (oCascadeLinkState 9) = 3 := by decide +kernel
theorem wit_Transfers :
    let s : State := { cas := { xfers := [{ id := 4, port := 8, panel := 1, kind := 0, sentAt := 0, body := [] }] }, clk := 10 ^ 7 }
    (s.cas.xfers.find? (fun x => x.id == 4)).isSome = true ∧ (s.cas.xfers.find? (fun x => x.id == 5)).isSome = false := by decide +kernel
def inCas (role : Nat) : State := (({} : State).odSet oCascadePanelState 2).odSet oCascadePanelRole role
theorem wit_Reports : (inCas 2).inCascade = true ∧ (inCas 2).cascadeMaster = false ∧ (inCas 1).inCascade = true ∧ (inCas 1).cascadeMaster = true ∧
    ({} : State).inCascade = false ∧ ((inCas 2).odSet oCascadePanelNumber 3).panelNo = 3 ∧ (inCas 2).panelNo ≠ 3 := by decide +kernel

-- ------------------------------------------------------------------ CascadeMembers

theorem wit_Forming :
    let v : State := { ((({} : State).odSet oCascadePanelState 1).odSet oCascadeConfigMaster 0).odSet oCascadePanelNumber 0 with clk := 10 ^ 10 }
    v.odGet oCascadePanelState = 1 ∧ v.panelNo = v.odGet oCascadeConfigMaster ∧ v.cas.formAt + 10 ^ 10 ≤ v.clk ∧
    ({} : State).odGet oCascadePanelState ≠ 1 := by decide +kernel
theorem wit_Isolate :
    let v : State := { ((inCas 1).odSet oCascadeConfigMembers (1 + 2 * 2 ^ 128 + 3 * 2 ^ 256)).odSet oCascadePanelNumber 0 with clk := 10 ^ 10 }
    v.cascadeMaster = true ∧ 2 < v.memberList.length ∧ 2 * ((v.others.filter (fun p => !v.silent p)).length + 1) ≤ v.memberList.length := by decide +kernel
theorem wit_Replace :
    let b : List Nat := [1, 0, 0, 0] ++ [9] ++ List.replicate 15 0
    b.length = 20 ∧ sliceAt b 1 3 = [0, 0, 0] ∧ leAt b 0 1 < 8 ∧ leAt b 4 16 ≠ 0 ∧ ({} : State).cascadeMaster = false := by decide +kernel

-- ------------------------------------------------------------------ Reams

theorem wit_Reams :
    let s : State := { pslots := [(0, { furn := some { progs := [{ reds := [{ id := 1, partials := 2 }] }] } })], cas := { reams := [(reamKey 0 1, { num := 0, copies := [(0, [0])] })] }, clk := 10 ^ 12 }
    (mlook s.cas.reams (reamKey 0 1)).isSome = true ∧ (mget {} s.cas.reams (reamKey 0 1)).started.isNone = true ∧ s.contributions 0 1 = 2 ∧
    (0#64).toNat / 2 ^ 48 = 0 % 65536 ∧ (0#64).toNat / 2 ^ 32 % 4096 = 0 ∧ mlook s.cas.reams (reamKey 0 2) = none := by decide +kernel
theorem wit_DeepenCommitRecord :
    let u : State := { laneState with pslots := [(0, { furn := some {}, part := some (0, 1) })] }
    (u.runLane 0).isSome = true ∧ (u.pslot 0).furn = some {} ∧ u.runLane 77 = none := by decide +kernel

-- ------------------------------------------------------------------ Couches

def couchLane : LaneRec := { expressLane with sub := { stream := 7 } }
def couchOf (ph : Nat) : Couch := { stream := 7, panel := 1, serial := 0, phase := ph }
def couchState (ph : Nat) : State := { lanes := [(3, couchLane)], cas := { couches := [couchOf ph], levelDue := some (40, 0) } }
theorem wit_Couches :
    (couchState 0).cas.couches = [couchOf 0] ∧ (couchState 0).runLane 7 = some (3, couchLane) ∧ (couchState 0).couchLink (couchOf 0) = false ∧
    couchLane.terminal = none ∧ ({ couchLane with terminal := some (2, 0) } : LaneRec).terminal.isSome = true ∧
    (couchState 0).cas.levelDue = some (40, 0) ∧ ({} : State).cas.levelDue = none ∧ ({} : State).runLane 7 = none ∧ ({} : State).laneOf 7 = none := by decide +kernel
theorem wit_CouchRound :
    let u : State := ((couchState 0).odSet (oCascadeLinkState 8) 2).odSet (oCascadeLinkPeerPanel 8) 1
    u.couchLink (couchOf 0) = true := by decide +kernel
theorem wit_CarriedCouch :
    let s : State := { lanes := [(256, couchLane)] }
    s.runLane 7 = none ∧ s.laneOf 7 = some (256, couchLane) := by decide +kernel

-- ------------------------------------------------------------------ PowerOnAndReady

def fwAt (dev st : Nat) : State := ({} : State).odSet oDeviceStateState dev |>.odSet oFwUpdateState st
def bootState (step : Nat) : State := ({ boot := { fed := true } } : State).odSet oDeviceStateState 2 |>.odSet oBootProgressStep step
theorem wit_PowerOn : ({} : State).boot.fed = false ∧ (bootState 3).boot.fed = true ∧ ({ boot := { fed := true } } : State).dev = 0 ∧
    ({ boot := { fed := true } } : State).recovery = false ∧ ({ boot := { fed := true } } : State).boot.badHubs.length ≠ 2 := by decide +kernel
theorem wit_BusLoad : (bootState 3).dev = 2 ∧ (bootState 3).odGet (oFwDieState 256) ≠ 2 ∧ (bootState 3).odGet (oFwDieState 256) ≠ 3 ∧
    mget 0 (bootState 3).boot.loads 0 < 2 ∧ mget 0 ({ boot := { loads := [(0, 2)] } } : State).boot.loads 0 = 2 := by decide +kernel
theorem wit_BringupStep : (bootState 6).bootStep < 14 ∧ (bootState 6).stepDone = true ∧ (bootState 3).stepDone = false ∧ (bootState 14).bootStep = 14 ∧
    ((bootState 14).readyConditions true true).find? (fun c => !c.2) = some (0x0102, false) := by decide +kernel
theorem wit_Timeout : (bootState 9).boot.bringupAt + 600 * 10 ^ 9 ≤ 0 + 600 * 10 ^ 9 ∧ (0 : Nat) + 7 < (bootState 9).boot.bringupAt + 600 * 10 ^ 9 := by decide +kernel

-- ------------------------------------------------------------------ DiscoveryAndTests

def fwDone (step : Nat) : State := (bootState step).odSet (oFwDieState 5) 2 |>.odSet (oFwDieState 0) 2
theorem wit_Discover : (bootState 7).bootStep = 7 ∧ (bootState 7).dev = 2 ∧ mlook (bootState 7).boot.found 0 = none ∧ (bootState 6).bootStep ≠ 7 ∧
    mlook ({ boot := { found := [(0, ⟨siteAt 1 1, 0, 5⟩)] } } : State).boot.found 0 = some ⟨siteAt 1 1, 0, 5⟩ ∧ claim 0 0 1 0 = some (siteAt 1 1) := by decide +kernel
theorem wit_Stack : (fwDone 11).dev = 2 ∧ (fwDone 11).bootStep = 11 ∧ (fwDone 11).odGet (oFwDieState (stackSite 0)) = 2 ∧
    (fwDone 11).live (stackSite 0) = true ∧ (fwDone 11).boot.stacksDone.contains 0 = false := by decide +kernel
theorem wit_KnownAnswer : isCompute 0 = true ∧ (fwDone 12).bootStep = 12 ∧ (fwDone 12).live 0 = true ∧ (fwDone 12).odGet (oFwDieState 0) = 2 ∧
    (mget [] (fwDone 12).boot.katDone 0).contains 0 = false ∧ (bootState 13).bootStep = 13 ∧ (bootState 13).boot.assembled = false := by decide +kernel
def berState : State := (bootState 9).odSet (oFabricLinkState 72) 2 |>.odSet (oFabricLinkLanesGood 72) 64
theorem wit_Ber : linkExists 72 = true ∧ berState.dev = 2 ∧ berState.bootStep = 9 ∧ berState.boot.berDone.contains 72 = false ∧ berState.linkLive 72 = true ∧
    berState.linkPassable 72 = true := by decide +kernel

-- ------------------------------------------------------------------ FirmwareToTheDies

theorem wit_Broadcast : (bootState 10).bootStep = 10 ∧ (bootState 10).boot.sent.contains 5 = false ∧ siteKind 0 < 2 ∧ (bootState 10).live 0 = true ∧
    fwCompOf [] 5 = none ∧ ({ boot := { sent := [4, 5] } } : State).boot.sent.length = 2 := by decide +kernel
def fwImg : List Nat := List.replicate 25 0 ++ [1] ++ List.replicate 38 0 ++ [4] ++ List.replicate 63 0
theorem wit_FwComp : (fwCompOf fwImg 4).isSome = true := by decide +kernel
theorem wit_FwRecovery : ({ fwAt 0 4 with recovery := true } : State).odGet oFwUpdateState = 4 ∧ (fwAt 1 0).dev = 1 ∧ (fwAt 2 0).dev ≠ 1 := by decide +kernel

-- ------------------------------------------------------------------ FirmwareCommands

theorem wit_FwCommands : (fwAt 1 0).fwBusy = false ∧ (fwAt 1 0).fwState = true ∧ (fwAt 1 0).odGet oFwUpdateState ≠ 1 ∧ (fwAt 1 1).fwBusy = true ∧
    (fwAt 7 0).fwState = false ∧ (fwAt 1 0).odGet oFwUpdateState ≠ 2 ∧ (fwAt 1 0).odGet oFwUpdateState ≠ 5 ∧ (fwAt 1 0).fwComplete = false ∧ (fwAt 1 2).fwComplete = true ∧ (fwAt 1 2).fwInPlace = true ∧ (fwAt 3 2).fwInPlace = false ∧
    (fwAt 3 2).fwComplete = true ∧ (fwAt 3 5).odGet oFwUpdateState = 5 ∧ (fwAt 3 3).odGet oFwUpdateState = 3 := by decide +kernel

-- ------------------------------------------------------------------ VersionsAttestationAndDump

theorem wit_DumpTimeLimit : let u : State := ((({} : State).odSet oDumpState 1).odSet oDeviceStateState 7).odSet oDumpProgressStep 5
    u.odGet oDumpState = 1 ∧ u.dev = 7 ∧ u.hubsLost = false ∧ 5 ≤ u.odGet oDumpProgressStep ∧ ({} : State).odGet oDumpState ≠ 1 ∧
    (fwAt 3 0).dev = 3 ∧ (fwAt 1 0).dev = 1 ∧ (fwAt 3 0).odGet oFwUpdateState ≠ 3 := by decide +kernel

-- ------------------------------------------------------------------ FiringsKeepTheRest

/-- A switch unit that fires leaves tile 65 as it was. -/
theorem wit_FiringsKeepTheRest : ∃ t, exec (.switchFire 0 64 0) {} = .next t := ⟨_, rfl⟩

-- ------------------------------------------------------------------ ScratchCommandsKeepTheRest

theorem wit_ScratchCommandsKeep : ∃ t, exec (.scratchFill 0 64 0 1 0xFF true) {} = .next t := ⟨_, rfl⟩

-- ------------------------------------------------------------------ VisibleToken

theorem wit_VisibleToken : ({ toks := [{ tok := { wm := 1 } }, { tok := {} }] } : Queue).visible 0 = some { tok := {} } ∧
    ∀ x ∈ [({ tok := { wm := 1 } } : TokRec)] ++ [], x.tok.wm ≠ 0 := by decide +kernel

-- ------------------------------------------------------------------ FactoryAreasAnswerLevel

theorem wit_FactoryAreas : ({ id := 1, port := 0, src := {}, level := 2, keyId := 0 } : Session).level < 3 := by decide

-- ------------------------------------------------------------------ ThermalRatioStates

theorem wit_ThermalRatio :
    let s : State := ((((({} : State).odSet (oFloorSiteState 0) 1).odSet (oPowerSectorPowerW 0) 400).odSet (oPowerSectorCurrentA 0) 500).odSet
      (oPowerSectorCapA 0) 600).odSet (oThermalSectorBaselineMkw 0) 100
    s.stewardGood 0 = true ∧ (sectorDies 0).filter s.dieActive ≠ [] ∧ s.odGet (oPowerSectorPowerW 0) ≠ 0 ∧
    s.odGet (oPowerSectorCapA 0) * 40 ≤ s.odGet (oPowerSectorCurrentA 0) * 100 ∧ s.odGet (oThermalSectorBaselineMkw 0) ≠ 0 := by decide +kernel

end Sys2Proof.Tests
end

section
namespace Sys2Proof.Proofs
open Sys2Proof.Machine

/-- The die at site `i` of sector `c`, by R17's table. -/
theorem siteKind_sector_site (c : Nat) {i : Nat} (hi : i < 16) :
    siteKind (c * 16 + i) =
      if i = 5 ∨ i = 10 then 1
      else if c * 16 + i = 95 ∨ c * 16 + i = 147 then 2
      else if c * 16 + i = 108 ∨ c * 16 + i = 160 then 3
      else 0 := by
  have hmod : (c * 16 + i) % 16 = i := by omega
  rw [siteKind, hmod]

theorem siteX_sector_site (c : Nat) {i : Nat} (hi : i < 16) :
    siteX (c * 16 + i) = c % 4 * 4 + i % 4 := by
  have hdiv : (c * 16 + i) / 16 = c := by omega
  have hmod : (c * 16 + i) % 4 = i % 4 := by omega
  rw [siteX, hdiv, hmod]

theorem siteY_sector_site (c : Nat) {i : Nat} (hi : i < 16) :
    siteY (c * 16 + i) = c / 4 * 4 + i / 4 := by
  have hdiv : (c * 16 + i) / 64 = c / 4 := by omega
  have hmod : (c * 16 + i) % 16 = i := by omega
  rw [siteY, hdiv, hmod]

theorem isCompute_iff {g : Nat} (hg : g < 256) : isCompute g = true ↔ siteKind g = 0 := by
  simp [isCompute, hg]

/-- The sites of a sector that hold compute dies (R16, R17). -/
def sectorComputeSites (c : Nat) : List Nat :=
  (List.range 16).filter fun i => isCompute (c * 16 + i)

/-- Beside its two stacks a central sector gives one site to a hub die, an outer sector none (R17). -/
theorem length_sectorComputeSites : ∀ c < 16,
    (sectorComputeSites c).length = if c = 5 ∨ c = 6 ∨ c = 9 ∨ c = 10 then 13 else 14 := by
  decide

theorem range_eq_flatMap_sectors :
    List.range 256 = (List.range 16).flatMap fun c => (List.range 16).map (c * 16 + ·) := by
  decide +kernel

theorem length_computeSites_eq_sum :
    computeSites.length = ((List.range 16).map fun c => (sectorComputeSites c).length).sum := by
  simp only [computeSites, range_eq_flatMap_sectors, List.filter_flatMap, List.filter_map, List.length_flatMap,
    List.length_map]
  rfl

/-- Twelve outer sectors of 14 compute dies and four central ones of 13 (R17). -/
theorem length_computeSites : computeSites.length = 220 := by
  have hsectors : ((List.range 16).map fun c => (sectorComputeSites c).length) =
      (List.range 16).map fun c => if c = 5 ∨ c = 6 ∨ c = 9 ∨ c = 10 then 13 else 14 :=
    List.map_congr_left fun c hc => length_sectorComputeSites c (List.mem_range.mp hc)
  rw [length_computeSites_eq_sum, hsectors]
  decide

/-- Settles O57: a site's kind and coordinate follow from its quotient and remainder by the 16 sites of a sector; the dies of
the panel are counted sector by sector. -/
theorem siteAssignment : Obligations.SiteAssignment := by
  refine ⟨fun c i => ?_, by decide, fun c => length_sectorComputeSites c c.isLt, length_computeSites⟩
  have hg : c.val * 16 + i.val < 256 := by omega
  exact ⟨siteKind_sector_site c i.isLt, siteX_sector_site c i.isLt, siteY_sector_site c i.isLt, isCompute_iff hg⟩

end Sys2Proof.Proofs
end

section
namespace Sys2Proof.Proofs
open Sys2Proof.Machine

/-- The test of the scan: a record of the watermark that is no end-of-configuration token (R99, R110). -/
theorem shownTest_iff (w : Fin 4) (x : TokRec) :
    (x.tok.wm == w && x.tok.kind != 3) = true ↔ x.tok.wm = w ∧ x.tok.kind ≠ 3 := by
  rw [Bool.and_eq_true, beq_iff_eq, bne_iff_ne]

theorem not_shownTest_iff (w : Fin 4) (x : TokRec) :
    (!(x.tok.wm == w && x.tok.kind != 3)) = true ↔ ¬ (x.tok.wm = w ∧ x.tok.kind ≠ 3) := by
  rw [Bool.not_eq_true', ← Bool.not_eq_true, shownTest_iff]

/-- The scan of a queue stops at the first record that passes its test. -/
theorem visible_eq_some_iff (q : Queue) (w : Fin 4) (r : TokRec) :
    q.visible w = some r ↔ ∃ before after, q.toks = before ++ r :: after ∧ r.tok.wm = w ∧ r.tok.kind ≠ 3 ∧
      ∀ x ∈ before, ¬ (x.tok.wm = w ∧ x.tok.kind ≠ 3) := by
  rw [Queue.visible, List.find?_eq_some_iff_append]
  constructor
  · rintro ⟨hr, before, after, htoks, hbefore⟩
    obtain ⟨hwm, hkind⟩ := (shownTest_iff w r).mp hr
    exact ⟨before, after, htoks, hwm, hkind, fun x hx => (not_shownTest_iff w x).mp (hbefore x hx)⟩
  · rintro ⟨before, after, htoks, hwm, hkind, hbefore⟩
    exact ⟨(shownTest_iff w r).mpr ⟨hwm, hkind⟩, before, after, htoks,
      fun x hx => (not_shownTest_iff w x).mpr (hbefore x hx)⟩

theorem visible_eq_none_of_wm_ne {q : Queue} {w : Fin 4} (h : ∀ x ∈ q.toks, x.tok.wm ≠ w) : q.visible w = none := by
  rw [Queue.visible, List.find?_eq_none]
  exact fun x hx htest => h x hx ((shownTest_iff w x).mp htest).1

/-- A queue in two parts shows what its front part shows, and what its rear part shows when the front shows nothing. -/
theorem visible_append (q : Queue) (w : Fin 4) (a b : List TokRec) :
    ({ q with toks := a ++ b } : Queue).visible w =
      (({ q with toks := a } : Queue).visible w).or (({ q with toks := b } : Queue).visible w) :=
  List.find?_append

theorem visible_of_other_wm_around (q : Queue) (w : Fin 4) (a b : List TokRec) (h : ∀ x ∈ a ++ b, x.tok.wm ≠ w) :
    ({ q with toks := a ++ q.toks ++ b } : Queue).visible w = q.visible w := by
  obtain ⟨ha, hb⟩ := List.forall_mem_append.mp h
  have hfront : ({ q with toks := a } : Queue).visible w = none := visible_eq_none_of_wm_ne ha
  have hrear : ({ q with toks := b } : Queue).visible w = none := visible_eq_none_of_wm_ne hb
  rw [visible_append, visible_append, hfront, hrear, Option.none_or, Option.or_none]

/-- Settles O58: the queue is scanned in arrival order for its first token of the watermark, so what is shown splits over
the parts of a queue, and a part without that watermark shows nothing. -/
theorem visibleToken : Obligations.VisibleToken :=
  fun q w => ⟨visible_eq_some_iff q w, visible_of_other_wm_around q w⟩

end Sys2Proof.Proofs
end

section
namespace Sys2Proof.Proofs
open Sys2Proof.Machine

theorem factoryIndex_iff {ix : Nat} : factoryIndex ix = true ↔ 0xF00000 ≤ ix := by
  rw [factoryIndex, decide_eq_true_iff]
  omega

/-- Of a factory index the session's level alone decides a READ; the object directory is not asked (R317). -/
theorem readCheck_of_factoryIndex {ix : Nat} (hix : factoryIndex ix = true) (s : State) (x : Session) (sub : Nat) :
    s.readCheck x ix sub = (if x.level < 3 then stLevel else stAbsent, none) :=
  if_pos hix

/-- Of a factory index the session's level alone decides a WRITE, and no level writes one (R317). -/
theorem writeEntry_of_factoryIndex {ix : Nat} (hix : factoryIndex ix = true) (s : State) (level sub : Nat) (b : List Nat) :
    s.writeEntry level ix sub b = (if level < 3 then stLevel else stAbsent, s) :=
  if_pos hix

/-- Settles O59: both checks turn to the session's level before they look for an object, and below FACTORY it gives LEVEL. -/
theorem factoryAreasAnswerLevel : Obligations.FactoryAreasAnswerLevel := by
  intro s x ix sub b hix _ hlevel
  have hfactory : factoryIndex ix = true := factoryIndex_iff.mpr hix
  constructor
  · rw [readCheck_of_factoryIndex hfactory, if_pos hlevel]
  · rw [writeEntry_of_factoryIndex hfactory, if_pos hlevel]

end Sys2Proof.Proofs
end

section
namespace Sys2Proof.Proofs
open Sys2Proof.Machine

/-- Objects of unlike subindices are unlike, whatever their indices. -/
theorem address_ne_of_sub_ne (x y : Nat) {j k : Nat} (h : j % 256 ≠ k % 256) : x * 256 + j ≠ y * 256 + k := by
  omega

/-- Only the variant sets the defaults of other objects, and an object of a subindex other than 0 is not the variant. -/
theorem odGet_odSet_of_sub (s : State) (x v b : Nat) {j : Nat} (hj : j % 256 ≠ 0) :
    (s.odSet (x * 256 + j) v).odGet b = if x * 256 + j = b then v else s.odGet b :=
  odGet_odSet s v b (address_ne_of_sub_ne x 0x200001 hj)

/-- A steward that sets its sector's level writes the level and its limiter, and no other object (R347). -/
theorem odGet_setLevel_other (s : State) {i a : Nat} (hlevel : oPowerSectorLevel i ≠ a) (hlimiter : oPowerSectorLimiter i ≠ a) :
    (s.setLevel i).odGet a = s.odGet a := by
  have hset (lvl code : Nat) : ((s.odSet (oPowerSectorLevel i) lvl).odSet (oPowerSectorLimiter i) code).odGet a = s.odGet a := by
    rw [odGet_odSet_of_sub _ _ _ _ (by decide), if_neg hlimiter, odGet_odSet_of_sub _ _ _ _ (by decide), if_neg hlevel]
  simp only [State.setLevel]
  split <;> rw [odGet_setSector, hset]

/-- A cooling event is published as an event; no numeric object changes. -/
theorem odGet_coolingEvent (s : State) (kind cause sec ratio a : Nat) :
    (s.coolingEvent kind cause sec ratio).odGet a = s.odGet a :=
  odGet_publish24 s _ _ a

/-- The ratio after one more sample (R359, R360): the mean of the last 60 samples over the baseline, in thousandths. -/
def ratioAfter (s : State) (i sample : Nat) : Nat :=
  meanN (lastN 60 ((s.sector i).rSamples ++ [sample])) * 1000 / s.odGet (oThermalSectorBaselineMkw i)

/-- What a sample of a sector with a baseline does to an object that is neither the resistance nor a level: the sector's
state follows the ratio, the ratio is published up to 65,535, and the rest stay (R359, R360). -/
theorem odGet_resistance (s : State) {i a : Nat} (sample : Nat) (hbase : s.odGet (oThermalSectorBaselineMkw i) ≠ 0)
    (hr : oThermalSectorRMkw i ≠ a) (hderate : oThermalSectorDerateLevel i ≠ a)
    (hlevel : oPowerSectorLevel i ≠ a) (hlimiter : oPowerSectorLimiter i ≠ a) :
    (s.resistance i sample).odGet a =
      if oThermalSectorState i = a then ratioState (s.odGet (oThermalSectorState i)) (ratioAfter s i sample)
      else if oThermalSectorRatioMilli i = a then min (ratioAfter s i sample) 65535
      else s.odGet a := by
  rw [State.resistance, if_neg hbase, odGet_setLevel_other _ hlevel hlimiter]
  simp only [apply_ite (State.odGet · a), odGet_coolingEvent, ite_self]
  rw [odGet_odSet_of_sub _ _ _ _ (by decide), if_neg hderate, odGet_odSet_of_sub _ _ _ _ (by decide),
    odGet_odSet_of_sub _ _ _ _ (by decide), odGet_setSector, odGet_odSet_of_sub _ _ _ _ (by decide), if_neg hr]
  rfl

theorem odGet_resistance_ratio (s : State) {i : Nat} (sample : Nat) (hbase : s.odGet (oThermalSectorBaselineMkw i) ≠ 0) :
    (s.resistance i sample).odGet (oThermalSectorRatioMilli i) = min (ratioAfter s i sample) 65535 := by
  have hstate : oThermalSectorState i ≠ oThermalSectorRatioMilli i := address_ne_of_sub_ne _ _ (by decide)
  rw [odGet_resistance s sample hbase (address_ne_of_sub_ne _ _ (by decide)) (address_ne_of_sub_ne _ _ (by decide))
    (address_ne_of_sub_ne _ _ (by decide)) (address_ne_of_sub_ne _ _ (by decide)), if_neg hstate, if_pos rfl]

theorem odGet_resistance_state (s : State) {i : Nat} (sample : Nat) (hbase : s.odGet (oThermalSectorBaselineMkw i) ≠ 0) :
    (s.resistance i sample).odGet (oThermalSectorState i) =
      ratioState (s.odGet (oThermalSectorState i)) (ratioAfter s i sample) := by
  rw [odGet_resistance s sample hbase (address_ne_of_sub_ne _ _ (by decide)) (address_ne_of_sub_ne _ _ (by decide))
    (address_ne_of_sub_ne _ _ (by decide)) (address_ne_of_sub_ne _ _ (by decide)), if_pos rfl]

/-- The effective resistance of one second: the mean temperature of the sector's active dies above the inlet's, over the
sector's power (R359). -/
def resistanceSample (s : State) (i : Nat) : Nat :=
  let dies := (sectorDies i).filter s.dieActive
  let sum : Int := (dies.map (fun g => toSigned 32 (s.odGet (oThermalSiteTempMc g)))).foldl (· + ·) 0
  ((sum / (max dies.length 1 : Nat) - toSigned 32 (s.odGet oThermalPlateInletMc)) / (s.odGet (oPowerSectorPowerW i) : Int)).toNat

/-- A sector with a good steward and active dies that draws power, and 40 % of its cap or more, is sampled (R359). -/
theorem exec_thermalResistanceSample_of_draws (dt : Nat) (c : Fin 16) (s : State)
    (hgood : (s.tick dt).stewardGood c.val = true)
    (hdies : (sectorDies c.val).filter (s.tick dt).dieActive ≠ [])
    (hpower : (s.tick dt).odGet (oPowerSectorPowerW c.val) ≠ 0)
    (hdraw : (s.tick dt).odGet (oPowerSectorCapA c.val) * 40 ≤ (s.tick dt).odGet (oPowerSectorCurrentA c.val) * 100) :
    exec (.thermalResistanceSample dt c) s = .next ((s.tick dt).resistance c.val (resistanceSample (s.tick dt) c.val)) := by
  refine congrArg Host.Outcome.next (if_neg ?_)
  rintro (hbad | hnone | hzero | hless)
  · simp [hgood] at hbad
  · exact hdies hnone
  · exact hpower hzero
  · exact Nat.not_le.mpr hless hdraw

/-- The states of R360: each is entered at one ratio and left below a lower one. -/
theorem ratioState_eq (old ratio : Nat) :
    ratioState old ratio =
      if 1300 ≤ ratio ∨ old = 3 ∧ 1250 ≤ ratio then 3 else if 1150 ≤ ratio ∨ 2 ≤ old ∧ 1100 ≤ ratio then 2 else 1 := rfl

/-- Settles O60: a sector that draws enough is sampled, and a sample over a baseline publishes the ratio and the state that
R360's hysteresis gives for it. -/
theorem thermalRatioStates : Obligations.ThermalRatioStates := by
  intro dt c s i u dies sum mean w sample r base ratio old hgood hdies hpower hdraw hbase
  refine ⟨u.resistance i sample, exec_thermalResistanceSample_of_draws dt c s hgood hdies hpower hdraw, ?_, ?_⟩
  · exact odGet_resistance_ratio u sample hbase
  · exact (odGet_resistance_state u sample hbase).trans (ratioState_eq old ratio)

end Sys2Proof.Proofs
end

section
namespace Sys2Proof.Proofs
open Sys2Proof.Machine

-- Elaborated one after another: the lemmas below are many and short, and one thread for each does not fit the check's memory.
set_option Elab.async false

/-! What no command touches: the queue behind it, its own time, and the memory's canonical form. One lemma for each operation of
the state, in the order in which they call each other, and one for each command; each proof follows its definition, and `h.f.g`
reads as the state after `f`, then `g`. -/

/-- What every part of a command keeps: the waiting commands, the clock, and the memory's canonical form. -/
def Keeps (a s : State) : Prop :=
  s.pending = a.pending ∧ s.clk = a.clk ∧ (Memory.wf a.mem = true → Memory.wf s.mem = true)

/-- The state that an operation answers, where it answers one, keeps what `Keeps` names. -/
def KeepsOpt {α : Type} (a : State) (f : α → State) (o : Option α) : Prop := ∀ x, o = some x → Keeps a (f x)

/-- A command answers a next state, and it keeps what `Keeps` names. -/
def Answers (a : State) (r : Host.Outcome State Fault Refusal) : Prop := ∃ t, r = .next t ∧ Keeps a t

section
variable {a s t : State}

theorem Keeps.refl (s : State) : Keeps s s := ⟨rfl, rfl, id⟩

/-- An update of other fields; `upd` sees the update through the projections alone, for the state of an operation's result. -/
theorem Keeps.same (h : Keeps a s) (hp : t.pending = s.pending := by rfl) (hc : t.clk = s.clk := by rfl)
    (hm : t.mem = s.mem := by rfl) : Keeps a t :=
  ⟨hp.trans h.1, hc.trans h.2.1, fun w => hm ▸ h.2.2 w⟩

@[inherit_doc Keeps.same]
theorem Keeps.upd (h : Keeps a s) (hp : t.pending = s.pending := by with_reducible exact rfl)
    (hc : t.clk = s.clk := by with_reducible exact rfl) (hm : t.mem = s.mem := by with_reducible exact rfl) : Keeps a t :=
  h.same hp hc hm

/-- An update of the memory that keeps its canonical form. -/
theorem Keeps.store {m : List Host.Cell} (h : Keeps a s) (hm : Memory.wf s.mem = true → Memory.wf m = true) :
    Keeps a { s with mem := m } :=
  ⟨h.1, h.2.1, fun w => hm (h.2.2 w)⟩

theorem Keeps.ite {c : Prop} [Decidable c] (h : Keeps a s) (h' : Keeps a t) : Keeps a (if c then s else t) := by
  split
  · exact h
  · exact h'

theorem Keeps.foldl {β : Type} {f : State → β → State} {l : List β} (h : Keeps a s)
    (hf : ∀ t x, Keeps a t → Keeps a (f t x)) : Keeps a (l.foldl f s) :=
  foldl_keeps (Keeps a) f hf l s h

theorem Keeps.of_eq {β : Type} {p : State × β} {b : β} (h : Keeps a p.1) (e : p = (s, b)) : Keeps a s := by
  rw [e] at h
  exact h

theorem Keeps.of_eq' {β : Type} {p : β × State} {b : β} (h : Keeps a p.2) (e : p = (b, s)) : Keeps a s := by
  rw [e] at h
  exact h

theorem Keeps.iteQ {β : Type} {c : Prop} [Decidable c] {p q : β × State} (h : Keeps a p.2) (h' : Keeps a q.2) :
    Keeps a (if c then p else q).2 := by
  split
  · exact h
  · exact h'

theorem Keeps.getD {o : Option State} (h : KeepsOpt a (·) o) (h' : Keeps a s) : Keeps a (o.getD s) := by
  cases o with
  | none => exact h'
  | some x => exact h x rfl

theorem Keeps.foldlP {β γ : Type} {f : State × γ → β → State × γ} {l : List β} {p : State × γ} (h : Keeps a p.1)
    (hf : ∀ q x, Keeps a q.1 → Keeps a (f q x).1) : Keeps a (l.foldl f p).1 :=
  foldl_keeps (fun q => Keeps a q.1) f hf l p h

theorem Keeps.iteP {β : Type} {c : Prop} [Decidable c] {p q : State × β} (h : Keeps a p.1) (h' : Keeps a q.1) :
    Keeps a (if c then p else q).1 := by
  split
  · exact h
  · exact h'

variable {α β : Type} {f : α → State} {g : β → State} {o o' : Option α}

theorem KeepsOpt.none : KeepsOpt a f none := fun _ e => nomatch e

theorem KeepsOpt.some {x : α} (h : Keeps a (f x)) : KeepsOpt a f (some x) := by
  intro y e
  cases e
  exact h

theorem KeepsOpt.ite {c : Prop} [Decidable c] (h : KeepsOpt a f o) (h' : KeepsOpt a f o') : KeepsOpt a f (if c then o else o') := by
  split
  · exact h
  · exact h'

theorem KeepsOpt.map {k : α → β} (h : KeepsOpt a f o) (hk : ∀ x, Keeps a (f x) → Keeps a (g (k x))) : KeepsOpt a g (o.map k) := by
  cases o with
  | none => exact .none
  | some x => exact .some (hk x (h x rfl))

theorem KeepsOpt.map' {k : α → β} (hk : ∀ x, Keeps a (g (k x))) : KeepsOpt a g (o.map k) := by
  cases o with
  | none => exact .none
  | some x => exact .some (hk x)

theorem KeepsOpt.bind {k : α → Option β} (h : KeepsOpt a f o) (hk : ∀ x, Keeps a (f x) → KeepsOpt a g (k x)) :
    KeepsOpt a g (o.bind k) := by
  cases o with
  | none => exact .none
  | some x => exact hk x (h x rfl)

theorem KeepsOpt.bind' {k : α → Option β} (hk : ∀ x, KeepsOpt a g (k x)) : KeepsOpt a g (o.bind k) := by
  cases o with
  | none => exact .none
  | some x => exact hk x

theorem KeepsOpt.findSome {k : β → Option α} {l : List β} (hk : ∀ x, KeepsOpt a f (k x)) : KeepsOpt a f (l.findSome? k) := by
  intro y e
  obtain ⟨x, -, hx⟩ := List.exists_of_findSome?_eq_some e
  exact hk x y hx

theorem KeepsOpt.foldl {k : Option α → β → Option α} {l : List β} (h : KeepsOpt a f o)
    (hk : ∀ o x, KeepsOpt a f o → KeepsOpt a f (k o x)) : KeepsOpt a f (l.foldl k o) :=
  foldl_keeps (KeepsOpt a f) k hk l o h

variable {r r' : Host.Outcome State Fault Refusal}

theorem Answers.next (h : Keeps a s) : Answers a (.next s) := ⟨s, rfl, h⟩

theorem Answers.ite {c : Prop} [Decidable c] (h : Answers a r) (h' : Answers a r') : Answers a (if c then r else r') := by
  split
  · exact h
  · exact h'

theorem Answers.onTile {k : Nat} (h : Keeps a s) (h' : Keeps a t) : Answers a (onTile k s t) := .next (.ite h' h)
theorem Answers.onStack {g : Nat} (h : Keeps a s) (h' : Keeps a t) : Answers a (onStack g s t) := .next (.ite h' h)
theorem Answers.onDie {g : Nat} (h : Keeps a s) (h' : Keeps a t) : Answers a (onDie g s t) := .next (.ite h' h)
theorem Answers.onLink {l : Nat} (h : Keeps a s) (h' : Keeps a t) : Answers a (onLink l s t) := .next (.ite h' h)

theorem KeepsOpt.onOne {v : Nat} {o : Option State} (h : KeepsOpt a (·) o) : KeepsOpt a (·) (onOne v o) := .ite h .none

theorem Keeps.odSet {a' v} (h : Keeps a s) : Keeps a (s.odSet a' v) := h.same
theorem Keeps.publish {a' val} (h : Keeps a s) : Keeps a (s.publish a' val) := h.same
theorem Keeps.publish24 {a' b} (h : Keeps a s) : Keeps a (s.publish24 a' b) := h.publish
theorem Keeps.saturate {a'} (h : Keeps a s) : Keeps a (s.saturate a') := .ite h.publish24.upd.upd h.publish24.upd.odSet
theorem Keeps.bumpN {a' n} (h : Keeps a s) : Keeps a (s.bumpN a' n) := .ite h.odSet.saturate h.odSet
theorem Keeps.bump {a'} (h : Keeps a s) : Keeps a (s.bump a') := h.bumpN
theorem Keeps.keepViolation {e'} (h : Keeps a s) : Keeps a (s.keepViolation e') := .ite h h.same.bump
theorem Keeps.reportFault {kind ident cause} (h : Keeps a s) : Keeps a (s.reportFault kind ident cause) := .ite h h.same
theorem Keeps.setTile {k t} (h : Keeps a s) : Keeps a (s.setTile k t) := h.same
theorem Keeps.syncLane {lane ks} (h : Keeps a s) : Keeps a (s.syncLane lane ks) := h.foldl fun _ _ h => h.setTile
theorem Keeps.syncTile {slot k} (h : Keeps a s) : Keeps a (s.syncTile slot k) := h.foldl fun _ _ h => h.syncLane
theorem Keeps.sendAll {l} (h : Keeps a s) : Keeps a (s.sendAll l) := h.same

theorem Keeps.configure {slot q} (h : Keeps a s) : Keeps a (s.configure slot q) := by
  unfold State.configure
  dsimp only
  split
  · exact h
  · exact h.syncTile.sendAll

theorem Keeps.resendConfig {k} (h : Keeps a s) : Keeps a (s.resendConfig k) := by
  unfold State.resendConfig
  split
  · exact h.configure
  · exact h

theorem Keeps.bgHealth {c} (h : Keeps a s) : Keeps a (s.bgHealth c) := h.publish24
theorem Keeps.setPslot {i x} (h : Keeps a s) : Keeps a (s.setPslot i x) := h.same
theorem Keeps.stopAdapting {k} (h : Keeps a s) : Keeps a (s.stopAdapting k) := .ite h h.setPslot.odSet.bgHealth
theorem Keeps.abortLanes {ls} (h : Keeps a s) : Keeps a (s.abortLanes ls) := h.same
theorem Keeps.beginFence {lane f} (h : Keeps a s) : Keeps a (s.beginFence lane f) := .ite h.same.bump h.same.upd

theorem Keeps.nextFence {lane} (h : Keeps a s) : Keeps a (s.nextFence lane) := by
  unfold State.nextFence
  split
  · exact .ite h.same.beginFence (.ite h h.same.bump)
  · exact h

theorem Keeps.advanceLife {lane n cmds} (h : Keeps a s) : Keeps a (s.advanceLife lane n cmds) := h.same.nextFence
theorem Keeps.setLane {l x} (h : Keeps a s) : Keeps a (s.setLane l x) := h.same

theorem Keeps.abortLane {l} (h : Keeps a s) : Keeps a (s.abortLane l) := by
  unfold State.abortLane
  dsimp only
  split
  · exact .ite h.same.upd.advanceLife h.same
  · exact .ite h.same (.ite h.same.setLane.advanceLife.bump h.same.setLane.advanceLife)

theorem Keeps.setHostPort {p x} (h : Keeps a s) : Keeps a (s.setHostPort p x) := h.same
theorem Keeps.send {e'} (h : Keeps a s) : Keeps a (s.send e') := h.same

theorem Keeps.txEmit {p e'} (h : Keeps a s) : Keeps a (s.txEmit p e') := by
  unfold State.txEmit
  dsimp only
  split
  · exact h
  · split
    · exact h.setHostPort
    · split
      · exact h.send.bump
      · exact h.send

theorem Keeps.tx {p dst body} (h : Keeps a s) : Keeps a (s.tx p dst body) := h.txEmit
theorem Keeps.mirror {stream seq mtype body} (h : Keeps a s) : Keeps a (s.mirror stream seq mtype body) := .ite h.send h

theorem Keeps.sendCtl {l mtype body} (h : Keeps a s) : Keeps a (s.sendCtl l mtype body) := by
  unfold State.sendCtl
  dsimp only
  split
  · exact h
  · exact h.setLane.mirror.tx

theorem Keeps.endSummary {stream reason detail cls count rate x} (h : Keeps a s) :
    Keeps a (s.endSummary stream reason detail cls count rate x) :=
  h.publish.bump

theorem Keeps.setTerm {t} (h : Keeps a s) : Keeps a (s.setTerm t) := h.same

theorem Keeps.sendTermCtl {stream mtype body} (h : Keeps a s) : Keeps a (s.sendTermCtl stream mtype body) := by
  unfold State.sendTermCtl
  dsimp only
  split
  · exact h
  · exact h.setTerm.mirror.tx

theorem Keeps.answerAbort {stream seq} (h : Keeps a s) : Keeps a (s.answerAbort stream seq) := by
  unfold State.answerAbort
  dsimp only
  split
  · exact h
  · exact .ite h.setTerm.sendTermCtl.bump h.setTerm.sendTermCtl

theorem Keeps.sendEnd {l} (h : Keeps a s) : Keeps a (s.sendEnd l) := by
  unfold State.sendEnd
  dsimp only
  split
  · exact h
  · split
    · exact h
    · split
      · exact h
      · split
        · exact .ite h.sendCtl (.ite h h.send)
        · split
          · exact (Keeps.ite h.sendCtl (.ite h h.send)).setLane.upd.endSummary.answerAbort
          · exact (Keeps.ite h.sendCtl (.ite h h.send)).setLane.upd.endSummary

theorem Keeps.discardReel {slot l} (h : Keeps a s) : Keeps a (s.discardReel slot l) := by
  unfold State.discardReel
  split
  · exact h.setTile
  · exact h

theorem Keeps.remoteStop {l stream reason detail} (h : Keeps a s) : Keeps a (s.remoteStop l stream reason detail) := h.sendAll

theorem Keeps.terminate {l reason detail} (h : Keeps a s) : Keeps a (s.terminate l reason detail) := by
  unfold State.terminate
  dsimp only
  split
  · exact h
  · split
    · exact h
    · split
      · exact h.setLane.abortLane
      · exact h.setLane.abortLane.setLane.remoteStop.discardReel.sendEnd

theorem Keeps.furnishFault {k l cause unit tag} (h : Keeps a s) : Keeps a (s.furnishFault k l cause unit tag) := by
  unfold State.furnishFault
  split
  · exact h
  · exact h.publish24.terminate

theorem Keeps.violationAt {k e'} (h : Keeps a s) : Keeps a (s.violationAt k e') := by
  unfold State.violationAt
  dsimp only
  split
  · exact .ite h.same.reportFault h.same.resendConfig
  · split
    · exact .ite h (.ite h.stopAdapting h.same.abortLanes)
    · exact .ite h (.ite (.ite h.furnishFault.bgHealth h.furnishFault) h.setLane.abortLanes.bump)

theorem Keeps.takeNotice {n} (h : Keeps a s) : Keeps a (s.takeNotice n) := by
  unfold State.takeNotice
  extract_lets e s1
  have h1 : Keeps a s1 := by
    dsimp only [s1]
    split
    · exact h.keepViolation
    · exact h
  split
  · exact h1
  · split
    · refine .ite h1.odSet.odSet.violationAt (.ite (Keeps.reportFault ?_) h1.odSet.odSet)
      split
      · exact h1.odSet.odSet.setLane
      · exact h1.odSet.odSet
    · exact .ite h1.reportFault h1
    · exact h1

theorem Keeps.setNotices {h' l} (h : Keeps a s) : Keeps a (s.setNotices h' l) := .ite h.same h.same
theorem Keeps.takeNotices {h'} (h : Keeps a s) : Keeps a (s.takeNotices h') := h.setNotices.foldl fun _ _ h => h.takeNotice

theorem Keeps.closeEntries {slot coords wm id} (h : Keeps a s) : Keeps a (s.closeEntries slot coords wm id) := by
  unfold State.closeEntries
  split
  · exact h.sendAll
  · exact h

theorem Keeps.enterLap {slot lap} (h : Keeps a s) : Keeps a (s.enterLap slot lap) := by
  unfold State.enterLap
  dsimp only
  split
  · exact ((h.foldl fun _ _ h => h.configure).foldl fun _ _ h => h.sendAll).closeEntries.setPslot.foldl fun _ _ h => h.odSet.odSet
  · exact h

theorem Keeps.sendStart {l x q right lap} (h : Keeps a s) : Keeps a (s.sendStart l x q right lap) := h.sendAll.setPslot

theorem Keeps.nextLap {slot} (h : Keeps a s) : Keeps a (s.nextLap slot) := by
  unfold State.nextLap
  dsimp only
  refine Keeps.foldl ?_ fun _ _ h => ?_
  · exact h.enterLap
  · split
    · exact h.sendStart
    · exact h

theorem Keeps.seamSend {p kind body} (h : Keeps a s) : Keeps a (s.seamSend p kind body) :=
  .ite h (.ite h.same.send h.same.upd.send)

theorem Keeps.crossOut {i} (h : Keeps a s) : Keeps a (s.crossOut i) := by
  unfold State.crossOut
  split
  · exact h
  · refine Keeps.foldl ?_ fun _ _ h => ?_
    · exact h
    · split
      · exact h.seamSend
      · exact h

theorem Keeps.takeLap {mbox} (h : Keeps a s) : Keeps a (s.takeLap mbox) :=
  .ite h (.ite h.same.setPslot (.ite h.same.setPslot.nextLap h.same.setPslot.crossOut))

theorem Keeps.logTile {k e'} (h : Keeps a s) : Keeps a (s.logTile k e') :=
  .ite (Keeps.ite h.setTile.bump.bump h.setTile.bump).bump (.ite h.setTile.bump.bump h.setTile.bump)

theorem Keeps.badRecord {k l w} (h : Keeps a s) : Keeps a (s.badRecord k l w) := h.logTile.abortLane
theorem Keeps.sendRecord {slot stream row} (h : Keeps a s) : Keeps a (s.sendRecord slot stream row) := .ite h h.sendAll
theorem Keeps.transient {g} (h : Keeps a s) : Keeps a (s.transient g) := .ite h.bump.upd.upd h.bump.upd
theorem Keeps.contractRisk {l cause measured x} (h : Keeps a s) : Keeps a (s.contractRisk l cause measured x) := h.publish24

theorem Keeps.coverLane {l} (h : Keeps a s) : Keeps a (s.coverLane l) := by
  unfold State.coverLane
  dsimp only
  split
  · exact h
  · exact .ite h.setLane.contractRisk h.setLane

theorem Keeps.putRow {node off r} (h : Keeps a s) : Keeps a (s.putRow node off r) := h.store (wf_memWrite _ _ _)

theorem Keeps.putRows {node off l} (h : Keeps a s) : Keeps a (s.putRows node off l) := by
  induction l generalizing s off with
  | nil => exact h
  | cons r l ih => exact ih h.putRow

theorem Keeps.refreshMirrors {slot l upTo n} (h : Keeps a s) : Keeps a (s.refreshMirrors slot l upTo n) := by
  unfold State.refreshMirrors
  dsimp only
  refine Keeps.foldl ?_ fun _ _ h => ?_
  · exact h
  · split
    · exact h
    · split
      · exact h
      · exact (h.foldl fun _ _ h => h.putRows).setPslot

theorem Keeps.sample {slot p toks a'} (h : Keeps a s) : Keeps a (s.sample slot p toks a') := h.setPslot

theorem Keeps.drain {l x} (h : Keeps a s) : Keeps a (s.drain l x).2 := by
  unfold State.drain
  split
  · exact .iteQ h.setTile h
  · exact h

theorem Keeps.releaseOne {l sched} (h : Keeps a s) : Keeps a (s.releaseOne l sched).1 := by
  unfold State.releaseOne
  dsimp only
  split
  · exact h
  · exact h.drain.setLane

theorem Keeps.releaseMany {l sched n} (h : Keeps a s) : Keeps a (s.releaseMany l sched n).1 := by
  induction n generalizing s with
  | zero => exact h
  | succ n ih =>
    unfold State.releaseMany
    split
    · exact h
    · exact .iteP h (ih h.releaseOne)

theorem Keeps.flushDone {l} (h : Keeps a s) : Keeps a (s.flushDone l) := by
  unfold State.flushDone
  split
  · split
    · exact .ite h.sendEnd h
    · exact h
  · exact h

theorem Keeps.setCe {c} (h : Keeps a s) : Keeps a (s.setCe c) := h.same
theorem Keeps.ceSent {e'} (h : Keeps a s) : Keeps a (s.ceSent e') := .ite h h.setCe

theorem Keeps.sendTokens {l ts} (h : Keeps a s) : Keeps a (s.sendTokens l ts) := by
  unfold State.sendTokens
  dsimp only
  split
  · exact h
  · exact .ite h (.ite (h.foldl fun _ _ h => h.tx).ceSent (h.foldl fun _ _ h => h.tx))

theorem Keeps.releaseBulk {l} (h : Keeps a s) : Keeps a (s.releaseBulk l) := by
  unfold State.releaseBulk
  dsimp only
  split
  · exact h
  · exact .ite h.releaseMany.sendTokens.flushDone h

theorem Keeps.afterCommit {l wasPrimed} (h : Keeps a s) : Keeps a (s.afterCommit l wasPrimed) := by
  unfold State.afterCommit
  split
  · exact h
  · exact .ite h.releaseBulk (Keeps.iteP h.releaseOne h).sendTokens.flushDone

theorem Keeps.endEpoch {l x q row maxContext} (h : Keeps a s) : Keeps a (s.endEpoch l x q row maxContext) := by
  have sampled : ∀ (u : State) (c : Prop) [Decidable c] i b t n, Keeps a u → Keeps a (if c then u.sample i b t n else u) :=
    fun _ _ _ _ _ _ _ h => .ite h.sample h
  refine Keeps.afterCommit (sampled _ _ _ _ _ _ ?_)
  exact (h.setLane.coverLane.foldl fun _ _ h => h.transient).bumpN.advanceLife.refreshMirrors

theorem Keeps.takeCommit {mbox} (h : Keeps a s) : Keeps a (s.takeCommit mbox) := by
  unfold State.takeCommit
  dsimp only
  split
  · exact h
  · split
    · exact h.same
    · split
      · exact h.same
      · split
        · exact h.same
        · split
          · exact h.same
          · split
            · exact .ite h.same.badRecord h.same.endEpoch.sendRecord
            · exact h.same

theorem Keeps.takeWords {node first n} (h : Keeps a s) : Keeps a (s.takeWords node first n) := h.same

theorem Keeps.takeHubWords {h'} (h : Keeps a s) : Keeps a (s.takeHubWords h') :=
  (Keeps.ite ((h.foldl fun _ _ h => h.takeCommit).foldl fun _ _ h => h.takeLap) h).foldl fun _ _ h => h.takeWords

theorem Keeps.sampleBells {node} (h : Keeps a s) : Keeps a (s.sampleBells node) := by
  unfold State.sampleBells
  split
  · exact h.odSet
  · exact h

theorem Keeps.stallAgain {l} (h : Keeps a s) : Keeps a (s.stallAgain l) := by
  unfold State.stallAgain
  split
  · exact h
  · split
    · exact .ite h.furnishFault h
    · exact h

theorem Keeps.allocate {i n owner} (h : Keeps a s) : KeepsOpt a (·.2) (s.allocate i n owner) := .map' fun _ => h.same
theorem Keeps.groupEvent {g kind member target} (h : Keeps a s) : Keeps a (s.groupEvent g kind member target) := h.publish24
theorem Keeps.setPgroup {g x} (h : Keeps a s) : Keeps a (s.setPgroup g x) := h.same

theorem Keeps.startRebuild {g m} (h : Keeps a s) : Keeps a (s.startRebuild g m) := by
  unfold State.startRebuild
  dsimp only
  split
  · exact h
  · split
    · exact h
    · rename_i e
      exact (h.allocate _ e).setPgroup.groupEvent

theorem Keeps.retryGroup {g} (h : Keeps a s) : Keeps a (s.retryGroup g) := .ite h (h.setPgroup.foldl fun _ _ h => h.startRebuild)

theorem Keeps.drainReads (h : Keeps a s) : Keeps a s.drainReads := by
  unfold State.drainReads
  dsimp only
  refine Keeps.foldl ?_ fun _ _ h => ?_
  · exact h
  · split
    · exact h
    · exact h.same.foldl fun _ _ h => h.seamSend

theorem Keeps.seamCtl {p kind body} (h : Keeps a s) : Keeps a (s.seamCtl p kind body) := .ite h h.send
theorem Keeps.tellReleased {x} (h : Keeps a s) : Keeps a (s.tellReleased x) := .ite h (h.foldl fun _ _ h => h.seamCtl)

theorem Keeps.popReel {l index n} (h : Keeps a s) : Keeps a (s.popReel l index n).1 := by
  induction n generalizing s with
  | zero => exact h
  | succ n ih =>
    have done : ∀ u : State, Keeps a u → Keeps a (match u.lane l with
        | some y => ((u.setLane l { y with sent := [], acked := y.released }).tellReleased y).flushDone l
        | none => u) := by
      intro u hu
      split
      · exact hu.setLane.tellReleased.flushDone
      · exact hu
    unfold State.popReel
    split
    · exact h
    · exact .iteP h (.iteP (done _ h.releaseOne) (ih (done _ h.releaseOne)))

theorem Keeps.settleSwitch {k} (h : Keeps a s) : Keeps a (s.settleSwitch k) := by
  unfold State.settleSwitch
  dsimp only
  split
  · exact .ite h.same h
  · exact h

theorem Keeps.takeToken {k x index token} (h : Keeps a s) : Keeps a (s.takeToken k x index token) :=
  .ite h h.setLane.settleSwitch.afterCommit

theorem Keeps.carriedEnd {k reason detail} (h : Keeps a s) : Keeps a (s.carriedEnd k reason detail) := by
  unfold State.carriedEnd
  split
  · exact h
  · exact .ite h (.ite h.setLane.flushDone h.terminate)

theorem Keeps.crossLocal {k} (h : Keeps a s) : Keeps a (s.crossLocal k) := by
  unfold State.crossLocal
  split
  · exact h
  · split
    · exact h
    · extract_lets gone
      split
      · split
        · exact h.terminate
        · exact h
      · split
        · exact h
        · split
          · rename_i e
            have h1 := h.popReel.of_eq e
            split
            · split
              · exact h1.takeToken.carriedEnd
              · exact h1.takeToken
            · exact h1.takeToken
          · rename_i e
            exact h.popReel.of_eq e

theorem Keeps.carry (h : Keeps a s) : Keeps a s.carry := .ite h (h.foldl fun _ _ h => h.crossLocal).drainReads

theorem Keeps.heartbeats (h : Keeps a s) : Keeps a s.heartbeats := by
  unfold State.heartbeats
  dsimp only
  have h1 : ∀ c, Keeps a (if s.cas.beatAt + 10000 ≤ c then
      (List.range 8).foldl (fun s p => (s.bundle p).foldl (fun s q => s.seamCtl p 1 (q :: s.beatBody)) s) { s with cas.beatAt := s.clk }
      else s) := fun _ => .ite (h.same.foldl fun _ _ h => h.foldl fun _ _ h => h.seamCtl) h
  exact .ite h (.ite ((h1 _).upd.foldl fun _ _ h => h.seamCtl) (h1 _))

theorem Keeps.dirClear {i lane} (h : Keeps a s) : Keeps a (s.dirClear i lane) := h.same
theorem Keeps.freeDataOf {f} (h : Keeps a s) : Keeps a (s.freeDataOf f) := h.same
theorem Keeps.freeLaneData {lane} (h : Keeps a s) : Keeps a (s.freeLaneData lane) := h.freeDataOf

theorem Keeps.freeLane {l} (h : Keeps a s) : Keeps a (s.freeLane l) := by
  unfold State.freeLane
  dsimp only
  split
  · exact h
  · exact .ite (.ite h.same h) (.ite (h.freeLaneData.foldl fun _ _ h => h.dirClear).upd h)

theorem Keeps.reap (h : Keeps a s) : Keeps a s.reap := h.foldl fun _ _ h => h.freeLane
theorem Keeps.coverAll (h : Keeps a s) : Keeps a s.coverAll := h.foldl fun _ _ h => h.coverLane
theorem Keeps.writeMail {node mbox word} (h : Keeps a s) : Keeps a (s.writeMail node mbox word) := .ite h.same h.bump.upd
theorem Keeps.retryMail (h : Keeps a s) : Keeps a s.retryMail := h.same.foldl fun _ _ h => .ite h.same h.writeMail

theorem Keeps.serveTurn (h : Keeps a s) : Keeps a s.serveTurn :=
  (((h.foldl fun _ _ h => h.stallAgain).foldl fun _ _ h => h.nextFence).foldl fun _ _ h => h.retryGroup).retryMail.coverAll.reap.heartbeats.carry

theorem Keeps.setDev {v} (h : Keeps a s) : Keeps a (s.setDev v) := .ite h h.odSet.odSet

theorem Keeps.evaluate (h : Keeps a s) : Keeps a s.evaluate :=
  .ite (Keeps.ite h.setDev h).odSet.odSet (Keeps.ite h.setDev h).odSet.odSet.publish24

theorem Keeps.setSession {x} (h : Keeps a s) : Keeps a (s.setSession x) := h.same
theorem Keeps.eopOut {port dst b} (h : Keeps a s) : Keeps a (s.eopOut port dst b) := .ite h.send h.txEmit

theorem Keeps.eopSend {port dst kind session seq msg} (h : Keeps a s) : Keeps a (s.eopSend port dst kind session seq msg) :=
  h.foldl fun _ _ h => h.eopOut

theorem Keeps.sendSec {id pt} (h : Keeps a s) : Keeps a (s.sendSec id pt) := by
  unfold State.sendSec
  dsimp only
  split
  · exact h
  · exact h.setSession.eopSend

theorem Keeps.deliverSub {id num} (h : Keeps a s) : Keeps a (s.deliverSub id num) := by
  unfold State.deliverSub
  dsimp only
  split
  · exact h
  · split
    · exact h
    · exact h.setSession.foldl fun _ _ h => h.sendSec

theorem Keeps.deliverEvents (h : Keeps a s) : Keeps a s.deliverEvents := .ite h (h.foldl fun _ _ h => h.deliverSub)
theorem Keeps.holdAll (h : Keeps a s) : Keeps a s.holdAll := (h.foldl fun _ _ h => .ite h.setTile h).odSet
theorem Keeps.putBytes {node off b} (h : Keeps a s) : Keeps a (s.putBytes node off b) := h.store (wf_memWrite _ _ _)
theorem Keeps.putDump {d b} (h : Keeps a s) : Keeps a (s.putDump d b) := .ite h.putBytes h
theorem Keeps.beginScan (h : Keeps a s) : Keeps a s.beginScan := h.same.putDump.putDump.odSet

theorem Keeps.scanOne {k} (h : Keeps a s) : Keeps a (s.scanOne k) := by
  have marked : ∀ u : State, ∀ m, Keeps a u → Keeps a { u with dump.status := m } := fun _ _ h => h.same
  have h1 : Keeps a { s with dump.scans := s.dump.scans.tail } := h.same
  exact .ite (marked _ _ h1) (marked _ _ h1.putDump.odSet)

theorem Keeps.saveOne {k} (h : Keeps a s) : Keeps a (s.saveOne k) := (Keeps.ite h.same.putDump h.same).odSet

theorem Keeps.scanSome {n} (h : Keeps a s) : Keeps a (s.scanSome n) := by
  induction n generalizing s with
  | zero => exact h
  | succ n ih =>
    have scans : ∀ u, Keeps a u → Keeps a (match u.dump.scans with | k :: _ => u.scanOne k | [] => u) := by
      intro u hu
      split
      · exact hu.scanOne
      · exact hu
    have saves : ∀ u, Keeps a u → Keeps a (match u.dump.saves with | k :: _ => u.saveOne k | [] => u) := by
      intro u hu
      split
      · exact hu.saveOne
      · exact hu
    exact ih (saves _ (scans _ h))

theorem Keeps.endSection {kind status pieces} (h : Keeps a s) : Keeps a (s.endSection kind status pieces) := h.same.putDump
theorem Keeps.closeSection {status kind} (h : Keeps a s) : Keeps a (s.closeSection status kind) := .ite h h.endSection

theorem Keeps.putImages {kind span} (h : Keeps a s) : Keeps a (s.putImages kind span) := by
  unfold State.putImages
  refine Keeps.foldl ?_ fun _ _ h => ?_
  · exact h
  · split
    · exact h.putDump
    · exact h

theorem Keeps.finishHeader {flag} (h : Keeps a s) : Keeps a (s.finishHeader flag) := h.putDump.closeSection.putDump
theorem Keeps.dumpEvent {kind cause} (h : Keeps a s) : Keeps a (s.dumpEvent kind cause) := h.publish24
theorem Keeps.idleTile {k} (h : Keeps a s) : Keeps a (s.idleTile k) := h.setTile
theorem Keeps.idleAll (h : Keeps a s) : Keeps a s.idleAll := h.foldl fun _ _ h => h.idleTile

theorem Keeps.dumpStep {work} (h : Keeps a s) : Keeps a (s.dumpStep work) := by
  unfold State.dumpStep
  dsimp only
  split
  · exact h
  · split
    · exact h.holdAll
    · exact h.beginScan
    · exact .ite h.scanSome (.ite h.scanSome.odSet (h.scanSome.putDump.foldl fun _ _ h => h.closeSection).odSet)
    · exact .ite h.scanSome (.ite h.scanSome.odSet (h.scanSome.putDump.foldl fun _ _ h => h.closeSection).odSet)
    · exact h.putImages.closeSection.odSet
    · exact (h.putImages.putImages.putImages.foldl fun _ _ h => h.closeSection).odSet
    · exact h.finishHeader.odSet
    · exact h.idleAll.odSet.dumpEvent

theorem Keeps.attestNow (h : Keeps a s) : Keeps a s.attestNow := by
  unfold State.attestNow
  dsimp only
  split
  · exact h.same.odSet.bump
  · exact h

theorem Keeps.hubTurn {h' work} (h : Keeps a s) : Keeps a (s.hubTurn h' work) := by
  unfold State.hubTurn
  extract_lets s1 s2
  have h1 : Keeps a s1 := h.sampleBells.takeHubWords.takeNotices
  have h2 : Keeps a s2 := .ite h1.serveTurn (.ite h1.retryMail.reap.heartbeats.carry h1)
  exact .ite h (.ite h1 h2.attestNow.dumpStep.deliverEvents.evaluate)

theorem execHubDispatchPoint_answers {dt hub work} (h : Keeps a (s.tick dt)) : Answers a (execHubDispatchPoint dt hub work s) :=
  .next h.hubTurn

theorem Keeps.setSector {i x} (h : Keeps a s) : Keeps a (s.setSector i x) := h.same

theorem Keeps.setLevel {i} (h : Keeps a s) : Keeps a (s.setLevel i) := by
  unfold State.setLevel
  dsimp only
  split
  · exact h.odSet.odSet.setSector
  · exact h.odSet.odSet.setSector

theorem Keeps.wakeTile {k} (h : Keeps a s) : Keeps a (s.wakeTile k) := h.same.setTile

theorem Keeps.wakeNow {i ks} (h : Keeps a s) : Keeps a (s.wakeNow i ks) :=
  .ite (h.foldl fun _ _ h => h.wakeTile) (h.foldl fun _ _ h => h.wakeTile).setSector

theorem Keeps.serveWakes {i n} (h : Keeps a s) : Keeps a (s.serveWakes i n) := by
  induction n generalizing s with
  | zero => exact h
  | succ n ih =>
    unfold State.serveWakes
    dsimp only
    split
    · exact h
    · exact .ite h (.ite (ih h.bump.wakeNow.setSector) h.bump.setSector.bump.bump.setLevel)

theorem Keeps.stewardTurn {i} (h : Keeps a s) : Keeps a (s.stewardTurn i) := .ite h h.sampleBells.takeWords.setLevel.serveWakes

theorem execStewardDispatchPoint_answers {dt sec} (h : Keeps a (s.tick dt)) : Answers a (execStewardDispatchPoint dt sec s) :=
  .next h.stewardTurn

theorem Keeps.bumpTxn (h : Keeps a s) : Keeps a s.bumpTxn := h.same
theorem Keeps.sendNotice {node e'} (h : Keeps a s) : Keeps a (s.sendNotice node e') := h.bumpTxn.upd.send

theorem execTileSequencerDispatch_answers {dt tile} (h : Keeps a (s.tick dt)) : Answers a (execTileSequencerDispatch dt tile s) :=
  .onTile h (h.setTile.foldl fun _ _ h => h.sendNotice)

theorem Keeps.wakeFor {k} (h : Keeps a s) : Keeps a (s.wakeFor k) := .ite h h.same

theorem Keeps.takeConfig {k q tok src} (h : Keeps a s) : Keeps a (s.takeConfig k q tok src) := by
  unfold State.takeConfig
  dsimp only
  split
  · exact (Keeps.ite h.setTile h).logTile
  · exact .ite h.setTile h.logTile

theorem Keeps.setTag {tile row full} (h : Keeps a s) : Keeps a (s.setTag tile row full) := h.same

theorem Keeps.setTags {tile row full n} (h : Keeps a s) : Keeps a (s.setTags tile row full n) := by
  induction n generalizing s row with
  | zero => exact h
  | succ n ih => exact ih h.setTag

theorem Keeps.emptyRows {k r i first n} (h : Keeps a s) : Keeps a (s.emptyRows k r i first n) := .ite h.setTags h

theorem Keeps.pumpRead {k i} (h : Keeps a s) : Keeps a (s.pumpRead k i) := by
  unfold State.pumpRead
  dsimp only
  split
  · exact h
  · exact .ite h.setTile.emptyRows h.setTile

theorem Keeps.pumpReads {k} (h : Keeps a s) : Keeps a (s.pumpReads k) := h.foldl fun _ _ h => h.pumpRead
theorem Keeps.releaseAt {src tok} (h : Keeps a s) : Keeps a (s.releaseAt src tok) := .ite h.setTile.pumpReads h
theorem Keeps.countDead {k n} (h : Keeps a s) : Keeps a (s.countDead k n) := h.bumpN.bumpN

theorem Keeps.sendError {node dst txn srcSlot e' tags} (h : Keeps a s) : Keeps a (s.sendError node dst txn srcSlot e' tags) :=
  h.send.bump

theorem Keeps.arrivalViolation {k q tok src cause} (h : Keeps a s) : Keeps a (s.arrivalViolation k q tok src cause) := by
  unfold State.arrivalViolation
  dsimp only
  refine Keeps.logTile ?_
  refine Keeps.sendError ?_
  split
  · exact h.setTile
  · exact h

theorem Keeps.enqueue {k q tok src} (h : Keeps a s) : Keeps a (s.enqueue k q tok src) := h.setTile

theorem Keeps.arrive {k q tok src} (h : Keeps a s) : Keeps a (s.arrive k q tok src) := by
  unfold State.arrive
  split
  · exact h
  · split
    · exact .ite h.wakeFor h
    · exact h.releaseAt.countDead
    · exact h.releaseAt.arrivalViolation
    · exact h.releaseAt.enqueue

theorem Keeps.arriveAny {k q tok src} (h : Keeps a s) : Keeps a (s.arriveAny k q tok src) :=
  .ite (.ite h (.ite h.wakeFor h.releaseAt.takeConfig)) h.arrive

theorem execConfigTokenArrival_answers {dt tile q payload wm src} (h : Keeps a (s.tick dt)) :
    Answers a (execConfigTokenArrival dt tile q payload wm src s) :=
  .onTile h h.arriveAny

theorem execTokenArrival_answers {dt tile q tok src} (h : Keeps a (s.tick dt)) : Answers a (execTokenArrival dt tile q tok src s) :=
  .onTile h h.arriveAny

theorem execMatchingStoreMove_answers {dt tile slot input} (h : Keeps a (s.tick dt)) :
    Answers a (execMatchingStoreMove dt tile slot input s) := by
  unfold execMatchingStoreMove
  dsimp only
  refine .onTile h ?_
  split
  · exact h
  · split
    · exact h
    · exact .ite h (.ite h.setTile (.ite h h.setTile.bump))

theorem Keeps.errorFire {k i l err} (h : Keeps a s) : Keeps a (s.errorFire k i l err) := h.setTile.bump

theorem Keeps.violateTok {k i q r cause address detail} (h : Keeps a s) : Keeps a (s.violateTok k i q r cause address detail) :=
  h.setTile.sendError.logTile

theorem Keeps.violateAt {k i l n r cause address detail} (h : Keeps a s) : Keeps a (s.violateAt k i l n r cause address detail) :=
  h.setTile.bump.violateTok

theorem Keeps.violate {k i l cause address detail} (h : Keeps a s) : Keeps a (s.violate k i l cause address detail) := by
  unfold State.violate
  split
  · exact h
  · exact h.violateAt

theorem execMatrixGroupFire_answers {dt tile slot} (h : Keeps a (s.tick dt)) : Answers a (execMatrixGroupFire dt tile slot s) := by
  unfold execMatrixGroupFire
  dsimp only
  refine .onTile h ?_
  split
  · split
    · split
      · exact h.setTile.errorFire
      · split
        · exact h.setTile.violate
        · split
          · exact h.setTile.violate
          · exact h.setTile.bump
    · exact h
  · exact h

theorem Keeps.tagWait {k} (h : Keeps a s) : Keeps a (s.tagWait k) := h.bump
theorem Keeps.arith {k n c} (h : Keeps a s) : Keeps a (s.arith k n c) := h.bumpN.bumpN

theorem Keeps.releaseRuns {k i l} (h : Keeps a s) : Keeps a (s.releaseRuns k i l) := by
  unfold State.releaseRuns
  refine Keeps.foldl ?_ fun _ _ h => ?_
  · exact h
  · refine Keeps.foldl ?_ fun _ _ h => ?_
    · exact h
    · split
      · exact h.emptyRows
      · exact h

theorem Keeps.addBlock {k i m d} (h : Keeps a s) : Keeps a (s.addBlock k i m d) :=
  (Keeps.ite h.setTile.bumpN.arith h.setTile.bumpN).releaseRuns

theorem Keeps.runBlocks {k i d n} (h : Keeps a s) : Keeps a (s.runBlocks k i d n) := by
  induction n generalizing s with
  | zero => exact h
  | succ n ih =>
    unfold State.runBlocks
    split
    · exact h
    · exact .ite h (.ite (.ite h h.setTile.tagWait) (ih h.addBlock))

theorem Keeps.noteConv {k l} (h : Keeps a s) : Keeps a (s.noteConv k l) := h.arith.arith.arith
theorem Keeps.emitResult {k i m d} (h : Keeps a s) : Keeps a (s.emitResult k i m d) := h.setTile.noteConv.releaseRuns

theorem Keeps.arbitrate {k user rows contests} (h : Keeps a s) : Keeps a (s.arbitrate k user rows contests).1 :=
  .ite h h.setTile.bumpN

theorem Keeps.granted {k user rows contests act} (h : Keeps a s) (hact : ∀ t, Keeps a t → Keeps a (act t)) :
    Keeps a (s.granted k user rows contests act) :=
  .ite (hact _ h.arbitrate) h.arbitrate

theorem execMatrixEmit_answers {dt tile firing} (h : Keeps a (s.tick dt)) : Answers a (execMatrixEmit dt tile firing s) := by
  unfold execMatrixEmit
  dsimp only
  refine .onTile h ?_
  split
  · exact h
  · split
    · exact h
    · split
      · exact h.setTile.violateTok
      · split
        · split
          · exact .ite h.setTile.runBlocks.emitResult h.setTile.runBlocks
          · exact h.setTile.runBlocks
        · refine h.setTile.granted fun _ h => ?_
          split
          · exact .ite h.runBlocks.emitResult h.runBlocks
          · exact h.runBlocks

theorem Keeps.slotWait {k i trig} (h : Keeps a s) : Keeps a (s.slotWait k i trig) := .ite h h.setTile.tagWait

theorem Keeps.vectorFire {k i t l} (h : Keeps a s) : Keeps a (s.vectorFire k i t l) :=
  h.setTile.bump.bumpN.arith.arith.noteConv.arith.arith

theorem execVectorFire_answers {dt tile firing} (h : Keeps a (s.tick dt)) : Answers a (execVectorFire dt tile firing s) := by
  unfold execVectorFire
  dsimp only
  refine .onTile h ?_
  split
  · split
    · exact h
    · split
      · exact h.setTile.errorFire
      · split
        · exact h.setTile.violateAt
        · exact h.setTile.violate
        · exact .ite h (.ite h.slotWait (h.granted fun _ h => h.vectorFire))
  · exact h

theorem Keeps.endFire {k i l toks} (h : Keeps a s) : Keeps a (s.endFire k i l toks) := h.setTile.bump

theorem execScratchpadReadFire_answers {dt tile slot contests} (h : Keeps a (s.tick dt)) :
    Answers a (execScratchpadReadFire dt tile slot contests s) := by
  unfold execScratchpadReadFire
  dsimp only
  refine .onTile h ?_
  split
  · exact h
  · split
    · exact h.setTile.errorFire
    · split
      · exact h.setTile.violate
      · exact h.slotWait
      · exact .ite (h.granted fun _ h => h.setTile.endFire.setTile.pumpRead) h.slotWait

theorem Keeps.fillRows {k r first n} (h : Keeps a s) : Keeps a (s.fillRows k r first n) := .ite h.setTags h

theorem Keeps.hazard {k e' writer row producer} (h : Keeps a s) : Keeps a (s.hazard k e' writer row producer) :=
  .ite h.bump.bump.setTile.publish24 h.bump.bump

theorem execScratchpadWriteFire_answers {dt tile slot contests} (h : Keeps a (s.tick dt)) :
    Answers a (execScratchpadWriteFire dt tile slot contests s) := by
  have fired : ∀ (u : State) (c : Prop) [Decidable c] e row l toks, Keeps a u →
      Keeps a ((if c then u.hazard tile e slot.val row 0 else u).endFire tile slot.val l toks) :=
    fun _ _ _ _ _ _ _ h => (Keeps.ite h.hazard h).endFire
  unfold execScratchpadWriteFire
  dsimp only
  refine .onTile h ?_
  split
  · exact h
  · split
    · exact h.setTile.errorFire
    · split
      · exact h.setTile.violate
      · exact h.slotWait
      · exact .ite h.slotWait (h.granted fun _ h => .ite (fired _ _ _ _ _ _ h.setTile.putRow.fillRows).setTile.bumpN
          (fired _ _ _ _ _ _ h.setTile.putRow.fillRows).setTile)

theorem Keeps.sideDone {k i first n write} (h : Keeps a s) : Keeps a (s.sideDone k i first n write) := by
  unfold State.sideDone
  dsimp only
  refine Keeps.foldl ?_ fun _ _ h => ?_
  · exact h
  · split
    · exact .ite (.ite h.fillRows.hazard h.fillRows) h.emptyRows
    · exact h

theorem Keeps.dmaLocal {k i l d reg first brow n} (h : Keeps a s) : Keeps a (s.dmaLocal k i l d reg first brow n) :=
  .ite h.putRows.endFire.setTile.sideDone.fillRows h.putRows.endFire.setTile.emptyRows.sideDone

theorem Keeps.cmdDone {k} (h : Keeps a s) : Keeps a (s.cmdDone k) := h.setTile.bump
theorem Keeps.cmdRefused {k} (h : Keeps a s) : Keeps a (s.cmdRefused k) := h.setTile
theorem Keeps.rollbackRegion {k e'} (h : Keeps a s) : Keeps a (s.rollbackRegion k e') := .ite h.setTile.bump.cmdDone h.cmdRefused
theorem Keeps.flushRollbacks {k} (h : Keeps a s) : Keeps a (s.flushRollbacks k) := h.setTile.foldl fun _ _ h => h.rollbackRegion

theorem Keeps.finishBusy {k i n err} (h : Keeps a s) : Keeps a (s.finishBusy k i n err) := by
  unfold State.finishBusy
  dsimp only
  split
  · exact h
  · exact .ite h.setTile.countDead.flushRollbacks h.setTile.flushRollbacks

theorem Keeps.memAcked {k i b} (h : Keeps a s) : Keeps a (s.memAcked k i b) := by
  unfold State.memAcked
  dsimp only
  refine Keeps.finishBusy ?_
  split
  · exact h.setTile
  · exact h.setTile.emptyRows

theorem execDmaFire_answers {dt tile slot contests} (h : Keeps a (s.tick dt)) : Answers a (execDmaFire dt tile slot contests s) := by
  unfold execDmaFire
  dsimp only
  refine .onTile h ?_
  split
  · exact h
  · split
    · exact h.setTile.errorFire
    · split
      · exact h.setTile.violate
      · split
        · exact h.setTile.violate
        · split
          · exact h.setTile.violate
          · split
            · exact h.setTile.violate
            · exact h.slotWait
            · exact .ite (.ite h.slotWait (h.granted fun _ h => h.setTile.dmaLocal))
                (.ite h.slotWait (h.granted fun _ h => .ite h.setTile.endFire.setTile.send.bumpTxn.memAcked h.setTile.endFire.setTile.send.bumpTxn))

theorem execPageGatherFire_answers {dt tile slot} (h : Keeps a (s.tick dt)) : Answers a (execPageGatherFire dt tile slot s) := by
  unfold execPageGatherFire
  dsimp only
  refine .onTile h ?_
  split
  · exact h
  · split
    · exact h.setTile.errorFire
    · split
      · exact h.setTile.violate
      · exact .ite h.setTile.violate (.ite h.slotWait h.setTile.endFire.setTile.send.bumpTxn)

theorem Keeps.steer {k i kind route} (h : Keeps a s) : Keeps a (s.steer k i kind route) := by
  unfold State.steer
  dsimp only
  split
  · exact h
  · split
    · exact h.setTile.errorFire
    · exact h.setTile.setTile.bump

theorem execSwitchFire_answers {dt tile slot} (h : Keeps a (s.tick dt)) : Answers a (execSwitchFire dt tile slot s) :=
  .onTile h h.steer

theorem execMergeFire_answers {dt tile slot} (h : Keeps a (s.tick dt)) : Answers a (execMergeFire dt tile slot s) :=
  .onTile h h.steer

theorem execGateFire_answers {dt tile slot} (h : Keeps a (s.tick dt)) : Answers a (execGateFire dt tile slot s) :=
  .onTile h h.steer

theorem execSplitFire_answers {dt tile slot} (h : Keeps a (s.tick dt)) : Answers a (execSplitFire dt tile slot s) :=
  .onTile h h.steer

theorem execJoinFire_answers {dt tile slot} (h : Keeps a (s.tick dt)) : Answers a (execJoinFire dt tile slot s) :=
  .onTile h h.steer

theorem execInboundMailboxFire_answers {dt tile slot} (h : Keeps a (s.tick dt)) : Answers a (execInboundMailboxFire dt tile slot s) := by
  unfold execInboundMailboxFire
  dsimp only
  refine .onTile h ?_
  split
  · split
    · exact h
    · exact h.setTile.upd.bump
  · exact h

theorem Keeps.mboxSend {k i r tgt} (h : Keeps a s) : Keeps a (s.mboxSend k i r tgt) := by
  unfold State.mboxSend
  dsimp only
  split
  · exact h.send
  · exact h.send
  · exact h

theorem execOutboundMailboxFire_answers {dt tile slot} (h : Keeps a (s.tick dt)) : Answers a (execOutboundMailboxFire dt tile slot s) := by
  unfold execOutboundMailboxFire
  dsimp only
  refine .onTile h ?_
  split
  · exact h
  · split
    · exact h.setTile.errorFire
    · split
      · exact h.setTile.violate
      · exact h.setTile.bump.mboxSend
    · exact h

theorem execMailboxRetry_answers {dt tile slot} (h : Keeps a (s.tick dt)) : Answers a (execMailboxRetry dt tile slot s) := by
  unfold execMailboxRetry
  dsimp only
  refine .onTile h ?_
  split
  · exact .ite h.setTile.mboxSend h
  · exact h

theorem execErrorTokenFire_answers {dt tile slot} (h : Keeps a (s.tick dt)) : Answers a (execErrorTokenFire dt tile slot s) := by
  unfold execErrorTokenFire
  dsimp only
  refine .onTile h ?_
  split
  · split
    · split
      · exact h.setTile.errorFire
      · exact h
    · exact h
  · exact h

theorem execStallDetected_answers {dt tile slot} (h : Keeps a (s.tick dt)) : Answers a (execStallDetected dt tile slot s) := by
  unfold execStallDetected
  dsimp only
  refine .onTile h ?_
  split
  · exact .ite h.setTile.bump.bump.publish h
  · exact h

theorem Keeps.switchSlot {k i d eocs} (h : Keeps a s) : Keeps a (s.switchSlot k i d eocs) := h.setTile.bumpN.bumpN.bump

theorem execSlotSwitch_answers {dt tile slot} (h : Keeps a (s.tick dt)) : Answers a (execSlotSwitch dt tile slot s) := by
  unfold execSlotSwitch
  dsimp only
  refine .onTile h ?_
  split
  · exact h
  · split
    · exact h
    · split
      · split
        · exact h.setTile.sendError.logTile
        · exact h.switchSlot
      · exact h.switchSlot

theorem Keeps.purgeDead {k} (h : Keeps a s) : Keeps a (s.purgeDead k) := h.setTile.countDead.pumpReads

theorem Keeps.commitRegion {k e' pos} (h : Keeps a s) : Keeps a (s.commitRegion k e' pos) :=
  .ite h.setTile.bump.cmdDone h.cmdRefused

theorem Keeps.rollbackOrWait {k e'} (h : Keeps a s) : Keeps a (s.rollbackOrWait k e') := .ite h.setTile h.rollbackRegion

theorem Keeps.applyFence {k lane f} (h : Keeps a s) : Keeps a (s.applyFence k lane f) :=
  (h.setTile.purgeDead.foldl fun _ _ h => h.commitRegion).foldl fun _ _ h => h.rollbackOrWait

theorem execFenceApply_answers {dt tile lane} (h : Keeps a (s.tick dt)) : Answers a (execFenceApply dt tile lane s) := by
  unfold execFenceApply
  dsimp only
  refine .onTile h ?_
  split
  · exact .ite h.same.applyFence h
  · exact h

theorem Keeps.fenceAcked {k lane} (h : Keeps a s) : Keeps a (s.fenceAcked k lane) := by
  unfold State.fenceAcked
  dsimp only
  split
  · exact h
  · exact .ite h.same.bump.nextFence h.same

theorem execFenceAck_answers {dt tile lane} (h : Keeps a (s.tick dt)) : Answers a (execFenceAck dt tile lane s) :=
  .onTile h (.ite h.setTile.fenceAcked h)

theorem execEpochEnd_answers {dt mbox} (h : Keeps a (s.tick dt)) : Answers a (execEpochEnd dt mbox s) :=
  .next (.ite h.takeCommit h)

theorem Keeps.openLap {slot} (h : Keeps a s) : Keeps a (s.openLap slot) := .ite h h.setPslot.enterLap
theorem Keeps.issue {l x q right} (h : Keeps a s) : Keeps a (s.issue l x q right) := h.openLap.setLane.sendStart
theorem Keeps.replayAdapt {i} (h : Keeps a s) : Keeps a (s.replayAdapt i) := .ite h.setPslot.sendAll h

theorem Keeps.tryReplay {l} (h : Keeps a s) : Keeps a (s.tryReplay l) := by
  unfold State.tryReplay
  split
  · split
    · exact .ite h.issue h
    · exact h
  · exact .ite (h.foldl fun _ _ h => h.replayAdapt) h

theorem Keeps.abortNotice {l} (h : Keeps a s) : Keeps a (s.abortNotice l) := by
  unfold State.abortNotice
  split
  · exact .ite h h.sendAll
  · exact h

theorem execEpochAbort_answers {dt lane} (h : Keeps a (s.tick dt)) : Answers a (execEpochAbort dt lane s) :=
  .next (Keeps.ite h.abortNotice.abortLane h).tryReplay

theorem execPassIssue_answers {dt lane} (h : Keeps a (s.tick dt)) : Answers a (execPassIssue dt lane s) := by
  unfold execPassIssue
  dsimp only
  refine .next ?_
  split
  · exact .ite h.tryReplay (.ite h.issue h)
  · exact h

theorem execRunaheadIssue_answers {dt lane} (h : Keeps a (s.tick dt)) : Answers a (execRunaheadIssue dt lane s) := by
  unfold execRunaheadIssue
  dsimp only
  refine .next ?_
  split
  · split
    · exact .ite h.setLane.sendAll h
    · exact h
  · exact h

theorem execTileHold_answers {dt tile} (h : Keeps a (s.tick dt)) : Answers a (execTileHold dt tile s) :=
  .onTile h (.ite h.setTile h)

theorem execTileRun_answers {dt tile} (h : Keeps a (s.tick dt)) : Answers a (execTileRun dt tile s) :=
  .onTile h (.ite h.setTile h)

theorem Keeps.setGroupEnt {i g e'} (h : Keeps a s) : Keeps a (s.setGroupEnt i g e') := h.same

theorem Keeps.slabWrite {i off g e' r} (h : Keeps a s) : Keeps a (s.slabWrite i off g e' r) := by
  unfold State.slabWrite
  extract_lets node old s1 tgt j sq d
  have h1 : Keeps a s1 := h.putRow
  exact .ite h1 h1.setGroupEnt.send

theorem Keeps.stackWriteRow {i off r} (h : Keeps a s) : Keeps a (s.stackWriteRow i off r) := by
  unfold State.stackWriteRow
  split
  · exact .ite h.slabWrite h
  · exact h.putRow

theorem Keeps.stackWriteRows {i off l} (h : Keeps a s) : Keeps a (s.stackWriteRows i off l) := by
  induction l generalizing s off with
  | nil => exact h
  | cons r l ih => exact ih h.stackWriteRow

theorem Keeps.writeNode {node off rows} (h : Keeps a s) : Keeps a (s.writeNode node off rows) := by
  unfold State.writeNode
  split
  · exact h.stackWriteRows
  · exact h.putRows
  · exact h

theorem execTileScanOut_answers {dt tile node offset} (h : Keeps a (s.tick dt)) : Answers a (execTileScanOut dt tile node offset s) :=
  .onTile h (.ite h.writeNode.setTile h)

theorem Keeps.takeImage {k img} (h : Keeps a s) : Keeps a (s.takeImage k img) := by
  unfold State.takeImage
  exact (h.foldl fun _ _ h => h.odSet).setTile.upd

theorem execTileScanIn_answers {dt tile node offset} (h : Keeps a (s.tick dt)) : Answers a (execTileScanIn dt tile node offset s) :=
  .onTile h (.ite h.takeImage.setTile h)

theorem execRegionSet_answers {dt tile entry g0 g1 position} (h : Keeps a (s.tick dt)) :
    Answers a (execRegionSet dt tile entry g0 g1 position s) :=
  .onTile h (.ite h.cmdRefused h.setTile.cmdDone)

theorem Keeps.hubHazards {k first n} (h : Keeps a s) : Keeps a (s.hubHazards k first n) := h.foldl fun _ _ h => h.hazard

theorem execScratchFill_answers {dt tile first rows pattern full} (h : Keeps a (s.tick dt)) :
    Answers a (execScratchFill dt tile first rows pattern full s) :=
  .onTile h (.ite h.hubHazards.putRows.setTags.cmdDone h.cmdRefused)

theorem Keeps.putTags {k first l} (h : Keeps a s) : Keeps a (s.putTags k first l) := by
  induction l generalizing s first with
  | nil => exact h
  | cons b l ih => exact ih h.setTag

theorem execScratchCopy_answers {dt tile source dest rows} (h : Keeps a (s.tick dt)) :
    Answers a (execScratchCopy dt tile source dest rows s) :=
  .onTile h (.ite h.hubHazards.putRows.putTags.cmdDone h.cmdRefused)

theorem execTagset_answers {dt tile first rows full} (h : Keeps a (s.tick dt)) : Answers a (execTagset dt tile first rows full s) :=
  .onTile h (.ite h.setTags.cmdDone h.cmdRefused)

theorem execScratchCommit_answers {dt tile entry position} (h : Keeps a (s.tick dt)) :
    Answers a (execScratchCommit dt tile entry position s) :=
  .onTile h h.commitRegion

theorem execScratchRollback_answers {dt tile entry} (h : Keeps a (s.tick dt)) : Answers a (execScratchRollback dt tile entry s) :=
  .onTile h h.rollbackOrWait

theorem Keeps.swapRegion {k e'} (h : Keeps a s) : Keeps a (s.swapRegion k e') := h.setTile.bump.cmdDone

theorem execScratchSwap_answers {dt tile entry} (h : Keeps a (s.tick dt)) : Answers a (execScratchSwap dt tile entry s) :=
  .onTile h (.ite h.swapRegion h.cmdRefused)

theorem execScratchSave_answers {dt tile first rows node offset} (h : Keeps a (s.tick dt)) :
    Answers a (execScratchSave dt tile first rows node offset s) :=
  .onTile h (.ite h.writeNode.cmdDone h.cmdRefused)

theorem Keeps.installSave {k img} (h : Keeps a s) : Keeps a (s.installSave k img) := h.hubHazards.putRows.putTags.setTile

theorem execScratchRestore_answers {dt tile node offset} (h : Keeps a (s.tick dt)) : Answers a (execScratchRestore dt tile node offset s) :=
  .onTile h (.ite h.installSave.cmdDone h.cmdRefused)

theorem Keeps.quiesce {slot} (h : Keeps a s) : Keeps a (s.quiesce slot).2 := h.same
theorem Keeps.letGo {slot} (h : Keeps a s) : Keeps a (s.letGo slot) := h.same

theorem Keeps.swapSlot {slot} (h : Keeps a s) : Keeps a (s.swapSlot slot).2 :=
  .iteQ (h.quiesce.foldl fun _ _ h => h.swapRegion).letGo h.quiesce

theorem execSwapProtocol_answers {dt slot} (h : Keeps a (s.tick dt)) : Answers a (execSwapProtocol dt slot s) := .next h.swapSlot
theorem Keeps.takePkt {p} (h : Keeps a s) : Keeps a (s.takePkt p) := h.same
theorem Keeps.logNodeAt {key e'} (h : Keeps a s) : Keeps a (s.logNodeAt key e') := h.same

theorem Keeps.logAt {node e'} (h : Keeps a s) : Keeps a (s.logAt node e') := by
  unfold State.logAt
  split
  · exact h.logTile
  · exact .ite h.logNodeAt h

theorem Keeps.dropPkt {node p cause addr} (h : Keeps a s) : Keeps a (s.dropPkt node p cause addr) :=
  .ite (Keeps.ite h.logAt.bump h.logAt).bump (Keeps.ite h.logAt.bump h.logAt).sendError

theorem Keeps.packet {p accepted run} (h : Keeps a s) (hrun : ∀ t, Keeps a t → Keeps a (run t)) :
    Keeps a (s.packet p accepted run) := by
  have taken : Keeps a (if s.heldAt p then s else s.takePkt p) := .ite h h.takePkt
  unfold State.packet
  dsimp only
  split
  · exact h
  · split
    · exact taken.dropPkt
    · exact .ite (hrun _ taken) taken.dropPkt

theorem Keeps.deliverToks {k q src l} (h : Keeps a s) : Keeps a (s.deliverToks k q src l).1 := by
  induction l generalizing s with
  | nil => exact h
  | cons t l ih => exact .iteP h.arriveAny (ih h.arriveAny)

theorem Keeps.defer {p} (h : Keeps a s) : Keeps a (s.defer p) := h.same
theorem Keeps.deliverPkt {p} (h : Keeps a s) : Keeps a (s.deliverPkt p) := .ite h.deliverToks h.deliverToks.defer

theorem execTokensPacket_answers {dt p} (h : Keeps a (s.tick dt)) : Answers a (execTokensPacket dt p s) :=
  .next (h.packet fun _ h => h.deliverPkt)

theorem Keeps.remoteRow {k src row v} (h : Keeps a s) : Keeps a (s.remoteRow k src row v) := by
  unfold State.remoteRow
  dsimp only
  split
  · exact (Keeps.ite h.hazard h).putRow.fillRows
  · exact h.putRow

theorem Keeps.remoteRows {k src row l} (h : Keeps a s) : Keeps a (s.remoteRows k src row l) := by
  induction l generalizing s row with
  | nil => exact h
  | cons v l ih => exact ih h.remoteRow

theorem Keeps.requestDone {k p} (h : Keeps a s) : Keeps a (s.requestDone k p) := h.setTile
theorem Keeps.requestHeld {k p} (h : Keeps a s) : Keeps a (s.requestHeld k p) := .ite h h.setTile
theorem Keeps.requestWait {k p} (h : Keeps a s) : Keeps a (s.requestWait k p) := .ite h h.requestHeld.tagWait

theorem Keeps.tileWrite {k p ack} (h : Keeps a s) : Keeps a (s.tileWrite k p ack) :=
  .ite h.dropPkt (.ite h.defer (.ite (.ite h.requestDone.remoteRows.send h.requestDone.remoteRows) h.requestWait))

theorem Keeps.setStack {i x} (h : Keeps a s) : Keeps a (s.setStack i x) := h.same
theorem Keeps.poolHeld {i p} (h : Keeps a s) : Keeps a (s.poolHeld i p) := .ite (.ite h h.setStack) (.ite h h.setStack)

theorem Keeps.lostWrite {i g m j r} (h : Keeps a s) : Keeps a (s.lostWrite i g m j r) :=
  .ite h (.ite h.putRow.bump.setGroupEnt.send h.putRow.bump.setGroupEnt)

theorem Keeps.servedWrite {i off src l} (h : Keeps a s) : Keeps a (s.servedWrite i off src l) := by
  induction l generalizing s off with
  | nil => exact h
  | cons r l ih =>
    refine ih ?_
    split
    · exact .ite h.lostWrite h.stackWriteRow
    · exact h.stackWriteRow

theorem Keeps.poolDone {i p} (h : Keeps a s) : Keeps a (s.poolDone i p) := .ite h.setStack h.setStack

theorem Keeps.ackFrom {by' i dst txn slot off n} (h : Keeps a s) : Keeps a (s.ackFrom by' i dst txn slot off n) :=
  .ite h.send h.setStack

theorem Keeps.ackWhenDone {i dst txn slot off n} (h : Keeps a s) : Keeps a (s.ackWhenDone i dst txn slot off n) := h.ackFrom

theorem Keeps.stackWrite {i p} (h : Keeps a s) : Keeps a (s.stackWrite i p) :=
  .ite h.dropPkt (.ite h.defer (.ite h.dropPkt (.ite h.dropPkt (.ite h.poolHeld (.ite h.poolDone.servedWrite h.poolDone.servedWrite.ackWhenDone)))))

theorem execRemoteWrite_answers {dt p} (h : Keeps a (s.tick dt)) : Answers a (execRemoteWrite dt p s) := by
  unfold execRemoteWrite
  refine .next ?_
  refine h.packet fun _ h => ?_
  split
  · exact h.tileWrite
  · exact h.stackWrite
  · exact h.dropPkt

theorem Keeps.tileRead {k p} (h : Keeps a s) : Keeps a (s.tileRead k p) :=
  .ite h.dropPkt (.ite h.defer (.ite h.requestDone.send h.requestWait))

theorem Keeps.countDegraded {g n} (h : Keeps a s) : Keeps a (s.countDegraded g n) := by
  unfold State.countDegraded
  split
  · exact h.bumpN
  · exact h

theorem Keeps.countServed {i off n src} (h : Keeps a s) : Keeps a (s.countServed i off n src) := by
  unfold State.countServed
  refine Keeps.foldl ?_ fun _ _ h => ?_
  · exact h
  · split
    · exact .ite h.countDegraded h
    · exact h

theorem Keeps.stackRead {i p corrected bad} (h : Keeps a s) : Keeps a (s.stackRead i p corrected bad) := by
  unfold State.stackRead
  dsimp only
  split
  · exact h.dropPkt
  · split
    · exact h.defer
    · split
      · exact h.dropPkt
      · split
        · exact h.poolHeld
        · split
          · refine Keeps.dropPkt ?_
            refine Keeps.bumpN ?_
            refine Keeps.bumpN ?_
            refine Keeps.foldl ?_ fun _ _ h => ?_
            · exact h.poolDone.countServed
            · split
              · exact .ite h.countDegraded h
              · exact h
          · refine Keeps.send ?_
            refine Keeps.foldl ?_ fun _ _ h => ?_
            · refine Keeps.bumpN ?_
              refine Keeps.bumpN ?_
              refine Keeps.foldl ?_ fun _ _ h => ?_
              · exact h.poolDone.countServed
              · split
                · exact .ite h.countDegraded h
                · exact h
            · split
              · exact h.putRow
              · exact h

theorem execRemoteRead_answers {dt p ecc} (h : Keeps a (s.tick dt)) : Answers a (execRemoteRead dt p ecc s) := by
  unfold execRemoteRead
  refine .next ?_
  refine h.packet fun _ h => ?_
  split
  · exact h.tileRead
  · exact h.stackRead
  · exact h.dropPkt

theorem Keeps.closeRow {i g m seq} (h : Keeps a s) : Keeps a (s.closeRow i g m seq) := by
  unfold State.closeRow
  dsimp only
  split
  · exact h
  · exact (h.setGroupEnt.foldl fun _ _ h => h.send).setStack.sendAll

theorem execWriteAck_answers {dt p} (h : Keeps a (s.tick dt)) : Answers a (execWriteAck dt p s) := by
  unfold execWriteAck
  refine .next ?_
  refine h.packet fun _ h => ?_
  split
  · split
    · exact .ite h h.memAcked
    · exact h
  · exact h.closeRow
  · exact h
  · exact h.dropPkt

theorem Keeps.memData {k i b rows} (h : Keeps a s) : Keeps a (s.memData k i b rows) := by
  unfold State.memData
  extract_lets t reg s1 s2
  have h1 : Keeps a s1 := h.putRows.fillRows
  have h2 : Keeps a s2 := h1.setTile
  exact h2.finishBusy

theorem execReadData_answers {dt p} (h : Keeps a (s.tick dt)) : Answers a (execReadData dt p s) := by
  unfold execReadData
  refine .next ?_
  refine h.packet fun _ h => ?_
  split
  · split
    · exact .ite h.memData h
    · exact h
  · exact h
  · exact h
  · exact h.dropPkt

theorem execErrorPacket_answers {dt p} (h : Keeps a (s.tick dt)) : Answers a (execErrorPacket dt p s) := by
  unfold execErrorPacket
  dsimp only
  refine .next ?_
  split
  · exact h.takePkt.bump
  · refine h.packet fun _ h => ?_
    split
    · split
      · exact h.logTile.finishBusy
      · exact h.logTile
    · exact h

theorem execConfigPacket_answers {dt p} (h : Keeps a (s.tick dt)) : Answers a (execConfigPacket dt p s) :=
  .next (h.packet fun _ h => h.deliverPkt)

theorem Keeps.take {e'} (h : Keeps a s) : Keeps a (s.take e') := h.same
theorem Keeps.installAt {p i} (h : Keeps a s) : Keeps a (s.installAt p i) := .ite h.dropPkt (.ite h.dropPkt h.setTile)

theorem execInstall_answers {dt p first rows} (h : Keeps a (s.tick dt)) : Answers a (execInstall dt p first rows s) :=
  .next (h.take.packet fun _ h => h.installAt)

theorem Keeps.deliverCopy {k p inst} (h : Keeps a s) : Keeps a (s.deliverCopy k p inst) := by
  unfold State.deliverCopy
  dsimp only
  split
  · exact h.tileWrite
  · exact h.installAt
  · exact h
  · exact h.deliverPkt

theorem Keeps.deliverRest {g p} (h : Keeps a s) : Keeps a (s.deliverRest g p) := .ite h.stackWrite h.dropPkt

theorem execMulticastForward_answers {dt site edge p inst} (h : Keeps a (s.tick dt)) :
    Answers a (execMulticastForward dt site edge p inst s) := by
  unfold execMulticastForward
  dsimp only
  refine .next ?_
  split
  · exact h.takePkt.dropPkt
  · exact .ite h.takePkt.dropPkt (.ite ((h.takePkt.foldl fun _ _ h => h.same).foldl fun _ _ h => h.deliverCopy)
      (.ite (h.takePkt.foldl fun _ _ h => h.same).deliverRest (h.takePkt.foldl fun _ _ h => h.same)))

theorem Keeps.setLink {l e'} (h : Keeps a s) : Keeps a (s.setLink l e') := h.same
theorem Keeps.putBlock {l b} (h : Keeps a s) : Keeps a (s.putBlock l b) := h.send
theorem Keeps.sendBlock {l slots nak} (h : Keeps a s) : Keeps a (s.sendBlock l slots nak) := .ite h.putBlock h.setLink.send.bumpN

theorem Keeps.startRetrain {l request} (h : Keeps a s) : Keeps a (s.startRetrain l request) :=
  .ite h.same.odSet.setLink.odSet.odSet.putBlock h.same.odSet.setLink.odSet.odSet

theorem Keeps.replay {l bs} (h : Keeps a s) : Keeps a (s.replay l bs) := h.sendAll.bumpN.bumpN

theorem Keeps.takeAck {l b} (h : Keeps a s) : Keeps a (s.takeAck l b) :=
  .ite (.ite h.setLink.startRetrain h.setLink.setLink.replay) h.setLink

theorem execLinkBlockReceived_answers {dt link b turn} (h : Keeps a (s.tick dt)) : Answers a (execLinkBlockReceived dt link b turn s) := by
  have taken : Keeps a (match linkOther link with | some o => (s.tick dt).take (.block o b) | none => s.tick dt) := by
    split
    · exact h.take
    · exact h
  exact .onLink taken.setLink (.ite taken.setLink (.ite taken.setLink.setLink.bump.sendBlock (.ite taken.setLink.startRetrain
    (.ite taken.setLink.takeAck (.ite taken.setLink.takeAck.sendBlock
      (.ite taken.setLink.takeAck.setLink.sendBlock taken.setLink.takeAck.setLink.sendBlock))))))

theorem execAckTimeoutRetrain_answers {dt link} (h : Keeps a (s.tick dt)) : Answers a (execAckTimeoutRetrain dt link s) := by
  unfold execAckTimeoutRetrain
  dsimp only
  refine .onLink h ?_
  split
  · exact .ite h.startRetrain h
  · exact h

theorem execRetrainRequest_answers {dt link received} (h : Keeps a (s.tick dt)) : Answers a (execRetrainRequest dt link received s) :=
  .onLink h (.ite h.startRetrain h)

theorem Keeps.linkEvent {l kind old new' lanes} (h : Keeps a s) : Keeps a (s.linkEvent l kind old new' lanes) := h.publish24

theorem Keeps.failLink {l lanesGood} (h : Keeps a s) : Keeps a (s.failLink l lanesGood) := by
  unfold State.failLink
  exact (h.foldl fun _ _ h => h.setLink.odSet.odSet.odSet).abortLanes.logAt.bump.linkEvent.reportFault.upd

theorem execRetrainDone_answers {dt link lanes minPs ok} (h : Keeps a (s.tick dt)) : Answers a (execRetrainDone dt link lanes minPs ok s) :=
  .onLink h (.ite h (.ite h.bump.bump.failLink (.ite h.bump.bump.setLink h.bump.bump.odSet.odSet.odSet.odSet.odSet.odSet.setLink.linkEvent.replay)))

theorem Keeps.cutPkt {p n} (h : Keeps a s) : Keeps a (s.cutPkt p n) := by
  unfold State.cutPkt
  dsimp only
  split
  · exact (Keeps.ite (Keeps.ite h h.takePkt).deliverToks (.ite h h.takePkt)).abortLanes
  · split
    · split
      · exact (Keeps.ite h h.takePkt).remoteRows
      · exact (Keeps.ite h h.takePkt).stackWriteRows
      · exact .ite h h.takePkt
    · exact .ite h h.takePkt

theorem execLinkFail_answers {dt link cut} (h : Keeps a (s.tick dt)) : Answers a (execLinkFail dt link cut s) :=
  .onLink h ((Keeps.ite h h.failLink).foldl fun _ _ h => h.cutPkt)

theorem execHeldFlitFault_answers {dt link cut} (h : Keeps a (s.tick dt)) : Answers a (execHeldFlitFault dt link cut s) :=
  .onLink h (.ite h ((h.foldl fun _ _ h => h.setLink.putBlock).abortLanes.logAt.bump.bump.linkEvent.foldl fun _ _ h => h.cutPkt))

theorem Keeps.settleHops (h : Keeps a s) : Keeps a s.settleHops := by
  unfold State.settleHops
  refine Keeps.foldl ?_ fun _ _ h => ?_
  · exact h
  · split
    · exact h
    · exact h.foldl fun _ _ h => .ite h.odSet h

theorem Keeps.applyFloor (h : Keeps a s) : Keeps a s.applyFloor :=
  ((h.foldl fun _ _ h => h.odSet).foldl fun _ _ h => h.odSet).upd.bump.odSet

theorem Keeps.stageFloor {a' v} (h : Keeps a s) : Keeps a (s.stageFloor a' v) := h.same

theorem Keeps.failStranded {blockedSites blockedLinks} (h : Keeps a s) : Keeps a (s.failStranded blockedSites blockedLinks) :=
  h.foldl fun _ _ h => .ite h.stageFloor.stageFloor.reportFault (.ite h.reportFault h)

theorem Keeps.setBank {b x} (h : Keeps a s) : Keeps a (s.setBank b x) := .ite h.same h.same

theorem Keeps.flip {sites links pairs} (h : Keeps a s) : Keeps a (s.flip sites links pairs) :=
  h.failStranded.applyFloor.setBank.setBank.odSet.odSet

theorem execBankFlip_answers {dt pairs} (h : Keeps a (s.tick dt)) : Answers a (execBankFlip dt pairs s) :=
  .next (.ite h.flip.settleHops h)

theorem execBankDrainEnd_answers {dt bank} (h : Keeps a (s.tick dt)) : Answers a (execBankDrainEnd dt bank s) := by
  unfold execBankDrainEnd
  dsimp only
  refine .next ?_
  split
  · exact .ite h.setBank h
  · exact h

theorem execLinkAdmit_answers {dt pairs} (h : Keeps a (s.tick dt)) : Answers a (execLinkAdmit dt pairs s) :=
  .next (.ite h (.ite (h.flip.settleHops.upd.foldl fun _ _ h => h.linkEvent) h.same))

theorem Keeps.control {c op run} (h : Keeps a s) (hrun : ∀ t, Keeps a t → Keeps a (run t)) : Keeps a (s.control c op run) :=
  .ite h.take.logAt (.ite h.take.logAt (hrun _ h.take))

theorem Keeps.reply {c op words} (h : Keeps a s) : Keeps a (s.reply c op words) := h.send

theorem Keeps.ring {node bit} (h : Keeps a s) : Keeps a (s.ring node bit) := by
  unfold State.ring
  dsimp only
  split
  · exact h
  · exact .ite h.bump h.odSet

theorem execMboxWrite_answers {dt c} (h : Keeps a (s.tick dt)) : Answers a (execMboxWrite dt c s) := by
  unfold execMboxWrite
  dsimp only
  refine .next ?_
  refine h.control fun _ h => ?_
  split
  · exact .ite h.ring.reply h.logAt.reply
  · split
    · exact h.logAt.reply
    · split
      · exact h.logAt.reply
      · split
        · exact h.bump.reply
        · refine Keeps.reply ?_
          split
          · exact h.same.ring
          · exact h.same

theorem execMboxResp_answers {dt c} (h : Keeps a (s.tick dt)) : Answers a (execMboxResp dt c s) := by
  unfold execMboxResp
  dsimp only
  refine .next ?_
  refine h.control fun _ h => ?_
  split
  · split
    · exact h
    · split
      · exact h.setTile
      · exact h.setTile
      · exact h.setTile.violateTok
      · exact h
  · exact h

theorem execMboxPoll_answers {dt c} (h : Keeps a (s.tick dt)) : Answers a (execMboxPoll dt c s) := by
  unfold execMboxPoll
  dsimp only
  refine .next ?_
  refine h.control fun _ h => ?_
  split
  · exact h.reply
  · exact h.logAt.reply

theorem execMboxPollResp_answers {dt c} (h : Keeps a (s.tick dt)) : Answers a (execMboxPollResp dt c s) :=
  .next (h.control fun _ h => h)

theorem execDoorbell_answers {dt c} (h : Keeps a (s.tick dt)) : Answers a (execDoorbell dt c s) :=
  .next (h.control fun _ h => .ite h.logAt (.ite h.ring.reply h.ring))

theorem execFlagRead_answers {dt c} (h : Keeps a (s.tick dt)) : Answers a (execFlagRead dt c s) := by
  unfold execFlagRead
  dsimp only
  refine .next ?_
  refine h.control fun _ h => ?_
  split
  · exact .ite h.reply.setTile h.reply
  · exact h.reply

theorem execFlagResp_answers {dt c} (h : Keeps a (s.tick dt)) : Answers a (execFlagResp dt c s) := .next (h.control fun _ h => h)

theorem execFaultNotice_answers {dt c} (h : Keeps a (s.tick dt)) : Answers a (execFaultNotice dt c s) := by
  unfold execFaultNotice
  dsimp only
  refine .next ?_
  refine h.control fun _ h => ?_
  split
  · exact .ite h.bump.reply h.setNotices.ring.reply
  · exact h.logAt

theorem Keeps.setOut {node l} (h : Keeps a s) : Keeps a (s.setOut node l) := h.same

theorem execNoticeResp_answers {dt c} (h : Keeps a (s.tick dt)) : Answers a (execNoticeResp dt c s) := by
  unfold execNoticeResp
  dsimp only
  refine .next ?_
  refine h.control fun _ h => ?_
  split
  · exact h
  · split
    · exact h.setOut
    · split
      · exact .ite h.setOut.setTile h.setOut
      · exact h.setOut

theorem execNoticeResend_answers {dt node} (h : Keeps a (s.tick dt)) : Answers a (execNoticeResend dt node s) := by
  unfold execNoticeResend
  dsimp only
  refine .next ?_
  split
  · exact h.setOut.send
  · exact h

theorem execScanData_answers {dt c} (h : Keeps a (s.tick dt)) : Answers a (execScanData dt c s) :=
  .next (h.control fun _ h => .ite h.logAt h.same)

theorem execBitmapRead_answers {dt c} (h : Keeps a (s.tick dt)) : Answers a (execBitmapRead dt c s) := by
  unfold execBitmapRead
  dsimp only
  refine .next ?_
  refine h.control fun _ h => ?_
  split
  · exact h.ring
  · exact h.reply

theorem execOdReq_answers {dt c} (h : Keeps a (s.tick dt)) : Answers a (execOdReq dt c s) := .next (h.control fun _ h => h.reply)
theorem execOdResp_answers {dt c} (h : Keeps a (s.tick dt)) : Answers a (execOdResp dt c s) := .next (h.control fun _ h => h.ring)

theorem Keeps.engine {p ptype used allowed run} (h : Keeps a s) (hrun : ∀ i t, Keeps a t → Keeps a (run i t)) :
    Answers a (s.engine p ptype used allowed run) := by
  unfold State.engine
  refine .next (.ite h ?_)
  split
  · exact h.takePkt.dropPkt
  · split
    · exact .ite h.takePkt.dropPkt (.ite h.takePkt.dropPkt (.ite h (.ite h.takePkt.dropPkt (hrun _ _ h.takePkt))))
    · exact h.takePkt.dropPkt

theorem execGather_answers {dt g} (h : Keeps a (s.tick dt)) : Answers a (execGather dt g s) := by
  unfold execGather
  extract_lets p corrected bad pos cnt lane key tile row
  refine h.engine fun i t h => ?_
  extract_lets e mine n off lost hit s0 rows s1 s2
  have h0 : Keeps a s0 := h.bumpN.bumpN
  clear_value s0
  have h2 : Keeps a s2 := h0.putRows.setTags.countDegraded
  clear_value s2
  refine .ite h.dropPkt (.ite h.dropPkt (.ite h.defer ?_))
  split
  · exact h0.dropPkt
  · exact h2.send

theorem execStackFill_answers {dt p} (h : Keeps a (s.tick dt)) : Answers a (execStackFill dt p s) :=
  h.engine fun _ _ h => .ite h.dropPkt (.ite h.dropPkt h.stackWriteRows.ackWhenDone)

theorem execStackCopy_answers {dt p} (h : Keeps a (s.tick dt)) : Answers a (execStackCopy dt p s) := by
  unfold execStackCopy
  dsimp only
  refine h.engine fun _ _ h => ?_
  split
  · exact h.dropPkt
  · split
    · exact .ite h.dropPkt (.ite h.dropPkt h.stackWriteRows.ackFrom)
    · exact h.writeNode.send

theorem Keeps.dirPut {i lane key e'} (h : Keeps a s) : Keeps a (s.dirPut i lane key e') := h.same

theorem execDirSet_answers {dt p} (h : Keeps a (s.tick dt)) : Answers a (execDirSet dt p s) :=
  h.engine fun _ _ h => .ite h.dropPkt h.dirPut.send

theorem execDirClear_answers {dt p} (h : Keeps a (s.tick dt)) : Answers a (execDirClear dt p s) :=
  h.engine fun _ _ h => h.dirClear.send

theorem Keeps.groupSetAt {i g role rows base members} (h : Keeps a s) : Keeps a (s.groupSetAt i g role rows base members) :=
  h.setGroupEnt

theorem execGroupSet_answers {dt p} (h : Keeps a (s.tick dt)) : Answers a (execGroupSet dt p s) :=
  h.engine fun _ _ h => .ite h.dropPkt h.groupSetAt.send

theorem execParityDelta_answers {dt p} (h : Keeps a (s.tick dt)) : Answers a (execParityDelta dt p s) := by
  unfold execParityDelta
  refine h.engine fun i t h => ?_
  extract_lets g m j sq delta e node member p1 ack fresh d off add s1 s2
  have acked : ∀ u dst, Keeps a u → Keeps a (ack u dst) := fun _ _ h => .ite h h.send
  have h1 : Keeps a s1 := .ite h.putRow.setGroupEnt.bump h
  have h2 : Keeps a s2 := acked _ _ h1
  exact .ite h.dropPkt (.ite (.ite h1.send h1) (.ite (acked _ _ h2) h2))

theorem execGroupRead_answers {dt p} (h : Keeps a (s.tick dt)) : Answers a (execGroupRead dt p s) :=
  h.engine fun _ _ h => .ite h.dropPkt (.ite h.setGroupEnt h.send)

theorem execRebuild_answers {dt p} (h : Keeps a (s.tick dt)) : Answers a (execRebuild dt p s) :=
  h.engine fun _ _ h => .ite h.dropPkt (.ite h.setPgroup.groupEvent h)

theorem Keeps.moveHome {slot h' to' ok base} (h : Keeps a s) : Keeps a (s.moveHome slot h' to' ok base) := by
  unfold State.moveHome
  dsimp only
  split
  · exact .ite h h.same.setPslot
  · exact h

theorem Keeps.rebindSeat {slot q} (h : Keeps a s) : Keeps a (s.rebindSeat slot q) := by
  unfold State.rebindSeat
  dsimp only
  split
  · exact h
  · exact h.setTile

theorem Keeps.rebindSlot {slot} (h : Keeps a s) : Keeps a (s.rebindSlot slot) := by
  unfold State.rebindSlot
  split
  · exact .ite h (h.foldl fun _ _ h => h.rebindSeat)
  · exact h

theorem Keeps.rebindAll (h : Keeps a s) : Keeps a s.rebindAll := h.foldl fun _ _ h => h.rebindSlot

theorem Keeps.followSlab {g x r} (h : Keeps a s) : Keeps a (s.followSlab g x r) := by
  unfold State.followSlab
  dsimp only
  split
  · exact .ite h (h.foldl fun _ _ h => h.moveHome).upd.rebindAll
  · exact h

theorem Keeps.completeRebuild {g r} (h : Keeps a s) : Keeps a (s.completeRebuild g r) := by
  unfold State.completeRebuild
  dsimp only
  split
  · exact h
  · refine Keeps.sendAll ?_
    refine Keeps.bump ?_
    refine Keeps.groupEvent ?_
    split
    · refine Keeps.countDegraded ?_
      refine Keeps.setGroupEnt ?_
      refine Keeps.foldl ?_ fun _ _ h => ?_
      · exact (h.foldl fun _ _ h => h.putRow).setPgroup
      · split
        · exact h.groupSetAt
        · exact h
    · refine Keeps.setGroupEnt ?_
      refine Keeps.foldl ?_ fun _ _ h => ?_
      · exact (h.foldl fun _ _ h => h.putRow).setPgroup
      · split
        · exact h.groupSetAt
        · exact h

theorem execRebuildComplete_answers {dt group member} (h : Keeps a (s.tick dt)) : Answers a (execRebuildComplete dt group member s) := by
  unfold execRebuildComplete
  dsimp only
  refine .next ?_
  split
  · exact h
  · exact .ite h h.completeRebuild.followSlab

theorem Keeps.badRow {i off} (h : Keeps a s) : Keeps a (s.badRow i off) := by
  unfold State.badRow
  dsimp only
  split
  · refine Keeps.putRow ?_
    split
    · exact .ite h.bump.countDegraded h.bump
    · exact h.bump
  · exact h.bump

theorem execScrub_answers {dt p corrected bad} (h : Keeps a (s.tick dt)) : Answers a (execScrub dt p corrected bad s) :=
  h.engine fun _ _ h => .ite h.dropPkt (.ite h.defer (h.bumpN.foldl fun _ _ h => h.badRow).send)

theorem execScrubPass_answers {dt site corrected bad} (h : Keeps a (s.tick dt)) : Answers a (execScrubPass dt site corrected bad s) :=
  .onStack h (.ite h (h.bumpN.foldl fun _ _ h => h.badRow).odSet.odSet.setStack)

theorem Keeps.dispute {site spot kind a' b} (h : Keeps a s) : Keeps a (s.dispute site spot kind a' b) := h.publish24
theorem Keeps.stackOffline {i} (h : Keeps a s) : Keeps a (s.stackOffline i) := h.setStack.stageFloor.stageFloor.reportFault

theorem execStackTempSample_answers {dt site baseMc dramMc} (h : Keeps a (s.tick dt)) :
    Answers a (execStackTempSample dt site baseMc dramMc s) := by
  unfold execStackTempSample
  extract_lets t i old
  split
  extract_lets temp lvl cool s1 s2 s3 s4
  have h2 : Keeps a s2 := h.setStack.odSet.odSet.odSet
  have h3 : Keeps a s3 := .ite h2 h2.dispute
  have h4 : Keeps a s4 := .ite h3 h3.bump.ring
  exact .onStack h (.ite h4.stackOffline h4)

theorem execStackRejoin_answers {dt site passed} (h : Keeps a (s.tick dt)) : Answers a (execStackRejoin dt site passed s) := by
  have zeroed : Keeps a { (s.tick dt).setStack (stackIdx site) { (s.tick dt).stackUnit (stackIdx site) with offline := false } with
      mem := memZero s.mem (gaddr (siteNode site) 0) (2 ^ 40) } := h.setStack.store (wf_memZero _ _ _)
  exact .onStack h (.ite (Keeps.ite zeroed.same (Keeps.same zeroed).odSet.bump.ring).stageFloor.stageFloor h)

theorem Keeps.secondCopy {i sec a' k o len} (h : Keeps a s) : Keeps a (s.secondCopy i sec a' k o len) := h.putBytes.setPslot

theorem execWeightCopyRestore_answers {dt slot sec} (h : Keeps a (s.tick dt)) : Answers a (execWeightCopyRestore dt slot sec s) := by
  unfold execWeightCopyRestore
  dsimp only
  refine .next ?_
  split
  · split
    · split
      · split
        · rename_i e
          exact (h.allocate _ e).secondCopy.rebindSlot
        · exact h
      · exact h
    · exact h
  · exact h

theorem Keeps.slotRefuse {i} (h : Keeps a s) : Keeps a (s.slotRefuse i) := h.odSet.odSet
theorem Keeps.slotDone {i} (h : Keeps a s) : Keeps a (s.slotDone i) := h.odSet
theorem Keeps.toSlotState {i v} (h : Keeps a s) : Keeps a (s.toSlotState i v) := h.odSet

theorem Keeps.slotBegin {i} (h : Keeps a s) : Keeps a (s.slotBegin i) :=
  .ite h.slotRefuse h.setPslot.upd.odSet.odSet.toSlotState.slotDone

theorem Keeps.slotCommit {i} (h : Keeps a s) : Keeps a (s.slotCommit i) := .ite h.slotRefuse h.toSlotState.odSet
theorem Keeps.freeSlotSpace {i} (h : Keeps a s) : Keeps a (s.freeSlotSpace i) := h.same

theorem Keeps.slotEmpty {i} (h : Keeps a s) : Keeps a (s.slotEmpty i) :=
  (h.freeSlotSpace.setPslot.foldl fun _ _ h => .ite h h.odSet).odSet

theorem Keeps.slotCancel {i} (h : Keeps a s) : Keeps a (s.slotCancel i) := .ite h.slotEmpty h.slotRefuse
theorem Keeps.endQueued {q reason detail} (h : Keeps a s) : Keeps a (s.endQueued q reason detail) := h.same.sendTermCtl.endSummary

theorem Keeps.slotUnload {i} (h : Keeps a s) : Keeps a (s.slotUnload i) :=
  .ite h.slotRefuse (h.toSlotState.odSet.foldl fun _ _ h => h.endQueued)

theorem Keeps.askResupply {i sec} (h : Keeps a s) : Keeps a (s.askResupply i sec) := h.publish.setPslot

theorem Keeps.putCopy {slot sec g copy ok} (h : Keeps a s) : KeepsOpt a (·.2) (s.putCopy slot sec g copy ok) := by
  unfold State.putCopy
  split
  · exact .none
  · exact h.allocate.map fun _ h => h.putBytes

theorem Keeps.putCopies {slot seats sec} (h : Keeps a s) : KeepsOpt a (·) (s.putCopies slot seats sec) := by
  unfold State.putCopies
  extract_lets g
  split
  · exact .none
  · rename_i p s1 e1
    have h1 : Keeps a s1 := h.putCopy _ e1
    split
    · exact .none
    · rename_i q s2 e2
      have h2 : Keeps a s2 := h1.putCopy _ e2
      exact .some h2.setPslot

theorem Keeps.resupplySection {i sec} (h : Keeps a s) : Keeps a (s.resupplySection i sec) := by
  unfold State.resupplySection
  dsimp only
  split
  · split
    · exact h.askResupply
    · split
      · rename_i e
        exact (h.setPslot.putCopies _ e).setPslot
      · exact h.askResupply
  · exact h

theorem Keeps.slotResupply {i} (h : Keeps a s) : Keeps a (s.slotResupply i) :=
  .ite h.slotRefuse (h.foldl fun _ _ h => h.resupplySection).setPslot.rebindSlot.slotDone

theorem Keeps.slotCommand {i cmd} (h : Keeps a s) : KeepsOpt a (·) (s.slotCommand i cmd) := by
  unfold State.slotCommand
  split
  · exact .none
  · split
    · exact .some h.slotBegin
    · exact .some h.slotCommit
    · exact .some h.slotCancel
    · exact .some h.slotUnload
    · exact .some h.slotResupply
    · exact .none

theorem execSlotBegin_answers {dt slot} (h : Keeps a (s.tick dt)) : Answers a (execSlotBegin dt slot s) :=
  .next (.getD (h.slotCommand) h)

theorem Keeps.slotImage {i b} (h : Keeps a s) : KeepsOpt a (·) (s.slotImage i b) := .ite .none (.some h.setPslot.odSet)

theorem execSlotImageWrite_answers {dt slot b} (h : Keeps a (s.tick dt)) : Answers a (execSlotImageWrite dt slot b s) :=
  .next (.getD (h.slotImage) h)

theorem Keeps.slotCursor {i v} (h : Keeps a s) : KeepsOpt a (·) (s.slotCursor i v) := .ite .none (.some h.odSet)

theorem execSlotCursorWrite_answers {dt slot v} (h : Keeps a (s.tick dt)) : Answers a (execSlotCursorWrite dt slot v s) :=
  .next (.getD (h.slotCursor) h)

theorem execSlotCommit_answers {dt slot} (h : Keeps a (s.tick dt)) : Answers a (execSlotCommit dt slot s) :=
  .next (.getD (h.slotCommand) h)

theorem Keeps.shareFurnish {i f img} (h : Keeps a s) : Keeps a (s.shareFurnish i f img) :=
  .ite h (h.odSet.odSet.foldl fun _ _ h => h.seamSend)

theorem Keeps.freeOwner {owner} (h : Keeps a s) : Keeps a (s.freeOwner owner) := h.same

theorem execLoadChecksDone_answers {dt slot} (h : Keeps a (s.tick dt)) : Answers a (execLoadChecksDone dt slot s) := by
  unfold execLoadChecksDone
  dsimp only
  refine .next ?_
  split
  · exact h
  · split
    · exact h.freeOwner.setPslot.odSet.toSlotState.slotDone
    · exact h.shareFurnish.setPslot.odSet.odSet.odSet.odSet.toSlotState.slotDone

theorem Keeps.pairDies {p} (h : Keeps a s) : Keeps a (s.pairDies p) := h.odSet.odSet
theorem Keeps.pairAll (h : Keeps a s) : Keeps a s.pairAll := (h.foldl fun _ _ h => h.odSet).foldl fun _ _ h => h.pairDies
theorem Keeps.designateSpares (h : Keeps a s) : Keeps a s.designateSpares := h.foldl fun _ _ h => h.stageFloor
theorem Keeps.zeroSlab {i base rows} (h : Keeps a s) : Keeps a (s.zeroSlab i base rows) := h.store (wf_memZero _ _ _)

theorem Keeps.allocSlabs {g bytes m l} (h : Keeps a s) : KeepsOpt a (·.2) (s.allocSlabs g bytes m l) := by
  induction l generalizing s m with
  | nil => exact .some h
  | cons i l ih =>
    unfold State.allocSlabs
    split
    · exact .none
    · rename_i e
      exact (ih (h.allocate _ e).zeroSlab).map fun _ h => h

theorem Keeps.formGroup {m0 bytes} (h : Keeps a s) : KeepsOpt a (·.2) (s.formGroup m0 bytes) := by
  unfold State.formGroup
  dsimp only
  split
  · exact h.allocSlabs.map fun _ h => h.setPgroup.foldl fun _ _ h => h.groupSetAt
  · exact .none

theorem Keeps.allocData {i bytes owner} (h : Keeps a s) : KeepsOpt a (·.2.2) (s.allocData i bytes owner) := by
  unfold State.allocData
  dsimp only
  split
  · exact .some h.setPgroup
  · exact h.formGroup.map fun _ h => h.setPgroup

theorem Keeps.putState {slot seats sec} (h : Keeps a s) : KeepsOpt a (·) (s.putState slot seats sec) :=
  .findSome fun _ => h.allocData.map fun _ h => h.stackWriteRows.setPslot

theorem Keeps.placeData {i f seats} (h : Keeps a s) : KeepsOpt a (·) (s.placeData i f seats) := by
  unfold State.placeData
  extract_lets s0 s1
  have h1 : KeepsOpt a (·) s1 := KeepsOpt.foldl (.some h.freeOwner) fun _ _ h => h.bind fun _ h => h.putCopies
  exact h1.foldl fun _ _ h => h.bind fun _ h => h.putState

theorem Keeps.placeFails {i} (h : Keeps a s) : Keeps a (s.placeFails i) := h.freeSlotSpace.odSet.toSlotState.setPslot
theorem Keeps.keepInitial {i f} (h : Keeps a s) : Keeps a (s.keepInitial i f) := h.setPslot

theorem Keeps.putSeams {slot seats} (h : Keeps a s) : KeepsOpt a (·) (s.putSeams slot seats) :=
  (KeepsOpt.some h).foldl fun _ _ h => h.bind fun _ h => .ite (.some h) (.bind' fun _ => h.freeOwner.allocate.map fun _ h => h)

theorem Keeps.slotPlaced {i n ctx est cap bulk l f} (h : Keeps a s) : Keeps a (s.slotPlaced i n ctx est cap bulk l f) :=
  h.odSet.odSet.odSet.odSet.odSet.odSet.odSet.odSet.toSlotState

theorem Keeps.addHome {slot seats kv} (h : Keeps a s) : Keeps a (s.addHome slot seats kv) := by
  unfold State.addHome
  dsimp only
  split
  · split
    · exact h.setPslot
    · exact h
  · exact h

theorem Keeps.numberGroups {slot f} (h : Keeps a s) : Keeps a (s.numberGroups slot f) := h.foldl fun _ _ h => h.setPslot
theorem Keeps.recordSeat {slot q} (h : Keeps a s) : Keeps a (s.recordSeat slot q) := h.stageFloor.stageFloor.stageFloor.stageFloor

theorem Keeps.addMirror {slot k p} (h : Keeps a s) : Keeps a (s.addMirror slot k p) := by
  unfold State.addMirror
  dsimp only
  split
  · exact h
  · split
    · exact h.setPslot.putRows
    · exact h

theorem Keeps.assignMirrors {slot} (h : Keeps a s) : Keeps a (s.assignMirrors slot) :=
  h.setPslot.foldl fun _ _ h => h.foldl fun _ _ h => h.addMirror

theorem Keeps.seatSlot {i n seats f} (h : Keeps a s) : Keeps a (s.seatSlot i n seats f) := by
  unfold State.seatSlot
  extract_lets x coords vars s1 s2 s3 s4
  have h1 : Keeps a s1 := h.setPslot
  have h2 : Keeps a s2 := .ite (h1.foldl fun _ _ h => h.addHome) h1
  have h3 : Keeps a s3 := .ite h2.numberGroups h2
  exact (h3.foldl fun _ _ h => h.recordSeat).assignMirrors

theorem Keeps.startSlot {i} (h : Keeps a s) : Keeps a (s.startSlot i) := by
  unfold State.startSlot
  dsimp only
  split
  · exact (h.foldl fun _ _ h => h.configure).setPslot
  · exact h

theorem Keeps.plantTrees {slot} (h : Keeps a s) : Keeps a (s.plantTrees slot) := by
  unfold State.plantTrees
  dsimp only
  split
  · refine Keeps.foldl ?_ fun _ _ h => ?_
    · exact h
    · split
      · exact h
      · exact h.setBank
  · exact h

theorem Keeps.keepPaths {slot} (h : Keeps a s) : Keeps a (s.keepPaths slot) := by
  unfold State.keepPaths
  dsimp only
  split
  · exact h
  · exact h.setPslot

theorem Keeps.recordFree {k v} (h : Keeps a s) : Keeps a (s.recordFree k v) :=
  h.stageFloor.stageFloor.stageFloor.stageFloor.stageFloor

theorem Keeps.markTiles {g bad} (h : Keeps a s) : Keeps a (s.markTiles g bad) := h.foldl fun _ _ h => h.recordFree
theorem Keeps.rejoinDie {g mask} (h : Keeps a s) : Keeps a (s.rejoinDie g mask) := .ite h h.markTiles.stageFloor.stageFloor
theorem Keeps.newGeneration (h : Keeps a s) : Keeps a s.newGeneration := (h.same.foldl fun _ _ h => h.rejoinDie).flip.settleHops
theorem Keeps.placedGeneration {slot} (h : Keeps a s) : Keeps a (s.placedGeneration slot) := h.newGeneration.keepPaths.settleHops
theorem Keeps.decided {i f} (h : Keeps a s) : Keeps a (s.decided i f) := h.setPslot

theorem Keeps.replanEvent {kind slot dies pauseUs} (h : Keeps a s) : Keeps a (s.replanEvent kind slot dies pauseUs) :=
  h.publish24.bump

theorem Keeps.publishPlans (h : Keeps a s) : Keeps a s.publishPlans := by
  unfold State.publishPlans
  exact ((h.foldl fun _ _ h => h.odSet).foldl fun _ _ h => h.odSet).odSet.upd

theorem execPlacementDone_answers {dt slot est cap bulk} (h : Keeps a (s.tick dt)) :
    Answers a (execPlacementDone dt slot est cap bulk s) := by
  unfold execPlacementDone
  extract_lets t i waiting d s0 hs q s1
  have h0 : Keeps a s0 := .ite h h.designateSpares.pairAll.upd
  have h1 : Keeps a s1 := h0.setPslot
  clear_value s0 s1
  refine .next ?_
  split
  · exact h
  · refine .ite h ?_
    extract_lets ctx
    split
    · split
      · exact h.placeFails
      · rename_i e
        exact (h1.placeData _ e).keepInitial.toSlotState
    · extract_lets seats
      split
      · exact h.placeFails
      · rename_i e
        have h2 := (h1.placeData.bind fun _ h => h.putSeams) _ e
        exact h2.keepInitial.seatSlot.slotPlaced.decided.placedGeneration.plantTrees.startSlot.publishPlans.replanEvent.upd

theorem execSlotCancel_answers {dt slot} (h : Keeps a (s.tick dt)) : Answers a (execSlotCancel dt slot s) :=
  .next (.getD (h.slotCommand) h)

theorem execSlotUnload_answers {dt slot} (h : Keeps a (s.tick dt)) : Answers a (execSlotUnload dt slot s) :=
  .next (.getD (h.slotCommand) h)

theorem Keeps.vacate {k} (h : Keeps a s) : Keeps a (s.vacate k) := h.setTile
theorem Keeps.leaveTiles {i} (h : Keeps a s) : Keeps a (s.leaveTiles i) := h.foldl fun _ _ h => h.vacate.recordFree

theorem execUnloadDone_answers {dt slot} (h : Keeps a (s.tick dt)) : Answers a (execUnloadDone dt slot s) :=
  .next (.ite h.reap h.reap.leaveTiles.slotEmpty.newGeneration.replanEvent.upd)

theorem execResupply_answers {dt slot} (h : Keeps a (s.tick dt)) : Answers a (execResupply dt slot s) :=
  .next (.getD (h.slotCommand) h)

theorem Keeps.replanForce (h : Keeps a s) : KeepsOpt a (·) s.replanForce := .ite .none (.some h.odSet)

theorem execReplanForce_answers {dt} (h : Keeps a (s.tick dt)) : Answers a (execReplanForce dt s) :=
  .next (.getD (h.replanForce) h)

theorem Keeps.couch {slots} (h : Keeps a s) : Keeps a (s.couch slots).2 := .iteQ h h.same

theorem Keeps.unpair {g} (h : Keeps a s) : Keeps a (s.unpair g) := by
  unfold State.unpair
  dsimp only
  split
  · exact h.odSet.odSet
  · exact h.odSet

theorem Keeps.swapDie {g h' cause} (h : Keeps a s) : Keeps a (s.swapDie g h' cause) := by
  unfold State.swapDie
  dsimp only
  split
  · exact .ite (Keeps.ite h.stageFloor h.stageFloor.stageFloor).stageFloor.unpair
      (Keeps.ite h.stageFloor h.stageFloor.stageFloor).stageFloor.unpair.pairDies
  · exact (Keeps.ite h.stageFloor h.stageFloor.stageFloor).stageFloor.unpair

theorem Keeps.recordMoves {moves left} (h : Keeps a s) : Keeps a (s.recordMoves moves left) :=
  (h.foldl fun _ _ h => h.recordFree).foldl fun _ _ h => h.stageFloor.stageFloor.stageFloor.stageFloor.stageFloor

theorem Keeps.holdTiles {ks} (h : Keeps a s) : Keeps a (s.holdTiles ks) := h.foldl fun _ _ h => .ite h.setTile h
theorem Keeps.imagesInto {k img} (h : Keeps a s) : Keeps a (s.imagesInto k img) := .ite h.installSave.takeImage h
theorem Keeps.renameTiles {f} (h : Keeps a s) : Keeps a (s.renameTiles f) := h.same
theorem Keeps.runTiles {ks} (h : Keeps a s) : Keeps a (s.runTiles ks) := h.foldl fun _ _ h => .ite h.setTile h

theorem Keeps.reloadWeights {slot q} (h : Keeps a s) : Keeps a (s.reloadWeights slot q) := by
  unfold State.reloadWeights
  dsimp only
  split
  · exact h
  · exact h.foldl fun _ _ h => .ite h h.putRows

theorem Keeps.reloadOn {ks} (h : Keeps a s) : Keeps a (s.reloadOn ks) := by
  unfold State.reloadOn
  refine Keeps.foldl ?_ fun _ _ h => ?_
  · exact h
  · split
    · exact h.foldl fun _ _ h => h.reloadWeights
    · exact h

theorem Keeps.moveTiles {moves} (h : Keeps a s) : Keeps a (s.moveTiles moves) :=
  ((h.holdTiles.foldl fun _ _ h => h.vacate).holdTiles.foldl fun _ _ h => h.imagesInto).upd.renameTiles.reloadOn.runTiles

theorem Keeps.failTiles {g} (h : Keeps a s) : Keeps a (s.failTiles g) := h.foldl fun _ _ h => h.recordFree

theorem Keeps.rehonour {i} (h : Keeps a s) : Keeps a (s.rehonour i) := by
  unfold State.rehonour
  split
  · exact h.odSet
  · exact h

theorem Keeps.carryOut {moves kind slot dies pauseUs} (h : Keeps a s) : Keeps a (s.carryOut moves kind slot dies pauseUs) :=
  ((h.moveTiles.recordMoves.foldl fun _ _ h => h.failTiles).newGeneration.foldl fun _ _
    h => h.assignMirrors.plantTrees.rehonour).replanEvent.foldl fun _ _ h => h.letGo

theorem Keeps.unpairLost (h : Keeps a s) : Keeps a s.unpairLost := by
  unfold State.unpairLost
  refine Keeps.foldl ?_ fun _ _ h => ?_
  · exact h
  · split
    · exact .ite h h.unpair
    · exact h

theorem Keeps.pairRest (h : Keeps a s) : Keeps a s.pairRest := by
  unfold State.pairRest
  dsimp only
  refine Keeps.foldl ?_ fun _ _ h => ?_
  · exact h.unpairLost
  · split
    · exact h
    · split
      · exact h.pairDies
      · split
        · exact h.pairDies
        · exact h

theorem Keeps.rematch (h : Keeps a s) : Keeps a s.rematch := h.pairRest.foldl fun _ _ h => h.assignMirrors

theorem Keeps.restoreRegion {i q e' g} (h : Keeps a s) : Keeps a (s.restoreRegion i q e' g) := by
  unfold State.restoreRegion
  dsimp only
  split
  · split
    · exact h
    · split
      · exact h.send
      · split
        · exact h.send
        · exact .ite h.send h.send.sendAll
  · exact h

theorem Keeps.restoreLanes {i} (h : Keeps a s) : Keeps a (s.restoreLanes i) := by
  unfold State.restoreLanes
  dsimp only
  refine Keeps.foldl ?_ fun _ _ h => ?_
  · exact h
  · refine Keeps.foldl ?_ fun _ _ h => ?_
    · exact h
    · split
      · exact h.restoreRegion
      · exact h

theorem Keeps.resizeSlot {i est cap bulk} (h : Keeps a s) : KeepsOpt a (·) (s.resizeSlot i est cap bulk) := by
  unfold State.resizeSlot
  dsimp only
  split
  · exact .none
  · exact .map' fun _ => (Keeps.getD (h.leaveTiles.seatSlot.slotPlaced.decided.putSeams)
      h.leaveTiles.seatSlot.slotPlaced.decided).plantTrees.startSlot.restoreLanes

theorem Keeps.redecide {i} (h : Keeps a s) : Keeps a (s.redecide i) := by
  unfold State.redecide
  dsimp only
  split
  · split
    · exact h.rehonour
    · split
      · exact h.rehonour.decided
      · exact .ite h.rehonour.decided (.getD (h.rehonour.decided.resizeSlot) h.rehonour.decided)
  · exact h

theorem Keeps.rebottleneck (h : Keeps a s) : Keeps a s.rebottleneck := by
  unfold State.rebottleneck
  dsimp only
  refine Keeps.foldl ?_ fun _ _ h => ?_
  · exact h
  · split
    · exact .ite h h.odSet
    · exact h

theorem execRebalance_answers {dt pauseUs} (h : Keeps a (s.tick dt)) : Answers a (execRebalance dt pauseUs s) := by
  unfold execRebalance
  extract_lets t n pairs
  refine .next ?_
  split
  · split
    · rename_i e
      exact h.couch.of_eq' e
    · rename_i e
      exact ((h.couch.of_eq' e).foldl fun _ _ h => h.swapDie).upd.carryOut
  · split
    · split
      · rename_i e
        exact h.couch.of_eq' e
      · rename_i s1 e
        extract_lets s2 moves r s3
        have h2 : Keeps a s2 := ((h.couch.of_eq' e).foldl fun _ _ h => h.redecide).rematch
        have hr : Keeps a r := h2.rebottleneck
        clear_value s2 r
        have h3 : Keeps a s3 := hr.same
        clear_value s3
        exact .ite (.ite (h3.foldl fun _ _ h => h.letGo) h3.carryOut) h2.rebottleneck.carryOut
    · exact h

theorem execRespare_answers {dt pauseUs} (h : Keeps a (s.tick dt)) : Answers a (execRespare dt pauseUs s) := by
  unfold execRespare
  dsimp only
  refine .next ?_
  split
  · exact h
  · split
    · exact h
    · split
      · exact h
      · split
        · rename_i e
          exact (h.couch.of_eq' e)
        · rename_i e
          exact (h.couch.of_eq' e).swapDie.carryOut

theorem Keeps.saveTiles {i} (h : Keeps a s) : KeepsOpt a (·) (s.saveTiles i) :=
  KeepsOpt.foldl (.some h) fun _ _ h => h.bind fun _ h =>
    .findSome fun _ => (Keeps.holdTiles h).allocData.map fun _ h => h.stackWriteRows.setPslot

theorem Keeps.park {i} (h : Keeps a s) : KeepsOpt a (·) (s.park i) :=
  h.saveTiles.map fun _ h => h.leaveTiles.setPslot.odSet.toSlotState

theorem Keeps.freeData {owner} (h : Keeps a s) : Keeps a (s.freeData owner) := h.freeDataOf

theorem Keeps.unpark {i est cap bulk} (h : Keeps a s) : KeepsOpt a (·) (s.unpark i est cap bulk) := by
  unfold State.unpark
  split
  · exact .none
  · refine .map' fun c => ?_
    extract_lets saved s1 imgs s2 put s3 x
    have h1 : Keeps a s1 := h.seatSlot.slotPlaced
    have h2 : Keeps a s2 := (Keeps.getD h1.putSeams h1).decided
    have h3 : Keeps a s3 := .ite h2.startSlot.restoreLanes
      (h2.holdTiles.foldl fun _ _ h => h.imagesInto.syncTile).reloadOn.runTiles
    exact h3.setPslot.freeData.plantTrees

theorem execSlice_answers {dt out in' est cap bulk pauseUs} (h : Keeps a (s.tick dt)) :
    Answers a (execSlice dt out in' est cap bulk pauseUs s) := by
  unfold execSlice
  extract_lets t o i onto onTiles
  refine .next (.ite h ?_)
  split
  · rename_i e
    exact h.couch.of_eq' e
  · rename_i s1 e
    have h1 : Keeps a s1 := h.couch.of_eq' e
    split
    · rename_i e'
      exact ((KeepsOpt.ite (.some h1) h1.park).bind (fun _ h => h.unpark) _ e').placedGeneration.replanEvent.letGo
    · exact h

theorem Keeps.makeSpare {g} (h : Keeps a s) : Keeps a (s.makeSpare g) := h.stageFloor.unpair

theorem Keeps.spareStep (h : Keeps a s) : KeepsOpt a (·.2) s.spareStep := by
  unfold State.spareStep
  extract_lets want extra near
  split
  · rename_i e
    refine KeepsOpt.some (KeepsOpt.findSome (fun g => ?_) _ e)
    split
    · exact .some h.swapDie
    · exact .map' fun _ => h.makeSpare
  · exact .map' fun _ => h.stageFloor

theorem execFullReplan_answers {dt pauseUs} (h : Keeps a (s.tick dt)) : Answers a (execFullReplan dt pauseUs s) := by
  unfold execFullReplan
  extract_lets t
  refine .next (.ite h ?_)
  split
  · rename_i e
    exact h.couch.of_eq' e
  · rename_i s1 e
    have h1 : Keeps a s1 := h.couch.of_eq' e
    split
    · rename_i e'
      exact (h1.spareStep _ e').carryOut
    · extract_lets s2 moves r s3 s4
      have h2 : Keeps a s2 := (h1.foldl fun _ _ h => h.redecide).rematch
      have hr : Keeps a r := h2.rebottleneck
      clear_value s2 r
      have h3 : Keeps a s3 := (Keeps.odSet (Keeps.same hr)).newGeneration
      have h4 : Keeps a s4 := (h3.foldl fun _ _ h => h.keepPaths).settleHops
      clear_value s3 s4
      exact .ite h2.rebottleneck.carryOut (h4.replanEvent.foldl fun _ _ h => h.letGo)

theorem Keeps.sampleSpeed {median r} (h : Keeps a s) : Keeps a (s.sampleSpeed median r) := by
  unfold State.sampleSpeed
  dsimp only
  split
  · exact h.odSet.upd.odSet
  · split
    · exact h.odSet.upd
    · exact .ite h.odSet.odSet.upd h.odSet

theorem execSpeedSample_answers {dt rates} (h : Keeps a (s.tick dt)) : Answers a (execSpeedSample dt rates s) :=
  .next (.ite h (h.foldl fun _ _ h => h.sampleSpeed))

theorem execPlanRecomputeDone_answers {dt} (h : Keeps a (s.tick dt)) : Answers a (execPlanRecomputeDone dt s) :=
  .next h.publishPlans

theorem Keeps.discard {d} (h : Keeps a s) : Keeps a (s.discard d) := h.bump
theorem Keeps.rtCount {d} (h : Keeps a s) : Keeps a (s.rtCount d) := .ite h.bump.bump.setCe h.bump
theorem Keeps.heard {e' stream} (h : Keeps a s) : Keeps a (s.heard e' stream) := h.same

theorem Keeps.rt {d mtype bodyOk run} (h : Keeps a s) (hrun : ∀ i j k b t, Keeps a t → Keeps a (run i j k b t)) :
    Keeps a (s.rt d mtype bodyOk run) :=
  .ite h (.ite h.bump.discard (.ite h.rtCount.discard (.ite h.rtCount.discard (hrun _ _ _ _ _ h.rtCount.heard))))

theorem Keeps.unstage {stream src} (h : Keeps a s) : Keeps a (s.unstage stream src) := h.same

theorem execSubmitFragment_answers {dt d} (h : Keeps a (s.tick dt)) : Answers a (execSubmitFragment dt d s) :=
  .next (h.rt fun _ _ _ _ _ h => .ite h.unstage h.unstage.upd)

theorem Keeps.sendSack {port dst stream cum} (h : Keeps a s) : Keeps a (s.sendSack port dst stream cum) :=
  (Keeps.ite h.setCe h).tx

theorem Keeps.sackLane {l} (h : Keeps a s) : Keeps a (s.sackLane l) := by
  unfold State.sackLane
  split
  · exact h
  · exact h.sendSack

theorem Keeps.resendEnd {t} (h : Keeps a s) : Keeps a (s.resendEnd t) := h.tx

theorem execRtSubmit_answers {dt stream src} (h : Keeps a (s.tick dt)) : Answers a (execRtSubmit dt stream src s) := by
  unfold execRtSubmit
  dsimp only
  refine .next ?_
  split
  · exact h
  · split
    · exact h
    · split
      · exact h.unstage.sackLane
      · exact h.unstage.sendSack
      · exact h.unstage.sendSack.resendEnd
      · split
        · exact h.unstage.upd.sendSack.endQueued
        · exact h.unstage.upd.sendSack

theorem execSubmitTimeout_answers {dt stream src} (h : Keeps a (s.tick dt)) : Answers a (execSubmitTimeout dt stream src s) := by
  unfold execSubmitTimeout
  dsimp only
  refine .next ?_
  split
  · exact .ite h.unstage h
  · exact h

theorem Keeps.giveTo {q p} (h : Keeps a s) : Keeps a (s.giveTo q p) := .ite h.same h.same.seamSend

theorem Keeps.admitCascade {cls} (h : Keeps a s) : KeepsOpt a (·) (s.admitCascade cls) := by
  unfold State.admitCascade
  split
  · exact .none
  · refine .findSome fun _ => ?_
    extract_lets ps k s1 reel l c s2
    have hl : Keeps a l := Keeps.setLane h.same
    clear_value l
    have h2 : Keeps a s2 := hl.same
    exact .ite .none (.some (h2.foldl fun _ _ h => h.giveTo))

theorem Keeps.allocExtents {l pages f homes} (h : Keeps a s) : KeepsOpt a (·) (s.allocExtents l pages f homes) := by
  refine KeepsOpt.foldl (.some h) fun _ _ h => h.bind fun _ h => ?_
  split
  · exact .none
  · exact (Keeps.allocData h).map fun _ h => h.dirPut

theorem Keeps.admitTo {q slot} (h : Keeps a s) : KeepsOpt a (·) (s.admitTo q slot) := by
  unfold State.admitTo
  split
  · split
    · exact .none
    · extract_lets ok
      refine .ite .none (h.allocExtents.map fun s1 h => ?_)
      exact h.setLane.syncLane.upd
  · exact .none

theorem Keeps.admitClass {cls} (h : Keeps a s) : KeepsOpt a (·) (s.admitClass cls) := by
  unfold State.admitClass
  split
  · exact .none
  · exact .findSome fun _ => h.admitTo

theorem Keeps.admitNext (h : Keeps a s) : KeepsOpt a (·) s.admitNext := .findSome fun _ => h.admitClass

theorem execAdmitStream_answers {dt} (h : Keeps a (s.tick dt)) : Answers a (execAdmitStream dt s) := by
  unfold execAdmitStream
  dsimp only
  refine .next ?_
  split
  · exact h.reap
  · split
    · rename_i e
      exact ((.ite (.findSome fun _ => h.reap.admitCascade) .none : KeepsOpt a _ _) _ e)
    · exact .getD (h.reap.admitNext) h.reap

theorem Keeps.releaseDue {l n} (h : Keeps a s) : Keeps a (s.releaseDue l n).1 := by
  induction n generalizing s with
  | zero => exact h
  | succ n ih =>
    unfold State.releaseDue
    split
    · exact h
    · exact .iteP h (ih h.setLane.releaseOne)

theorem Keeps.creditWait {l x} (h : Keeps a s) : Keeps a (s.creditWait l x) := .ite h h.setLane

theorem Keeps.release {l} (h : Keeps a s) : Keeps a (s.release l) := by
  unfold State.release
  dsimp only
  split
  · exact h
  · split
    · exact h.releaseBulk
    · split
      · exact .ite h.releaseDue.sendTokens.flushDone.creditWait h.releaseDue.sendTokens.flushDone
      · exact h.releaseDue.sendTokens.flushDone

theorem execTokenRelease_answers {dt lane} (h : Keeps a (s.tick dt)) : Answers a (execTokenRelease dt lane s) := .next h.release

theorem execUnderrunRelease_answers {dt lane} (h : Keeps a (s.tick dt)) : Answers a (execUnderrunRelease dt lane s) := by
  unfold execUnderrunRelease
  dsimp only
  refine .next ?_
  split
  · exact h
  · exact .ite h (.ite h.creditWait h.setLane.bump.releaseOne.sendTokens.flushDone)

theorem Keeps.abortOnLane {l seq} (h : Keeps a s) : Keeps a (s.abortOnLane l seq) := by
  unfold State.abortOnLane
  dsimp only
  split
  · exact h
  · exact .ite h.setLane.setLane.release.flushDone h.setLane.terminate

theorem execRtAbort_answers {dt d} (h : Keeps a (s.tick dt)) : Answers a (execRtAbort dt d s) := by
  unfold execRtAbort
  dsimp only
  refine .next ?_
  refine h.rt fun _ _ _ _ _ h => ?_
  split
  · exact .ite h.setLane.sackLane.abortOnLane h.sackLane
  · exact .ite h.sendSack.endQueued.answerAbort h.sendSack
  · split
    · exact h.setTerm.sendSack.answerAbort
    · split
      · exact h.sendSack.tx
      · exact h.sendSack
  · exact h.tx

theorem execTerminalRecordExpire_answers {dt stream} (h : Keeps a (s.tick dt)) : Answers a (execTerminalRecordExpire dt stream s) := by
  unfold execTerminalRecordExpire
  dsimp only
  refine .next ?_
  split
  · exact .ite h.same h
  · exact h

theorem execProductionCheck_answers {dt lane} (h : Keeps a (s.tick dt)) : Answers a (execProductionCheck dt lane s) := by
  unfold execProductionCheck
  dsimp only
  refine .next ?_
  split
  · exact h
  · exact .ite h.setLane.contractRisk h.setLane

theorem execAdaptCycleStart_answers {dt slot} (h : Keeps a (s.tick dt)) : Answers a (execAdaptCycleStart dt slot s) :=
  .next (.ite h.setPslot.syncLane.sendAll h)

theorem execAdaptCycleDone_answers {dt slot} (h : Keeps a (s.tick dt)) : Answers a (execAdaptCycleDone dt slot s) := by
  unfold execAdaptCycleDone
  dsimp only
  refine .next ?_
  split
  · exact h
  · split
    · rename_i e
      exact (h.swapSlot.of_eq' e)
    · rename_i e
      exact (h.swapSlot.of_eq' e).setPslot.bump.bump.odSet.odSet.publish24

theorem Keeps.failoverEvent {p kind moved} (h : Keeps a s) : Keeps a (s.failoverEvent p kind moved) := h.publish24

theorem Keeps.altLost {old : State} (h : Keeps a s) : Keeps a (old.altLost s) :=
  h.foldl fun _ _ h => .ite h.failoverEvent h

theorem Keeps.setRole {p role} (h : Keeps a s) : Keeps a (s.setRole p role).2 := by
  unfold State.setRole
  refine .iteQ h (.iteQ h (.iteQ h (.iteQ h ?_)))
  extract_lets st s1
  have h1 : Keeps a s1 := h.odSet.odSet
  clear_value s1
  dsimp only
  exact h1.setHostPort.altLost

theorem execPortRoleWrite_answers {dt port role} (h : Keeps a (s.tick dt)) : Answers a (execPortRoleWrite dt port role s) :=
  .next h.setRole

theorem execRtSack_answers {dt d} (h : Keeps a (s.tick dt)) : Answers a (execRtSack dt d s) := by
  unfold execRtSack
  dsimp only
  refine .next ?_
  refine h.rt fun _ _ _ _ _ h => ?_
  split
  · exact (Keeps.ite h.setCe h).setLane
  · exact (Keeps.ite h.setCe h).setTerm
  · exact .ite (.ite h.setCe h) (Keeps.ite h.setCe h).discard

theorem execRtCredit_answers {dt d} (h : Keeps a (s.tick dt)) : Answers a (execRtCredit dt d s) := by
  unfold execRtCredit
  dsimp only
  refine .next ?_
  refine h.rt fun _ _ _ _ _ h => ?_
  split
  · exact .ite h.setLane.sackLane.release h.sackLane
  · exact h.same.sendSack
  · exact h.setTerm.sendSack
  · exact h.discard

theorem execRtRetransmit_answers {dt stream} (h : Keeps a (s.tick dt)) : Answers a (execRtRetransmit dt stream s) := by
  unfold execRtRetransmit
  dsimp only
  refine .next ?_
  split
  · split
    · exact h
    · split
      · exact h.setLane.tx.ceSent
      · exact h
  · split
    · exact h
    · split
      · exact h.setTerm.tx.ceSent
      · exact h
  · exact h

theorem execHostSilence_answers {dt stream} (h : Keeps a (s.tick dt)) : Answers a (execHostSilence dt stream s) := by
  unfold execHostSilence
  dsimp only
  refine .next ?_
  split
  · exact .ite h.abortOnLane h
  · exact .ite h.endQueued h
  · exact h

theorem execPfcPause_answers {dt port prio} (h : Keeps a (s.tick dt)) : Answers a (execPfcPause dt port prio s) :=
  .next (.ite h.setHostPort h)

theorem Keeps.portReleases {p} (h : Keeps a s) : Keeps a (s.portReleases p) := h.foldl fun _ _ h => h.release

theorem Keeps.endPause {p} (h : Keeps a s) : Keeps a (s.endPause p) := by
  unfold State.endPause
  dsimp only
  split
  · exact h
  · exact (h.setHostPort.bumpN.foldl fun _ _ h => h.txEmit).portReleases

theorem execPfcPauseEnd_answers {dt port} (h : Keeps a (s.tick dt)) : Answers a (execPfcPauseEnd dt port s) := .next h.endPause

theorem execPtpMessage_answers {dt port domain announce offsetNs} (h : Keeps a (s.tick dt)) :
    Answers a (execPtpMessage dt port domain announce offsetNs s) := by
  unfold execPtpMessage
  extract_lets t p r s1 s2 b
  have h1 : Keeps a s1 := h.setHostPort
  have h2 : Keeps a s2 := Keeps.odSet (Keeps.odSet h.same)
  clear_value s1 s2
  exact .next (.ite h (.ite h1.same (.ite (.ite h2 (Keeps.publish24 h2.same)) h)))

theorem Keeps.ptpLost (h : Keeps a s) : Keeps a s.ptpLost := .ite h h.odSet

theorem execPtpPortMove_answers {dt} (h : Keeps a (s.tick dt)) : Answers a (execPtpPortMove dt s) :=
  .next (.ite (.ite h.same.ptpLost h.same) h)

theorem Keeps.moveLane {l alt} (h : Keeps a s) : Keeps a (s.moveLane l alt) := by
  unfold State.moveLane
  dsimp only
  split
  · exact h
  · exact (h.setLane.foldl fun _ _ h => h.tx).foldl fun _ _ h => h.tx

theorem Keeps.moveTerm {t alt} (h : Keeps a s) : Keeps a (s.moveTerm t alt) := h.setTerm.foldl fun _ _ h => h.tx

theorem Keeps.failPort {p} (h : Keeps a s) : Keeps a (s.failPort p) := by
  unfold State.failPort
  extract_lets hp s1 s2 s3 alt ls s4 s5 rebind s6
  have h1 : Keeps a s1 := by
    dsimp only [s1]
    split
    · exact h.bumpN
    · exact h
  clear_value s1
  have h2 : Keeps a s2 := h1.odSet.bump.setHostPort
  clear_value s2
  have h3 : Keeps a s3 := h2.altLost
  clear_value s3
  have h4 : Keeps a s4 := h3.foldl fun _ _ h => h.moveLane
  have h5 : Keeps a s5 := h4.foldl fun _ _ h => h.moveTerm
  clear_value s5
  have h6 : Keeps a s6 := h5.same
  clear_value s6
  exact .ite h (.ite h3.failoverEvent (Keeps.ite h6 h6.bump).failoverEvent)

theorem execHostPortFail_answers {dt port} (h : Keeps a (s.tick dt)) : Answers a (execHostPortFail dt port s) := .next h.failPort
theorem Keeps.sendLldp {p} (h : Keeps a s) : Keeps a (s.sendLldp p) := h.txEmit

theorem execHostPortUp_answers {dt port} (h : Keeps a (s.tick dt)) : Answers a (execHostPortUp dt port s) :=
  .next (.ite h.odSet.sendLldp.portReleases h)

theorem Keeps.takeLife {p serial part} (h : Keeps a s) : Keeps a (s.takeLife p serial part) := by
  unfold State.takeLife
  exact (Keeps.ite h (h.foldl fun _ _ h => h.odSet)).odSet.odSet.odSet.bump.odSet.upd

theorem Keeps.moduleEvent {p kind refusal} (h : Keeps a s) : Keeps a (s.moduleEvent p kind refusal) := h.publish24

theorem execModuleInsert_answers {dt port vendor part serial revision cmis app powerMw warnUa} (h : Keeps a (s.tick dt)) :
    Answers a (execModuleInsert dt port vendor part serial revision cmis app powerMw warnUa s) := by
  unfold execModuleInsert
  extract_lets t p s1 s2 s3 served refusal
  have h2 : Keeps a s2 := h.odSet.odSet.odSet.odSet.odSet.odSet.takeLife
  clear_value s2
  have h3 : Keeps a s3 := Keeps.moduleEvent h2.same
  exact .next (.ite h (.ite h3.odSet.odSet.odSet.moduleEvent h3.odSet.odSet.odSet.moduleEvent))

theorem Keeps.recordRepair {r second} (h : Keeps a s) : Keeps a (s.recordRepair r second) :=
  .ite h.same.publish.bump.publish.bump h.same.publish.bump

theorem Keeps.instantRepair {kind which lapsed} (h : Keeps a s) : Keeps a (s.instantRepair kind which lapsed) :=
  .ite h h.recordRepair

theorem Keeps.moduleFault {p} (h : Keeps a s) : Keeps a (s.moduleFault p) := .ite h.failPort.instantRepair h.failPort

theorem Keeps.removeModule {p} (h : Keeps a s) : Keeps a (s.removeModule p) := by
  unfold State.removeModule
  exact (h.moduleFault.moduleEvent.odSet.foldl fun _ _ h => .ite h h.odSet).odSet.upd

theorem Keeps.relink (h : Keeps a s) : Keeps a s.relink := h.foldl fun _ _ h => h.odSet
theorem Keeps.judgeCascade (h : Keeps a s) : Keeps a s.judgeCascade := .ite h h.odSet

theorem Keeps.reissue {x} (h : Keeps a s) : Keeps a (s.reissue x) := by
  unfold State.reissue
  dsimp only
  split
  · exact h.same.send
  · exact h.same.send

theorem Keeps.cascadeEvent {kind panel port lvl latency} (h : Keeps a s) : Keeps a (s.cascadeEvent kind panel port lvl latency) :=
  h.publish24

theorem Keeps.linkGone {q st} (h : Keeps a s) : Keeps a (s.linkGone q st) :=
  (h.odSet.relink.cascadeEvent.foldl fun _ _ h => h.reissue).judgeCascade

theorem execModuleRemove_answers {dt port} (h : Keeps a (s.tick dt)) : Answers a (execModuleRemove dt port s) :=
  .next (.ite h (.ite h.removeModule.linkGone h.removeModule))

theorem Keeps.replaceEvent {p kind days bias} (h : Keeps a s) : Keeps a (s.replaceEvent p kind days bias) :=
  .ite h h.same.publish24

theorem execModuleMonitorRead_answers {dt port tempMc biasUa fault} (h : Keeps a (s.tick dt)) :
    Answers a (execModuleMonitorRead dt port tempMc biasUa fault s) := by
  unfold execModuleMonitorRead
  extract_lets t p s1 e s1' s2 c s3 s4
  have h1 : Keeps a s1 := h.odSet
  have h1' : Keeps a s1' := h1.odSet
  have h2 : Keeps a s2 := .ite (.ite h1'.odSet h1') h1
  clear_value s2
  have h3 : Keeps a s3 := h2.same
  have h4 : Keeps a s4 := .ite h3.replaceEvent h3
  exact .next (.ite h (.ite h4.moduleFault.odSet.moduleEvent h4))

theorem execLldpReceive_answers {dt port mac portId name} (h : Keeps a (s.tick dt)) :
    Answers a (execLldpReceive dt port mac portId name s) :=
  .next (.ite h.odSet h)

theorem execArpRequest_answers {dt port target sender} (h : Keeps a (s.tick dt)) : Answers a (execArpRequest dt port target sender s) :=
  .next (.ite h.txEmit h)

theorem execNeighborDiscovery_answers {dt port target sender} (h : Keeps a (s.tick dt)) :
    Answers a (execNeighborDiscovery dt port target sender s) :=
  .next (.ite h.txEmit h)

theorem execIcmpEcho_answers {dt d v6 target} (h : Keeps a (s.tick dt)) : Answers a (execIcmpEcho dt d v6 target s) :=
  .next (.ite h (.ite h.discard (.ite h.txEmit h)))

theorem Keeps.dropParts (h : Keeps a s) : Keeps a s.dropParts := h.same

theorem execEopFragmentTimeout_answers {dt} (h : Keeps a (s.tick dt)) : Answers a (execEopFragmentTimeout dt s) :=
  .next h.dropParts

theorem Keeps.eopDiscard (h : Keeps a s) : Keeps a s.eopDiscard := h.same

theorem Keeps.eop {d kind run} (h : Keeps a s) (hrun : ∀ t, Keeps a t → Keeps a (run t)) : Keeps a (s.eop d kind run) :=
  .ite (.ite h (.ite h.eopDiscard (hrun _ h)))
    (.ite h (.ite h.bump.bump (.ite h.bump (.ite h.bump.eopDiscard (hrun _ h.bump)))))

theorem Keeps.dropHalfOpen (h : Keeps a s) : Keeps a s.dropHalfOpen := h.same
theorem Keeps.burn (h : Keeps a s) : Keeps a s.burn := h.same

theorem execHello_answers {dt d} (h : Keeps a (s.tick dt)) : Answers a (execHello dt d s) := by
  unfold execHello
  dsimp only
  refine .next ?_
  refine h.eop fun _ h => ?_
  split
  · exact h.dropHalfOpen.eopDiscard
  · split
    · exact h.dropHalfOpen.eopSend
    · exact h.dropHalfOpen.upd.burn.eopSend

theorem execHalfOpenExpire_answers {dt} (h : Keeps a (s.tick dt)) : Answers a (execHalfOpenExpire dt s) := .next h.dropHalfOpen
theorem Keeps.logEntry {session who op code addr} (h : Keeps a s) : Keeps a (s.logEntry session who op code addr) := h.same.bump

theorem Keeps.refuse {port dst session op code} (h : Keeps a s) : Keeps a (s.refuse port dst session op code) :=
  h.eopSend.logEntry

theorem execProof_answers {dt session} (h : Keeps a (s.tick dt)) : Answers a (execProof dt session s) := by
  unfold execProof
  dsimp only
  refine .next ?_
  split
  · exact h
  · split
    · exact h
    · split
      · exact h.same.refuse
      · exact h.same.upd.sendSec

theorem Keeps.eopJoin {d} (h : Keeps a s) : Keeps a (s.eopJoin d).1 :=
  .iteP h.dropParts.eopDiscard (.iteP h.dropParts.upd (.iteP h.dropParts.upd.eopDiscard h.dropParts.upd))

theorem Keeps.respond {id rid pt} (h : Keeps a s) : Keeps a (s.respond id rid pt) := by
  unfold State.respond
  split
  · exact h
  · exact h.setSession.sendSec

theorem Keeps.protLog {x op addr code} (h : Keeps a s) : Keeps a (s.protLog x op addr code) := .ite h.logEntry h
theorem Keeps.respondCode {x op rid code} (h : Keeps a s) : Keeps a (s.respondCode x op rid code) := h.protLog.respond

theorem Keeps.takePt {x pt} (h : Keeps a s) : Keeps a (s.takePt x pt) := by
  unfold State.takePt
  dsimp only
  split
  · exact h.respondCode
  · split
    · exact h.setSession
    · split
      · exact h.sendSec
      · exact h
      · exact .ite h.respondCode (.ite h.respondCode h.setSession)

theorem Keeps.takeProtected {sess seq m} (h : Keeps a s) : Keeps a (s.takeProtected sess seq m) := by
  unfold State.takeProtected
  dsimp only
  split
  · split
    · exact h.eopDiscard
    · split
      · exact h.eopDiscard
      · exact h.setSession.takePt
  · split
    · exact h
    · split
      · exact h.eopDiscard
      · exact .ite h.eopDiscard h.same

theorem execProtectedReceive_answers {dt d} (h : Keeps a (s.tick dt)) : Answers a (execProtectedReceive dt d s) := by
  unfold execProtectedReceive
  dsimp only
  refine .next ?_
  refine h.eop fun _ h => ?_
  split
  · split
    · rename_i e
      exact (h.dropHalfOpen.eopJoin.of_eq e).takeProtected
    · rename_i e
      exact (h.dropHalfOpen.eopJoin.of_eq e)
  · exact .ite h.dropHalfOpen h.dropHalfOpen.upd.refuse

theorem Keeps.serve {id op run} (h : Keeps a s) (hrun : ∀ t x i b, Keeps a t → Keeps a (run t x i b)) :
    Keeps a (s.serve id op run) := by
  unfold State.serve
  split
  · exact h
  · split
    · exact h
    · exact .ite h (hrun _ _ _ _ h.setSession)

theorem Keeps.closeSession {id reason} (h : Keeps a s) : Keeps a (s.closeSession id reason) := by
  unfold State.closeSession
  exact h.sendSec.upd

theorem execCloseSession_answers {dt session} (h : Keeps a (s.tick dt)) : Answers a (execCloseSession dt session s) :=
  .next (h.serve fun _ _ _ _ h => h.closeSession)

theorem execKeepalive_answers {dt session} (h : Keeps a (s.tick dt)) : Answers a (execKeepalive dt session s) :=
  .next (h.serve fun _ _ _ _ h => h.respond)

theorem execSessionIdleTimeout_answers {dt session} (h : Keeps a (s.tick dt)) : Answers a (execSessionIdleTimeout dt session s) := by
  unfold execSessionIdleTimeout
  dsimp only
  refine .next ?_
  split
  · exact .ite h.closeSession h
  · exact h

theorem execSessionLifetimeEnd_answers {dt session} (h : Keeps a (s.tick dt)) : Answers a (execSessionLifetimeEnd dt session s) := by
  unfold execSessionLifetimeEnd
  dsimp only
  refine .next ?_
  split
  · exact .ite h.closeSession h
  · exact h

theorem Keeps.logAll {x op l} (h : Keeps a s) : Keeps a (s.logAll x op l) := h.foldl fun _ _ h => h.protLog

theorem execReadReq_answers {dt session} (h : Keeps a (s.tick dt)) : Answers a (execReadReq dt session s) :=
  .next (h.serve fun _ _ _ _ h => .ite h.respondCode h.logAll.respond)

theorem Keeps.clearCounter {a'} (h : Keeps a s) : Keeps a (s.clearCounter a') := by
  unfold State.clearCounter
  exact h.odSet.upd

theorem Keeps.mgmtWrite {sub v} (h : Keeps a s) : KeepsOpt a (·) (s.mgmtWrite sub v) := .ite .none (.some h.same)
theorem Keeps.mail {i mbox word bit} (h : Keeps a s) : Keeps a (s.mail i mbox word bit) := (Keeps.ite h.same h.writeMail).ring
theorem Keeps.startRamp {a' target} (h : Keeps a s) : Keeps a (s.startRamp a' target) := h.same

theorem Keeps.setpointWrite {sec domain mv} (h : Keeps a s) : KeepsOpt a (·) (s.setpointWrite sec domain mv) :=
  .ite (.some h.startRamp.upd.mail) .none

theorem Keeps.putField {r a' v} (h : Keeps a s) : Keeps a (s.putField r a' v) := by
  unfold State.putField
  exact h.odSet.upd

theorem Keeps.setLevels (h : Keeps a s) : Keeps a s.setLevels := h.foldl fun _ _ h => h.setLevel
theorem Keeps.coolingEvent {kind cause sec ratio} (h : Keeps a s) : Keeps a (s.coolingEvent kind cause sec ratio) := h.publish24

theorem Keeps.fieldEffect {old : State} {ix sub v} (h : Keeps a s) : Keeps a (s.fieldEffect old ix sub v) :=
  .ite (h.foldl fun _ _ h => h.mail).setLevels (.ite h.same (.ite h.altLost (.ite h.same
    (.ite (Keeps.ite h.setSector.odSet.odSet.coolingEvent h.setSector.odSet.odSet).setLevel h))))

theorem Keeps.writeField {ix r b} (h : Keeps a s) : KeepsOpt a (·) (s.writeField ix r b) := by
  unfold State.writeField
  extract_lets a' v c q qs
  have hc : Keeps a c := h.clearCounter
  have hq : Keeps a qs := h.setRole
  clear_value c qs
  exact .ite (.ite (.some hc.same) .none) (.ite .none (.ite h.mgmtWrite (.ite h.setpointWrite
    (.ite (.ite (.some hq.same) .none) (.ite h.slotCursor (.ite (.ite .none (.some h.putField)) (.some h.putField.fieldEffect)))))))

theorem Keeps.writeFields {old : State} {ix l b} (h : Keeps a s) : KeepsOpt a (·) (State.writeFields old ix l b s) := by
  induction l generalizing s b with
  | nil => exact .some h
  | cons r l ih => exact (KeepsOpt.ite (.ite (.some h) .none) h.writeField).bind fun _ h => ih h

theorem Keeps.takeRecord (h : Keeps a s) : Keeps a s.takeRecord :=
  (h.foldl fun _ _ h => h.odSet.odSet).odSet.odSet.odSet.odSet.upd.relink

theorem Keeps.finishWrite {ix} (h : Keeps a s) : KeepsOpt a (·) (s.finishWrite ix) := by
  unfold State.finishWrite
  exact .ite (.some h) (.ite (.some h.takeRecord) .none)

theorem Keeps.refuseQueue (h : Keeps a s) : Keeps a s.refuseQueue := h.foldl fun _ _ h => h.endQueued
theorem Keeps.holdCmd (h : Keeps a s) : KeepsOpt a (·) s.holdCmd := .ite (.some h.setDev.refuseQueue.odSet) .none
theorem Keeps.releaseCmd (h : Keeps a s) : KeepsOpt a (·) s.releaseCmd := .ite (.some h.setDev.odSet) .none

theorem Keeps.holdWrite {v} (h : Keeps a s) : KeepsOpt a (·) (s.holdWrite v) := by
  unfold State.holdWrite
  split
  · exact h.holdCmd
  · exact h.releaseCmd
  · exact .none

theorem Keeps.portsDown (h : Keeps a s) : Keeps a s.portsDown := h.foldl fun _ _ h => .ite h.odSet.odSet h.odSet

theorem Keeps.bare {keep keepMem} (h : Keeps a s) : Keeps a (s.bare keep keepMem) := by
  obtain ⟨hpending, hclk, hmem⟩ := h
  refine ⟨hpending, hclk, fun w => ?_⟩
  change mwf _ (if keepMem then _ else _) = true
  split
  · exact mwf_filter _ _ _ (hmem w)
  · rfl

theorem Keeps.closeAll {ids reason} (h : Keeps a s) : Keeps a (s.closeAll ids reason) := h.foldl fun _ _ h => h.closeSession
theorem Keeps.closeUnserved (h : Keeps a s) : Keeps a s.closeUnserved := h.closeAll
theorem Keeps.beginStep {n} (h : Keeps a s) : Keeps a (s.beginStep n) := h.odSet.odSet
theorem Keeps.failOffgrid {fn cause} (h : Keeps a s) : Keeps a (s.failOffgrid fn cause) := h.stageFloor.stageFloor
theorem Keeps.latchSector {i} (h : Keeps a s) : Keeps a (s.latchSector i) := h.setSector.odSet.odSet

theorem Keeps.markKnown (h : Keeps a s) : Keeps a s.markKnown :=
  ((h.foldl fun _ _ h => h.foldl fun _ _ h => h.stageFloor.stageFloor).foldl fun _ _ h => h.failOffgrid).foldl fun _ _
    h => h.latchSector.foldl fun _ _ h => h.stageFloor.stageFloor

theorem Keeps.enterBringup {step warm} (h : Keeps a s) : Keeps a (s.enterBringup step warm) := by
  unfold State.enterBringup
  extract_lets old ports s1 s2 s3
  have hp : Keeps a ports := h.portsDown
  clear_value ports
  have h1 : Keeps a s1 := Keeps.bare hp.same
  clear_value s1
  have h2 : Keeps a s2 := h1.same
  clear_value s2
  have h3 : Keeps a s3 := h2.foldl fun _ _ h => h.idleTile
  exact h3.setDev.markKnown.bump.odSet.beginStep.closeUnserved

theorem Keeps.startCmd (h : Keeps a s) : KeepsOpt a (·) s.startCmd := .ite .none (.some h.enterBringup)

theorem Keeps.shutDown (h : Keeps a s) : Keeps a s.shutDown :=
  (h.portsDown.bare.foldl fun _ _ h => h.odSet.odSet).takeRecord.closeUnserved

theorem Keeps.stopCmd (h : Keeps a s) : KeepsOpt a (·) s.stopCmd := .ite .none (.some h.setDev.shutDown.odSet)

theorem Keeps.warmCmd (h : Keeps a s) : KeepsOpt a (·) s.warmCmd :=
  .ite .none (.ite (.some h.setDev.shutDown.odSet) (.some h.enterBringup))

theorem Keeps.powerWrite {v} (h : Keeps a s) : KeepsOpt a (·) (s.powerWrite v) := by
  unfold State.powerWrite
  split
  · exact h.startCmd
  · exact h.stopCmd
  · exact h.warmCmd
  · exact .none

theorem Keeps.unretireCmd (h : Keeps a s) : KeepsOpt a (·) s.unretireCmd := by
  unfold State.unretireCmd
  exact .ite .none (.some h.setDev.odSet.upd)

theorem Keeps.storeEvent {kind} (h : Keeps a s) : Keeps a (s.storeEvent kind) := h.publish24
theorem Keeps.setOctet {a' n v} (h : Keeps a s) : Keeps a (s.setOctet a' n v) := h.odSet
theorem Keeps.setTrim {k c} (h : Keeps a s) : Keeps a (s.setTrim k c) := h.setOctet
theorem Keeps.storeReset (h : Keeps a s) : Keeps a s.storeReset := (h.same.foldl fun _ _ h => h.setTrim).storeEvent
theorem Keeps.sessionCloseCmd {id} (h : Keeps a s) : Keeps a (s.sessionCloseCmd id) := .ite h.odSet.upd h.odSet
theorem Keeps.putFleet {n b i} (h : Keeps a s) : Keeps a (s.putFleet n b i) := h.odSet.odSet.odSet.odSet.odSet

theorem Keeps.quorumSet {b} (h : Keeps a s) : KeepsOpt a (·) (s.quorumSet b) := by
  have stored : ∀ u : State, Keeps a u → Keeps a { u with storeDirty := true } := fun _ h => h.same
  have h1 : Keeps a ((List.range 9).foldl (fun s i => s.putFleet (leAt b 1 1) b i) s) := h.foldl fun _ _ h => h.putFleet
  exact .ite .none (.some (stored _ h1.odSet.odSet))

theorem Keeps.putPrincipal {slot b} (h : Keeps a s) : Keeps a (s.putPrincipal slot b) := by
  unfold State.putPrincipal
  exact h.odSet.odSet.odSet.odSet.odSet.odSet.upd

theorem Keeps.principalSet {level b} (h : Keeps a s) : KeepsOpt a (·) (s.principalSet level b) :=
  .ite .none (.ite .none (.ite .none (.ite (.some h.putPrincipal) .none)))

theorem Keeps.faultClear {k} (h : Keeps a s) : Keeps a (s.faultClear k) := h.setTile.odSet

theorem Keeps.retrainCmd {l} (h : Keeps a s) : KeepsOpt a (·) (s.retrainCmd l) :=
  .ite .none (.ite (.some h.startRetrain) (.some h.odSet))

theorem Keeps.replanNow (h : Keeps a s) : KeepsOpt a (·) s.replanNow := .ite .none (.some h.odSet)

theorem Keeps.stallAbort {l} (h : Keeps a s) : Keeps a (s.stallAbort l) := by
  unfold State.stallAbort
  dsimp only
  split
  · exact .ite h.odSet h.setLane.abortLanes.upd.odSet
  · exact h.odSet

theorem Keeps.couchAdd {stream panel serial quorum} (h : Keeps a s) : Keeps a (s.couchAdd stream panel serial quorum).1 :=
  .iteP h h.same

theorem Keeps.couchWrite {b} (h : Keeps a s) : KeepsOpt a (·) (s.couchWrite b) := .ite .none (.some h.couchAdd.odSet)
theorem Keeps.reclass {q} (h : Keeps a s) : Keeps a (s.reclass q) := .ite h h.odSet

theorem Keeps.storeConfig {fields} (h : Keeps a s) : Keeps a (s.storeConfig fields) :=
  (((h.foldl fun _ _ h => h.odSet).foldl fun _ _ h => .ite h.odSet h.odSet.odSet).upd.foldl fun _ _ h => h.reclass).relink

theorem Keeps.seamAll {kind body} (h : Keeps a s) : Keeps a (s.seamAll kind body) := h.foldl fun _ _ h => h.seamCtl

theorem Keeps.replaceWrite {b} (h : Keeps a s) : KeepsOpt a (·) (s.replaceWrite b) :=
  .ite .none (.ite (.some h.odSet)
    (.some ((h.odSet.odSet.foldl fun _ _ h => .ite h.odSet h).storeConfig.seamAll.odSet.foldl fun _ _ h => h.seamSend)))

theorem Keeps.seamRetrain {q v} (h : Keeps a s) : KeepsOpt a (·) (s.seamRetrain q v) := .ite .none (.some h.bump.odSet.linkGone)
theorem Keeps.countLocks (h : Keeps a s) : Keeps a s.countLocks := h.odSet
theorem Keeps.setClock {n e'} (h : Keeps a s) : Keeps a (s.setClock n e') := h.same

theorem Keeps.clockSettle {n} (h : Keeps a s) : Keeps a (State.clockSettle n s) := by
  induction n generalizing s with
  | zero => exact h.countLocks
  | succ n ih => exact .ite h.countLocks (ih (h.foldl fun _ _ h => h.setClock))

theorem Keeps.clockRelock {n} (h : Keeps a s) : Keeps a (s.clockRelock n) := h.setClock.bump.setClock

theorem Keeps.takeReference {h'} (h : Keeps a s) : Keeps a (s.takeReference h') :=
  (h.odSet.bump.foldl fun _ _ h => h.clockRelock).clockSettle

theorem Keeps.clockSwitch (h : Keeps a s) : Keeps a s.clockSwitch := .ite h.takeReference.odSet h.odSet
theorem Keeps.fwStatus {v} (h : Keeps a s) : Keeps a (s.fwStatus v) := h.odSet
theorem Keeps.setFw {state error} (h : Keeps a s) : Keeps a (s.setFw state error) := h.odSet.odSet

theorem Keeps.fwDrop (h : Keeps a s) : Keeps a s.fwDrop := by
  unfold State.fwDrop
  exact h.odSet.upd

theorem Keeps.fwBegin {len} (h : Keeps a s) : KeepsOpt a (·) (s.fwBegin len) :=
  .ite .none (.ite (.some h.setFw.fwStatus) (.some h.fwDrop.upd.setFw.fwStatus))

theorem Keeps.fwCommit (h : Keeps a s) : KeepsOpt a (·) s.fwCommit :=
  .ite .none (.ite (.some h.fwStatus) (.ite (.some h.same.setFw.fwStatus) (.some h.setFw.fwStatus)))

theorem Keeps.fwCancel (h : Keeps a s) : KeepsOpt a (·) s.fwCancel :=
  .ite .none (.ite (.some h.fwDrop.setFw.fwStatus) (.some h.fwStatus))

theorem Keeps.fwActivate (h : Keeps a s) : KeepsOpt a (·) s.fwActivate := by
  unfold State.fwActivate
  extract_lets s1 b s2 boot
  have hb : Keeps a b := Keeps.bare h.same
  clear_value b
  have h2 : Keeps a s2 := Keeps.odSet hb.same
  clear_value s2
  exact .ite .none (.some (Keeps.beginStep h2.same))

theorem Keeps.fwCommitVersion (h : Keeps a s) : KeepsOpt a (·) s.fwCommitVersion :=
  .ite .none (.ite (.some h.fwStatus) (.some h.odSet.fwStatus))

theorem Keeps.fwRevoke {level slot} (h : Keeps a s) : KeepsOpt a (·) (s.fwRevoke level slot) :=
  .ite .none (.some h.odSet.fwStatus)

theorem Keeps.fwCommand {level b} (h : Keeps a s) : KeepsOpt a (·) (s.fwCommand level b) := by
  unfold State.fwCommand
  dsimp only
  split
  · exact .none
  · split
    · exact h.fwBegin
    · exact h.fwCommit
    · exact h.fwCancel
    · exact h.fwActivate
    · exact h.fwCommitVersion
    · exact h.fwRevoke
    · exact .none

theorem Keeps.fwInFlash (h : Keeps a s) : Keeps a s.fwInFlash := .ite h.same h
theorem Keeps.fwCheckChunks (h : Keeps a s) : Keeps a s.fwCheckChunks := .ite h.same.fwInFlash h.setFw

theorem Keeps.fwProgress (h : Keeps a s) : Keeps a s.fwProgress := by
  unfold State.fwProgress
  extract_lets img head s1
  have h1 : Keeps a s1 := by
    dsimp only [s1, head]
    refine .ite h (.ite h.setFw (.ite h.setFw (.ite h ?_)))
    split
    · exact .ite h.setFw.upd h.setFw
    · exact h.setFw
  exact .ite h1.fwCheckChunks h1

theorem Keeps.fwImage {b} (h : Keeps a s) : KeepsOpt a (·) (s.fwImage b) :=
  .ite .none (.ite (.some h.odSet) (.some h.same.odSet.odSet.fwProgress))

theorem Keeps.attestRequest {nonce} (h : Keeps a s) : KeepsOpt a (·) (s.attestRequest nonce) := .ite .none (.some h.same.odSet)
theorem Keeps.dumpClear (h : Keeps a s) : KeepsOpt a (·) s.dumpClear := .ite .none (.some h.odSet.odSet.dumpEvent)

theorem Keeps.command {level ix sub b} (h : Keeps a s) : KeepsOpt a (·) (s.command level ix sub b) := by
  unfold State.command
  extract_lets a' area v
  exact .ite h.holdWrite (.ite h.powerWrite (.ite h.unretireCmd.onOne (.ite (.onOne (.some h.storeReset)) (.ite (.some h.sessionCloseCmd)
    (.ite h.quorumSet (.ite h.principalSet (.ite (.onOne (.some h.faultClear)) (.ite h.retrainCmd.onOne (.ite h.replanForce.onOne
    (.ite h.slotCommand (.ite h.slotImage (.ite h.replanNow.onOne (.ite (.ite (.some h.stallAgain.stallAbort) .none)
    (.ite (.ite .none h.couchWrite) (.ite h.replaceWrite (.ite (.ite .none h.seamRetrain) (.ite (.onOne (.some h.clockSwitch))
    (.ite h.fwCommand (.ite h.fwImage (.ite h.attestRequest (.ite h.dumpClear.onOne .none)))))))))))))))))))))

theorem Keeps.applyWrite {level ix r b} (h : Keeps a s) : KeepsOpt a (·) (s.applyWrite level ix r b) := by
  unfold State.applyWrite
  exact .ite (h.writeFields.bind fun _ h => h.finishWrite) (.ite (h.writeField.bind fun _ h => h.finishWrite) h.command)

theorem Keeps.writeEntry {level ix sub b} (h : Keeps a s) : Keeps a (s.writeEntry level ix sub b).2 := by
  unfold State.writeEntry
  split
  · exact h
  · split
    · exact h
    · split
      · exact h
      · split
        · exact h
        · split
          · exact h
          · split
            · exact h
            · split
              · rename_i e
                exact (h.applyWrite _ e)
              · exact h

theorem Keeps.closeDueNow (h : Keeps a s) : Keeps a s.closeDueNow := h.same.closeAll
theorem Keeps.mgmtNow (h : Keeps a s) : Keeps a s.mgmtNow := .ite h (h.same.foldl fun _ _ h => h.odSet).closeAll

theorem Keeps.answerWrite {id rid pt hold} (h : Keeps a s) : Keeps a (s.answerWrite id rid pt hold) := by
  unfold State.answerWrite
  split
  · split
    · exact h.setSession
    · exact h
  · exact h.respond.mgmtNow.closeDueNow

theorem Keeps.writeAll {level} {p : State × List (Nat × Nat)} {e} (h : Keeps a p.1) : Keeps a (State.writeAll level p e).1 := h.writeEntry

theorem execWriteReq_answers {dt session} (h : Keeps a (s.tick dt)) : Answers a (execWriteReq dt session s) := by
  unfold execWriteReq
  refine .next (h.serve fun t x rid b h => ?_)
  extract_lets n
  refine .ite h.respondCode ?_
  split
  · exact h.respondCode
  · extract_lets r hold q s1 pt
    have hr : Keeps a r.1 := Keeps.foldlP (p := ({ t with storeDirty := false }, [])) h.same fun _ _ h => h.writeAll
    have h1 : Keeps a s1 := hr.same
    exact h1.logAll.answerWrite

theorem execBulkRead_answers {dt session} (h : Keeps a (s.tick dt)) : Answers a (execBulkRead dt session s) := by
  unfold execBulkRead
  dsimp only
  refine .next ?_
  refine h.serve fun _ _ _ _ h => ?_
  split
  · exact h.respondCode
  · split
    · exact .ite h.protLog.respond (.ite h.protLog.respond h.protLog.respond)
    · exact h.protLog.respond

theorem Keeps.subResp {x op rid code num} (h : Keeps a s) : Keeps a (s.subResp x op rid code num) := h.protLog.respond

theorem execSubscribe_answers {dt session} (h : Keeps a (s.tick dt)) : Answers a (execSubscribe dt session s) := by
  unfold execSubscribe
  dsimp only
  refine .next ?_
  refine h.serve fun _ _ _ _ h => ?_
  split
  · exact h.subResp
  · split
    · exact h.subResp
    · exact .ite h.subResp h.setSession.subResp

theorem execUnsubscribe_answers {dt session} (h : Keeps a (s.tick dt)) : Answers a (execUnsubscribe dt session s) :=
  .next (h.serve fun _ _ _ _ h => .ite h.respondCode (.ite h.setSession.subResp h.subResp))

theorem execEventAck_answers {dt session} (h : Keeps a (s.tick dt)) : Answers a (execEventAck dt session s) :=
  .next (h.serve fun _ _ _ _ h => .ite h h.setSession)

theorem execEventResend_answers {dt session sub} (h : Keeps a (s.tick dt)) : Answers a (execEventResend dt session sub s) := by
  unfold execEventResend
  dsimp only
  refine .next ?_
  split
  · exact h
  · split
    · exact h
    · exact h.setSession.foldl fun _ _ h => h.sendSec

theorem execQuorum_answers {dt session} (h : Keeps a (s.tick dt)) : Answers a (execQuorum dt session s) := by
  unfold execQuorum
  dsimp only
  refine .next ?_
  refine h.serve fun _ _ _ _ h => ?_
  split
  · exact h.protLog.respond
  · split
    · exact h.protLog.respond
    · split
      · exact h.respond
      · split
        · exact h.protLog.respond
        · exact h.same

theorem execQuorumIdExpire_answers {dt} (h : Keeps a (s.tick dt)) : Answers a (execQuorumIdExpire dt s) := .next h.same

theorem Keeps.quorumStart {q may} (h : Keeps a s) : Keeps a (s.quorumStart q may).1 := by
  unfold State.quorumStart
  dsimp only
  refine Keeps.respond ?_
  split
  · exact h.same.protLog
  · exact h.same

theorem Keeps.quorumDone (h : Keeps a s) : Keeps a s.quorumDone := h.same

theorem Keeps.withdrawAll {detail} (h : Keeps a s) : Keeps a (s.withdrawAll detail) := by
  unfold State.withdrawAll
  dsimp only
  refine Keeps.foldl ?_ fun _ _ h => ?_
  · exact h.foldl fun _ _ h => h.endQueued
  · split
    · exact .ite h.terminate h
    · exact h

theorem execRetire_answers {dt} (h : Keeps a (s.tick dt)) : Answers a (execRetire dt s) := by
  unfold execRetire
  dsimp only
  refine .next ?_
  split
  · exact h
  · split
    · exact h
    · split
      · split
        · exact h
        · split
          · rename_i e
            exact (h.quorumStart.of_eq e)
          · rename_i e
            exact .ite (h.quorumStart.of_eq e).odSet.setDev.upd.quorumDone (h.quorumStart.of_eq e).odSet.setDev.upd.withdrawAll
      · exact .ite (h.quorumDone.foldl fun _ _ h => h.odSet).shutDown h

theorem Keeps.nameDeputy (h : Keeps a s) : Keeps a s.nameDeputy := h.same.seamAll

theorem Keeps.takeOver (h : Keeps a s) : Keeps a s.takeOver :=
  (h.same.odSet.bump.foldl fun _ _ h => .ite h.setLane.upd.terminate h.setLane.upd).cascadeEvent.nameDeputy

theorem Keeps.couchOff {p r} (h : Keeps a s) : Keeps a (s.couchOff p r) := by
  unfold State.couchOff
  split
  · split
    · exact h.seamCtl
    · exact h
  · exact h

theorem Keeps.dropPanel {p reason detail} (h : Keeps a s) : Keeps a (s.dropPanel p reason detail) :=
  h.same.foldl fun _ _ h => .ite h.same.terminate (.ite h.same.upd h.same)

theorem Keeps.beExpelled (h : Keeps a s) : Keeps a s.beExpelled :=
  ((h.same.foldl fun _ _ h => h.terminate).foldl fun _ _ h => h.odSet).odSet.odSet.setLevels.relink.cascadeEvent

theorem Keeps.couchEvent {stream kind dst x holdUs} (h : Keeps a s) : Keeps a (s.couchEvent stream kind dst x holdUs) :=
  h.publish24

theorem Keeps.couchEnd {c kind} (h : Keeps a s) : Keeps a (s.couchEnd c kind) := h.same.odSet.couchEvent
theorem Keeps.failCouches {p} (h : Keeps a s) : Keeps a (s.failCouches p) := h.foldl fun _ _ h => h.couchEnd
theorem Keeps.abandonReam {key} (h : Keeps a s) : Keeps a (s.abandonReam key) := h.setPslot.upd.bump
theorem Keeps.abandonReams (h : Keeps a s) : Keeps a s.abandonReams := h.foldl fun _ _ h => h.abandonReam

theorem Keeps.expelled {p} (h : Keeps a s) : Keeps a (s.expelled p) :=
  .ite h.beExpelled (h.odSet.foldl fun _ _ h => h.odSet).upd.relink.abandonReams.failCouches.cascadeEvent.judgeCascade

theorem execExpel_answers {dt} (h : Keeps a (s.tick dt)) : Answers a (execExpel dt s) := by
  unfold execExpel
  dsimp only
  refine .next ?_
  split
  · exact h
  · split
    · exact h
    · split
      · split
        · rename_i e
          exact (h.quorumStart.of_eq e)
        · rename_i e
          exact (Keeps.ite (h.quorumStart.of_eq e).takeOver (h.quorumStart.of_eq e)).upd.foldl fun _ _ h => h.couchOff
      · exact .ite h.dropPanel.seamAll.expelled.quorumDone h

theorem execForcedHandover_answers {dt} (h : Keeps a (s.tick dt)) : Answers a (execForcedHandover dt s) := by
  unfold execForcedHandover
  dsimp only
  refine .next ?_
  split
  · exact h
  · split
    · exact h
    · split
      · split
        · rename_i e
          exact (h.quorumStart.of_eq e)
        · rename_i e
          exact (h.quorumStart.of_eq e).foldl fun _ _ h => h.couchAdd
      · exact .ite h h.quorumDone

theorem execObjectWrite_answers {dt level ix sub b} (h : Keeps a (s.tick dt)) : Answers a (execObjectWrite dt level ix sub b s) := by
  unfold execObjectWrite
  dsimp only
  refine .next ?_
  split
  · exact .ite h.writeEntry h
  · exact h

theorem execRecordWrite_answers {dt level ix b} (h : Keeps a (s.tick dt)) : Answers a (execRecordWrite dt level ix b s) := by
  unfold execRecordWrite
  dsimp only
  refine .next ?_
  split
  · exact .ite h.writeEntry h
  · exact h

theorem Keeps.addHours (h : Keeps a s) : Keeps a s.addHours := h.same.bumpN

theorem Keeps.writeStore (h : Keeps a s) : Keeps a s.writeStore := by
  unfold State.writeStore
  dsimp only
  refine Keeps.odSet (Keeps.odSet ?_)
  split
  · exact h.addHours.upd
  · exact h.addHours.upd

theorem Keeps.sendHeld {id} (h : Keeps a s) : Keeps a (s.sendHeld id) := by
  unfold State.sendHeld
  split
  · exact h
  · exact h.setSession.foldl fun _ _ h => h.respond

theorem execStoreCommit_answers {dt} (h : Keeps a (s.tick dt)) : Answers a (execStoreCommit dt s) :=
  .next (.ite h (h.writeStore.foldl fun _ _ h => h.sendHeld).mgmtNow.closeDueNow)

theorem execHoldCmd_answers {dt} (h : Keeps a (s.tick dt)) : Answers a (execHoldCmd dt s) := .next (.getD (h.holdCmd) h)

theorem execReleaseHold_answers {dt} (h : Keeps a (s.tick dt)) : Answers a (execReleaseHold dt s) :=
  .next (.getD (h.releaseCmd) h)

theorem execStartCmd_answers {dt} (h : Keeps a (s.tick dt)) : Answers a (execStartCmd dt s) := .next (.getD (h.startCmd) h)
theorem execStopCmd_answers {dt} (h : Keeps a (s.tick dt)) : Answers a (execStopCmd dt s) := .next (.getD (h.stopCmd) h)
theorem execWarmReset_answers {dt} (h : Keeps a (s.tick dt)) : Answers a (execWarmReset dt s) := .next (.getD (h.warmCmd) h)
theorem execUnretire_answers {dt} (h : Keeps a (s.tick dt)) : Answers a (execUnretire dt s) := .next (.getD (h.unretireCmd) h)
theorem execStoreReset_answers {dt} (h : Keeps a (s.tick dt)) : Answers a (execStoreReset dt s) := .next h.storeReset

theorem execSessionClose_answers {dt id} (h : Keeps a (s.tick dt)) : Answers a (execSessionClose dt id s) :=
  .next h.sessionCloseCmd.closeDueNow

theorem execPrincipalSet_answers {dt level b} (h : Keeps a (s.tick dt)) : Answers a (execPrincipalSet dt level b s) :=
  .next (.getD (h.principalSet) h)

theorem execQuorumSet_answers {dt b} (h : Keeps a (s.tick dt)) : Answers a (execQuorumSet dt b s) := .next (.getD (h.quorumSet) h)

theorem execMgmtAddressWrite_answers {dt sub v} (h : Keeps a (s.tick dt)) : Answers a (execMgmtAddressWrite dt sub v s) :=
  .next (.getD (h.mgmtWrite) h)

theorem Keeps.idleSector {i} (h : Keeps a s) : Keeps a (s.idleSector i) := h.foldl fun _ _ h => h.setTile

theorem execSectorPowerUp_answers {dt sec phases} (h : Keeps a (s.tick dt)) : Answers a (execSectorPowerUp dt sec phases s) :=
  .next (.ite h (.ite (Keeps.ite h.setSector.odSet.odSet h.setSector.odSet).idleSector (.ite h.setSector.odSet.odSet h.setSector.odSet)))

theorem execRailSettleTimeout_answers {dt sec} (h : Keeps a (s.tick dt)) : Answers a (execRailSettleTimeout dt sec s) :=
  .next (.ite h (h.latchSector.foldl fun _ _ h => .ite h h.stageFloor.stageFloor))

theorem execSetpointWrite_answers {dt sec domain mv} (h : Keeps a (s.tick dt)) : Answers a (execSetpointWrite dt sec domain mv s) :=
  .next (.getD (h.setpointWrite) h)

theorem execSetpointReached_answers {dt sec domain} (h : Keeps a (s.tick dt)) : Answers a (execSetpointReached dt sec domain s) := by
  unfold execSetpointReached
  dsimp only
  refine .next ?_
  split
  · exact .ite h.same.odSet h
  · exact h

theorem Keeps.tileLevel {k lvl} (h : Keeps a s) : Keeps a (s.tileLevel k lvl) := .ite h h.setTile
theorem Keeps.applyLevel {i} (h : Keeps a s) : Keeps a (s.applyLevel i) := h.foldl fun _ _ h => h.tileLevel

theorem execPaceLevelChange_answers {dt sec} (h : Keeps a (s.tick dt)) : Answers a (execPaceLevelChange dt sec s) :=
  .next (.ite h.setLevel.applyLevel h)

theorem Keeps.recordInput {mv watts outputs} (h : Keeps a s) : Keeps a (s.recordInput mv watts outputs) :=
  h.same.odSet.odSet.foldl fun _ _ h => .ite h.odSet h

theorem Keeps.powerEvent {kind which} (h : Keeps a s) : Keeps a (s.powerEvent kind which) := h.publish24
theorem Keeps.setCeiling {v} (h : Keeps a s) : Keeps a (s.setCeiling v) := h.same.odSet.foldl fun _ _ h => h.mail

theorem execPanelPowerSample_answers {dt mv watts projected outputs} (h : Keeps a (s.tick dt)) :
    Answers a (execPanelPowerSample dt mv watts projected outputs s) := by
  unfold execPanelPowerSample
  extract_lets t n s2 ws cap short c
  have h2 : Keeps a s2 := h.recordInput
  exact .next (.ite h2.setCeiling.upd.bump.powerEvent (.ite (.ite h2.upd h2)
    (.ite (.ite h2.setCeiling.bump h2) (.ite h2.setCeiling h2))))

theorem execSectorCurrentSample_answers {dt sec amps watts projected} (h : Keeps a (s.tick dt)) :
    Answers a (execSectorCurrentSample dt sec amps watts projected s) :=
  .next (.ite (Keeps.ite h.setSector.odSet.odSet.ring h.setSector.odSet.odSet).setLevel h)

theorem execPaceShortfall_answers {dt sec} (h : Keeps a (s.tick dt)) : Answers a (execPaceShortfall dt sec s) := by
  unfold execPaceShortfall
  dsimp only
  refine .next ?_
  split
  · exact .ite h.setSector.publish24 h
  · exact h

theorem execDroopEvent_answers {dt sec} (h : Keeps a (s.tick dt)) : Answers a (execDroopEvent dt sec s) :=
  .next (.ite h h.setSector.bump.ring.setLevel)

theorem execDroopTrimExpire_answers {dt sec} (h : Keeps a (s.tick dt)) : Answers a (execDroopTrimExpire dt sec s) := by
  unfold execDroopTrimExpire
  dsimp only
  refine .next ?_
  split
  · exact .ite h.setSector.setLevel h
  · exact h

theorem execBrickLoss_answers {dt brick state} (h : Keeps a (s.tick dt)) : Answers a (execBrickLoss dt brick state s) :=
  .next (.ite h (Keeps.ite h.odSet.odSet.odSet.odSet h.odSet.odSet.bump).powerEvent.instantRepair)

theorem execBrickInsert_answers {dt brick serial} (h : Keeps a (s.tick dt)) : Answers a (execBrickInsert dt brick serial s) :=
  .next (.ite h (.ite h.odSet.odSet.powerEvent h.odSet.odSet))

theorem execIdleEntry_answers {dt tile} (h : Keeps a (s.tick dt)) : Answers a (execIdleEntry dt tile s) :=
  .onTile h (.ite h.idleTile h)

theorem execIdleCommand_answers {dt tile} (h : Keeps a (s.tick dt)) : Answers a (execIdleCommand dt tile s) :=
  .onTile h (.ite h (.ite h.mail.idleTile h.idleTile))

theorem execWakeRequest_answers {dt tile recovery} (h : Keeps a (s.tick dt)) : Answers a (execWakeRequest dt tile recovery s) :=
  .onTile h (.ite h (Keeps.ite h.setSector.mail h.setSector.ring).serveWakes)

theorem execWakeStep_answers {dt sec} (h : Keeps a (s.tick dt)) : Answers a (execWakeStep dt sec s) := by
  unfold execWakeStep
  dsimp only
  refine .next ?_
  split
  · exact h
  · split
    · exact h
    · exact .ite h (.ite h.wakeNow.setSector h.wakeNow.setSector.setLevel.serveWakes)

theorem execWakeTrimExpire_answers {dt sec} (h : Keeps a (s.tick dt)) : Answers a (execWakeTrimExpire dt sec s) := by
  unfold execWakeTrimExpire
  dsimp only
  refine .next ?_
  split
  · exact .ite (Keeps.ite h.setSector.bump h.setSector).setLevel h
  · exact h

theorem execSectorLatch_answers {dt sec} (h : Keeps a (s.tick dt)) : Answers a (execSectorLatch dt sec s) :=
  .next (.ite h h.latchSector.ring)

theorem execSectorSupplyLoss_answers {dt sec} (h : Keeps a (s.tick dt)) : Answers a (execSectorSupplyLoss dt sec s) :=
  .next (.ite h h.powerEvent.reportFault)

theorem Keeps.spotEvent {site spot kind sensor h'} (h : Keeps a s) : Keeps a (s.spotEvent site spot kind sensor h') := h.publish24

theorem Keeps.markEvent {site spot sensor was is' both h'} (h : Keeps a s) : Keeps a (s.markEvent site spot sensor was is' both h') :=
  .ite h h.bump.spotEvent

theorem execHotspotSample_answers {dt site spot a' b est} (h : Keeps a (s.tick dt)) :
    Answers a (execHotspotSample dt site spot a' b est s) :=
  .onDie h (.ite h.same.markEvent.markEvent.bump.spotEvent h.same.markEvent.markEvent)

theorem Keeps.paceDie {g ceil} (h : Keeps a s) : Keeps a (s.paceDie g ceil) := h.setLevel.foldl fun _ _ h => h.tileLevel

theorem Keeps.critDie {g} (h : Keeps a s) : Keeps a (s.critDie g) :=
  .ite (h.setSector.foldl fun _ _ h => h.idleTile).bump.reportFault (h.setSector.foldl fun _ _ h => h.idleTile).bump

theorem execDieTempEval_answers {dt site} (h : Keeps a (s.tick dt)) : Answers a (execDieTempEval dt site s) := by
  unfold execDieTempEval
  extract_lets u g t d old cur ceil lvl cool s1 s2 s3 s4 s5
  have h2 : Keeps a s2 := Keeps.odSet (Keeps.odSet (Keeps.odSet h.same))
  clear_value s2
  have h3 : Keeps a s3 := .ite h2.bump h2
  have h4 : Keeps a s4 := .ite h3.ring h3
  have h5 : Keeps a s5 := .ite h4.paceDie h4
  exact .onDie h (.ite h5.critDie h5)

theorem execCriticalDieRetest_answers {dt site bad passed} (h : Keeps a (s.tick dt)) :
    Answers a (execCriticalDieRetest dt site bad passed s) :=
  .onDie h (.ite h.same h)

theorem Keeps.resistance {i sample} (h : Keeps a s) : Keeps a (s.resistance i sample) := by
  unfold State.resistance
  extract_lets x l r base s1 sum n b ratio old st s2 s3
  have h1 : Keeps a s1 := h.odSet
  have hb : Keeps a b := h1.setSector.odSet
  have h2 : Keeps a s2 := h1.setSector.odSet.odSet.odSet
  have h3 : Keeps a s3 := .ite h2.coolingEvent (.ite h2.coolingEvent h2)
  exact .ite (.ite (Keeps.odSet hb.upd) h1.setSector.odSet) h3.setLevel

theorem execThermalResistanceSample_answers {dt sec} (h : Keeps a (s.tick dt)) : Answers a (execThermalResistanceSample dt sec s) :=
  .next (.ite h h.resistance)

theorem execCoolingWarning_answers {dt inletMc outletMc flow} (h : Keeps a (s.tick dt)) :
    Answers a (execCoolingWarning dt inletMc outletMc flow s) := by
  unfold execCoolingWarning
  dsimp only
  refine .next ?_
  split
  · exact h.odSet.odSet.odSet.upd
  · split
    · exact h.odSet.odSet.odSet.upd
    · split
      · exact h.odSet.odSet.odSet
      · split
        · exact h.odSet.odSet.odSet.upd.coolingEvent
        · exact h.odSet.odSet.odSet.upd.coolingEvent

theorem Keeps.lowTile {k m} (h : Keeps a s) : Keeps a (s.lowTile k m) := by
  unfold State.lowTile
  split
  · exact h
  · exact .ite h.setTrim h.same

theorem Keeps.marginEvent {kind which node margin} (h : Keeps a s) : Keeps a (s.marginEvent kind which node margin) := h.publish24

theorem Keeps.readMargin {k m} (h : Keeps a s) : Keeps a (s.readMargin k m) := by
  unfold State.readMargin
  extract_lets old s1 st s2
  have h1 : Keeps a s1 := Keeps.setOctet h.same
  have h2 : Keeps a s2 := Keeps.bump h1.same
  exact .ite h1.lowTile (.ite h2.marginEvent.reportFault (.ite h1.marginEvent h1))

theorem execMarginRead_answers {dt site margins slowing} (h : Keeps a (s.tick dt)) : Answers a (execMarginRead dt site margins slowing s) :=
  .onDie h (h.foldl fun _ _ h => h.readMargin).odSet

theorem execEyeMarginRead_answers {dt link lanes} (h : Keeps a (s.tick dt)) : Answers a (execEyeMarginRead dt link lanes s) :=
  .onLink h (.ite h (h.odSet.odSet.odSet.odSet.upd.foldl fun _ _ h => h.marginEvent))

theorem execStackEccRateCheck_answers {dt site} (h : Keeps a (s.tick dt)) : Answers a (execStackEccRateCheck dt site s) :=
  .onStack h (.ite h (.ite h.same.marginEvent h.same))

theorem Keeps.marginStart (h : Keeps a s) : Keeps a s.marginStart := by
  unfold State.marginStart
  exact (h.foldl fun _ _ h => h.setTrim).upd

theorem Keeps.lowReturn (h : Keeps a s) : Keeps a s.lowReturn := h.same.foldl fun _ _ h => h.recordFree

theorem Keeps.marginFinish {m} (h : Keeps a s) : Keeps a (s.marginFinish m) :=
  (((h.foldl fun _ _ h => h.startRamp.mail).foldl fun _ _ h => h.startRetrain).publish24.upd.foldl fun _ _ h => h.odSet).odSet.odSet.lowReturn

theorem Keeps.applyTrim {p} (h : Keeps a s) : Keeps a (s.applyTrim p) := h.setTrim

theorem execMarginReplan_answers {dt} (h : Keeps a (s.tick dt)) : Answers a (execMarginReplan dt s) := by
  unfold execMarginReplan
  dsimp only
  refine .next ?_
  split
  · exact h
  · split
    · exact .ite h.marginStart h
    · split
      · split
        · rename_i e
          exact (h.couch.of_eq' e)
        · rename_i e
          exact (h.couch.of_eq' e).marginFinish.foldl fun _ _ h => h.letGo
      · split
        · rename_i e
          exact (h.couch.of_eq' e)
        · rename_i e
          exact ((h.couch.of_eq' e).foldl fun _ _ h => h.applyTrim).upd.foldl fun _ _ h => h.letGo

theorem execReplanNow_answers {dt} (h : Keeps a (s.tick dt)) : Answers a (execReplanNow dt s) := .next (.getD (h.replanNow) h)

theorem execModuleLifeDaily_answers {dt port} (h : Keeps a (s.tick dt)) : Answers a (execModuleLifeDaily dt port s) := by
  unfold execModuleLifeDaily
  extract_lets t p c e mean days s1 s2 s3 eol s4 s5 left s6 s7
  have h1 : Keeps a s1 := h.same
  have h2 : Keeps a s2 := .ite h1.odSet h1
  have h4 : Keeps a s4 := h2.odSet.bumpN.odSet.odSet
  have h5 : Keeps a s5 := by
    dsimp only [s5]
    split
    · exact h4.odSet.odSet
    · exact h4.odSet.odSet
  have h6 : Keeps a s6 := .ite h5.replaceEvent h5
  have h7 : Keeps a s7 := .ite h6.replaceEvent h6
  exact .next (.ite h (.ite h7.replaceEvent h7))

theorem execDieHeartbeatRead_answers {dt site} (h : Keeps a (s.tick dt)) : Answers a (execDieHeartbeatRead dt site s) := by
  unfold execDieHeartbeatRead
  dsimp only
  refine .onDie h ?_
  split
  · exact h
  · split
    · exact h.same
    · exact .ite h.same.bumpN (.ite h.same h.same.reportFault)

theorem execHubHeartbeat_answers {dt hub rung} (h : Keeps a (s.tick dt)) : Answers a (execHubHeartbeat dt hub rung s) :=
  .next (.ite h (.ite h.same.ring.bumpN (.ite h.same h.same.reportFault)))

theorem execOffgridHeartbeatPoll_answers {dt fn fresh} (h : Keeps a (s.tick dt)) : Answers a (execOffgridHeartbeatPoll dt fn fresh s) :=
  .next (.ite h (.ite h.same.bumpN (.ite h.same (.ite h.same.reportFault h.same.reportFault))))

theorem Keeps.contain {f} (h : Keeps a s) : Keeps a (s.contain f) := h.same.abortLanes.odSet

theorem execFaultContainment_answers {dt} (h : Keeps a (s.tick dt)) : Answers a (execFaultContainment dt s) :=
  .next (h.foldl fun _ _ h => h.contain)

theorem Keeps.repairGeneration (h : Keeps a s) : Keeps a s.repairGeneration := .ite h h.newGeneration
theorem Keeps.copyRows {k j first n} (h : Keeps a s) : Keeps a (s.copyRows k j first n) := h.putRows.foldl fun _ _ h => h.setTag

theorem Keeps.restoreRows {k j entry r} (h : Keeps a s) : Keeps a (s.restoreRows k j entry r) := by
  unfold State.restoreRows
  dsimp only
  split
  · exact h.copyRows
  · split
    · refine Keeps.foldl ?_ fun _ _ h => ?_
      · exact h
      · split
        · exact .ite h.copyRows.putRows h.copyRows
        · exact h.copyRows
    · exact h

theorem Keeps.recoverTile {k j} (h : Keeps a s) : Keeps a (s.recoverTile k j) :=
  (h.setTile.foldl fun _ _ h => h.copyRows).foldl fun _ _ h => h.restoreRows

theorem Keeps.recoverTiles {moves} (h : Keeps a s) : Keeps a (s.recoverTiles moves) :=
  (((h.foldl fun _ _ h => h.recoverTile).foldl fun _ _ h => h.foldl fun _ _ h => h.syncTile).foldl fun _ _ h => h.vacate).upd.renameTiles

theorem Keeps.onDemand {valid} (h : Keeps a s) : Keeps a (s.onDemand valid) := .ite h h.bump
theorem Keeps.parkBare {i} (h : Keeps a s) : Keeps a (s.parkBare i) := h.leaveTiles.odSet.toSlotState.setPslot

theorem Keeps.resizeOrPark {i est cap bulk n} (h : Keeps a s) : Keeps a (s.resizeOrPark i est cap bulk n) := by
  induction n generalizing s with
  | zero => exact h.parkBare
  | succ n ih =>
    unfold State.resizeOrPark
    dsimp only
    split
    · rename_i e
      exact h.resizeSlot _ e
    · split
      · split
        · rename_i e
          exact ih (h.park _ e)
        · exact h.parkBare
      · exact h.parkBare

theorem Keeps.resize {slots est cap bulk} (h : Keeps a s) : Keeps a (s.resize slots est cap bulk) :=
  h.foldl fun _ _ h => h.resizeOrPark.replanEvent

theorem Keeps.planDies {pairs} (h : Keeps a s) : Keeps a (s.planDies pairs).1 :=
  .foldlP h fun _ _ h => h.recordMoves

theorem Keeps.failDie {g cause} (h : Keeps a s) : Keeps a (s.failDie g cause) := h.stageFloor.stageFloor.failTiles

theorem Keeps.repairTile {k est cap bulk} (h : Keeps a s) : Keeps a (s.repairTile k est cap bulk) := by
  have failed : ∀ (u : State) g, Keeps a u → Keeps a (if (u.goodTiles g).length < 48 then u.failDie g 5 else u) :=
    fun _ _ h => .ite h.failDie h
  unfold State.repairTile
  dsimp only
  refine .ite (.ite h.recordFree h) ?_
  split
  · exact h.onDemand.recordMoves.recoverTiles.foldl fun _ _ h => h.assignMirrors
  · split
    · exact h.onDemand.recordFree.resize
    · refine Keeps.foldl (Keeps.resize (failed _ _ ?_)) fun _ _ h => h.assignMirrors
      exact (h.onDemand.planDies.recoverTiles.foldl fun _ _ h => h.recordFree).recordFree.swapDie

theorem Keeps.replaceDies {dies pairs cause est cap bulk} (h : Keeps a s) : Keeps a (s.replaceDies dies pairs cause est cap bulk) :=
  ((h.planDies.recoverTiles.foldl fun _ _ h => h.swapDie).foldl fun _ _ h => h.failDie).resize.foldl fun _ _ h => h.assignMirrors

theorem Keeps.repairDie {g cause est cap bulk} (h : Keeps a s) : Keeps a (s.repairDie g cause est cap bulk) :=
  .ite (.ite h.failDie h) h.onDemand.replaceDies

theorem Keeps.parityLost {g m} (h : Keeps a s) : Keeps a (s.parityLost g m) := by
  unfold State.parityLost
  dsimp only
  split
  · exact h.foldl fun _ _ h => h.foldl fun _ _ h => h.closeRow
  · split
    · exact h.foldl fun _ _ h => h.sendAll
    · split
      · exact h
      · exact h.setGroupEnt.sendAll

theorem Keeps.loseMember {g node} (h : Keeps a s) : Keeps a (s.loseMember g node) := by
  unfold State.loseMember
  extract_lets x
  split
  · exact h
  · extract_lets x1 s0 s1
    have h0 : Keeps a s0 := h.setPgroup.foldl fun _ _ h => .ite h.setGroupEnt h
    have h1 : Keeps a s1 := (Keeps.ite h0.parityLost h0).groupEvent
    exact .ite h1.groupEvent h1

theorem Keeps.endLost {ls} (h : Keeps a s) : Keeps a (s.endLost ls) := by
  unfold State.endLost
  refine Keeps.foldl ?_ fun _ _ h => ?_
  · exact h
  · split
    · exact .ite h h.terminate.bump
    · exact h

theorem Keeps.putLive {slot b} (h : Keeps a s) : Keeps a (s.putLive slot b) :=
  .foldlP h fun _ _ h => h.putRows

theorem Keeps.resetState {slot sec} (h : Keeps a s) : Keeps a (s.resetState slot sec) := by
  unfold State.resetState
  split
  · exact (Keeps.getD (.findSome fun _ => h.freeData.setPslot.allocData.map fun _ h => h.stackWriteRows.setPslot)
      h.freeData.setPslot).putLive.bump
  · exact h

theorem Keeps.groupLost {g} (h : Keeps a s) : Keeps a (s.groupLost g) := by
  unfold State.groupLost
  dsimp only
  refine Keeps.foldl ?_ fun _ _ h => ?_
  · exact h.endLost
  · split
    · exact h
    · exact .ite (h.foldl fun _ _ h => .ite h.resetState h).setPslot.freeData.endLost (h.foldl fun _ _ h => .ite h.resetState h)

theorem Keeps.moveStates {i gs} (h : Keeps a s) : Keeps a (s.moveStates i gs) := h.same

theorem Keeps.askLost {i} (h : Keeps a s) : Keeps a (s.askLost i) := by
  unfold State.askLost
  split
  · exact h.foldl fun _ _ h => h.askResupply
  · exact h

theorem Keeps.loseCopies {i} (h : Keeps a s) : Keeps a (s.loseCopies i) := h.same.foldl fun _ _ h => h.askLost

theorem Keeps.loseStack {i} (h : Keeps a s) : Keeps a (s.loseStack i) := by
  unfold State.loseStack
  dsimp only
  refine Keeps.rebindAll ?_
  refine Keeps.loseCopies ?_
  refine Keeps.foldl ?_ fun _ _ h => ?_
  · refine Keeps.foldl ?_ fun _ _ h => ?_
    · refine Keeps.moveStates ?_
      refine Keeps.foldl ?_ fun _ _ h => ?_
      · exact ((h.setStack.foldl fun _ _ h => h.loseMember).upd.foldl fun _ _ h => h.setPgroup).foldl fun _ _ h => h.groupLost
      · split
        · exact h.moveHome
        · exact h
    · split
      · exact .ite h h.startRebuild
      · exact h
  · exact h.startRebuild

theorem Keeps.failStack {i cause} (h : Keeps a s) : Keeps a (s.failStack i cause) := h.stageFloor.stageFloor

theorem Keeps.repairSector {sec est cap bulk} (h : Keeps a s) : Keeps a (s.repairSector sec est cap bulk) :=
  ((h.onDemand.foldl fun _ _ h => .ite h (.ite h.failStack.loseStack h.failStack)).replaceDies.foldl fun _ _ h => h.failDie).failOffgrid

theorem Keeps.renodeAll {old new'} (h : Keeps a s) : Keeps a (s.renodeAll old new') := h.same

theorem Keeps.clockHubLost {h'} (h : Keeps a s) : Keeps a (s.clockHubLost h') :=
  .ite (h.foldl fun _ _ h => h.setClock).takeReference ((h.foldl fun _ _ h => h.setClock).foldl fun _ _ h => h.clockRelock).clockSettle

theorem Keeps.repeatStep (h : Keeps a s) : Keeps a s.repeatStep := h.same.odSet

theorem Keeps.loseHub {h'} (h : Keeps a s) : Keeps a (s.loseHub h') := by
  unfold State.loseHub
  extract_lets sites ls s1 n s2 s3 s4
  have hn : Keeps a n := (h.foldl fun _ _ h => h.stageFloor.stageFloor).setNotices
  clear_value n
  have h2 : Keeps a s2 := hn.same
  have h4 : Keeps a s4 := h2.odSet.renodeAll.abortLanes.clockHubLost
  exact .ite h (.ite h4.repeatStep h4)

theorem Keeps.losePortDie {p} (h : Keeps a s) : Keeps a (s.losePortDie p) :=
  ((h.foldl fun _ _ h => h.failPort).foldl fun _ _ h => h.odSet).failOffgrid.stageFloor

theorem Keeps.loseSteward {i} (h : Keeps a s) : Keeps a (s.loseSteward i) :=
  .ite h ((h.failOffgrid.foldl fun _ _ h => h.failDie).upd.foldl fun _ _ h => h.idleTile)

theorem Keeps.repairWork {f est cap bulk} (h : Keeps a s) : Keeps a (s.repairWork f est cap bulk) := by
  unfold State.repairWork
  split
  · exact h.repairTile
  · exact h.repairDie
  · exact h.repairSector
  · exact (Keeps.ite h.failStack h).loseStack
  · exact h.loseHub
  · exact h.losePortDie
  · exact h.loseSteward
  · exact h

theorem Keeps.fenceForget {ks} (h : Keeps a s) : Keeps a (s.fenceForget ks) := by
  unfold State.fenceForget
  dsimp only
  refine Keeps.foldl ?_ fun _ _ h => ?_
  · exact h
  · split
    · exact .ite h.same.bump.nextFence h.same
    · exact h

theorem Keeps.endRepair {f} (h : Keeps a s) : Keeps a (s.endRepair f) :=
  .ite (h.same.recordRepair.coverAll.foldl fun _ _ h => .ite h.odSet.odSet h)
    ((h.same.recordRepair.coverAll.foldl fun _ _ h => .ite h.odSet.odSet h).odSet.foldl fun _ _ h => h.tryReplay)

theorem Keeps.repairFirst {f est cap bulk} (h : Keeps a s) : Keeps a (s.repairFirst f est cap bulk) := by
  unfold State.repairFirst
  extract_lets ks f1 lost s1 s2 r s3 stale
  have h1 : Keeps a s1 := h.fenceForget.repairWork.repairGeneration
  have h2 : Keeps a s2 := h1.foldl fun _ _ h => .ite h.plantTrees h
  clear_value s1 s2
  have hr : Keeps a r := h2.replanEvent
  clear_value r
  have h3 : Keeps a s3 := .ite h2 hr.same
  clear_value s3
  exact Keeps.endRepair h3.same

theorem execRepair_answers {dt est cap bulk} (h : Keeps a (s.tick dt)) : Answers a (execRepair dt est cap bulk s) := by
  unfold execRepair
  dsimp only
  refine .next ?_
  split
  · exact h
  · exact .ite h.repairFirst h

theorem execHubLoss_answers {dt hub} (h : Keeps a (s.tick dt)) : Answers a (execHubLoss dt hub s) := .next (.ite h.loseHub h)

theorem execStewardLoss_answers {dt sec} (h : Keeps a (s.tick dt)) : Answers a (execStewardLoss dt sec s) :=
  .next (.ite h.loseSteward h)

theorem execViolationNotice_answers {dt} (h : Keeps a (s.tick dt)) : Answers a (execViolationNotice dt s) := by
  unfold execViolationNotice
  dsimp only
  refine .next ?_
  split
  · exact h.setNotices.takeNotice
  · exact h

theorem execStallAbort_answers {dt lane} (h : Keeps a (s.tick dt)) : Answers a (execStallAbort dt lane s) :=
  .next h.stallAgain.stallAbort

theorem execBgEscalate_answers {dt cls} (h : Keeps a (s.tick dt)) : Answers a (execBgEscalate dt cls s) :=
  .next (.ite h.same.odSet (.ite (Keeps.ite h h.same).odSet.bumpN.bgHealth (Keeps.ite h h.same).odSet.bumpN))

theorem execBgSlotHold_answers {dt cls us} (h : Keeps a (s.tick dt)) : Answers a (execBgSlotHold dt cls us s) :=
  .next (.ite h h.same.bumpN)

theorem execScrubForcedPause_answers {dt site} (h : Keeps a (s.tick dt)) : Answers a (execScrubForcedPause dt site s) :=
  .onStack h (.ite h h.setStack.bump)

theorem execResupplyTimeout_answers {dt slot} (h : Keeps a (s.tick dt)) : Answers a (execResupplyTimeout dt slot s) :=
  .next (.ite h.endLost h)

theorem Keeps.declareFatal {cause} (h : Keeps a s) : Keeps a (s.declareFatal cause) :=
  h.setDev.odSet.odSet.odSet.odSet.upd.portsDown.closeUnserved

theorem Keeps.noDump {cause} (h : Keeps a s) : Keeps a (s.noDump cause) := h.odSet.idleAll.dumpEvent

theorem Keeps.startDump {cause images} (h : Keeps a s) : Keeps a (s.startDump cause images) :=
  .ite h.noDump h.burn.odSet.odSet.odSet.odSet.odSet.upd.putDump.putDump.dumpEvent

theorem execFatalEntry_answers {dt which} (h : Keeps a (s.tick dt)) : Answers a (execFatalEntry dt which s) :=
  .next (.ite h (.ite (.ite h.odSet h) (.ite h (.ite h.declareFatal.odSet.upd (.ite h.declareFatal.noDump h.declareFatal.startDump)))))

theorem execHubsLostIdle_answers {dt} (h : Keeps a (s.tick dt)) : Answers a (execHubsLostIdle dt s) :=
  .next (.ite h (h.foldl fun _ _ h => h.idleTile).odSet.upd)

theorem execSeamLinkUp_answers {dt port serial cid digest panel peerPort minPs} (h : Keeps a (s.tick dt)) :
    Answers a (execSeamLinkUp dt port serial cid digest panel peerPort minPs s) :=
  .next (.ite h (.ite h.same.odSet.odSet.odSet.odSet.odSet.cascadeEvent.odSet.odSet
    h.same.odSet.odSet.odSet.odSet.odSet.cascadeEvent.odSet.odSet.relink.cascadeEvent.judgeCascade))

theorem Keeps.nowFormed (h : Keeps a s) : Keeps a s.nowFormed :=
  .ite (h.foldl fun _ _ h => h.odSet).odSet.odSet.upd.setLevels.cascadeEvent (h.foldl fun _ _ h => h.odSet).odSet.odSet.upd.setLevels

theorem execCascadeForm_answers {dt} (h : Keeps a (s.tick dt)) : Answers a (execCascadeForm dt s) :=
  .next (.ite h.nowFormed.seamAll h)

theorem Keeps.unparkDeep (h : Keeps a s) : Keeps a s.unparkDeep := h.foldl fun _ _ h => h.toSlotState

theorem Keeps.memberHeardNow {p b} (h : Keeps a s) : Keeps a (s.memberHeardNow p b) := by
  have casSet : ∀ u c, Keeps a u → Keeps a { u with cas := c } := fun _ _ h => h.same
  unfold State.memberHeardNow
  extract_lets c s1 s2 c' s3
  have h1 : Keeps a s1 := Keeps.odSet (casSet s _ h)
  have h2 : Keeps a s2 := .ite h1.odSet (.ite h1.odSet.cascadeEvent h1)
  have h3 : Keeps a s3 := .ite (casSet s2 _ h2).odSet.odSet.odSet h2
  exact h3.judgeCascade

theorem Keeps.loadImage {i mode cuts img} (h : Keeps a s) : Keeps a (s.loadImage i mode cuts img) :=
  .ite h (.ite h.odSet.odSet.odSet.odSet.slotBegin h.odSet.odSet.odSet.odSet.slotBegin.setPslot.odSet.slotCommit)

theorem Keeps.answerDrain {p id stream index} (h : Keeps a s) : Keeps a (s.answerDrain p id stream index) := by
  unfold State.answerDrain
  dsimp only
  split
  · exact .ite h.seamSend h
  · split
    · exact h
    · split
      · rename_i e
        exact (h.popReel.of_eq e).upd.seamSend
      · rename_i e
        exact (h.popReel.of_eq e)

theorem Keeps.onCarried {stream f} (h : Keeps a s) (hf : ∀ k x, Keeps a (f k x)) : Keeps a (s.onCarried stream f) := by
  unfold State.onCarried
  split
  · exact .ite (hf _ _) h
  · exact h

theorem Keeps.crossIn {i stream q bufs} (h : Keeps a s) : Keeps a (s.crossIn i stream q bufs) := by
  unfold State.crossIn
  dsimp only
  split
  · exact h
  · split
    · exact h
    · refine Keeps.sendStart ?_
      refine Keeps.setLane ?_
      refine Keeps.foldl ?_ fun _ _ h => ?_
      · exact h
      · split
        · split
          · exact h.stackWriteRows
          · exact h
        · exact h

theorem Keeps.dropReleased {stream upTo} (h : Keeps a s) : Keeps a (s.dropReleased stream upTo) := by
  unfold State.dropReleased
  split
  · exact h
  · exact .ite h h.setLane.flushDone

theorem Keeps.reamSum {slot red r} (h : Keeps a s) : Keeps a (s.reamSum slot red r) := h.same.foldl fun _ _ h => h.seamSend

theorem Keeps.reamSegment {slot red r} (h : Keeps a s) : Keeps a (s.reamSegment slot red r) :=
  h.same.foldl fun _ _ h => h.seamSend

theorem Keeps.reamDone {slot red r} (h : Keeps a s) : Keeps a (s.reamDone slot red r) := by
  have stored : ∀ n rows, Keeps a (match s.allocs.find? (fun x => x.owner == ownReam (reamKey slot red)) with
      | some x => s.stackWriteRows x.stack x.off rows
      | none => match ((List.range 32).filter s.stackOnline).findSome?
        (fun i => (s.allocate i (64 * n) (ownReam (reamKey slot red))).map (fun x => (i, x))) with
        | some (i, off, s1) => s1.stackWriteRows i off rows
        | none => s) := by
    intro n rows
    split
    · exact h.stackWriteRows
    · split
      · rename_i e
        exact (KeepsOpt.findSome (f := (·.2.2)) (fun _ => h.allocate.map fun _ h => h) _ e).stackWriteRows
      · exact h
  exact (Keeps.same (stored _ _)).bump.odSet

theorem Keeps.reduce {slot red} (h : Keeps a s) : Keeps a (s.reduce slot red) :=
  .ite h (.ite (Keeps.ite (Keeps.ite h.reamSum h).reamSegment (.ite h.reamSum h)).reamDone
    (.ite (Keeps.ite h.reamSum h).reamSegment (.ite h.reamSum h)))

theorem Keeps.reamPut {slot red f} (h : Keeps a s) : Keeps a (s.reamPut slot red f) := h.same

theorem Keeps.restoreLane {i l} (h : Keeps a s) : Keeps a (s.restoreLane i l) := by
  unfold State.restoreLane
  dsimp only
  refine Keeps.foldl ?_ fun _ _ h => ?_
  · exact h
  · refine Keeps.foldl ?_ fun _ _ h => ?_
    · exact h
    · split
      · exact .ite h.restoreRegion h
      · exact h

theorem Keeps.putExtents {l slot stream} (h : Keeps a s) : Keeps a (s.putExtents l slot stream) := by
  unfold State.putExtents
  dsimp only
  split
  · exact h
  · refine Keeps.same ?_
    refine Keeps.foldl ?_ fun _ _ h => ?_
    · exact h
    · split
      · exact h.stackWriteRows
      · exact h

theorem Keeps.couchTake {x fid digest foreign} (h : Keeps a s) : KeepsOpt a (·) (s.couchTake x fid digest foreign) := by
  unfold State.couchTake
  dsimp only
  split
  · exact .none
  · split
    · split
      · exact .none
      · exact .ite .none (h.allocExtents.map fun _ h => h.setLane.putExtents.restoreLane)
    · exact .none

theorem Keeps.switchAt {stream x panel source} (h : Keeps a s) : Keeps a (s.switchAt stream x panel source) := by
  unfold State.switchAt
  split
  · extract_lets r X c s1 s2 c'
    have h1 : Keeps a s1 := h.same
    have h2 : Keeps a s2 := h1.settleSwitch.seamCtl
    clear_value s2
    exact h2.same
  · exact h

theorem Keeps.couchSend {c kind body} (h : Keeps a s) : Keeps a (s.couchSend c kind body) := .ite h.seamSend h.send.upd
theorem Keeps.sendCouch {l x dst} (h : Keeps a s) : Keeps a (s.sendCouch l x dst) := h.sendCtl

theorem Keeps.couchIsReady {stream dst} (h : Keeps a s) : Keeps a (s.couchIsReady stream dst) := by
  unfold State.couchIsReady
  dsimp only
  split
  · exact .ite h (.ite (.ite h.same.switchAt h.same.seamCtl) h.setLane.upd.sendCouch.couchSend)
  · exact h

theorem Keeps.memberMsg {p m} (h : Keeps a s) : Keeps a (s.memberMsg p m) := by
  unfold State.memberMsg
  split
  · exact h.same
  · exact .ite h.nowFormed h
  · exact .ite h (Keeps.odSet h.same)
  · exact h.loadImage
  · exact .ite h.storeConfig h
  · exact .ite h.same h
  · extract_lets s1
    have h1 : Keeps a s1 := h.same
    clear_value s1
    split
    · exact h1.terminate
    · exact h1
  · exact h.answerDrain
  · exact h.onCarried fun k x => Keeps.takeToken h.same
  · exact h.onCarried fun k x => .ite h.same h.carriedEnd
  · exact .ite h h.same
  · exact h.crossIn
  · split
    · exact .ite h.abortLane h
    · exact h
  · exact h.dropReleased
  · exact .ite h.same h
  · exact .ite h h.reamPut.reduce
  · exact h.reamPut.reduce
  · exact h.reamPut.reduce
  · exact h.couchAdd
  · exact h.same
  · split
    · rename_i e
      exact (h.couchTake _ e).seamCtl
    · exact h.seamCtl
  · exact h.couchIsReady
  · split
    · exact h.couchEnd
    · exact h
  · exact .ite h.switchAt h.same
  · exact h.expelled

theorem Keeps.foreignMsg {m} (h : Keeps a s) : Keeps a (s.foreignMsg m) := by
  unfold State.foreignMsg
  dsimp only
  split
  · exact .ite h.same h
  · split
    · rename_i e
      exact (h.couchTake _ e).send
    · exact h.send
  · exact h.couchIsReady
  · split
    · exact h.couchEnd
    · exact h
  · split
    · exact h.setLane
    · exact h
  · exact h

theorem execMemberHeartbeat_answers {dt port beat msgs} (h : Keeps a (s.tick dt)) :
    Answers a (execMemberHeartbeat dt port beat msgs s) := by
  unfold execMemberHeartbeat
  dsimp only
  refine .next ?_
  split
  · refine Keeps.foldl ?_ fun _ _ h => ?_
    · split
      · exact h.memberHeardNow.unparkDeep
      · exact h
    · exact h.memberMsg
  · exact h.foldl fun _ _ h => h.foreignMsg
  · exact h

theorem Keeps.parkDeep {p} (h : Keeps a s) : Keeps a (s.parkDeep p) := h.foldl fun _ _ h => h.abortLanes.toSlotState

theorem Keeps.memberGone {p} (h : Keeps a s) : Keeps a (s.memberGone p) := by
  unfold State.memberGone
  extract_lets s1 s1' s2 lost s3
  have h1 : Keeps a s1 := h.odSet.cascadeEvent.abandonReams.parkDeep.failCouches
  have h1' : Keeps a s1' := h1.dropPanel
  have h2 : Keeps a s2 := .ite (.ite h1'.nameDeputy h1') h1
  have h3 : Keeps a s3 := h2.abortLanes
  exact .ite h3.odSet.odSet.setLevels.cascadeEvent h2

theorem execMemberLoss_answers {dt panel} (h : Keeps a (s.tick dt)) : Answers a (execMemberLoss dt panel s) :=
  .next (.ite h h.memberGone)

theorem execDeputyTakeover_answers {dt} (h : Keeps a (s.tick dt)) : Answers a (execDeputyTakeover dt s) :=
  .next (.ite h.takeOver h)

theorem Keeps.giveUp {near} (h : Keeps a s) : Keeps a (s.giveUp near) :=
  (h.foldl fun _ _ h => h.same).odSet.odSet.odSet.setLevels.cascadeEvent

theorem execMasterIsolate_answers {dt} (h : Keeps a (s.tick dt)) : Answers a (execMasterIsolate dt s) := .next (.ite h h.giveUp)

theorem execTransferReissue_answers {dt id} (h : Keeps a (s.tick dt)) : Answers a (execTransferReissue dt id s) := by
  unfold execTransferReissue
  dsimp only
  refine .next ?_
  split
  · exact .ite h.reissue h
  · exact h

theorem execCascadeLevelChange_answers {dt} (h : Keeps a (s.tick dt)) : Answers a (execCascadeLevelChange dt s) := by
  unfold execCascadeLevelChange
  dsimp only
  refine .next ?_
  split
  · exact .ite h.same.odSet.setLevels.cascadeEvent h
  · exact h

theorem execDeepenCommitRecord_answers {dt port stream record} (h : Keeps a (s.tick dt)) :
    Answers a (execDeepenCommitRecord dt port stream record s) := by
  unfold execDeepenCommitRecord
  dsimp only
  refine .next ?_
  split
  · exact h
  · split
    · exact .ite h h.endEpoch
    · exact h

theorem Keeps.startReam {slot red n r} (h : Keeps a s) : Keeps a (s.startReam slot red n r) :=
  (h.same.foldl fun _ _ h => h.seamCtl).bumpN

theorem Keeps.tryReam {slot red} (h : Keeps a s) : Keeps a (s.tryReam slot red) := .ite h.startReam h

theorem execReamContribution_answers {dt slot red index copy word values} (h : Keeps a (s.tick dt)) :
    Answers a (execReamContribution dt slot red index copy word values s) :=
  .next (.ite h h.same.tryReam)

theorem execReamDeadline_answers {dt slot red} (h : Keeps a (s.tick dt)) : Answers a (execReamDeadline dt slot red s) :=
  .next h.tryReam

theorem execReamAbandon_answers {dt slot red} (h : Keeps a (s.tick dt)) : Answers a (execReamAbandon dt slot red s) := by
  unfold execReamAbandon
  dsimp only
  refine .next ?_
  split
  · exact .ite h.abandonReam h
  · exact h

theorem execReamReduce_answers {dt slot red} (h : Keeps a (s.tick dt)) : Answers a (execReamReduce dt slot red s) :=
  .next h.reduce

theorem Keeps.couchPassed {stream} (h : Keeps a s) : Keeps a (s.couchPassed stream) := h.same.odSet

theorem Keeps.couchRound {c l x whole} (h : Keeps a s) : Keeps a (s.couchRound c l x whole) := by
  unfold State.couchRound
  exact (h.foldl fun _ _ h => h.couchSend).upd

theorem Keeps.holdLane {l} (h : Keeps a s) : Keeps a (s.holdLane l) := h.same

theorem Keeps.couchHand {c l x} (h : Keeps a s) : Keeps a (s.couchHand c l x) := by
  unfold State.couchHand
  exact h.couchRound.couchSend.holdLane.upd

theorem execCouchStart_answers {dt} (h : Keeps a (s.tick dt)) : Answers a (execCouchStart dt s) := by
  unfold execCouchStart
  dsimp only
  refine .next ?_
  split
  · exact h
  · split
    · split
      · exact (h.foldl fun _ _ h => h.seamCtl).couchPassed
      · exact h.couchEnd
    · exact .ite h.couchEnd (.ite h.couchEnd (.ite h.couchRound (.ite (.ite h (.ite h.holdLane h.couchHand)) h)))

theorem Keeps.couchDone {c l} (h : Keeps a s) : Keeps a (s.couchDone c l) := by
  unfold State.couchDone
  dsimp only
  refine Keeps.bump ?_
  split
  · exact .ite h.couchEnd.terminate.settleSwitch h.couchEnd.terminate
  · exact h.couchEnd.terminate

theorem execCouchSwitch_answers {dt} (h : Keeps a (s.tick dt)) : Answers a (execCouchSwitch dt s) := by
  unfold execCouchSwitch
  dsimp only
  refine .next ?_
  split
  · exact h
  · split
    · exact h
    · exact .ite h h.couchDone

theorem execCascadeCouchCmd_answers {dt b} (h : Keeps a (s.tick dt)) : Answers a (execCascadeCouchCmd dt b s) :=
  .next (.getD (h.couchWrite) h)

theorem Keeps.orderLevel {lvl} (h : Keeps a s) : Keeps a (s.orderLevel lvl) := h.same.seamAll

theorem Keeps.moveLevel {p short} (h : Keeps a s) : Keeps a (s.moveLevel p short) :=
  .ite h.same (.ite (.ite h.same.orderLevel h.same) (.ite h.same.upd (.ite h.same.orderLevel h.same)))

theorem Keeps.lag {p cause bad speed late} (h : Keeps a s) : Keeps a (s.lag p cause bad speed late) := by
  unfold State.lag
  dsimp only
  split
  · exact h.same
  · split
    · exact h.same
    · exact .ite h.odSet.publish24 h

theorem Keeps.couchAway {p} (h : Keeps a s) : Keeps a (s.couchAway p) := by
  unfold State.couchAway
  split
  · exact h
  · split
    · exact h
    · split
      · exact h
      · split
        · exact .ite h.couchAdd h.seamCtl
        · exact h

theorem Keeps.judgeMember {p speed late rate short} (h : Keeps a s) : Keeps a (s.judgeMember p speed late rate short) :=
  .ite h.same.odSet.odSet.moveLevel.lag.lag.odSet h.same.odSet.odSet.moveLevel.lag.lag.couchAway

theorem execMemberReport_answers {dt panel speed late rate short} (h : Keeps a (s.tick dt)) :
    Answers a (execMemberReport dt panel speed late rate short s) :=
  .next (.ite h (.ite h.same.seamCtl (.ite h h.judgeMember)))

theorem execCascadeReplace_answers {dt b} (h : Keeps a (s.tick dt)) : Answers a (execCascadeReplace dt b s) :=
  .next (.getD (h.replaceWrite) h)

theorem execPowerOn_answers {dt romA romB bricks} (h : Keeps a (s.tick dt)) : Answers a (execPowerOn dt romA romB bricks s) :=
  .next (.ite h (h.same.foldl fun _ _ h => h.odSet).beginStep)

theorem Keeps.runImage (h : Keeps a s) : Keeps a s.runImage := h.odSet.odSet.odSet.odSet.odSet.odSet

theorem Keeps.startFirmware {strap} (h : Keeps a s) : Keeps a (s.startFirmware strap) := by
  have bootSet : ∀ u b, Keeps a u → Keeps a { u with boot := b } := fun _ _ h => h.same
  unfold State.startFirmware
  extract_lets b s1 s2 s3 s4 at' s5 b'
  have h1 : Keeps a s1 := h.same
  have h4 : Keeps a s4 := h1.runImage.odSet.bump.odSet.setDev.beginStep
  have h5 : Keeps a s5 := h4.enterBringup
  exact .ite (bootSet s5 _ h5) h4

theorem Keeps.verifyImage {failA failB strap} (h : Keeps a s) : Keeps a (s.verifyImage failA failB strap) :=
  .ite h.same h.same.startFirmware

theorem Keeps.readStore {ok0 ok1} (h : Keeps a s) : Keeps a (s.readStore ok0 ok1) :=
  .ite h.same.odSet (.ite h.same.upd.odSet (.ite h.same.upd.odSet h.same.odSet))

theorem Keeps.storeRead {ok0 ok1} (h : Keeps a s) : Keeps a (s.storeRead ok0 ok1) :=
  .ite h.readStore (.ite h.readStore.storeEvent h.readStore.storeEvent)

theorem execImageVerify_answers {dt failA failB crc0 crc1 strap} (h : Keeps a (s.tick dt)) :
    Answers a (execImageVerify dt failA failB crc0 crc1 strap s) :=
  .next (.ite h h.storeRead.verifyImage)

theorem execStandbyBusLoad_answers {dt fn ok} (h : Keeps a (s.tick dt)) : Answers a (execStandbyBusLoad dt fn ok s) :=
  .next (.ite h (.ite h.same.odSet (.ite h.same.odSet (.ite h.same.odSet.markKnown h.same.odSet))))

theorem Keeps.bootEvent {kind step code} (h : Keeps a s) : Keeps a (s.bootEvent kind step code) := h.publish24
theorem Keeps.clockLevel {hop} (h : Keeps a s) : Keeps a (s.clockLevel hop) := h.foldl fun _ _ h => h.setClock
theorem Keeps.startClock {lead} (h : Keeps a s) : Keeps a (s.startClock lead) := h.same.odSet.foldl fun _ _ h => h.setClock

theorem Keeps.lockAll {lead} (h : Keeps a s) : Keeps a (s.lockAll lead) :=
  (h.startClock.foldl fun _ _ h => h.clockLevel).countLocks

theorem Keeps.startDiscovery (h : Keeps a s) : Keeps a s.startDiscovery := h.sendAll
theorem Keeps.trainLinks (h : Keeps a s) : Keeps a s.trainLinks := h.foldl fun _ _ h => h.odSet.odSet
theorem Keeps.failSite {g cause} (h : Keeps a s) : Keeps a (s.failSite g cause) := .ite h.stageFloor.stageFloor h
theorem Keeps.failFound {n cause} (h : Keeps a s) : Keeps a (s.failFound n cause) := .ite h.failSite h.failOffgrid

theorem Keeps.calibrateLink {l lanes minPs ctlPs} (h : Keeps a s) : Keeps a (s.calibrateLink l lanes minPs ctlPs) :=
  .ite h.odSet.odSet.odSet h.odSet.odSet.odSet.odSet.odSet.odSet.odSet

theorem Keeps.calibrateLinks {cal} (h : Keeps a s) : Keeps a (s.calibrateLinks cal) := by
  unfold State.calibrateLinks
  refine Keeps.foldl ?_ fun _ _ h => ?_
  · exact h
  · split
    · exact h.calibrateLink
    · exact h.odSet.odSet

theorem Keeps.lookForDump (h : Keeps a s) : Keeps a s.lookForDump := by
  unfold State.lookForDump
  dsimp only
  split
  · exact h.odSet.upd.odSet.dumpEvent
  · exact h.odSet.upd.odSet

theorem Keeps.stepEffect {cal} (h : Keeps a s) : Keeps a (s.stepEffect cal) := by
  unfold State.stepEffect
  split
  · exact h.lockAll
  · exact h.trainLinks.startDiscovery
  · exact h.foldl fun _ _ h => h.failFound
  · exact h.calibrateLinks
  · exact h.foldl fun _ _ h => h.odSet
  · exact h.lookForDump
  · exact h

theorem execBringupStep_answers {dt cal} (h : Keeps a (s.tick dt)) : Answers a (execBringupStep dt cal s) :=
  .next (.ite h h.stepEffect.bootEvent.beginStep)

theorem execClockSourceLoss_answers {dt die} (h : Keeps a (s.tick dt)) : Answers a (execClockSourceLoss dt die s) := by
  unfold execClockSourceLoss
  dsimp only
  refine .next ?_
  split
  · exact .ite h h.clockRelock.clockSettle
  · exact h

theorem execClockSwitch_answers {dt} (h : Keeps a (s.tick dt)) : Answers a (execClockSwitch dt s) := .next h.clockSwitch
theorem Keeps.addFound {die f} (h : Keeps a s) : Keeps a (s.addFound die f) := h.same
theorem Keeps.toHub {src op words} (h : Keeps a s) : Keeps a (s.toHub src op words) := h.send

theorem Keeps.takePlace {die n edge kind dieId peers} (h : Keeps a s) : Keeps a (s.takePlace die n edge kind dieId peers) :=
  (Keeps.ite (Keeps.ite h.addFound.stageFloor h.addFound.stageFloor).failFound (.ite h.addFound.stageFloor h.addFound.stageFloor)).toHub.sendAll

theorem execDiscover_answers {dt die edge x y kind dieId peers} (h : Keeps a (s.tick dt)) :
    Answers a (execDiscover dt die edge x y kind dieId peers s) := by
  unfold execDiscover
  dsimp only
  refine .next ?_
  split
  · exact h
  · split
    · exact .ite h h.failFound
    · split
      · exact h
      · exact h.takePlace

theorem Keeps.berResult {link bits outErr inErr ctlBits ctl1 ctl2 ctlPs} (h : Keeps a s) :
    Keeps a (s.berResult link bits outErr inErr ctlBits ctl1 ctl2 ctlPs) := by
  unfold State.berResult
  extract_lets bad port ctl lanes b s1 s2 s3 s4 s5 s6 lat
  have h1 : Keeps a s1 := h.same
  have h2 : Keeps a s2 := h1.odSet.odSet.odSet.odSet.odSet.odSet.odSet
  have h3 : Keeps a s3 := h2.odSet.odSet.odSet
  have h4 : Keeps a s4 := .ite h3 h3.odSet
  have h5 : Keeps a s5 := .ite h4 h4.odSet
  have h6 : Keeps a s6 := .ite h5 h5.odSet
  exact .ite h6.odSet (.ite h6 h6.odSet.odSet.odSet)

theorem execLinkBerCheck_answers {dt link bits outErr inErr ctlBits ctlErr ctlPs} (h : Keeps a (s.tick dt)) :
    Answers a (execLinkBerCheck dt link bits outErr inErr ctlBits ctlErr ctlPs s) :=
  .onLink h (.ite h h.berResult)

theorem execFirmwareBroadcast_answers {dt base} (h : Keeps a (s.tick dt)) : Answers a (execFirmwareBroadcast dt base s) := by
  unfold execFirmwareBroadcast
  extract_lets t kind hub s1 b s2
  have h1 : Keeps a s1 := h.foldl fun _ _ h => h.odSet
  have h2 : Keeps a s2 := h1.same
  refine .next (.ite h ?_)
  split
  · exact h
  · exact h2.sendAll

theorem execChunkReceived_answers {dt site chunk data} (h : Keeps a (s.tick dt)) : Answers a (execChunkReceived dt site chunk data s) := by
  unfold execChunkReceived
  dsimp only
  refine .next ?_
  split
  · exact h
  · split
    · exact h
    · exact .ite h.putBytes.upd h.putBytes
    · exact .ite h (.ite h.bump (.ite h.putBytes.upd.odSet.odSet.odSet h.putBytes.upd))

theorem Keeps.repair {kind} (h : Keeps a s) : Keeps a (s.repair kind) := by
  unfold State.repair
  dsimp only
  split
  · exact h
  · exact h.foldl fun _ _ h => .ite h (.ite h.odSet.sendAll h.odSet.sendAll)

theorem execRepairRound_answers {dt} (h : Keeps a (s.tick dt)) : Answers a (execRepairRound dt s) := by
  unfold execRepairRound
  extract_lets t dies s1 bad r
  have h1 : Keeps a s1 := (h.foldl fun _ _ h => h.odSet).odSet
  exact .next (.ite h (.ite h1 (.ite (h1.foldl fun _ _ h => h.failSite.odSet).odSet h1.upd.odSet.repair.repair)))

theorem execStackBringup_answers {dt stack trained tested repairs} (h : Keeps a (s.tick dt)) :
    Answers a (execStackBringup dt stack trained tested repairs s) := by
  have zeroed : ∀ u n, Keeps a u → Keeps a { u with mem := memZero u.mem (gaddr (stackNode stack.val) 0) n } :=
    fun _ _ h => h.store (wf_memZero _ _ _)
  exact .next (.ite h (.ite (Keeps.same h).failSite (zeroed _ _ h.same).odSet))

theorem execKnownAnswerRun_answers {dt site point bad raised dieBad} (h : Keeps a (s.tick dt)) :
    Answers a (execKnownAnswerRun dt site point bad raised dieBad s) := by
  unfold execKnownAnswerRun
  extract_lets t g had s1 low m b s2
  have h1 : Keeps a s1 := h.foldl fun _ _ h => .ite h.setTrim.upd h
  clear_value s1
  have h2 : Keeps a s2 := h1.same
  exact .onDie h (.ite h (.ite h2.failSite h2))

theorem Keeps.assembleRest (h : Keeps a s) : Keeps a s.assembleRest :=
  (h.foldl fun _ _ h => .ite h.stageFloor (.ite h.stageFloor h)).foldl fun _ _ h => .ite h.stageFloor h

theorem Keeps.markOut {g v} (h : Keeps a s) : Keeps a (s.markOut g v) := h.foldl fun _ _ h => h.recordFree

theorem Keeps.assembleSite {g} (h : Keeps a s) : Keeps a (s.assembleSite g) :=
  .ite h.stageFloor.markOut (.ite h.markOut h.stageFloor.markTiles)

theorem Keeps.firstGeneration {pairs} (h : Keeps a s) : Keeps a (s.firstGeneration pairs) :=
  (h.foldl fun _ _ h => h.assembleSite).assembleRest.designateSpares.applyFloor.setBank.setBank.odSet.odSet

theorem execFloorPlanAssembly_answers {dt pairs} (h : Keeps a (s.tick dt)) : Answers a (execFloorPlanAssembly dt pairs s) :=
  .next (.ite h h.firstGeneration.upd)

theorem Keeps.failBringup {code} (h : Keeps a s) : Keeps a (s.failBringup code) := h.setDev.shutDown.odSet.odSet.bootEvent

theorem Keeps.enterReady (h : Keeps a s) : Keeps a s.enterReady := by
  unfold State.enterReady
  extract_lets s1 s2 s3 s4
  have h1 : Keeps a s1 := h.setDev.odSet
  have h2 : Keeps a s2 := by
    refine h1.foldl fun _ _ h => ?_
    split
    · exact h
    · exact h.odSet
    · exact h.odSet
  clear_value s2
  have h3 : Keeps a s3 := h2.foldl fun _ _ h => .ite h.setStack h
  clear_value s3
  have h4 : Keeps a s4 := Keeps.odSet h3.same
  exact h4.bootEvent.takeRecord

theorem execReadyGate_answers {dt selfA selfB} (h : Keeps a (s.tick dt)) : Answers a (execReadyGate dt selfA selfB s) := by
  unfold execReadyGate
  dsimp only
  refine .next ?_
  split
  · exact h
  · split
    · exact h.failBringup
    · exact h.enterReady

theorem execBringupTimeout_answers {dt} (h : Keeps a (s.tick dt)) : Answers a (execBringupTimeout dt s) :=
  .next (.ite h.failBringup h)

theorem execFwBegin_answers {dt len} (h : Keeps a (s.tick dt)) : Answers a (execFwBegin dt len s) := .next (.getD (h.fwBegin) h)

theorem execFwImageWrite_answers {dt b} (h : Keeps a (s.tick dt)) : Answers a (execFwImageWrite dt b s) :=
  .next (.getD (h.fwImage) h)

theorem execFwCommit_answers {dt} (h : Keeps a (s.tick dt)) : Answers a (execFwCommit dt s) := .next (.getD (h.fwCommit) h)

theorem execFlashWriteDone_answers {dt ok} (h : Keeps a (s.tick dt)) : Answers a (execFlashWriteDone dt ok s) :=
  .next (.ite h (.ite h.same.setFw.fwStatus h.same.setFw.fwStatus))

theorem execFwCancel_answers {dt} (h : Keeps a (s.tick dt)) : Answers a (execFwCancel dt s) := .next (.getD (h.fwCancel) h)

theorem execActivate_answers {dt} (h : Keeps a (s.tick dt)) : Answers a (execActivate dt s) :=
  .next (Keeps.getD (h.fwActivate) h).closeDueNow

theorem execCommitVersion_answers {dt} (h : Keeps a (s.tick dt)) : Answers a (execCommitVersion dt s) :=
  .next (.getD (h.fwCommitVersion) h)

theorem execRevoke_answers {dt level slot} (h : Keeps a (s.tick dt)) : Answers a (execRevoke dt level slot s) :=
  .next (.getD (h.fwRevoke) h)

theorem execImageRecoveryCommit_answers {dt strap} (h : Keeps a (s.tick dt)) : Answers a (execImageRecoveryCommit dt strap s) := by
  unfold execImageRecoveryCommit
  dsimp only
  refine .next ?_
  split
  · exact h
  · split
    · exact h.closeAll.fwDrop.setFw.beginStep.verifyImage
    · exact h.setFw

theorem execAttestRequest_answers {dt nonce} (h : Keeps a (s.tick dt)) : Answers a (execAttestRequest dt nonce s) :=
  .next (.getD (h.attestRequest) h)

theorem Keeps.endDumpEarly (h : Keeps a s) : Keeps a s.endDumpEarly :=
  ((Keeps.ite h.beginScan h).putDump.foldl fun _ _ h => .ite h (.ite h.closeSection h.endSection)).finishHeader.idleAll.odSet.dumpEvent

theorem execDumpTimeLimit_answers {dt} (h : Keeps a (s.tick dt)) : Answers a (execDumpTimeLimit dt s) :=
  .next (.ite h h.endDumpEarly)

theorem execDumpClear_answers {dt} (h : Keeps a (s.tick dt)) : Answers a (execDumpClear dt s) := .next (.getD (h.dumpClear) h)
theorem Keeps.powerOff (h : Keeps a s) : Keeps a s.powerOff := ⟨h.1, h.2.1, fun _ => rfl⟩
theorem execInputLoss_answers {dt} (h : Keeps a (s.tick dt)) : Answers a (execInputLoss dt s) := .next (.ite h.powerOff h)
theorem execEpoOpen_answers {dt} (h : Keeps a (s.tick dt)) : Answers a (execEpoOpen dt s) := .next (.ite h.powerOff h)

theorem execSeamLinkLossOfSignal_answers {dt port} (h : Keeps a (s.tick dt)) : Answers a (execSeamLinkLossOfSignal dt port s) :=
  .next (.ite h.linkGone h)

theorem execPtpMasterLoss_answers {dt} (h : Keeps a (s.tick dt)) : Answers a (execPtpMasterLoss dt s) := .next (.ite h.ptpLost h)

theorem execCascadeFormingReport_answers {dt} (h : Keeps a (s.tick dt)) : Answers a (execCascadeFormingReport dt s) :=
  .next (.ite h.burn.upd.cascadeEvent h)

theorem Keeps.withSpares (h : Keeps a s) : Keeps a s.withSpares := .ite h h.designateSpares

end

/-- Every command answers a next state, and keeps what waits behind it, its own time and the memory's canonical form. -/
theorem exec_answers (c : Instr) (s : State) : Answers (s.tick c.dt) (exec c s) :=
  match c with
  | .hubDispatchPoint .. => execHubDispatchPoint_answers (.refl _)
  | .stewardDispatchPoint .. => execStewardDispatchPoint_answers (.refl _)
  | .tileSequencerDispatch .. => execTileSequencerDispatch_answers (.refl _)
  | .configTokenArrival .. => execConfigTokenArrival_answers (.refl _)
  | .tokenArrival .. => execTokenArrival_answers (.refl _)
  | .matchingStoreMove .. => execMatchingStoreMove_answers (.refl _)
  | .matrixGroupFire .. => execMatrixGroupFire_answers (.refl _)
  | .matrixEmit .. => execMatrixEmit_answers (.refl _)
  | .vectorFire .. => execVectorFire_answers (.refl _)
  | .scratchpadReadFire .. => execScratchpadReadFire_answers (.refl _)
  | .scratchpadWriteFire .. => execScratchpadWriteFire_answers (.refl _)
  | .dmaFire .. => execDmaFire_answers (.refl _)
  | .pageGatherFire .. => execPageGatherFire_answers (.refl _)
  | .switchFire .. => execSwitchFire_answers (.refl _)
  | .mergeFire .. => execMergeFire_answers (.refl _)
  | .gateFire .. => execGateFire_answers (.refl _)
  | .splitFire .. => execSplitFire_answers (.refl _)
  | .joinFire .. => execJoinFire_answers (.refl _)
  | .inboundMailboxFire .. => execInboundMailboxFire_answers (.refl _)
  | .outboundMailboxFire .. => execOutboundMailboxFire_answers (.refl _)
  | .mailboxRetry .. => execMailboxRetry_answers (.refl _)
  | .errorTokenFire .. => execErrorTokenFire_answers (.refl _)
  | .stallDetected .. => execStallDetected_answers (.refl _)
  | .slotSwitch .. => execSlotSwitch_answers (.refl _)
  | .fenceApply .. => execFenceApply_answers (.refl _)
  | .fenceAck .. => execFenceAck_answers (.refl _)
  | .epochEnd .. => execEpochEnd_answers (.refl _)
  | .epochAbort .. => execEpochAbort_answers (.refl _)
  | .passIssue .. => execPassIssue_answers (.refl _)
  | .runaheadIssue .. => execRunaheadIssue_answers (.refl _)
  | .tileHold .. => execTileHold_answers (.refl _)
  | .tileRun .. => execTileRun_answers (.refl _)
  | .tileScanOut .. => execTileScanOut_answers (.refl _)
  | .tileScanIn .. => execTileScanIn_answers (.refl _)
  | .regionSet .. => execRegionSet_answers (.refl _)
  | .scratchFill .. => execScratchFill_answers (.refl _)
  | .scratchCopy .. => execScratchCopy_answers (.refl _)
  | .tagset .. => execTagset_answers (.refl _)
  | .scratchCommit .. => execScratchCommit_answers (.refl _)
  | .scratchRollback .. => execScratchRollback_answers (.refl _)
  | .scratchSwap .. => execScratchSwap_answers (.refl _)
  | .scratchSave .. => execScratchSave_answers (.refl _)
  | .scratchRestore .. => execScratchRestore_answers (.refl _)
  | .swapProtocol .. => execSwapProtocol_answers (.refl _)
  | .tokensPacket .. => execTokensPacket_answers (.refl _)
  | .remoteWrite .. => execRemoteWrite_answers (.refl _)
  | .remoteRead .. => execRemoteRead_answers (.refl _)
  | .writeAck .. => execWriteAck_answers (.refl _)
  | .readData .. => execReadData_answers (.refl _)
  | .errorPacket .. => execErrorPacket_answers (.refl _)
  | .configPacket .. => execConfigPacket_answers (.refl _)
  | .install .. => execInstall_answers (.refl _)
  | .multicastForward .. => execMulticastForward_answers (.refl _)
  | .linkBlockReceived .. => execLinkBlockReceived_answers (.refl _)
  | .ackTimeoutRetrain .. => execAckTimeoutRetrain_answers (.refl _)
  | .retrainRequest .. => execRetrainRequest_answers (.refl _)
  | .retrainDone .. => execRetrainDone_answers (.refl _)
  | .linkFail .. => execLinkFail_answers (.refl _)
  | .heldFlitFault .. => execHeldFlitFault_answers (.refl _)
  | .bankFlip .. => execBankFlip_answers (.refl _)
  | .bankDrainEnd .. => execBankDrainEnd_answers (.refl _)
  | .linkAdmit .. => execLinkAdmit_answers (.refl _)
  | .mboxWrite .. => execMboxWrite_answers (.refl _)
  | .mboxResp .. => execMboxResp_answers (.refl _)
  | .mboxPoll .. => execMboxPoll_answers (.refl _)
  | .mboxPollResp .. => execMboxPollResp_answers (.refl _)
  | .doorbell .. => execDoorbell_answers (.refl _)
  | .flagRead .. => execFlagRead_answers (.refl _)
  | .flagResp .. => execFlagResp_answers (.refl _)
  | .faultNotice .. => execFaultNotice_answers (.refl _)
  | .noticeResp .. => execNoticeResp_answers (.refl _)
  | .noticeResend .. => execNoticeResend_answers (.refl _)
  | .scanData .. => execScanData_answers (.refl _)
  | .bitmapRead .. => execBitmapRead_answers (.refl _)
  | .odReq .. => execOdReq_answers (.refl _)
  | .odResp .. => execOdResp_answers (.refl _)
  | .gather .. => execGather_answers (.refl _)
  | .stackFill .. => execStackFill_answers (.refl _)
  | .stackCopy .. => execStackCopy_answers (.refl _)
  | .dirSet .. => execDirSet_answers (.refl _)
  | .dirClear .. => execDirClear_answers (.refl _)
  | .groupSet .. => execGroupSet_answers (.refl _)
  | .parityDelta .. => execParityDelta_answers (.refl _)
  | .groupRead .. => execGroupRead_answers (.refl _)
  | .rebuild .. => execRebuild_answers (.refl _)
  | .rebuildComplete .. => execRebuildComplete_answers (.refl _)
  | .scrub .. => execScrub_answers (.refl _)
  | .scrubPass .. => execScrubPass_answers (.refl _)
  | .stackTempSample .. => execStackTempSample_answers (.refl _)
  | .stackRejoin .. => execStackRejoin_answers (.refl _)
  | .weightCopyRestore .. => execWeightCopyRestore_answers (.refl _)
  | .slotBegin .. => execSlotBegin_answers (.refl _)
  | .slotImageWrite .. => execSlotImageWrite_answers (.refl _)
  | .slotCursorWrite .. => execSlotCursorWrite_answers (.refl _)
  | .slotCommit .. => execSlotCommit_answers (.refl _)
  | .loadChecksDone .. => execLoadChecksDone_answers (.refl _)
  | .placementDone .. => execPlacementDone_answers (.refl _)
  | .slotCancel .. => execSlotCancel_answers (.refl _)
  | .slotUnload .. => execSlotUnload_answers (.refl _)
  | .unloadDone .. => execUnloadDone_answers (.refl _)
  | .resupply .. => execResupply_answers (.refl _)
  | .replanForce .. => execReplanForce_answers (.refl _)
  | .rebalance .. => execRebalance_answers (.refl _)
  | .respare .. => execRespare_answers (.refl _)
  | .slice .. => execSlice_answers (.refl _)
  | .fullReplan .. => execFullReplan_answers (.refl _)
  | .speedSample .. => execSpeedSample_answers (.refl _)
  | .planRecomputeDone .. => execPlanRecomputeDone_answers (.refl _)
  | .submitFragment .. => execSubmitFragment_answers (.refl _)
  | .rtSubmit .. => execRtSubmit_answers (.refl _)
  | .submitTimeout .. => execSubmitTimeout_answers (.refl _)
  | .admitStream .. => execAdmitStream_answers (.refl _)
  | .tokenRelease .. => execTokenRelease_answers (.refl _)
  | .underrunRelease .. => execUnderrunRelease_answers (.refl _)
  | .rtAbort .. => execRtAbort_answers (.refl _)
  | .terminalRecordExpire .. => execTerminalRecordExpire_answers (.refl _)
  | .productionCheck .. => execProductionCheck_answers (.refl _)
  | .adaptCycleStart .. => execAdaptCycleStart_answers (.refl _)
  | .adaptCycleDone .. => execAdaptCycleDone_answers (.refl _)
  | .portRoleWrite .. => execPortRoleWrite_answers (.refl _)
  | .rtSack .. => execRtSack_answers (.refl _)
  | .rtCredit .. => execRtCredit_answers (.refl _)
  | .rtRetransmit .. => execRtRetransmit_answers (.refl _)
  | .hostSilence .. => execHostSilence_answers (.refl _)
  | .pfcPause .. => execPfcPause_answers (.refl _)
  | .pfcPauseEnd .. => execPfcPauseEnd_answers (.refl _)
  | .ptpMessage .. => execPtpMessage_answers (.refl _)
  | .ptpPortMove .. => execPtpPortMove_answers (.refl _)
  | .hostPortFail .. => execHostPortFail_answers (.refl _)
  | .hostPortUp .. => execHostPortUp_answers (.refl _)
  | .moduleInsert .. => execModuleInsert_answers (.refl _)
  | .moduleRemove .. => execModuleRemove_answers (.refl _)
  | .moduleMonitorRead .. => execModuleMonitorRead_answers (.refl _)
  | .lldpReceive .. => execLldpReceive_answers (.refl _)
  | .arpRequest .. => execArpRequest_answers (.refl _)
  | .neighborDiscovery .. => execNeighborDiscovery_answers (.refl _)
  | .icmpEcho .. => execIcmpEcho_answers (.refl _)
  | .eopFragmentTimeout .. => execEopFragmentTimeout_answers (.refl _)
  | .hello .. => execHello_answers (.refl _)
  | .halfOpenExpire .. => execHalfOpenExpire_answers (.refl _)
  | .proof .. => execProof_answers (.refl _)
  | .protectedReceive .. => execProtectedReceive_answers (.refl _)
  | .closeSession .. => execCloseSession_answers (.refl _)
  | .keepalive .. => execKeepalive_answers (.refl _)
  | .sessionIdleTimeout .. => execSessionIdleTimeout_answers (.refl _)
  | .sessionLifetimeEnd .. => execSessionLifetimeEnd_answers (.refl _)
  | .readReq .. => execReadReq_answers (.refl _)
  | .writeReq .. => execWriteReq_answers (.refl _)
  | .bulkRead .. => execBulkRead_answers (.refl _)
  | .subscribe .. => execSubscribe_answers (.refl _)
  | .unsubscribe .. => execUnsubscribe_answers (.refl _)
  | .eventAck .. => execEventAck_answers (.refl _)
  | .eventResend .. => execEventResend_answers (.refl _)
  | .quorum .. => execQuorum_answers (.refl _)
  | .quorumIdExpire .. => execQuorumIdExpire_answers (.refl _)
  | .retire .. => execRetire_answers (.refl _)
  | .expel .. => execExpel_answers (.refl _)
  | .forcedHandover .. => execForcedHandover_answers (.refl _)
  | .objectWrite .. => execObjectWrite_answers (.refl _)
  | .recordWrite .. => execRecordWrite_answers (.refl _)
  | .storeCommit .. => execStoreCommit_answers (.refl _)
  | .holdCmd .. => execHoldCmd_answers (.refl _)
  | .releaseHold .. => execReleaseHold_answers (.refl _)
  | .startCmd .. => execStartCmd_answers (.refl _)
  | .stopCmd .. => execStopCmd_answers (.refl _)
  | .warmReset .. => execWarmReset_answers (.refl _)
  | .unretire .. => execUnretire_answers (.refl _)
  | .storeReset .. => execStoreReset_answers (.refl _)
  | .sessionClose .. => execSessionClose_answers (.refl _)
  | .principalSet .. => execPrincipalSet_answers (.refl _)
  | .quorumSet .. => execQuorumSet_answers (.refl _)
  | .mgmtAddressWrite .. => execMgmtAddressWrite_answers (.refl _)
  | .sectorPowerUp .. => execSectorPowerUp_answers (.refl _)
  | .railSettleTimeout .. => execRailSettleTimeout_answers (.refl _)
  | .setpointWrite .. => execSetpointWrite_answers (.refl _)
  | .setpointReached .. => execSetpointReached_answers (.refl _)
  | .paceLevelChange .. => execPaceLevelChange_answers (.refl _)
  | .panelPowerSample .. => execPanelPowerSample_answers (.refl _)
  | .sectorCurrentSample .. => execSectorCurrentSample_answers (.refl _)
  | .paceShortfall .. => execPaceShortfall_answers (.refl _)
  | .droopEvent .. => execDroopEvent_answers (.refl _)
  | .droopTrimExpire .. => execDroopTrimExpire_answers (.refl _)
  | .brickLoss .. => execBrickLoss_answers (.refl _)
  | .brickInsert .. => execBrickInsert_answers (.refl _)
  | .idleEntry .. => execIdleEntry_answers (.refl _)
  | .idleCommand .. => execIdleCommand_answers (.refl _)
  | .wakeRequest .. => execWakeRequest_answers (.refl _)
  | .wakeStep .. => execWakeStep_answers (.refl _)
  | .wakeTrimExpire .. => execWakeTrimExpire_answers (.refl _)
  | .sectorLatch .. => execSectorLatch_answers (.refl _)
  | .sectorSupplyLoss .. => execSectorSupplyLoss_answers (.refl _)
  | .hotspotSample .. => execHotspotSample_answers (.refl _)
  | .dieTempEval .. => execDieTempEval_answers (.refl _)
  | .criticalDieRetest .. => execCriticalDieRetest_answers (.refl _)
  | .thermalResistanceSample .. => execThermalResistanceSample_answers (.refl _)
  | .coolingWarning .. => execCoolingWarning_answers (.refl _)
  | .marginRead .. => execMarginRead_answers (.refl _)
  | .eyeMarginRead .. => execEyeMarginRead_answers (.refl _)
  | .stackEccRateCheck .. => execStackEccRateCheck_answers (.refl _)
  | .marginReplan .. => execMarginReplan_answers (.refl _)
  | .replanNow .. => execReplanNow_answers (.refl _)
  | .moduleLifeDaily .. => execModuleLifeDaily_answers (.refl _)
  | .dieHeartbeatRead .. => execDieHeartbeatRead_answers (.refl _)
  | .hubHeartbeat .. => execHubHeartbeat_answers (.refl _)
  | .offgridHeartbeatPoll .. => execOffgridHeartbeatPoll_answers (.refl _)
  | .faultContainment .. => execFaultContainment_answers (.refl _)
  | .repair .. => execRepair_answers (.refl _)
  | .hubLoss .. => execHubLoss_answers (.refl _)
  | .stewardLoss .. => execStewardLoss_answers (.refl _)
  | .violationNotice .. => execViolationNotice_answers (.refl _)
  | .stallAbort .. => execStallAbort_answers (.refl _)
  | .bgEscalate .. => execBgEscalate_answers (.refl _)
  | .bgSlotHold .. => execBgSlotHold_answers (.refl _)
  | .scrubForcedPause .. => execScrubForcedPause_answers (.refl _)
  | .resupplyTimeout .. => execResupplyTimeout_answers (.refl _)
  | .fatalEntry .. => execFatalEntry_answers (.refl _)
  | .hubsLostIdle .. => execHubsLostIdle_answers (.refl _)
  | .seamLinkUp .. => execSeamLinkUp_answers (.refl _)
  | .cascadeForm .. => execCascadeForm_answers (.refl _)
  | .memberHeartbeat .. => execMemberHeartbeat_answers (.refl _)
  | .memberLoss .. => execMemberLoss_answers (.refl _)
  | .deputyTakeover .. => execDeputyTakeover_answers (.refl _)
  | .masterIsolate .. => execMasterIsolate_answers (.refl _)
  | .transferReissue .. => execTransferReissue_answers (.refl _)
  | .cascadeLevelChange .. => execCascadeLevelChange_answers (.refl _)
  | .deepenCommitRecord .. => execDeepenCommitRecord_answers (.refl _)
  | .reamContribution .. => execReamContribution_answers (.refl _)
  | .reamDeadline .. => execReamDeadline_answers (.refl _)
  | .reamAbandon .. => execReamAbandon_answers (.refl _)
  | .reamReduce .. => execReamReduce_answers (.refl _)
  | .couchStart .. => execCouchStart_answers (.refl _)
  | .couchSwitch .. => execCouchSwitch_answers (.refl _)
  | .cascadeCouchCmd .. => execCascadeCouchCmd_answers (.refl _)
  | .memberReport .. => execMemberReport_answers (.refl _)
  | .cascadeReplace .. => execCascadeReplace_answers (.refl _)
  | .powerOn .. => execPowerOn_answers (.refl _)
  | .imageVerify .. => execImageVerify_answers (.refl _)
  | .standbyBusLoad .. => execStandbyBusLoad_answers (.refl _)
  | .bringupStep .. => execBringupStep_answers (.refl _)
  | .clockSourceLoss .. => execClockSourceLoss_answers (.refl _)
  | .clockSwitch .. => execClockSwitch_answers (.refl _)
  | .discover .. => execDiscover_answers (.refl _)
  | .linkBerCheck .. => execLinkBerCheck_answers (.refl _)
  | .firmwareBroadcast .. => execFirmwareBroadcast_answers (.refl _)
  | .chunkReceived .. => execChunkReceived_answers (.refl _)
  | .repairRound .. => execRepairRound_answers (.refl _)
  | .stackBringup .. => execStackBringup_answers (.refl _)
  | .knownAnswerRun .. => execKnownAnswerRun_answers (.refl _)
  | .floorPlanAssembly .. => execFloorPlanAssembly_answers (.refl _)
  | .readyGate .. => execReadyGate_answers (.refl _)
  | .bringupTimeout .. => execBringupTimeout_answers (.refl _)
  | .fwBegin .. => execFwBegin_answers (.refl _)
  | .fwImageWrite .. => execFwImageWrite_answers (.refl _)
  | .fwCommit .. => execFwCommit_answers (.refl _)
  | .flashWriteDone .. => execFlashWriteDone_answers (.refl _)
  | .fwCancel .. => execFwCancel_answers (.refl _)
  | .activate .. => execActivate_answers (.refl _)
  | .commitVersion .. => execCommitVersion_answers (.refl _)
  | .revoke .. => execRevoke_answers (.refl _)
  | .imageRecoveryCommit .. => execImageRecoveryCommit_answers (.refl _)
  | .attestRequest .. => execAttestRequest_answers (.refl _)
  | .dumpTimeLimit .. => execDumpTimeLimit_answers (.refl _)
  | .dumpClear .. => execDumpClear_answers (.refl _)
  | .inputLoss .. => execInputLoss_answers (.refl _)
  | .epoOpen .. => execEpoOpen_answers (.refl _)
  | .seamLinkLossOfSignal .. => execSeamLinkLossOfSignal_answers (.refl _)
  | .ptpMasterLoss .. => execPtpMasterLoss_answers (.refl _)
  | .cascadeFormingReport .. => execCascadeFormingReport_answers (.refl _)

/-- Settles O2: each command's own lemma gives the state that it answers. -/
theorem everyCommandAnswersNext : Obligations.EveryCommandAnswersNext := by
  intro c s
  obtain ⟨t, ht, -⟩ := exec_answers c s
  exact ⟨t, ht⟩

/-- Settles O3: a command's time passes first, and no part of its meaning touches the queue or the clock. -/
theorem queueUntouchedByCommands : Obligations.QueueUntouchedByCommands := by
  intro c s t ht
  obtain ⟨u, hu, hpending, hclk, -⟩ := exec_answers c s
  cases ht.symm.trans hu
  exact ⟨hpending, hclk⟩

/-- Settles O4: every store of a command is one of the memory's own operations, which keep the canonical form. -/
theorem stepKeepsMemoryCanonical : Obligations.StepKeepsMemoryCanonical := by
  intro s t hwf ht
  unfold step at ht
  split at ht
  · cases ht
    exact hwf
  · rename_i c rest _
    obtain ⟨u, hu, -, -, hmem⟩ := exec_answers c { s with pending := rest }
    cases ht.symm.trans hu
    exact hmem hwf

end Sys2Proof.Proofs
end

section
namespace Sys2Proof.Proofs
open Sys2Proof.Machine

/-! O55: a firing follows its definition's branches, and each branch is a chain of operations that the laws of frames cover. -/

/-- Every state that a command answers is the work of one tile. -/
def Works (k : Nat) (s : State) (r : Host.Outcome State Fault Refusal) : Prop := ∀ t, r = .next t → OnlyTileWork k s t

theorem works_onTile {k j : Nat} {s t : State} (h : OnlyTileWork k s t) : Works k s (onTile j s t) := by
  intro u hu
  cases hu
  split
  · exact h
  · exact .refl k s

theorem work_ite {k : Nat} {s t u : State} {c : Prop} [Decidable c] (h : OnlyTileWork k s t) (h' : OnlyTileWork k s u) :
    OnlyTileWork k s (if c then t else u) := by
  split
  · exact h
  · exact h'

/-- A user's act, where the tile has been written before its banks are asked for. -/
theorem granted_from {k j : Nat} {s t : State} {l : List Nat} {c : List (Fin 32 × Fin 5)} {act : State → State}
    (h : OnlyTileWork k s t) (hact : ∀ v, OnlyTileWork k s v → OnlyTileWork k s (act v)) :
    OnlyTileWork k s (t.granted k j l c act) :=
  work_ite (hact _ (h.trans (arbitrate_work t k j l c))) (h.trans (arbitrate_work t k j l c))

theorem execMatrixGroupFire_works (dt k : Nat) (i : Fin 16) (s : State) : Works k (s.tick dt) (execMatrixGroupFire dt k i s) := by
  refine works_onTile (work_ite ?_ (.refl _ _))
  split
  · refine work_ite ((setTile_work _ _ _).trans (errorFire_work _ _ _ _ _))
      (work_ite ((setTile_work _ _ _).trans (violate_work _ _ _ _ _ _ _)) ?_)
    split
    · exact (setTile_work _ _ _).trans (violate_work _ _ _ _ _ _ _)
    · exact (setTile_work _ _ _).trans (bump_work _ _)
  · exact .refl _ _

theorem execMatrixEmit_works (dt k : Nat) (f : Firing) (s : State) : Works k (s.tick dt) (execMatrixEmit dt k f s) := by
  unfold execMatrixEmit
  extract_lets u i t d s0
  refine works_onTile ?_
  split
  · exact .refl _ _
  · rename_i m _
    extract_lets reads go
    have emits : ∀ v, OnlyTileWork k u v → OnlyTileWork k u (go v) := by
      intro v hv
      have hrun := hv.trans (runBlocks_work k i.val d (mChunks d - m.kc) v)
      dsimp only [go]
      split
      · exact work_ite (hrun.trans (emitResult_work _ _ _ _ _)) hrun
      · exact hrun
    refine work_ite (.refl _ _) ?_
    split
    · exact (setTile_work _ _ _).trans (violateTok_work _ _ _ _ _ _ _ _)
    · exact work_ite (emits _ (setTile_work _ _ _))
        (granted_from (setTile_work _ _ _) emits)

theorem execVectorFire_works (dt k : Nat) (f : Firing) (s : State) : Works k (s.tick dt) (execVectorFire dt k f s) := by
  refine works_onTile (work_ite ?_ (.refl _ _))
  split
  · exact .refl _ _
  · split
    · exact (setTile_work _ _ _).trans (errorFire_work _ _ _ _ _)
    · split
      · exact (setTile_work _ _ _).trans (violateAt_work _ _ _ _ _ _ _ _ _)
      · exact (setTile_work _ _ _).trans (violate_work _ _ _ _ _ _ _)
      · exact work_ite (.refl _ _) (work_ite (slotWait_work _ _ _ _) (granted_work fun _ hv => hv.trans (vectorFire_work _ _ _ _ _)))

theorem execScratchpadReadFire_works (dt k : Nat) (i : Fin 16) (b : List (Fin 32 × Fin 5)) (s : State) :
    Works k (s.tick dt) (execScratchpadReadFire dt k i b s) := by
  refine works_onTile ?_
  dsimp only
  split
  · exact .refl _ _
  · split
    · exact (setTile_work _ _ _).trans (errorFire_work _ _ _ _ _)
    · split
      · exact (setTile_work _ _ _).trans (violate_work _ _ _ _ _ _ _)
      · exact slotWait_work _ _ _ _
      · rename_i hrows
        refine work_ite (granted_work fun v hv => ?_) (slotWait_work _ _ _ _)
        refine ((hv.trans ((setTile_work _ _ _).trans (endFire_work _ _ _ _ _))).trans (setTile_work _ _ _)).trans
          (pumpRead_work _ _ _ fun c hc => ?_)
        simp only [tile_setTile_same, slot_setSlot_same, Option.some.injEq] at hc
        rw [← hc]
        exact resolve_bound hrows

theorem execPageGatherFire_works (dt k : Nat) (i : Fin 16) (s : State) : Works k (s.tick dt) (execPageGatherFire dt k i s) := by
  refine works_onTile ?_
  dsimp only
  split
  · exact .refl _ _
  · split
    · exact (setTile_work _ _ _).trans (errorFire_work _ _ _ _ _)
    · split
      · exact (setTile_work _ _ _).trans (violate_work _ _ _ _ _ _ _)
      · exact work_ite ((setTile_work _ _ _).trans (violate_work _ _ _ _ _ _ _)) (work_ite (slotWait_work _ _ _ _)
          (((((setTile_work _ _ _).trans (endFire_work _ _ _ _ _)).trans (setTile_work _ _ _)).trans (send_work _ _)).trans (bumpTxn_work _)))

theorem execErrorTokenFire_works (dt k : Nat) (i : Fin 16) (s : State) : Works k (s.tick dt) (execErrorTokenFire dt k i s) := by
  refine works_onTile (work_ite ?_ (.refl _ _))
  split
  · split
    · exact (setTile_work _ _ _).trans (errorFire_work _ _ _ _ _)
    · exact .refl _ _
  · exact .refl _ _

theorem execMatchingStoreMove_works (dt k : Nat) (i : Fin 16) (n : Fin 4) (s : State) :
    Works k (s.tick dt) (execMatchingStoreMove dt k i n s) := by
  refine works_onTile (work_ite (.refl _ _) ?_)
  split
  · exact .refl _ _
  · exact work_ite (.refl _ _) (work_ite (setTile_work _ _ _) (work_ite (.refl _ _) ((setTile_work _ _ _).trans (bump_work _ _))))

theorem execSlotSwitch_works (dt k : Nat) (i : Fin 16) (s : State) : Works k (s.tick dt) (execSlotSwitch dt k i s) := by
  refine works_onTile ?_
  split
  · exact .refl _ _
  · refine work_ite (.refl _ _) ?_
    split
    · split
      · exact ((setTile_work _ _ _).trans (sendError_work _ _ _ _ _ _ _)).trans (logTile_work _ _ _)
      · exact switchSlot_work _ _ _ _ _
    · exact switchSlot_work _ _ _ _ _

theorem execOutboundMailboxFire_works (dt k : Nat) (i : Fin 16) (s : State) :
    Works k (s.tick dt) (execOutboundMailboxFire dt k i s) := by
  refine works_onTile ?_
  split
  · exact .refl _ _
  · split
    · exact (setTile_work _ _ _).trans (errorFire_work _ _ _ _ _)
    · split
      · exact (setTile_work _ _ _).trans (violate_work _ _ _ _ _ _ _)
      · exact ((setTile_work _ _ _).trans (bump_work _ _)).trans (mboxSend_work _ _ _ _ _)
    · exact .refl _ _

theorem execMailboxRetry_works (dt k : Nat) (i : Fin 16) (s : State) : Works k (s.tick dt) (execMailboxRetry dt k i s) := by
  refine works_onTile ?_
  split
  · exact work_ite ((setTile_work _ _ _).trans (mboxSend_work _ _ _ _ _)) (.refl _ _)
  · exact .refl _ _

theorem bytes_ite {k node off n : Nat} {s t u : State} {c : Prop} [Decidable c] (h : TileWorkAndBytes k node off n s t)
    (h' : TileWorkAndBytes k node off n s u) : TileWorkAndBytes k node off n s (if c then t else u) := by
  split
  · exact h
  · exact h'

/-- What a user does once its banks are granted stores what the act stores. -/
theorem granted_bytes {k j node off n : Nat} {s : State} {l : List Nat} {c : List (Fin 32 × Fin 5)} {act : State → State}
    (hact : ∀ v, OnlyTileWork k s v → TileWorkAndBytes k node off n s (act v)) :
    TileWorkAndBytes k node off n s (s.granted k j l c act) :=
  bytes_ite (hact _ (arbitrate_work s k j l c)) (arbitrate_work s k j l c).bytes

/-- A row that a write unit resolves to is a row of its tile. -/
theorem writeRow_bound {x : Slot} {r : Region} {trig : TokRec} {row q : Nat} (h : x.writeRow r trig = .rows row q) : row + 1 ≤ 65536 := by
  unfold Slot.writeRow at h
  split at h
  · dsimp only at h
    generalize (if !x.going trig then 0 else _) = part at h
    split at h
    · rename_i hin
      simp only [Access.rows.injEq] at h
      rw [← h.1]
      exact inRegion_bound (Bool.and_eq_true_iff.mp hin).2
    · nomatch h
  · rename_i hne
    exact absurd h (hne _ _)

/-- A write unit's granted firing stores the payload in its row (R134, R144). -/
theorem storesRow_bytes {k row : Nat} {u v : State} (c : Prop) [Decidable c] (p : Row) (g : Region) (x : Tile) (e i : Nat)
    (l : List (Nat × TokRec)) (o : List TokRec) (hrow : row + 1 ≤ 65536) (hv : OnlyTileWork k u v) :
    let w := ((v.setTile k x).putRow k (64 * row) p).fillRows k g row 1
    TileWorkAndBytes k k (64 * row) 64 u ((if c then w.hazard k e i row 0 else w).endFire k i l o) := by
  intro w
  have hw : TileWorkAndBytes k k (64 * row) 64 u w := ((hv.bytes.trans (setTile_work _ _ _).bytes).trans
    (putRow_bytes _ _ _ (Nat.le_refl _) (Nat.le_refl _))).trans (fillRows_work _ _ _ _ _ hrow).bytes
  exact (bytes_ite (hw.trans (hazard_work _ _ _ _ _ _).bytes) hw).trans (endFire_work _ _ _ _ _).bytes

/-- A write unit's firing stores nothing, or the one row that its token resolves to (R134, R144). -/
theorem execScratchpadWriteFire_works (dt k : Nat) (i : Fin 16) (b : List (Fin 32 × Fin 5)) (s t : State)
    (ht : execScratchpadWriteFire dt k i b s = .next t) :
    OnlyTileWork k (s.tick dt) t ∨
    ∃ x l row q, (s.tick dt).startFire k i.val [4] = some (x, l) ∧
      (x.slot i.val).writeRow (x.region (uRegion (x.slot i.val).cur)) (trigOf l) = .rows row q ∧
      TileWorkAndBytes k k (64 * row) 64 (s.tick dt) t := by
  unfold execScratchpadWriteFire onTile at ht
  cases ht
  split
  · split
    · exact .inl (.refl _ _)
    · rename_i x l hfire
      split
      · exact .inl ((setTile_work _ _ _).trans (errorFire_work _ _ _ _ _))
      · dsimp only
        split
        · exact .inl ((setTile_work _ _ _).trans (violate_work _ _ _ _ _ _ _))
        · exact .inl (slotWait_work _ _ _ _)
        · rename_i row q hrow
          refine .inr ⟨x, l, row, q, hfire, hrow, bytes_ite (slotWait_work _ _ _ _).bytes (granted_bytes fun v hv => ?_)⟩
          have stores := fun c [Decidable c] p g y e o => storesRow_bytes c p g y e i.val l o (writeRow_bound hrow) hv
          exact bytes_ite ((stores _ _ _ _ _ _).trans ((setTile_work _ _ _).trans (bumpN_work _ _ _)).bytes)
            ((stores _ _ _ _ _ _).trans (setTile_work _ _ _).bytes)
  · exact .inl (.refl _ _)

/-- Settles O55: the fifteen firings that store nothing, and the one that stores a row. -/
theorem firingsKeepTheRest : Obligations.FiringsKeepTheRest := by
  intro dt k i n b s u
  refine ⟨?_, fun t ht => ?_⟩
  · simp only [List.forall_mem_cons]
    exact ⟨execMatrixGroupFire_works dt k i s, execMatrixEmit_works dt k _ s, execVectorFire_works dt k _ s,
      execScratchpadReadFire_works dt k i b s, execPageGatherFire_works dt k i s, works_onTile (steer_work _ _ _ _ _),
      works_onTile (steer_work _ _ _ _ _), works_onTile (steer_work _ _ _ _ _), works_onTile (steer_work _ _ _ _ _),
      works_onTile (steer_work _ _ _ _ _), execErrorTokenFire_works dt k i s, execMatchingStoreMove_works dt k i n s,
      execSlotSwitch_works dt k i s, execOutboundMailboxFire_works dt k i s, execMailboxRetry_works dt k i s, fun _ h => nomatch h⟩
  · obtain hwork | ⟨x, l, row, q, hfire, hrow, hbytes⟩ := execScratchpadWriteFire_works dt k i b s t ht
    · refine ⟨fun _ => hwork, fun _ _ _ => ?_⟩
      split
      · exact hwork.bytes
      · exact hwork
    · refine ⟨fun hnone => (nomatch hnone.symm.trans hfire), fun x' l' hfire' => ?_⟩
      cases hfire.symm.trans hfire'
      rw [hrow]
      exact hbytes

end Sys2Proof.Proofs
end

section
namespace Sys2Proof.Proofs
open Sys2Proof.Machine

/-! O56: what the scratchpad's commands store. -/

/-- What a command of a tile stores, where it is done or refused. -/
theorem bytes_onTile {k j node off n : Nat} {s u t : State} (h : TileWorkAndBytes k node off n s u) (ht : onTile j s u = .next t) :
    TileWorkAndBytes k node off n s t := by
  cases ht
  exact bytes_ite h (.refl _ _ _ _ _)

theorem mayCommand_bound {t : Tile} {first n : Nat} (h : t.mayCommand first n = true) : first + n ≤ 65536 :=
  of_decide_eq_true (Bool.and_eq_true_iff.mp h).1

theorem length_rowsAt (s : State) (node off n : Nat) : (s.rowsAt node off n).length = n := by
  simp [State.rowsAt]

theorem execScratchFill_bytes (dt k first n : Nat) (p : BitVec 64) (f : Bool) (s t : State)
    (ht : execScratchFill dt k first n p f s = .next t) : TileWorkAndBytes k k (64 * first) (64 * n) (s.tick dt) t := by
  refine bytes_onTile ?_ ht
  split
  · rename_i hmay
    exact (((hubHazards_work _ _ _ _).bytes.trans (putRows_bytes _ _ _ (Nat.le_refl _) (by simp))).trans
      (setTags_work _ _ _ _ _ (mayCommand_bound hmay)).bytes).trans (cmdDone_work _ _).bytes
  · exact (cmdRefused_work _ _).bytes

theorem execScratchCopy_bytes (dt k src dst n : Nat) (s t : State)
    (ht : execScratchCopy dt k src dst n s = .next t) : TileWorkAndBytes k k (64 * dst) (64 * n) (s.tick dt) t := by
  refine bytes_onTile ?_ ht
  split
  · rename_i hmay
    have hdst := mayCommand_bound (Bool.and_eq_true_iff.mp hmay).2
    exact (((hubHazards_work _ _ _ _).bytes.trans (putRows_bytes _ _ _ (Nat.le_refl _) (Nat.le_of_eq (by rw [length_rowsAt])))).trans
      (putTags_work _ _ _ _ (by simpa [State.tagsAt] using hdst)).bytes).trans (cmdDone_work _ _).bytes
  · exact (cmdRefused_work _ _).bytes

theorem installSave_bytes (s : State) {k first n : Nat} {img : List Row} (hok : saveOk img = true)
    (hfirst : rowBytes (imgRow img 0) 5 4 = first) (hn : rowBytes (imgRow img 0) 9 6 = n) :
    TileWorkAndBytes k k (64 * first) (64 * n) s (s.installSave k img) := by
  subst hfirst hn
  simp only [saveOk, Bool.and_eq_true, decide_eq_true_eq, beq_iff_eq] at hok
  obtain ⟨⟨⟨-, hrows⟩, hlen⟩, -⟩ := hok
  refine (((hubHazards_work _ _ _ _).bytes.trans (putRows_bytes _ _ _ (Nat.le_refl _) ?_)).trans
    (putTags_work _ _ _ _ ?_).bytes).trans (setTile_work _ _ _).bytes
  · exact Nat.le_of_eq (by rw [List.length_drop, hlen, saveRows, Nat.add_sub_cancel_left])
  · simpa using hrows

theorem execScratchRestore_bytes (dt k node off : Nat) (s t : State) (ht : execScratchRestore dt k node off s = .next t) :
    TileWorkAndBytes k k (64 * rowBytes ((s.tick dt).rowAt node off) 5 4) (64 * rowBytes ((s.tick dt).rowAt node off) 9 6) (s.tick dt) t := by
  refine bytes_onTile ?_ ht
  split
  · rename_i hrun
    obtain ⟨-, -, -, hok⟩ := hrun
    have hhead : ∀ n, imgRow ((s.tick dt).rowsAt node off (saveRows n)) 0 = (s.tick dt).rowAt node off := by
      intro n
      have hpos : 0 < saveRows n := by unfold saveRows; omega
      simp [imgRow, State.rowsAt, List.getD_eq_getElem?_getD, hpos]
    exact (installSave_bytes _ hok (by rw [hhead]) (by rw [hhead])).trans (cmdDone_work _ _).bytes
  · exact (cmdRefused_work _ _).bytes

/-- No tile changes, and no byte outside n bytes of a node's memory. -/
def StoresWithin (node off n : Nat) (s t : State) : Prop := (∀ j, t.tile j = s.tile j) ∧ BytesOutside node off n s t

theorem StoresWithin.trans {node off n : Nat} {s t u : State} (h : StoresWithin node off n s t) (h' : StoresWithin node off n t u) :
    StoresWithin node off n s u :=
  ⟨fun j => (h'.1 j).trans (h.1 j), fun a ha => (h'.2 a ha).trans (h.2 a ha)⟩

theorem putRow_stores (s : State) {node off n o : Nat} (r : Row) (h : off ≤ o) (h' : o + 64 ≤ off + n) :
    StoresWithin node off n s (s.putRow node o r) :=
  ⟨fun _ => rfl, (putRow_bytes (k := 0) s o r h h').2.2.2⟩

theorem putRows_stores {node off n : Nat} (l : List Row) : ∀ (s : State) (o : Nat), off ≤ o → o + 64 * l.length ≤ off + n →
    StoresWithin node off n s (s.putRows node o l) := by
  induction l with
  | nil => intro s o _ _; exact ⟨fun _ => rfl, fun _ _ => rfl⟩
  | cons r l ih =>
    intro s o h h'
    simp only [List.length_cons] at h'
    exact (putRow_stores s r h (by omega)).trans (ih _ _ (by omega) (by omega))

theorem slabWrite_stores (s : State) {i off n o : Nat} (g : Nat) (e : GroupEnt) (r : Row) (h : off ≤ o) (h' : o + 64 ≤ off + n) :
    StoresWithin (stackNode i) off n s (s.slabWrite i o g e r) := by
  have hput := putRow_stores s (node := stackNode i) r h h'
  unfold State.slabWrite
  dsimp only
  split
  · exact hput
  · exact hput.trans ⟨fun _ => rfl, fun _ _ => rfl⟩

theorem stackWriteRow_stores (s : State) {i off n o : Nat} (r : Row) (h : off ≤ o) (h' : o + 64 ≤ off + n) :
    StoresWithin (stackNode i) off n s (s.stackWriteRow i o r) := by
  unfold State.stackWriteRow
  split
  · split
    · exact slabWrite_stores s _ _ _ h h'
    · exact ⟨fun _ => rfl, fun _ _ => rfl⟩
  · exact putRow_stores s r h h'

theorem stackWriteRows_stores {i off n : Nat} (l : List Row) : ∀ (s : State) (o : Nat), off ≤ o → o + 64 * l.length ≤ off + n →
    StoresWithin (stackNode i) off n s (s.stackWriteRows i o l) := by
  induction l with
  | nil => intro s o _ _; exact ⟨fun _ => rfl, fun _ _ => rfl⟩
  | cons r l ih =>
    intro s o h h'
    simp only [List.length_cons] at h'
    exact (stackWriteRow_stores s r h (by omega)).trans (ih _ _ (by omega) (by omega))

theorem stackSite_stackIdx {g : Nat} (h : siteKind g = 1) : stackSite (stackIdx g) = g := by
  have hsite : g % 16 = 5 ∨ g % 16 = 10 := by
    unfold siteKind at h
    repeat' split at h
    any_goals contradiction
    assumption
  unfold stackSite stackIdx
  obtain h5 | h10 := hsite
  · rw [if_neg (by omega), if_neg (by omega)]
    omega
  · rw [if_pos h10, if_pos (by omega)]
    omega

/-- Function 0 of a stack's site is the node of the stack's memory. -/
theorem stackNode_of_nodeKind {node i : Nat} (h : nodeKind node = .stack i 0) : stackNode i = node := by
  unfold nodeKind at h
  dsimp only at h
  repeat' split at h
  any_goals contradiction
  rename_i hkind _
  injection h with hi hf
  rw [← hi, stackNode, stackSite_stackIdx hkind, siteNode, hkind]
  show node / 64 * 64 = node
  omega

theorem tile_of_nodeKind {node k : Nat} (h : nodeKind node = .tile k) : k = node := by
  unfold nodeKind at h
  dsimp only at h
  repeat' split at h
  any_goals contradiction
  injection h with hk
  exact hk.symm

theorem length_saveImage (s : State) (k first n : Nat) : (s.saveImage k first n).length = saveRows n := by
  simp [State.saveImage, State.saveBody, rowsOfBytes, State.rowsAt, saveRows]
  omega

/-- Rows written to a valid range of a stack's or a tile's memory stay within it. -/
theorem writeNode_stores (s : State) {node off n : Nat} (l : List Row) (hvalid : s.validRange node off (64 * n) = true)
    (hlen : l.length = n) : StoresWithin node off (64 * n) s (s.writeNode node off l) := by
  unfold State.validRange at hvalid
  unfold State.writeNode
  split at hvalid
  · rename_i k hk
    rw [hk]
    cases tile_of_nodeKind hk
    exact putRows_stores l s off (Nat.le_refl _) (by omega)
  · rename_i i hi
    rw [hi]
    have := stackWriteRows_stores (i := i) (off := off) (n := 64 * n) l s off (Nat.le_refl _) (by omega)
    rwa [stackNode_of_nodeKind hi] at this
  · nomatch hvalid

theorem execScratchSave_stores (dt k first n node off : Nat) (s t : State) (ht : execScratchSave dt k first n node off s = .next t) :
    OtherTiles k (s.tick dt) t ∧ BytesOutside node off (64 * saveRows n) (s.tick dt) t := by
  cases ht
  split
  · split
    · rename_i hrun
      obtain ⟨-, hvalid, -, -⟩ := hrun
      have hstores := writeNode_stores (s.tick dt) _ hvalid (length_saveImage (s.tick dt) k first n)
      have hdone := cmdDone_work ((s.tick dt).writeNode node off ((s.tick dt).saveImage k first n)) k
      exact ⟨fun j hj => (hdone.2.1 j hj).trans (hstores.1 j), fun a ha => (hdone.bytes.2.2.2 a ha).trans (hstores.2 a ha)⟩
    · exact ⟨(cmdRefused_work _ _).2.1, (cmdRefused_work _ _).bytes.2.2.2⟩
  · exact ⟨fun _ _ => rfl, fun _ _ => rfl⟩

theorem execRegionSet_works (dt k : Nat) (e : Fin 32) (g0 g1 : BitVec 64) (p : Nat) (s : State) :
    Works k (s.tick dt) (execRegionSet dt k e g0 g1 p s) :=
  works_onTile (work_ite (cmdRefused_work _ _) ((setTile_work _ _ _).trans (cmdDone_work _ _)))

theorem execTagset_works (dt k first n : Nat) (f : Bool) (s : State) : Works k (s.tick dt) (execTagset dt k first n f s) := by
  refine works_onTile ?_
  split
  · rename_i hmay
    exact (setTags_work _ _ _ _ _ (mayCommand_bound hmay)).trans (cmdDone_work _ _)
  · exact cmdRefused_work _ _

/-- Settles O56: each command's rows are rows of its tile, and what it stores lies within them. -/
theorem scratchCommandsKeepTheRest : Obligations.ScratchCommandsKeepTheRest := by
  intro dt k e s t u
  refine ⟨fun first n p f => execScratchFill_bytes dt k first n p f s t, fun src dst n => execScratchCopy_bytes dt k src dst n s t,
    fun first n node off => execScratchSave_stores dt k first n node off s t,
    fun node off => execScratchRestore_bytes dt k node off s t, fun first n f p g0 g1 => ?_⟩
  simp only [List.forall_mem_cons]
  exact ⟨execTagset_works dt k first n f s t, execRegionSet_works dt k e g0 g1 p s t,
    works_onTile (commitRegion_work _ _ _ _) t, works_onTile (rollbackOrWait_work _ _ _) t,
    works_onTile (work_ite (swapRegion_work _ _ _) (cmdRefused_work _ _)) t, fun _ h => nomatch h⟩

end Sys2Proof.Proofs
end

section
namespace Sys2Proof.Proofs
open Sys2Proof.Machine

/-- Settles O1: a step looks at the queue alone, and then runs or idles. -/
theorem stepRunsFrontCommand : Obligations.StepRunsFrontCommand := by
  refine ⟨fun c rest s h => ?_, fun s h => ?_⟩
  · rw [step, h]
  · rw [step, h]

/-- Settles O5: each part of the reset state is written out in its definition. -/
theorem resetState : Obligations.ResetState :=
  ⟨rfl, rfl, rfl, rfl, fun _ => rfl, fun _ => rfl, fun _ _ => rfl, rfl, rfl, rfl, rfl, rfl⟩

end Sys2Proof.Proofs
end

section
namespace Sys2Proof.Proofs
open Sys2Proof.Machine

/-! The branch that a command takes: an equation for each kind of branch, for chains of `trans` that follow a definition. -/

variable {b : Bool}

theorem not_bnot (h : b = true) : ¬ (!b) = true := by rw [h]; exact Bool.false_ne_true
theorem bnot_of (h : b = false) : (!b) = true := by rw [h]; rfl
theorem bnot_iff : (!b) = true ↔ ¬ b = true := by simp
theorem not_true (h : b = false) : ¬ b = true := ne_true_of_eq_false h

theorem both_true {a b : Bool} (ha : a = true) (hb : b = true) : (a && b) = true := by rw [ha, hb]; rfl
theorem isNone_of {α : Type} {o : Option α} (h : o = none) : o.isNone = true := Option.isNone_iff_eq_none.mpr h
theorem isNone_of_isSome {α : Type} {o : Option α} (h : o.isSome = false) : o.isNone = true := by
  rw [← Option.not_isSome, h]
  rfl
theorem not_isNone {α : Type} {o : Option α} (h : o.isSome = true) : ¬ o.isNone = true := by
  rw [← Option.not_isSome]
  exact not_bnot h
theorem not_isSome {α : Type} {o : Option α} (h : o = none) : ¬ o.isSome = true := by rw [h]; exact Bool.false_ne_true

theorem ite_swap {α : Type} {c p : Prop} [Decidable c] [Decidable p] {x y : α} (h : c ↔ ¬ p) :
    (if c then x else y) = if p then y else x := by
  by_cases hp : p
  · rw [if_neg fun hc => h.mp hc hp, if_pos hp]
  · rw [if_pos (h.mpr hp), if_neg hp]

theorem ite_of_iff {α : Type} {c d : Prop} [Decidable c] [Decidable d] {x y u v : α} (h : c ↔ d) (hx : x = u) (hy : y = v) :
    (if c then x else y) = if d then u else v := ite_congr (propext h) (fun _ => hx) fun _ => hy

theorem onTile_of {k : Nat} {s t u : State} (h : isTile k = true) (ht : t = u) : onTile k s t = .next u := by
  rw [← ht]
  exact congrArg Host.Outcome.next (if_pos h)

theorem onLink_of {l : Nat} {s t u : State} (h : linkExists l = true) (ht : t = u) : onLink l s t = .next u := by
  rw [← ht]
  exact congrArg Host.Outcome.next (if_pos h)

theorem onStack_of {g : Nat} {s t u : State} (h : isStackSite g = true) (ht : t = u) : onStack g s t = .next u := by
  rw [← ht]
  exact congrArg Host.Outcome.next (if_pos h)

theorem onStack_keep {g : Nat} {s t : State} (h : isStackSite g = true → t = s) : onStack g s t = .next s :=
  congrArg Host.Outcome.next (ite_eq_right_iff.mpr h)

theorem onDie_of {g : Nat} {s t u : State} (h : isCompute g = true) (ht : t = u) : onDie g s t = .next u := by
  rw [← ht]
  exact congrArg Host.Outcome.next (if_pos h)

theorem onDie_keep {g : Nat} {s t : State} (h : isCompute g = true → t = s) : onDie g s t = .next s :=
  congrArg Host.Outcome.next (ite_eq_right_iff.mpr h)

theorem next_of {t u : State} (h : t = u) : (Host.Outcome.next t : Host.Outcome State Fault Refusal) = .next u := congrArg _ h

/-- A command that an operation of the panel answers: taken, or left. -/
theorem next_taken {o : Option State} {u t : State} (h : o = some t) :
    (Host.Outcome.next (o.getD u) : Host.Outcome State Fault Refusal) = .next t := by rw [h]; rfl

theorem next_left {o : Option State} {u : State} (h : o = none) :
    (Host.Outcome.next (o.getD u) : Host.Outcome State Fault Refusal) = .next u := by rw [h]; rfl

end Sys2Proof.Proofs
end

section
namespace Sys2Proof.Proofs
open Sys2Proof.Machine

/-! O6: what becomes of a token that arrives, one by one or in a packet. -/

/-- A token that stands behind no other goes where the queue's rules send it (R96 to R98, R114). -/
theorem exec_tokenArrival_first {dt k : Nat} {q : Fin 48} {tok : Token} {src : Nat} {s : State} (hk : isTile k = true)
    (hkind : tok.kind ≠ 2) (hfirst : (isTile src && (s.tile src).behind tok) = false) :
    let u := s.tick dt
    exec (.tokenArrival dt k q tok src) s = .next (match (s.tile k).arrival q.val tok with
      | .wait => if (s.tile k).idle then u.wakeFor k else u
      | .dead => (u.releaseAt src tok).countDead k 1
      | .bad cause => (u.releaseAt src tok).arrivalViolation k q.val tok src cause
      | .accept => (u.releaseAt src tok).enqueue k q.val tok src) :=
  onTile_of hk ((if_neg hkind).trans (if_neg (not_true hfirst)))

theorem exec_tokenArrival_behind {dt k : Nat} {q : Fin 48} {tok : Token} {src : Nat} {s : State} (hk : isTile k = true)
    (hkind : tok.kind ≠ 2) (hbehind : (isTile src && (s.tile src).behind tok) = true) :
    exec (.tokenArrival dt k q tok src) s = .next (s.tick dt) :=
  onTile_of hk ((if_neg hkind).trans (if_pos hbehind))

/-- A descriptor that breaks no field map becomes the slot's shadow where it fits, and is logged where it does not (R64, R109). -/
theorem takeConfig_whole (s : State) (k q : Nat) (tok : Token) (src : Nat) (h : descBroken (descOfRow tok.payload) = none) :
    s.takeConfig k q tok src =
      (let d := descOfRow tok.payload
      if dWm d == (s.tile k).wm + 1 && (s.tile k).slotWm (dSlot d) == (s.tile k).wm && ((s.tile k).slot (dSlot d)).shadow.isNone then
        s.setTile k ((s.tile k).installShadow (dSlot d) d)
      else s.logTile k { (s.tile k).entryFor (dSlot d) q tok src causeDescriptor 0 0 with wmSeen := (dWm d).val, logicalUnit := dUnit d }) := by
  unfold State.takeConfig
  dsimp only
  rw [h]

/-- A packet in its turn, new at its node, is dropped for R168's fault (R158, R168). -/
theorem packet_faulty {u : State} {p : Pkt} {accepted : Bool} {run : State → State} {c : Nat} (horder : u.inOrder p = true)
    (hheld : u.heldAt p = false) (hfault : (u.takePkt p).packetFault p = some c) :
    u.packet p accepted run = (u.takePkt p).dropPkt ((u.takePkt p).detector p) p c 0 := by
  unfold State.packet
  rw [if_neg (not_bnot horder), if_neg (not_true hheld)]
  dsimp only
  rw [hfault]

/-- One without a fault is run where its node accepts it. -/
theorem packet_whole {u : State} {p : Pkt} {accepted : Bool} {run : State → State} (horder : u.inOrder p = true)
    (hheld : u.heldAt p = false) (hfault : (u.takePkt p).packetFault p = none) :
    u.packet p accepted run = if accepted then run (u.takePkt p) else (u.takePkt p).dropPkt p.dest p causeMisrouted 0 := by
  unfold State.packet
  rw [if_neg (not_bnot horder), if_neg (not_true hheld)]
  dsimp only
  rw [hfault]

/-- The packets that do not run the command that they are for. -/
theorem packet_drops (dt : Nat) (p : Pkt) (accepted : Bool) (run : State → State) (s : State) :
    DropsPacket dt p accepted s (.next ((s.tick dt).packet p accepted run)) :=
  ⟨fun horder => next_of (if_pos (bnot_of horder)), fun _ horder hheld hfault => next_of (packet_faulty horder hheld hfault),
    fun horder hheld hfault hacc => next_of ((packet_whole (u := s.tick dt) horder hheld hfault).trans (if_neg (not_true hacc)))⟩

theorem packet_runs {dt : Nat} {p : Pkt} {accepted : Bool} {run : State → State} {s : State} (h : PacketArrives dt p s)
    (hacc : accepted = true) : (s.tick dt).packet p accepted run = run ((s.tick dt).takePkt p) := by
  obtain ⟨horder, hheld, hfault⟩ := h
  exact (packet_whole (u := s.tick dt) horder hheld hfault).trans (if_pos hacc)

/-- Settles O6: an arrival takes one branch of `arrive`, `takeConfig`, the store's rule or `packet`. -/
theorem tokenArrivalForms : Obligations.TokenArrivalForms := by
  refine ⟨?_, ?_, ?_, ?_⟩
  · intro dt k q tok src s hk hkind
    refine ⟨fun hfirst h => ?_, fun hfirst h => ?_, fun cause hfirst h => ?_, fun hfirst h => ?_, exec_tokenArrival_behind hk hkind⟩
    all_goals exact (exec_tokenArrival_first hk hkind hfirst).trans (by rw [h])
  · intro dt k q pay wm src s hk tok d s1 fits
    refine ⟨fun hrun hidle hwhole hfits => ?_, fun hrun hidle hwhole hfits => ?_, fun hrun => ?_⟩
    · exact onTile_of hk ((((if_pos rfl).trans (if_neg hrun)).trans (if_neg (not_true hidle))).trans
        ((takeConfig_whole s1 k q.val tok src hwhole).trans (if_pos hfits)))
    · exact onTile_of hk ((((if_pos rfl).trans (if_neg hrun)).trans (if_neg (not_true hidle))).trans
        ((takeConfig_whole s1 k q.val tok src hwhole).trans (if_neg (not_true hfits))))
    · exact onTile_of hk ((if_pos rfl).trans (if_pos hrun))
  · intro dt k i n r s hk t x q hrun hbound hset hkind hvis hnew
    have hfires := not_or_intro (not_not_intro hrun) (not_or_intro (not_bnot hbound) (not_or_intro (Nat.not_lt.mpr hset) hkind))
    refine ⟨fun h64 h32 => onTile_of hk ((if_neg hfires).trans ?_), fun hfull => onTile_of hk ((if_neg hfires).trans ?_)⟩
    · split <;> rename_i h <;> cases hvis.symm.trans h
      exact (if_neg (not_true hnew)).trans (if_pos ⟨h64, h32⟩)
    · split <;> rename_i h <;> cases hvis.symm.trans h
      exact (if_neg (not_true hnew)).trans 
        (if_neg fun h => hfull.elim (Nat.not_le.mpr h.1) (Nat.not_le.mpr h.2))
  · intro dt p s
    refine ⟨packet_drops _ _ _ _ _, packet_drops _ _ _ _ _, fun htile harr => ⟨fun htype => ?_, fun htype => ?_⟩⟩
    · exact next_of (packet_runs harr (by simp [htile, htype]))
    · exact next_of (packet_runs harr (by simp [htile, htype]))

end Sys2Proof.Proofs
end

section
namespace Sys2Proof.Proofs
open Sys2Proof.Machine

/-! O7: the firings of matrix, vector and scratchpad units. -/

/-- A matrix unit that may fire takes its group token (R69). -/
theorem exec_matrixGroupFire_ready {dt k n : Nat} {i : Fin 16} {r : TokRec} {l : List (Nat × TokRec)} {s : State} {t : Tile}
    (hk : isTile k = true) (ht : t = (s.tile k).refill (s.clk + dt))
    (hunit : dKind (t.slot i.val).cur = 1) (hfire : t.mayFire i.val = true) (hroom : t.outRoom i.val = true)
    (hcredit : t.hasCredit i.val = true) (hmat : (t.slot i.val).mat = none) (hready : t.ready i.val = some ((n, r) :: l))
    (hkind : r.tok.kind ≠ 4) :
    exec (.matrixGroupFire dt k i) s = .next
      (if !grpOk r.tok then ((s.tick dt).setTile k t).violate k i.val ((n, r) :: l) causeMalformed 0 0
      else match t.groupOutside (t.slot i.val).cur r.tok with
        | some row => ((s.tick dt).setTile k t).violate k i.val ((n, r) :: l) causeDeckle (rowAddr k row) 0
        | none =>
          let t1 := (t.consume i.val ((n, r) :: l)).fired i.val (s.clk + dt)
          ((s.tick dt).setTile k (t1.setSlot i.val { t1.slot i.val with mat := some { group := r } })).bump (oDataflowTileFirings k)) := by
  subst ht
  refine onTile_of hk ((if_pos ⟨hunit, hfire, hroom, hmat, hcredit⟩).trans ?_)
  split
  · rename_i h
    cases hready.symm.trans h
    exact if_neg hkind
  · rename_i h
    exact (h _ _ _ hready).elim

/-- Settles O7: each firing passes its checks in their order. -/
theorem matrixVectorAndScratchpadFire : Obligations.MatrixVectorAndScratchpadFire := by
  refine ⟨?_, ?_, ?_, ?_, ?_⟩
  · intro dt k n i r l s hk t d hunit hfire hroom hcredit hmat hready hkind
    have hgo := exec_matrixGroupFire_ready hk rfl hunit hfire hroom hcredit hmat hready hkind
    refine ⟨fun t1 hok hin ht1 => ?_, fun hbad => ?_, fun row hok hout => ?_⟩
    · rw [hgo, if_neg (not_bnot hok), hin, ht1]
    · rw [hgo, if_pos (bnot_of hbad)]
    · rw [hgo, if_neg (not_bnot hok), hout]
  · intro dt k i m cs s hk t d s0 reads hmat hrun hidle hroom hserves hfault
    have hgo := not_or_intro (not_not_intro hrun) (not_or_intro (not_true hidle) (not_or_intro (not_bnot hroom) (not_bnot hserves)))
    refine ⟨fun hdone => onTile_of hk ?_, fun hleft hready => onTile_of hk ?_⟩
    · split <;> rename_i h <;> cases hmat.symm.trans h
      refine (if_neg hgo).trans ?_
      split <;> rename_i h <;> cases hfault.symm.trans h
      refine (if_pos (.inl hdone)).trans ?_
      have hnone : s0.runBlocks k i.val d (mChunks d - m.kc) = s0 := by
        rw [Nat.sub_eq_zero_of_le hdone]
        rfl
      have hmat0 : (((s0.runBlocks k i.val d (mChunks d - m.kc)).tile k).slot i.val).mat = some m := by
        rwa [hnone, tile_setTile_same]
      dsimp only
      split <;> rename_i h <;> cases hmat0.symm.trans h
      exact (if_pos hdone).trans (congrArg (·.emitResult k i.val m d) hnone)
    · split <;> rename_i h <;> cases hmat.symm.trans h
      refine (if_neg hgo).trans ?_
      split <;> rename_i h <;> cases hfault.symm.trans h
      exact if_neg (not_or_intro (Nat.not_le.mpr hleft) (not_bnot hready))
  · intro dt k i l cs s hk t x hunit hfire hroom hcredit hready herr htrits hbar hspace hconsts
    refine onTile_of hk ((if_pos ⟨hunit, hfire, hroom, hcredit⟩).trans ?_)
    split <;> rename_i h <;> cases hready.symm.trans h
    split <;> rename_i h <;> cases herr.symm.trans h
    split
    · rename_i h
      cases htrits.symm.trans h
    · rename_i h
      cases hbar.symm.trans h
    · exact (if_neg (not_bnot hspace)).trans (if_neg (not_bnot hconsts))
  · intro dt k i cs t l s hk u d reg trig n hfire herr
    refine ⟨fun row det h => onTile_of hk ?_, fun first q h hready => onTile_of hk ?_, fun first q h hwait => onTile_of hk ?_⟩
    all_goals
      split <;> rename_i h' <;> cases hfire.symm.trans h'
      split <;> rename_i h' <;> cases herr.symm.trans h'
      dsimp only
      split <;> rename_i h' <;> cases h.symm.trans h'
    · rfl
    · exact if_pos hready
    · exact if_neg (not_true hwait)
  · intro dt k i cs t l s hk u x reg trig hfire herr
    refine ⟨fun row det h => onTile_of hk ?_, fun row q h hready => onTile_of hk ?_, fun row q h hwait => onTile_of hk ?_⟩
    all_goals
      split <;> rename_i h' <;> cases hfire.symm.trans h'
      split <;> rename_i h' <;> cases herr.symm.trans h'
      dsimp only
      split <;> rename_i h' <;> cases h.symm.trans h'
    · rfl
    · exact if_neg (not_bnot hready)
    · exact if_pos (bnot_of hwait)

end Sys2Proof.Proofs
end

section
namespace Sys2Proof.Proofs
open Sys2Proof.Machine

/-- Settles O8: a transfer's set is checked for its buffer, its range and its rows in that order; a mailbox unit's for its mailbox. -/
theorem transferAndMailboxUnitFirings : Obligations.TransferAndMailboxUnitFirings := by
  refine ⟨?_, ?_, ?_, ?_, ?_⟩
  · intro dt k i cs t l s hk u d reg trig n off isIn buf bad hfire herr
    refine ⟨fun hbuf => onTile_of hk ?_, fun b hbuf hoff => onTile_of hk ?_, fun b hbuf hoff hlen => onTile_of hk ?_,
      fun b first q hbuf hoff hlen hrows hnode hready => onTile_of hk ?_,
      fun b first q hbuf hoff hlen hrows hnode hready => onTile_of hk ?_,
      fun b first q hbuf hoff hlen hrows hwait => onTile_of hk ?_⟩
    all_goals
      split <;> rename_i h <;> cases hfire.symm.trans h
      split <;> rename_i h <;> cases herr.symm.trans h
      dsimp only
      split <;> rename_i h <;> cases hbuf.symm.trans h
    · rfl
    · exact if_pos hoff
    · exact (if_neg (not_not_intro hoff)).trans (if_pos hlen)
    all_goals
      refine (if_neg (not_not_intro hoff)).trans ((if_neg (Nat.not_lt.mpr hlen)).trans ?_)
      split <;> rename_i h <;> cases hrows.symm.trans h
    · exact (if_pos hnode).trans (if_neg (not_bnot hready))
    · exact (if_neg hnode).trans (if_neg (not_bnot hready))
    · have hside : ∀ b, (u.rowsReady k reg first n (!isIn) && b) = false := fun _ => by rw [hwait]; rfl
      by_cases hnode : b.node = k
      · exact (if_pos hnode).trans (if_pos (bnot_of (hside _)))
      · exact (if_neg hnode).trans (if_pos (bnot_of hwait))
  · intro dt k i t l r s hk u d reg trig n first hfire herr hroute hkind hin
    refine ⟨fun hready => onTile_of hk ?_, fun hwait => onTile_of hk ?_⟩
    all_goals
      split <;> rename_i h <;> cases hfire.symm.trans h
      split <;> rename_i h <;> cases herr.symm.trans h
      dsimp only
      split <;> rename_i h <;> cases hroute.symm.trans h
      refine (if_neg (not_or_intro (not_not_intro hkind) (not_bnot hin))).trans ?_
    · exact if_neg (not_bnot hready)
    · exact if_pos (bnot_of hwait)
  · intro dt k i s hk t x hkind hin hfire hroom hcredit
    have hgo : dKind x.cur = 12 ∧ (!bOutbound x.cur) = true ∧ t.mayFire i.val = true ∧ t.outRoom i.val = true ∧ t.creditV ≥ 1 :=
      ⟨hkind, bnot_of hin, hfire, hroom, hcredit⟩
    refine ⟨fun w hword => onTile_of hk ((if_pos hgo).trans ?_), fun hempty => onTile_of hk ((if_pos hgo).trans ?_)⟩
    · split <;> rename_i h <;> cases hword.symm.trans h
      rfl
    · split <;> rename_i h <;> cases hempty.symm.trans h
      rfl
  · intro dt k n i t r rest s hk hfire herr
    refine ⟨fun htarget => onTile_of hk ?_, fun htarget => onTile_of hk ?_⟩
    all_goals
      split <;> rename_i h <;> cases hfire.symm.trans h
      rw [herr]
      dsimp only
    · split
      · rename_i h
        exact absurd h htarget
      · rfl
    · rw [htarget]
  · intro dt k i r s hk x hheld hback hdue hrun hidle
    refine onTile_of hk ?_
    split <;> rename_i h <;> cases hheld.symm.trans h
    exact if_pos ⟨hback, hdue, hrun, bnot_of hidle⟩

end Sys2Proof.Proofs
end

section
namespace Sys2Proof.Proofs
open Sys2Proof.Machine

/-! O9: the firings of steering units. -/

/-- A steering unit on a set without an error token pushes what its route names, in order (R81). -/
theorem steer_clean {s : State} {k i kind : Nat} {t : Tile} {l : List (Nat × TokRec)}
    {route : Desc → List (Nat × TokRec) → List (Nat × TokRec)} (hfire : s.startFire k i [kind] = some (t, l)) (herr : errorIn l = none) :
    s.steer k i kind route =
      (let u := (t.spendV 1).consume i l
      let x := u.slot i
      let y := (route x.cur l).foldl (fun x p => x.push p.1 (x.out k p.2.tok p.2.tok.kind p.2.tok.payload)) x
      ((s.setTile k (t.spendV 1)).setTile k ((u.setSlot i y).fired i s.clk)).bump (oDataflowTileFirings k)) := by
  unfold State.steer
  rw [hfire]
  dsimp only
  rw [herr]
  dsimp only
  rw [tile_setTile_same]
  rfl

/-- On a set that holds an error token it fires error tokens (R86). -/
theorem steer_error {s : State} {k i kind : Nat} {t : Tile} {l : List (Nat × TokRec)} {e : TokRec}
    {route : Desc → List (Nat × TokRec) → List (Nat × TokRec)} (hfire : s.startFire k i [kind] = some (t, l)) (herr : errorIn l = some e) :
    s.steer k i kind route = (s.setTile k (t.spendV 1)).errorFire k i l e := by
  unfold State.steer
  rw [hfire]
  dsimp only
  rw [herr]

/-- Settles O9: the five steering firings are `steer` with five routes. -/
theorem steeringFirings : Obligations.SteeringFirings := by
  intro dt k i t l s hk s0 u x fwd done
  refine ⟨fun herr => ⟨fun a c hfire ha hc => ?_, fun n r hfire hr => ?_, fun a c hfire ha hc => ?_, fun a hfire ha => ?_, fun a hfire ha => ?_⟩,
    fun e herr => ⟨fun hfire => ?_, fun hfire => ?_, fun hfire => ?_, fun hfire => ?_, fun hfire => ?_⟩,
    fun ht hmay hmat hroom hcredit hready => ⟨fun e herr => ?_, fun herr => ?_⟩⟩
  · refine onTile_of hk ((steer_clean hfire herr).trans ?_)
    rw [ha, hc]
    rfl
  · refine onTile_of hk ((steer_clean hfire herr).trans ?_)
    rw [hr]
    rfl
  · refine onTile_of hk ((steer_clean hfire herr).trans ?_)
    rw [ha, hc]
    by_cases hd : decision x.cur c.tok = true
    · simp only [done, fwd, x, u, hd] 
      rfl
    · simp only [done, fwd, x, u, hd] 
      rfl
  · refine onTile_of hk ((steer_clean hfire herr).trans ?_)
    rw [ha]
    rfl
  · refine onTile_of hk ((steer_clean hfire herr).trans ?_)
    rw [ha]
    rfl
  iterate 5 exact onTile_of hk (steer_error hfire herr)
  all_goals
    subst ht
    have hgo : ((((s.tile k).refill (s.clk + dt)).mayFire i.val && (((s.tile k).refill (s.clk + dt)).slot i.val).mat.isNone) &&
        ((s.tile k).refill (s.clk + dt)).outRoom i.val && ((s.tile k).refill (s.clk + dt)).hasCredit i.val) = true := by
      simp only [hmay, hmat, hroom, hcredit, Option.isNone_none, Bool.and_self]
    refine onTile_of hk ((if_pos hgo).trans ?_)
    split <;> rename_i h <;> cases hready.symm.trans h
    split <;> rename_i h <;> cases herr.symm.trans h
    rfl

end Sys2Proof.Proofs
end

section
namespace Sys2Proof.Proofs
open Sys2Proof.Machine

/-! O10: stalls, slot switches, and the run states of a tile. -/

/-- Settles O10: each clause is one branch of its command. -/
theorem stallSwitchAndRunStates : Obligations.StallSwitchAndRunStates := by
  refine ⟨?_, ?_, ?_, ?_⟩
  · intro dt k i t0 q r s hk x limit hwait hold
    refine ⟨fun st hst hrun hnone hlim => ?_, fun h => ?_⟩
    all_goals
      refine onTile_of hk ?_
      dsimp only
      split
      case h_2 h => exact (h _ _ _ hwait hold).elim
      rename_i hw ho
      cases hwait.symm.trans hw
      cases hold.symm.trans ho
    · subst hst
      exact if_pos ⟨hrun, hnone, hlim⟩
    · refine if_neg fun hgo => ?_
      obtain ⟨hrun, hnone, hlim⟩ := hgo
      exact h.elim (· hrun) (·.elim (· hnone) (Nat.not_lt.mpr hlim))
  · intro dt k n i d r rest s hk t x hshadow hrun hroom hbusy hheld hreading hmat heocs hlen
    have hgo : ¬ (((n, r) :: rest).length ≠ (boundIns x.cur).length ∨ t.run ≠ .run ∨ (!t.outRoom i.val) = true ∨ x.busy.isSome = true ∨
        x.held.isSome = true ∨ x.reading.isSome = true ∨ x.mat.isSome = true) := by
      simp [hlen, hrun, hroom, hbusy, hheld, hreading, hmat]
    have hgo' := heocs ▸ hgo
    refine ⟨fun hfind => ?_, fun n' r' hfind => ?_⟩
    · refine onTile_of hk ?_
      split <;> rename_i h <;> cases hshadow.symm.trans h
      refine (if_neg hgo').trans ?_
      split <;> rename_i h <;> cases heocs.symm.trans h
      rw [hfind]
      exact congrArg ((s.tick dt).switchSlot k i.val d) heocs
    · intro e
      refine onTile_of hk ?_
      split <;> rename_i h <;> cases hshadow.symm.trans h
      refine (if_neg hgo').trans ?_
      split <;> rename_i h <;> cases heocs.symm.trans h
      rw [hfind]
      exact rfl
  · intro dt k s hk t
    exact ⟨fun h => onTile_of hk (if_pos h), fun h => onTile_of hk (if_neg h), fun h => onTile_of hk (if_pos h),
      fun h => onTile_of hk (if_neg h)⟩
  · intro dt k node off s hk u img v
    refine ⟨fun hrun hvalid halign hwrite => ?_, fun hrun hvalid halign hwrite => ?_, fun h => ?_,
      fun hrun hread hvalid hok => ?_, fun h => ?_⟩
    · refine onTile_of hk ((if_pos ⟨.inr hrun, hvalid, halign, hwrite⟩).trans ?_)
      have hrun' : ((s.tick dt).tile k).run = .run := hrun
      simp only [hrun']
      rfl
    · refine onTile_of hk ((if_pos ⟨.inl hrun, hvalid, halign, hwrite⟩).trans ?_)
      have hrun' : ((s.tick dt).tile k).run = .hold := hrun
      simp only [hrun']
      rfl
    · refine onTile_of hk (if_neg fun hgo => ?_)
      obtain ⟨hrun, hvalid, halign, hwrite⟩ := hgo
      obtain h | h | h | h | h := h
      · exact hrun.elim (fun hr => by cases h.symm.trans hr) (fun hr => by cases h.symm.trans hr)
      · exact hrun.elim (fun hr => by cases h.symm.trans hr) (fun hr => by cases h.symm.trans hr)
      · exact not_true h hvalid
      · exact h halign
      · exact not_true h hwrite
    · exact onTile_of hk (if_pos ⟨hrun, hread, hvalid, hok⟩)
    · refine onTile_of hk (if_neg fun hgo => ?_)
      obtain ⟨hrun, hread, hvalid, hok⟩ := hgo
      exact h.elim (· hrun) (·.elim (not_true · hread) (·.elim (not_true · hvalid) (not_true · hok)))

end Sys2Proof.Proofs
end

section
namespace Sys2Proof.Proofs
open Sys2Proof.Machine

/-! O11: life fences, commit words, and the issue of passes. -/

/-- Settles O11: each clause is one branch of its command; a commit word passes the checks of `takeCommit` in turn. -/
theorem fencesEpochsAndPasses : Obligations.FencesEpochsAndPasses := by
  refine ⟨?_, ?_, ?_, ?_, ?_, ?_⟩
  · intro dt k lane f s hk hf
    refine ⟨fun h => onTile_of hk ?_, fun h => onTile_of hk ?_⟩
    all_goals split <;> rename_i h' <;> cases hf.symm.trans h'
    · exact if_pos h
    · exact if_neg (not_true h)
  · intro dt k lane s hk hdue
    exact ⟨fun h => onTile_of hk (if_pos ⟨hdue, h⟩), fun h => onTile_of hk (if_neg fun hgo => h hgo.2)⟩
  · intro dt k mbox w x q r f s hm key l s1 hw hres0 hres1 hx hq habort hterm hdue hlife hreg hfurn row t good
    have hlive : ¬ (x.aborted = true ∨ x.terminal.isSome = true ∨ s1.abortDue.contains l = true ∨ q.life.val ≠ cwLife w.toNat) :=
      not_or_intro (not_true habort) (not_or_intro (not_isSome hterm) (not_or_intro (not_true hdue) (not_not_intro hlife)))
    refine ⟨fun hgood => next_of ((if_pos hm).trans ?_), fun hbad => next_of ((if_pos hm).trans ?_)⟩
    all_goals
      unfold State.takeCommit
      dsimp only
      split <;> rename_i h <;> cases hw.symm.trans h
      refine (if_neg (not_or_intro (not_not_intro hres0) (not_not_intro hres1))).trans ?_
      split <;> rename_i h <;> cases hx.symm.trans h
      split <;> rename_i h <;> cases hq.symm.trans h
      refine (if_neg hlive).trans ?_
      split
      case h_2 h => exact (h _ _ _ hreg hfurn).elim
      rename_i h h'
      cases hreg.symm.trans h
      cases hfurn.symm.trans h'
    · obtain ⟨htag, hlane, hlf, hleft, hrow0, hrow1⟩ := hgood
      exact if_neg (not_or_intro (not_not_intro htag) (not_or_intro (not_not_intro hlane) (not_or_intro (not_not_intro hlf)
        (not_or_intro (Nat.not_lt.mpr hleft) (not_or_intro (not_not_intro hrow0) (not_not_intro hrow1))))))
    · refine if_pos (Decidable.not_imp_comm.mp (fun h => ?_) hbad)
      simp only [not_or, Classical.not_not, Nat.not_lt, gt_iff_lt] at h
      exact h
  · intro dt lane s h
    exact next_of (congrArg (State.tryReplay · lane.val) (if_pos h))
  · intro dt lane x s hx
    refine ⟨fun hno hmay => next_of ?_, fun hdue => next_of ?_⟩
    all_goals split <;> rename_i h <;> cases hx.symm.trans h
    · exact (if_neg (not_true hno)).trans (if_pos hmay)
    · exact if_pos hdue
  · intro dt lane x q s hx hq hdev hexp hkind habort hahead hterm hfill hpays hheld hlag hleft base d
    refine next_of ?_
    split <;> rename_i h <;> cases hx.symm.trans h
    split <;> rename_i h <;> cases hq.symm.trans h
    exact if_pos (both_true (both_true (both_true (both_true (both_true (both_true (both_true (both_true (both_true (both_true
      (bne_iff_ne.mpr hdev) hexp) (beq_iff_eq.mpr hkind)) (bnot_of habort)) (isNone_of hahead)) (isNone_of hterm))
      (decide_eq_true hfill)) hpays) (bnot_of hheld)) (decide_eq_true hlag)) (decide_eq_true hleft))

end Sys2Proof.Proofs
end

section
namespace Sys2Proof.Proofs
open Sys2Proof.Machine

/-! O12 and O13: the commands of a tile's scratchpad. -/

/-- Settles O12: each command is its work or its refusal, by one condition. -/
theorem scratchFillsAndDescriptors : Obligations.ScratchFillsAndDescriptors := by
  intro dt k s hk t u
  refine ⟨fun e g0 g1 pos huse hok => ?_, fun e g0 g1 pos h => ?_, fun first n p full h => ?_, fun first n p full h => ?_,
    fun src dst n hs hd => ?_, fun src dst n h => ?_, fun first n full h => ?_, fun first n full h => ?_⟩
  · exact onTile_of hk (if_neg fun h => by simp [huse, hok, t] at h huse)
  · refine onTile_of hk (if_pos ?_)
    exact Bool.or_eq_true_iff.mpr (h.imp id bnot_of)
  · exact onTile_of hk (if_pos h)
  · exact onTile_of hk (if_neg (not_true h))
  · exact onTile_of hk (if_pos (both_true hs hd))
  · exact onTile_of hk (if_neg fun hgo => h.elim (not_true · (Bool.and_eq_true_iff.mp hgo).1) (not_true · (Bool.and_eq_true_iff.mp hgo).2))
  · exact onTile_of hk (if_pos h)
  · exact onTile_of hk (if_neg (not_true h))

/-- Settles O13: positions, copies and images, each by the conditions of its command. -/
theorem scratchPositionsCopiesAndImages : Obligations.ScratchPositionsCopiesAndImages := by
  refine ⟨?_, ?_, ?_, ?_⟩
  · intro dt k e s hk t u r
    refine ⟨fun pos hkind htail hhead => ?_, fun pos h => ?_, fun hkind hquiet => ?_, fun hkind hbusy => ?_, fun hkind => ?_,
      fun hkind htwo => ?_, fun h => ?_⟩
    · exact onTile_of hk (if_pos ⟨hkind, htail, hhead⟩)
    · exact onTile_of hk (if_neg fun ⟨hkind, htail, hhead⟩ => h.elim (· hkind) (·.elim (not_true · htail) (not_true · hhead)))
    · exact onTile_of hk ((if_neg fun h => not_true hquiet h.2).trans (if_pos hkind))
    · exact onTile_of hk (if_pos ⟨hkind, hbusy⟩)
    · exact onTile_of hk ((if_neg fun h => hkind h.1).trans (if_neg hkind))
    · exact onTile_of hk (if_pos ⟨hkind, htwo⟩)
    · exact onTile_of hk (if_neg fun ⟨hkind, htwo⟩ => h.elim (· hkind) (not_true · htwo))
  · intro dt k first n node off s hk u bytes
    refine ⟨fun hmay hvalid halign hwrite => onTile_of hk (if_pos ⟨hmay, hvalid, halign, hwrite⟩), fun h => onTile_of hk (if_neg ?_)⟩
    exact fun ⟨hmay, hvalid, halign, hwrite⟩ =>
      h.elim (not_true · hmay) (·.elim (not_true · hvalid) (·.elim (· halign) (not_true · hwrite)))
  · intro dt k node off s hk u h n img
    refine ⟨fun hread hmay hvalid hok => onTile_of hk (if_pos ⟨hread, hmay, hvalid, hok⟩), fun h => onTile_of hk (if_neg ?_)⟩
    exact fun ⟨hread, hmay, hvalid, hok⟩ =>
      h.elim (not_true · hread) (·.elim (not_true · hmay) (·.elim (not_true · hvalid) (not_true · hok)))
  · intro dt slot s q
    exact ⟨fun h => next_of (congrArg Prod.snd (if_pos h)), fun h => next_of (congrArg Prod.snd (if_neg (not_true h)))⟩

end Sys2Proof.Proofs
end

section
namespace Sys2Proof.Proofs
open Sys2Proof.Machine

/-! O14: the delivery of packets. -/

/-- A remote write at a tile: its range, the table's room and its rows decide (R167). -/
theorem exec_remoteWrite_tile {dt k : Nat} {p : Pkt} {s : State} (h : PacketArrives dt p s) (hk : nodeKind p.dest = .tile k)
    (htype : p.ptype = 2) : exec (.remoteWrite dt p) s = .next (((s.tick dt).takePkt p).tileWrite k p (p.vc != 3)) := by
  refine next_of ((packet_runs h (beq_iff_eq.mpr htype)).trans ?_)
  rw [hk]

theorem exec_remoteRead_tile {dt k : Nat} {p : Pkt} {ecc : EccReport} {s : State} (h : PacketArrives dt p s)
    (hk : nodeKind p.dest = .tile k) (htype : p.ptype = 3) :
    exec (.remoteRead dt p ecc) s = .next (((s.tick dt).takePkt p).tileRead k p) := by
  refine next_of ((packet_runs h (beq_iff_eq.mpr htype)).trans ?_)
  rw [hk]

theorem logTime_logTile (s : State) (k : Nat) (e : FaultEntry) : (s.logTile k e).logTime = s.logTime := by
  rw [(logTile_work s k e).left]
  rfl

/-- Settles O14: `packet` drops what R168 finds fault with, and the node's kind chooses the delivery. -/
theorem packetDeliveries : Obligations.PacketDeliveries := by
  intro dt p s u row n m e log
  refine ⟨fun corr bad => ⟨packet_drops _ _ _ _ _, packet_drops _ _ _ _ _⟩, packet_drops _ _ _ _ _, packet_drops _ _ _ _ _,
    fun horder hfault => next_of (if_pos ⟨horder, hfault⟩), fun harr => ⟨?_, ?_, ?_, ?_, ?_, ?_, ?_, ?_⟩⟩
  · intro k hk htype
    have hgo := exec_remoteWrite_tile harr hk htype
    refine ⟨fun hout => hgo.trans (next_of (if_pos hout)), fun halign hin => ?_⟩
    have hrange := not_or_intro (not_not_intro halign) (Nat.not_lt.mpr hin)
    refine ⟨fun hroom hready => hgo.trans (next_of ((if_neg hrange).trans ((if_neg (not_bnot hroom)).trans ((if_pos hready).trans ?_)))),
      fun hroom => hgo.trans (next_of ((if_neg hrange).trans (if_pos (bnot_of hroom)))),
      fun hroom hwait => hgo.trans (next_of ((if_neg hrange).trans ((if_neg (not_bnot hroom)).trans (if_neg (not_true hwait)))))⟩
    by_cases hvc : p.vc = 3
    · exact (if_neg fun h => bne_iff_ne.mp h hvc).trans (if_pos hvc).symm
    · exact (if_pos (bne_iff_ne.mpr hvc)).trans (if_neg hvc).symm
  · intro i hi htype
    refine next_of ((packet_runs harr (beq_iff_eq.mpr htype)).trans ?_)
    rw [hi]
    rfl
  · intro k corr bad hk htype
    have hgo := exec_remoteRead_tile (ecc := ⟨corr, bad⟩) harr hk htype
    refine ⟨fun hout => hgo.trans (next_of (if_pos hout)), fun halign hin => ?_⟩
    have hrange := not_or_intro (not_not_intro halign) (Nat.not_lt.mpr hin)
    exact ⟨fun hroom hready => hgo.trans (next_of ((if_neg hrange).trans ((if_neg (not_bnot hroom)).trans (if_pos hready)))),
      fun hroom => hgo.trans (next_of ((if_neg hrange).trans (if_pos (bnot_of hroom)))),
      fun hroom hwait => hgo.trans (next_of ((if_neg hrange).trans ((if_neg (not_bnot hroom)).trans (if_neg (not_true hwait)))))⟩
  · intro i corr bad hi htype
    refine next_of ((packet_runs harr (beq_iff_eq.mpr htype)).trans ?_)
    rw [hi]
    rfl
  · intro k hk htype
    refine ⟨fun i b hbusy hwhat => ?_, fun hbusy => ?_⟩
    all_goals
      refine next_of ((packet_runs harr (beq_iff_eq.mpr htype)).trans ?_)
      rw [hk]
      dsimp only
      split <;> rename_i h <;> cases hbusy.symm.trans h
    · exact if_neg hwhat
    · rfl
  · intro i f hi htype
    refine next_of ((packet_runs harr (beq_iff_eq.mpr htype)).trans ?_)
    rw [hi]
  · intro k hk htype
    refine ⟨fun i b hbusy hwhat => ?_, fun hbusy => ?_⟩
    all_goals
      refine next_of ((packet_runs harr (beq_iff_eq.mpr htype)).trans ?_)
      rw [hk]
      dsimp only
      split <;> rename_i h <;> cases hbusy.symm.trans h
    · exact if_pos hwhat
    · rfl
  · intro k hk htype
    have hok : ¬ ((s.tick dt).inOrder p = true ∧ ((s.tick dt).takePkt p).packetFault p ≠ none) := fun h => h.2 harr.2.2
    refine ⟨fun i b hbusy => ?_, fun hbusy => ?_⟩
    all_goals
      refine next_of ((if_neg hok).trans ((packet_runs harr (beq_iff_eq.mpr htype)).trans ?_))
      rw [hk]
      dsimp only
      split <;> rename_i h <;> cases hbusy.symm.trans h
    · rw [show u.logTime = ((u.logTile k log).logTime) from (logTime_logTile u k log).symm]
    · rfl

end Sys2Proof.Proofs
end

section
namespace Sys2Proof.Proofs
open Sys2Proof.Machine

/-! O15: tables, multicast packets, and the banks of the routing tables. -/

/-- Settles O15: each clause is one branch of its command. -/
theorem tablesAndMulticast : Obligations.TablesAndMulticast := by
  refine ⟨?_, ?_, ?_, ?_, ?_⟩
  · intro dt p inst s v u htile htype harr
    have hgo := packet_runs (run := fun s => s.installAt p inst) harr (both_true htile (beq_iff_eq.mpr htype))
    exact ⟨fun hhub hfits => next_of (hgo.trans ((if_neg (not_bnot hhub)).trans (if_neg (not_bnot hfits)))),
      fun hhub hfits => next_of (hgo.trans ((if_neg (not_bnot hhub)).trans (if_pos (bnot_of hfits)))),
      fun hhub => next_of (hgo.trans (if_pos (bnot_of hhub)))⟩
  · intro dt site edge p inst s u
    refine ⟨fun ix branches tiles hsite hix htree hform hdest hlive hhops htype => next_of ?_, fun h => next_of ?_⟩
    · have hent : (groupIndex p.dest).bind (fun ix => (u.bank p.gen).tree site.val ix) = some (edge.val, branches, tiles) := by
        rw [hix]
        exact htree
      split <;> rename_i h <;> cases hent.symm.trans h
      refine (if_neg (not_or_intro (not_bnot hform) (not_or_intro (Nat.not_lt.mpr hdest) (not_or_intro (not_bnot hlive)
        (not_or_intro (Nat.not_lt.mpr hhops) (not_or_intro (not_not_intro rfl) (not_bnot htype))))))).trans ?_
      exact if_pos hsite
    · split <;> rename_i h' <;> cases h.symm.trans h'
      rfl
  · intro dt pairs s u
    exact ⟨fun hidle hdue => next_of (if_pos (both_true hidle hdue)), fun h => next_of (if_neg fun hgo =>
      h.elim (not_true · (Bool.and_eq_true_iff.mp hgo).1) (not_true · (Bool.and_eq_true_iff.mp hgo).2))⟩
  · intro dt t bank s hdrain
    refine ⟨fun hpast => next_of ?_, fun hbefore => next_of ?_⟩
    all_goals split <;> rename_i h <;> cases hdrain.symm.trans h
    · exact if_pos hpast
    · exact if_neg (Nat.not_le.mpr hbefore)
  · intro dt pairs s u b sites links next ls quiet hbuilt hgain hidle
    have hgo := not_bnot (both_true (both_true hbuilt hgain) hidle)
    refine ⟨fun hno => ?_, fun hyes => ?_⟩
    all_goals
      change execLinkAdmit dt pairs s = _
      unfold execLinkAdmit
      dsimp only
      refine next_of ((if_neg hgo).trans ?_)
    · exact if_neg fun h => not_true hno (both_true h.1 h.2)
    · exact if_pos (Bool.and_eq_true_iff.mp hyes)

end Sys2Proof.Proofs
end

section
namespace Sys2Proof.Proofs
open Sys2Proof.Machine

/-! O16: the steps of the link protocol. -/

/-- Settles O16: each clause is one branch of its command. -/
theorem linkProtocolSteps : Obligations.LinkProtocolSteps := by
  intro dt l s hl u cut
  refine ⟨?_, ?_, ?_, ?_, ?_, ?_⟩
  · intro b drained reply v limit w x
    refine ⟨fun hdark => onLink_of hl (if_pos (bnot_of hdark)), fun hpass => ?_⟩
    have hgo := not_bnot hpass
    refine ⟨fun hcrc => onLink_of hl ((if_neg hgo).trans (if_pos (bnot_of hcrc))),
      fun hcrc hkind => onLink_of hl ((if_neg hgo).trans ((if_neg (not_bnot hcrc)).trans (if_pos hkind))), fun hcrc hkind => ?_⟩
    have hcrc' := not_bnot hcrc
    refine ⟨fun hlost => onLink_of hl ?_, fun hstill hmark => onLink_of hl ?_, fun hstill hdata hseq => onLink_of hl ?_,
      fun hstill hdata hseq => onLink_of hl ?_⟩
    all_goals refine (if_neg hgo).trans ((if_neg hcrc').trans ((if_neg hkind).trans ?_))
    · exact if_pos (bnot_of hlost)
    · exact (if_neg (not_bnot hstill)).trans (if_pos hmark)
    · exact (if_neg (not_bnot hstill)).trans ((if_neg (not_not_intro hdata)).trans (if_pos hseq))
    · exact (if_neg (not_bnot hstill)).trans ((if_neg (not_not_intro hdata)).trans (if_neg hseq))
  · intro t ht
    refine ⟨fun hpast hpass => onLink_of hl ?_, fun hbefore => onLink_of hl ?_⟩
    all_goals split <;> rename_i h <;> cases ht.symm.trans h
    · exact if_pos ⟨hpast, hpass⟩
    · exact if_neg fun h => Nat.not_le.mpr hbefore h.1
  · intro received hstate
    exact onLink_of hl (if_pos (hstate.imp id .inl))
  · intro lanes minPs ok hretrain e u1
    have hgo := not_bnot hretrain
    refine ⟨fun hfail => onLink_of hl ((if_neg hgo).trans (if_pos (hfail.imp id fun h => ⟨bnot_of h.1, h.2⟩))),
      fun hlanes hok hfew => onLink_of hl ((if_neg hgo).trans ?_), fun hlanes hok => ?_⟩
    · exact (if_neg (not_or_intro (Nat.not_lt.mpr hlanes) fun h => Nat.not_le.mpr hfew h.2)).trans (if_pos (bnot_of hok))
    · intro lat full u2 u3
      refine onLink_of hl ((if_neg hgo).trans ?_)
      exact (if_neg (not_or_intro (Nat.not_lt.mpr hlanes) fun h => not_bnot hok h.1)).trans (if_neg (not_bnot hok))
  · intro c v
    exact ⟨fun h => onLink_of hl (congrArg (cut c) (if_pos h)),
      fun h5 h6 h0 => onLink_of hl (congrArg (cut c) (if_neg (not_or_intro h5 (not_or_intro h6 h0))))⟩
  · intro c hpass ends lanes u1 log lat
    exact onLink_of hl (if_neg (not_bnot hpass))

end Sys2Proof.Proofs
end

section
namespace Sys2Proof.Proofs
open Sys2Proof.Machine

/-! O17 to O19: the control network. -/

/-- A control packet that does not arrive is logged at its destination or its source (R177). -/
theorem control_drops (dt : Nat) (c : Ctl) (op : Nat) (run : State → State) (s : State) :
    DropsControl dt c op s (.next ((s.tick dt).control c op run)) := by
  refine ⟨fun h => next_of (if_pos (h.imp id (·.imp bnot_of id))), fun hop hform hnode hreach => next_of ?_⟩
  exact (if_neg (not_or_intro (not_not_intro hop) (not_or_intro (not_bnot hform) hnode))).trans (if_pos (bnot_of hreach))

/-- One that arrives runs its operation. -/
theorem control_runs {dt op : Nat} {c : Ctl} {run : State → State} {s : State} (h : ControlArrives c op s) :
    (s.tick dt).control c op run = run ((s.tick dt).take (.ctl c)) := by
  obtain ⟨hop, hform, hnode, hreach⟩ := h
  exact (if_neg (not_or_intro (not_not_intro hop) (not_or_intro (not_bnot hform) hnode))).trans (if_neg (not_bnot hreach))

/-- Settles O17: each operation is one branch of its command once the packet has arrived. -/
theorem mailboxWrites : Obligations.MailboxWrites := by
  intro dt c s u n bit error
  refine ⟨control_drops _ _ _ _ _, control_drops _ _ _ _ _, control_drops _ _ _ _ _, control_drops _ _ _ _ _, control_drops _ _ _ _ _,
    fun harr => ?_, ?_, fun harr => ?_, fun harr => next_of (control_runs harr), fun harr => ?_⟩
  · have hlow : n < 0x80 → ¬ n ≥ 0x80 := Nat.not_le.mpr
    refine ⟨fun key hn hkey hmay => ?_, fun hn h => next_of ((control_runs harr).trans ?_),
      fun hn hn' hbell hring => next_of ((control_runs harr).trans ?_), fun hn h => next_of ((control_runs harr).trans ?_)⟩
    · refine ⟨fun hempty hbell => next_of ((control_runs harr).trans ?_), fun b hempty hbell => next_of ((control_runs harr).trans ?_),
        fun w hfull => next_of ((control_runs harr).trans ?_)⟩
      all_goals
        refine (if_neg (hlow hn)).trans ?_
        split <;> rename_i h <;> cases hkey.symm.trans h
        refine (if_neg (not_bnot hmay)).trans ?_
      · refine (if_neg (not_isSome hempty)).trans (congrArg (State.reply · c 2 [0 + n * 256]) ?_)
        split <;> rename_i h <;> cases hbell.symm.trans h
        rfl
      · refine (if_neg (not_isSome hempty)).trans (congrArg (State.reply · c 2 [0 + n * 256]) ?_)
        split <;> rename_i h <;> cases hbell.symm.trans h
        rfl
      · exact if_pos (Option.isSome_of_mem hfull)
    · refine (if_neg (hlow hn)).trans ?_
      split
      · rfl
      · rename_i h'
        refine if_pos (bnot_of (h.elim (fun hnone => ?_) id))
        cases hnone.symm.trans h'
    · exact (if_pos hn).trans (if_pos ⟨hbell, hring, hn'⟩)
    · exact (if_pos hn).trans (if_neg fun ⟨hbell, hring, hn'⟩ =>
        h.elim (fun hout => Nat.not_le.mpr hn' hout) (·.elim (not_true · hbell) (not_true · hring)))
  · intro k r harr hk hheld t i x done
    refine ⟨fun hword => next_of ((control_runs harr).trans ?_), fun hword => next_of ((control_runs harr).trans ?_),
      fun hword => next_of ((control_runs harr).trans ?_)⟩
    all_goals
      rw [hk]
      dsimp only
      split <;> rename_i h <;> cases hheld.symm.trans h
      rw [hword]
    · rfl
    · rfl
    · rfl
  · refine ⟨fun key hkey => next_of ((control_runs harr).trans ?_), fun hkey => next_of ((control_runs harr).trans ?_)⟩
    all_goals
      dsimp only
      split <;> rename_i h <;> cases hkey.symm.trans h
    · rfl
    · rfl
  · refine ⟨fun hbell hring => ?_, fun h => next_of ((control_runs harr).trans (if_pos ?_))⟩
    · have hgo : ¬ ((bellObj c.dest).isNone = true ∨ (!mayRing c.src c.dest bit) = true) :=
        not_or_intro (not_isNone hbell) (not_bnot hring)
      exact ⟨fun hask => next_of ((control_runs harr).trans ((if_neg hgo).trans (if_neg (not_true hask)))),
        fun hask => next_of ((control_runs harr).trans ((if_neg hgo).trans (if_pos hask)))⟩
    · exact h.imp isNone_of_isSome bnot_of

end Sys2Proof.Proofs
end

section
namespace Sys2Proof.Proofs
open Sys2Proof.Machine

/-- Settles O18: notices, their answers, and the turns of hubs and stewards, each one branch of its command. -/
theorem noticesAndTurns : Obligations.NoticesAndTurns := by
  refine ⟨fun dt k s hk => onTile_of hk rfl, ?_, ?_, ?_, ?_⟩
  · intro dt c s u
    refine ⟨control_drops _ _ _ _ _, control_drops _ _ _ _ _, fun h r harr hnode => ?_, fun harr hnode => ?_, fun harr => ?_⟩
    · refine ⟨fun hroom => next_of ((control_runs harr).trans ?_), fun hfull => next_of ((control_runs harr).trans ?_)⟩
      all_goals
        rw [hnode]
        dsimp only
      · exact if_neg (Nat.not_le.mpr hroom)
      · exact if_pos hfull
    · refine next_of ((control_runs harr).trans ?_)
      split
      case h_1 h => exact (hnode _ _ h).elim
      rfl
    · intro l rest
      refine ⟨fun hno => next_of ((control_runs harr).trans (if_pos (bnot_of hno))),
        fun hyes hbusy => next_of ((control_runs harr).trans ((if_neg (not_bnot hyes)).trans (if_pos hbusy))), fun hyes htaken => ?_⟩
      have hbusy : ¬ ctlWord c 0 % 2 = 1 := fun h => by cases htaken.symm.trans h
      refine ⟨fun k hk hlast hdrained => ?_, fun hmore => ?_⟩
      all_goals
        refine next_of ((control_runs harr).trans ((if_neg (not_bnot hyes)).trans ((if_neg hbusy).trans ?_)))
        dsimp only
      · rw [hk]
        exact if_pos ⟨hlast, hdrained⟩
      · split
        · rename_i k hk
          exact if_neg fun h => (hmore k hk).elim (fun hrest => hrest h.1) (fun hleft => Nat.not_le.mpr hleft h.2)
        · rfl
  · intro dt node s l
    refine ⟨fun x hx => next_of ?_, fun hx => next_of ?_⟩
    all_goals split <;> rename_i h <;> cases hx.symm.trans h
    · rfl
    · rfl
  · intro dt work hub s u v
    refine ⟨fun hno => next_of (if_pos (bnot_of hno)), fun hruns hother => next_of ((if_neg (not_bnot hruns)).trans (if_pos hother)),
      fun hruns hlead => next_of ((if_neg (not_bnot hruns)).trans (if_neg (not_not_intro hlead)))⟩
  · intro dt sec s v
    exact ⟨fun hon hfatal hgood => next_of (if_neg (not_or_intro (Nat.not_lt.mpr hon) (not_or_intro hfatal (not_bnot hgood)))),
      fun h => next_of (if_pos (h.imp id (·.imp id bnot_of)))⟩

end Sys2Proof.Proofs
end

section
namespace Sys2Proof.Proofs
open Sys2Proof.Machine

/-- Settles O19: each read is one branch of its command once the packet has arrived. -/
theorem controlReads : Obligations.ControlReads := by
  intro dt c s u bits
  refine ⟨control_drops _ _ _ _ _, control_drops _ _ _ _ _, control_drops _ _ _ _ _, control_drops _ _ _ _ _, control_drops _ _ _ _ _,
    control_drops _ _ _ _ _, fun harr => ?_, fun harr => next_of (control_runs harr), fun harr => ?_, fun harr => ?_,
    fun harr => next_of (control_runs harr), fun harr => next_of (control_runs harr)⟩
  · refine ⟨fun k hk hzero => next_of ((control_runs harr).trans ?_), fun hother => next_of ((control_runs harr).trans ?_)⟩
    · dsimp only
      rw [hk]
      exact if_pos hzero
    · dsimp only
      split
      · rename_i k hk
        exact if_neg (hother k hk)
      · rfl
  · exact ⟨fun hfits => next_of ((control_runs harr).trans (if_neg (Nat.not_le.mpr hfits))),
      fun hout => next_of ((control_runs harr).trans (if_pos hout))⟩
  · refine ⟨fun h r hnode => next_of ((control_runs harr).trans ?_), fun hnode hword => next_of ((control_runs harr).trans ?_),
      fun hnode hword => next_of ((control_runs harr).trans ?_)⟩
    · rw [hnode]
    all_goals
      split
      case h_1 h => exact (hnode _ _ h).elim
    · rw [if_neg hword]
      rfl
    · rw [if_pos hword]
      rfl

end Sys2Proof.Proofs
end

section
namespace Sys2Proof.Proofs
open Sys2Proof.Machine

/-! O20 and O21: the packets that a stack's engine takes. -/

section
variable {dt : Nat} {p : Pkt} {t used : Nat} {a : Nat → Bool} {run : Nat → State → State} {s u : State}

/-- The engine runs a command that it takes from a node that may send it (R191, R192). -/
theorem engine_runs (r : Host.Outcome State Fault Refusal) (hr : r = (s.tick dt).engine p t used a run) {i : Nat}
    (h : EngineTakes dt p i t used s) (ha : a i = true) (hrun : run i ((s.tick dt).takePkt p) = u) : r = .next u := by
  rw [← hrun, hr]
  exact (State.engine_takes h).trans (next_of (if_pos ha))

theorem engine_drops_of (r : Host.Outcome State Fault Refusal) (hr : r = (s.tick dt).engine p t used a run) :
    EngineDrops dt p t used a s r := by
  rw [hr]
  exact State.engine_drops dt p t used a run s

end

/-- Settles O20: `engine` takes or drops the packet; each command is then one branch of its checks. -/
theorem stackEngineCommands : Obligations.StackEngineCommands := by
  intro dt i p s u off len dst doff ack n members
  refine ⟨engine_drops_of (execStackFill dt p s) rfl, engine_drops_of (execStackCopy dt p s) rfl, engine_drops_of (execDirSet dt p s) rfl,
    engine_drops_of (execDirClear dt p s) rfl, engine_drops_of (execGroupSet dt p s) rfl, fun ht hhub => ?_, fun ht hhub => ?_, fun ht hhub => ?_,
    fun ht hhub => ?_, fun ht hhub => ?_⟩
  · have taken := fun v => engine_runs (u := v) (execStackFill dt p s) rfl ht hhub
    refine ⟨fun hout => taken _ (if_pos hout), fun hlen hoff hin => ?_⟩
    have hfits := not_or_intro (not_not_intro hlen) (not_or_intro (not_not_intro hoff) (Nat.not_lt.mpr hin))
    exact ⟨fun hpar => taken _ ((if_neg hfits).trans (if_pos hpar)),
      fun hpar => taken _ ((if_neg hfits).trans (if_neg (not_true hpar)))⟩
  · have taken := fun v => engine_runs (u := v) (execStackCopy dt p s) rfl ht hhub
    refine ⟨fun hout => taken _ (if_pos (hout.imp id (·.imp id (·.imp id (·.imp id bnot_of))))),
      fun hlen hoff hdoff hin hvalid => ?_⟩
    have hfits := not_or_intro (not_not_intro hlen) (not_or_intro (not_not_intro hoff) (not_or_intro (not_not_intro hdoff)
      (not_or_intro (Nat.not_lt.mpr hin) (not_bnot hvalid))))
    refine ⟨fun j f hj hoffline => taken _ ((if_neg hfits).trans ?_),
      fun j f hj honline hpar => taken _ ((if_neg hfits).trans ?_),
      fun j f hj honline hpar => taken _ ((if_neg hfits).trans ?_),
      fun k hk => taken _ ((if_neg hfits).trans ?_)⟩
    · rw [show nodeKind (leAt p.op 12 2) = _ from hj]
      exact if_pos hoffline
    · rw [show nodeKind (leAt p.op 12 2) = _ from hj]
      exact (if_neg (not_true honline)).trans (if_pos hpar)
    · rw [show nodeKind (leAt p.op 12 2) = _ from hj]
      exact (if_neg (not_true honline)).trans (if_neg (not_true hpar))
    · rw [show nodeKind (leAt p.op 12 2) = _ from hk]
  · have taken := fun v => engine_runs (u := v) (execDirSet dt p s) rfl ht hhub
    refine ⟨fun hbad => taken _ ?_, fun hkey hvalid hmul hpos hmost => taken _ ?_,
      fun hkey hvalid => taken _ ?_⟩
    all_goals dsimp only
    · refine if_pos (hbad.imp id (·.imp id fun h => ?_))
      rw [if_pos h.1]
      exact ⟨rfl, h.2⟩
    · rw [hvalid]
      refine (if_neg (not_or_intro (Nat.not_le.mpr hkey) (not_or_intro (by decide) fun h => ?_))).trans rfl
      exact h.2.elim (· hmul) (·.elim (Nat.ne_of_gt hpos) (Nat.not_lt.mpr hmost))
    · rw [hvalid]
      exact if_neg (not_or_intro (Nat.not_le.mpr hkey) (not_or_intro (by decide) fun h => Bool.false_ne_true h.1))
  · exact engine_runs (execDirClear dt p s) rfl ht hhub rfl
  · have taken := fun v => engine_runs (u := v) (execGroupSet dt p s) rfl ht hhub
    exact ⟨fun hrole => taken _ (if_pos hrole), fun hrole => taken _ (if_neg (Nat.not_le.mpr hrole))⟩

end Sys2Proof.Proofs
end

section
namespace Sys2Proof.Proofs
open Sys2Proof.Machine

/-! O21: what the rows of a GATHER come to, and the engine's parity commands. -/

theorem contains_filter_range {n k : Nat} {f : Nat → Bool} (h : k < n) : ((List.range n).filter f).contains k = f k := by
  cases hf : f k <;> simp [h, hf]

/-- The rows with bad bits are those that are not gone. -/
theorem filter_hit (n : Nat) (bad gone : Nat → Bool) :
    (List.range n).filter (fun k => bad k && !((List.range n).filter gone).contains k) = (List.range n).filter (fun k => bad k && !gone k) :=
  List.filter_congr fun k hk => by rw [contains_filter_range (List.mem_range.mp hk)]

/-- Some row of either kind waits where some row waits by its kind. -/
theorem any_filter_or (n : Nat) (f g p q : Nat → Bool) :
    (((List.range n).filter f).any p = true ∨ ((List.range n).filter g).any q = true) ↔
      (List.range n).any (fun k => f k && p k || g k && q k) = true := by
  simp only [List.any_filter, List.any_eq_true, Bool.or_eq_true, and_or_left, exists_or]

theorem map_by_filter {α : Type} (n : Nat) (f : Nat → Bool) (a b : Nat → α) :
    (List.range n).map (fun k => if ((List.range n).filter f).contains k then a k else b k) =
      (List.range n).map (fun k => if f k then a k else b k) :=
  List.map_congr_left fun k hk => by rw [contains_filter_range (List.mem_range.mp hk)]

/-- The acknowledgements of a delta, one after the other, go to the destinations that there are. -/
theorem acks_eq (s : State) (answer : Nat → Emit) (a b r : Nat) :
    (let ack := fun (s : State) (d : Nat) => if d = 0xFFFF then s else s.send (answer d)
      if r = 11 then ack (ack s a) b else ack s a) =
    (([a] ++ (if r = 11 then [b] else [])).filter (· != 0xFFFF)).foldl (fun s d => s.send (answer d)) s := by
  rw [List.foldl_filter]
  by_cases hr : r = 11 <;> simp [hr, ite_not]

/-- Settles O21: `engine` takes or drops the packet; each command is then one branch of its checks. -/
theorem gatherAndParityCommands : Obligations.GatherAndParityCommands := by
  intro dt i p corr bad s u ack
  refine ⟨engine_drops_of (execGather dt ⟨p, ⟨corr, bad⟩⟩ s) (by unfold execGather; rfl), engine_drops_of (execParityDelta dt p s) rfl,
    engine_drops_of (execGroupRead dt p s) rfl, engine_drops_of (execRebuild dt p s) rfl, engine_drops_of (execScrub dt p corr bad s) rfl,
    fun ht htile => ?_, fun ht hmem => ?_, fun ht hmem => ?_, fun ht hhub => ?_, fun ht hhub => ?_⟩
  · intro e mine n tile row off gone hit waits counted
    have taken := fun v => engine_runs (u := v) (execGather dt ⟨p, ⟨corr, bad⟩⟩ s) (by unfold execGather; rfl) ht htile
    refine ⟨fun hbad => taken _ (if_pos (hbad.imp bnot_of (·.imp id (·.imp bnot_of id)))), fun hvalid hpos hto hrows => ?_⟩
    have hok := not_or_intro (not_bnot hvalid) (not_or_intro (Nat.not_lt.mpr hpos) (not_or_intro (not_bnot hto) (Nat.not_lt.mpr hrows)))
    refine ⟨fun hlost => taken _ ((if_neg hok).trans (if_pos hlost)), fun hthere hwait => taken _ ((if_neg hok).trans ((if_neg hthere).trans ?_)),
      fun hthere hready => ⟨fun k hk => taken _ ((if_neg hok).trans ((if_neg hthere).trans ?_)),
        fun hall => taken _ ((if_neg hok).trans ((if_neg hthere).trans ?_))⟩⟩
    all_goals
      dsimp only
      rw [filter_hit]
    · exact if_pos ((any_filter_or n gone hit _ _).mpr hwait)
    all_goals refine (if_neg (mt (any_filter_or n gone hit _ _).mp (not_true hready))).trans ?_
    · split <;> rename_i h <;> cases hk.symm.trans h
      rfl
    · split <;> rename_i h <;> cases hall.symm.trans h
      rw [map_by_filter] <;> rfl
  · intro g m sq delta e row fresh passes answer added after
    have taken := fun v => engine_runs (u := v) (execParityDelta dt p s) rfl ht hmem
    refine ⟨fun hbad => taken _ (if_pos (hbad.imp bnot_of id)), fun hvalid hrole => ?_⟩
    have hok := not_or_intro (not_bnot hvalid) (Nat.not_lt.mpr hrole)
    have hiff : (e.role = 10 ∧ e.p1 ≠ 0xFFFF) ↔ passes = true := by simp [passes]
    refine ⟨fun hpass => taken _ ((if_neg hok).trans ((if_pos (hiff.mpr hpass)).trans ?_)),
      fun hpass => taken _ ((if_neg hok).trans ((if_neg (mt hiff.mp (not_true hpass))).trans ?_))⟩
    · by_cases hf : fresh = true
      · refine (if_pos hf).trans (Eq.trans ?_ (if_pos hf).symm)
        refine congrArg (State.send · _) ((if_pos hf).trans ?_)
        simp only [added, ← hiff]
        rfl
      · exact (if_neg hf).trans ((if_neg hf).trans (if_neg hf).symm)
    · refine (acks_eq _ answer _ _ _).trans (congrArg (List.foldl _ · _) ?_)
      by_cases hf : fresh = true
      · refine (if_pos hf).trans (Eq.trans ?_ (if_pos hf).symm)
        simp only [added, ← hiff]
        rfl
      · exact (if_neg hf).trans (if_neg hf).symm
  · intro g j e
    have taken := fun v => engine_runs (u := v) (execGroupRead dt p s) rfl ht hmem
    refine ⟨fun hout => taken _ (if_pos (hout.imp bnot_of id)), fun hvalid hin => ?_⟩
    have hok := not_or_intro (not_bnot hvalid) (Nat.not_le.mpr hin)
    exact ⟨fun hopen => taken _ ((if_neg hok).trans (if_pos hopen)), fun hshut => taken _ ((if_neg hok).trans (if_neg (not_true hshut)))⟩
  · intro g m x starts r
    have taken := fun v => engine_runs (u := v) (execRebuild dt p s) rfl ht hhub
    refine ⟨fun hout => taken _ (if_pos (bnot_of ?_)), fun hstack hvalid => taken _ ((if_neg (not_bnot ?_)).trans ?_)⟩
    · split
      · rename_i j hj
        refine hout.resolve_left fun h => ?_
        rw [hj] at h
        cases h
      · rfl
    · split
      · exact hvalid
      · rename_i hj
        rw [hj] at hstack
        cases hstack
    · refine ite_of_iff ?_ rfl rfl
      simp only [starts, Bool.and_eq_true, decide_eq_true_eq, and_assoc]
      rfl
  · intro off len rows
    have taken := fun v => engine_runs (u := v) (execScrub dt p corr bad s) rfl ht hhub
    exact ⟨fun hout => taken _ (if_pos hout), fun hoff hlen hin =>
      taken _ (if_neg (not_or_intro (not_not_intro hoff) (not_or_intro (not_not_intro hlen) (Nat.not_lt.mpr hin))))⟩

end Sys2Proof.Proofs
end

section
namespace Sys2Proof.Proofs
open Sys2Proof.Machine

/-- Settles O22: each kind of upkeep is one condition and its work. -/
theorem stackUpkeep : Obligations.StackUpkeep := by
  refine ⟨?_, ?_, ?_, ?_, ?_, ?_⟩
  · intro dt site corr bad s u i rows v
    exact ⟨fun hs hon hshut => onStack_of hs (if_neg (not_or_intro (not_true hon) (not_true hshut))),
      fun h => onStack_keep fun hs => if_pos (h.resolve_left (not_bnot hs ∘ bnot_of))⟩
  · intro dt site base dram s u i j temp old lvl cool v d e
    refine ⟨fun hs h => ?_, fun hs hlvl hon => ?_, fun hs => ?_⟩
    all_goals
      change execStackTempSample dt site base dram s = _
      unfold execStackTempSample
      dsimp only
    · refine onStack_of hs ((if_neg fun hgo => h.elim (· hgo.1) (not_bnot · hgo.2)).trans ?_)
      cases hc : j.1.coolFrom
      all_goals
        rw [show (((s.tick dt).stackUnit (stackIdx site)).judge (s.tick dt).clk base dram).1.coolFrom = _ from hc]
        simp only [e, d, v, cool, hc, Option.getD]
        rfl
    · refine onStack_of hs ((if_pos ⟨hlvl, bnot_of hon⟩).trans (congrArg (State.stackOffline · i) ?_))
      cases hc : j.1.coolFrom
      all_goals
        rw [show (((s.tick dt).stackUnit (stackIdx site)).judge (s.tick dt).clk base dram).1.coolFrom = _ from hc]
        simp only [e, d, v, cool, hc, Option.getD]
        rfl
    · exact onStack_keep fun h => (not_true hs h).elim
  · intro dt site passed s u i v w due ok
    have hok : ok = true ↔ isStackSite site = true ∧ (s.stackUnit i).offline = true ∧ u.floorNow (oFloorSiteState site) = 5 ∧
        due = true ∧ passed = true ∧ (!s.faults.any (fun f => f.kind == 4 && f.ident == site)) = true := by
      simp only [ok, Bool.and_eq_true, beq_iff_eq, and_assoc]
    exact ⟨fun h => onStack_of (hok.mp h).1 (if_pos (hok.mp h).2),
      fun h => onStack_keep fun hs => if_neg fun hgo => not_true h (hok.mpr ⟨hs, hgo⟩)⟩
  · intro dt group member s u x waits
    refine ⟨fun r hr hno => next_of ?_, fun h => next_of ?_⟩
    · split <;> rename_i h' <;> cases hr.symm.trans h'
      exact if_neg (not_true hno)
    · split
      · rfl
      · rename_i h'
        refine if_pos (h.resolve_left fun hnone => ?_)
        cases hnone.symm.trans h'
  · intro dt slot sec s u i copies
    refine ⟨fun c e a hc he ha => ?_, fun h => next_of ?_⟩
    · intro g was cands choice owner
      refine ⟨fun k rest o v hchoice halloc => next_of ?_, fun k rest hchoice halloc => next_of ?_, fun hchoice => next_of ?_⟩
      all_goals
        split
        case h_2 h => exact (h _ _ hc he).elim
        rename_i hc' he'
        cases hc.symm.trans hc'
        cases he.symm.trans he'
        split
        case h_2 h => exact (h _ ha).elim
        rename_i h
        cases ha.symm.trans h
        dsimp only
        split <;> rename_i h <;> cases hchoice.symm.trans h
      · split <;> rename_i h <;> cases halloc.symm.trans h
        rfl
      · split <;> rename_i h <;> cases halloc.symm.trans h
        rfl
      · rfl
    · split
      case h_2 => rfl
      rename_i hc he
      split
      case h_2 => rfl
      rename_i ha
      obtain hnone | hnone | hlive := h
      · cases hnone.symm.trans hc
      · cases hnone.symm.trans he
      · exact (hlive _ hc (by rw [ha]; rfl)).elim
  · intro dt site s u i w period ok
    have hok : ok = true ↔ isStackSite site = true ∧ ¬ ((s.odGet (oFaultBgState 2) ≠ 4 ∧ w.pauseUntil = 0) ∨
        (!decide ((s.clk + dt - w.scrubStart) / (3600 * 10 ^ 9) - period ≥ period)) = true ∨
        (w.pauseUntil ≠ 0 ∧ s.clk + dt < w.pauseUntil + 999000000) ∨ (!u.stackOnline i) = true) := by
      simp only [ok, Bool.and_eq_true, Bool.or_eq_true, beq_iff_eq, bne_iff_ne, decide_eq_true_eq, Bool.not_eq_true', not_or, ne_eq, and_assoc,
        Classical.not_and_iff_not_or_not, decide_eq_false_iff_not, Classical.not_not, Nat.not_lt, Bool.not_eq_false, ge_iff_le]
    exact ⟨fun h => onStack_of (hok.mp h).1 (if_neg (hok.mp h).2),
      fun h => onStack_keep fun hs => Classical.byContradiction fun hgo => not_true h (hok.mpr ⟨hs, fun hcond => hgo (if_pos hcond)⟩)⟩

end Sys2Proof.Proofs
end

section
namespace Sys2Proof.Proofs
open Sys2Proof.Machine

/-! O23: the commands of a slot's image. -/

theorem slotCommand_refused {u : State} {i cmd : Nat} (h : u.slotRunning i = true ∨ cmd = 1 ∧ (u.inCascade && !u.cascadeMaster) = true) :
    (u.slotCommand i cmd).getD u = u :=
  congrArg (Option.getD · u) (if_pos (h.imp id fun h => ⟨h.1, Bool.and_eq_true_iff.mp h.2⟩))

theorem slotCommand_begin {u : State} {i : Nat} (h : u.slotRunning i = false) (hm : (u.inCascade && !u.cascadeMaster) = false) :
    (u.slotCommand i 1).getD u = u.slotBegin i :=
  congrArg (Option.getD · u) (if_neg (not_or_intro (not_true h) fun h => not_true hm (Bool.and_eq_true_iff.mpr h.2)))

theorem slotCommand_other {u : State} {i : Nat} (h : u.slotRunning i = false) :
    (u.slotCommand i 2).getD u = u.slotCommit i ∧ (u.slotCommand i 3).getD u = u.slotCancel i :=
  ⟨congrArg (Option.getD · u) (if_neg (not_or_intro (not_true h) fun h => by cases h.1)),
    congrArg (Option.getD · u) (if_neg (not_or_intro (not_true h) fun h => by cases h.1))⟩

/-- Settles O23: a slot's command is refused or run, and each is one condition and its work. -/
theorem slotImageCommands : Obligations.SlotImageCommands := by
  intro dt slot s i u len cur refused member begins staged commits cancels
  refine ⟨fun h => next_of (slotCommand_refused (h.imp id fun h => ⟨rfl, h⟩)),
    fun h => ⟨next_of (slotCommand_refused (.inl h)), next_of (slotCommand_refused (.inl h))⟩,
    fun hrun hmem => next_of ((slotCommand_begin hrun hmem).trans ?_),
    fun hrun => ⟨next_of ((slotCommand_other hrun).1.trans ?_), next_of ((slotCommand_other hrun).2.trans ?_)⟩,
    fun b => ⟨fun hopen hpos hmost hfits => next_of ?_, fun h => next_of ?_⟩, fun v => ⟨fun hopen hfits => next_of ?_, fun h => next_of ?_⟩,
    fun h => next_of (if_pos h), fun hstate hfaults => ?_⟩
  · have hbegins : ((u.slotState i ≠ 0 ∧ u.slotState i ≠ 7) ∨ len = 0 ∨ (u.stagePieces len).2 ≠ 0) ↔ ¬ begins = true := by
      simp only [begins, Bool.and_eq_true, Bool.or_eq_true, beq_iff_eq, bne_iff_ne, Classical.not_and_iff_not_or_not, not_or, Classical.not_not, or_assoc]
    unfold State.slotBegin
    dsimp only
    exact ite_swap hbegins
  · refine ite_swap ?_
    simp only [commits, Bool.and_eq_true, beq_iff_eq, Classical.not_and_iff_not_or_not]
    rfl
  · refine ite_of_iff ?_ rfl rfl
    simp only [cancels, Bool.or_eq_true, beq_iff_eq]
  · refine congrArg (Option.getD · u) (if_neg (not_or_intro (not_bnot hopen) (not_or_intro ?_ (not_or_intro (Nat.not_lt.mpr hmost) (Nat.not_lt.mpr hfits)))))
    exact List.ne_nil_of_length_pos hpos
  · refine congrArg (Option.getD · u) (if_pos (h.imp bnot_of (·.imp List.length_eq_zero_iff.mp id)))
  · exact congrArg (Option.getD · u) (if_neg (not_or_intro (not_bnot hopen) (Nat.not_lt.mpr hfits)))
  · exact congrArg (Option.getD · u) (if_pos (h.imp bnot_of id))
  · intro x f w g failed
    refine next_of ((if_neg (not_or_intro (not_not_intro hstate) (not_not_intro hfaults))).trans ?_)
    dsimp only
    split
    · rename_i e heq
      split at heq
      · rename_i he
        cases heq
        rw [show u.loadError x.image = some e from he]
        rfl
      · rename_i he
        by_cases h9 : u.check9 g = true
        · cases (if_pos h9).symm.trans heq
        · cases (if_neg h9).symm.trans heq
          rw [show u.loadError x.image = none from he]
          exact (if_neg h9).symm
    · rename_i heq
      split at heq
      · cases heq
      · rename_i he
        by_cases h9 : u.check9 g = true
        · rw [show u.loadError x.image = none from he]
          exact (if_pos h9).symm
        · cases (if_neg h9).symm.trans heq

end Sys2Proof.Proofs
end

section
namespace Sys2Proof.Proofs
open Sys2Proof.Machine

/-! O24: the placement of slots. -/

theorem slotCommand_later {u : State} {i : Nat} (h : u.slotRunning i = false) :
    (u.slotCommand i 4).getD u = u.slotUnload i ∧ (u.slotCommand i 5).getD u = u.slotResupply i :=
  ⟨congrArg (Option.getD · u) (if_neg (not_or_intro (not_true h) fun h => by cases h.1)),
    congrArg (Option.getD · u) (if_neg (not_or_intro (not_true h) fun h => by cases h.1))⟩

theorem bne_nil {α : Type} [BEq α] (l : List α) : (l != []) = !l.isEmpty := by
  cases l <;> rfl

/-- Settles O24: each command is one condition and its work; a slice's couch may only hold lanes yet. -/
theorem slotPlacementCommands : Obligations.SlotPlacementCommands := by
  refine ⟨?_, ?_, ?_⟩
  · intro dt slot est cap bulk f s i u waiting ready v h ctx w
    have hready : (u.slotState i ≠ 3 ∨ s.faults ≠ [] ∨ (!u.idleBank) = true ∨
        waiting.any (fun j => decide (u.placeRank j < u.placeRank i)) = true) ↔ ¬ ready = true := by
      simp only [ready, Bool.and_eq_true, beq_iff_eq, List.isEmpty_iff, Classical.not_and_iff_not_or_not, or_assoc, Bool.not_eq_true', Bool.not_eq_false,
        Bool.not_eq_true]
    refine ⟨fun hno => next_of ?_, fun hf hyes => next_of ?_⟩
    · split
      · rfl
      · rename_i hf
        refine if_pos (hready.mpr (not_true (hno.resolve_left fun h => ?_)))
        cases h.symm.trans hf
    · split <;> rename_i hf' <;> cases hf.symm.trans hf'
      refine (if_neg fun h => hready.mp h hyes).trans ?_
      dsimp only
      split
      · rename_i hfold
        rw [show chooseFold f h.minFold ctx w.freeCurve.length = none from hfold]
        split
        · rename_i hdata
          rw [show w.placeData i f [] = none from hdata]
        · rename_i x hdata
          rw [show w.placeData i f [] = some x from hdata]
          rfl
      · rename_i n l hfold
        rw [show chooseFold f h.minFold ctx w.freeCurve.length = some (n, l) from hfold]
        dsimp only
        split
        · rename_i hdata
          rw [show ((w.placeData i f (seatsFor f n h.ports l w.freeCurve)).bind fun s => s.putSeams i (seatsFor f n h.ports l w.freeCurve)) = none from hdata]
        · rename_i x hdata
          rw [show ((w.placeData i f (seatsFor f n h.ports l w.freeCurve)).bind fun s => s.putSeams i (seatsFor f n h.ports l w.freeCurve)) = some x from hdata]
          rfl
  · intro dt slot s i u refused holds leaves v given
    refine ⟨fun hrun => ⟨next_of (slotCommand_refused (.inl hrun)), next_of (slotCommand_refused (.inl hrun))⟩,
      fun hrun => ⟨next_of ((slotCommand_later hrun).1.trans (ite_swap ?_)), next_of ((slotCommand_later hrun).2.trans (ite_swap ?_))⟩, ?_, ?_⟩
    · simp only [leaves, holds, Bool.and_eq_true, Bool.or_eq_true, beq_iff_eq, Classical.not_and_iff_not_or_not, not_or, Bool.not_eq_true', Bool.not_eq_false]
      rfl
    · simp only [holds, Bool.and_eq_true, Bool.or_eq_true, beq_iff_eq, Classical.not_and_iff_not_or_not, not_or, Bool.not_eq_true', Bool.not_eq_false, List.isEmpty_iff]
      exact or_comm
    · intro r gone
      have hgone : (r.slotState i ≠ 6 ∨ r.lanesOf i ≠ [] ∨ (!r.idleBank) = true) ↔ ¬ gone = true := by
        simp only [gone, Bool.and_eq_true, beq_iff_eq, List.isEmpty_iff, Classical.not_and_iff_not_or_not, or_assoc, Bool.not_eq_true', Bool.not_eq_true]
      exact ⟨fun h => next_of (if_neg fun hc => hgone.mp hc h), fun h => next_of (if_pos (hgone.mpr (not_true h)))⟩
    · intro late
      exact next_of rfl
  · intro dt out into est cap bulk us s o i u gone parked c
    have htiles : (match (s.pslot i).placed with | some p => p.tiles != [] | none => false) =
        ((s.pslot i).placed.map (fun p => !p.tiles.isEmpty)).getD false := by
      cases (s.pslot i).placed with
      | none => rfl
      | some p => exact bne_nil p.tiles
    have hparked : (i = 8 ∨ u.slotState i ≠ 5 ∨ (!(decide (o = 8) || gone)) = true ∨
        (match (s.pslot i).placed with | some p => p.tiles != [] | none => false) = true) ↔ ¬ parked = true := by
      rw [htiles]
      simp only [parked, Bool.and_eq_true, Bool.or_eq_true, beq_iff_eq, bne_iff_ne, Classical.not_and_iff_not_or_not, or_assoc, Bool.not_eq_true', Classical.not_not,
        Bool.or_eq_false_iff, decide_eq_false_iff_not, not_or, Bool.not_eq_true, Bool.not_eq_false, ne_eq]
      exact or_congr_right (or_congr_right or_comm)
    refine ⟨fun h => next_of (if_pos (hparked.mpr (not_true h))), fun h hheld => next_of ((if_neg fun hc => hparked.mp hc h).trans ?_),
      fun h hquiet => next_of ((if_neg fun hc => hparked.mp hc h).trans ?_)⟩
    · rw [show (s.tick dt).couch (if out.val = 8 then [] else [out.val]) = (false, c.2) from Prod.ext hheld rfl] <;> rfl
    · rw [show (s.tick dt).couch (if out.val = 8 then [] else [out.val]) = (true, c.2) from Prod.ext hquiet rfl] <;> rfl

end Sys2Proof.Proofs
end

section
namespace Sys2Proof.Proofs
open Sys2Proof.Machine

/-! O25: the steps of re-plans. -/

/-- Settles O25: each re-plan is nothing due, lanes held, or a step at a couch point. -/
theorem replanningSteps : Obligations.ReplanningSteps := by
  intro dt us s u n pairs full c v
  refine ⟨fun h => next_of (congrArg (Option.getD · u) (if_neg h)), fun h => next_of (congrArg (Option.getD · u) (if_pos h)), ?_, ?_, ?_, ?_,
    ?_, ?_, fun rates => rfl, ?_, rfl⟩
  · intro hpairs d w moves x
    refine next_of ((if_pos hpairs).trans ?_)
    cases hd : d.1 <;> split <;> rename_i h <;> cases (show d = (_, d.2) from Prod.ext hd rfl).symm.trans h
    · rfl
    · rfl
  · intro hpairs hdue
    exact next_of ((if_neg (not_not_intro hpairs)).trans (if_neg (not_true hdue)))
  · intro hpairs hdue
    refine ⟨fun hheld => next_of ?_, fun hquiet => ⟨fun hmoves => next_of ?_, fun hmoves => next_of ?_⟩⟩
    all_goals refine (if_neg (not_not_intro hpairs)).trans ((if_pos hdue).trans ?_)
    · split <;> rename_i h <;> cases (show c = (false, c.2) from Prod.ext hheld rfl).symm.trans h
      rfl
    all_goals split <;> rename_i h <;> cases (show c = (true, c.2) from Prod.ext hquiet rfl).symm.trans h
    · exact if_neg hmoves
    · exact if_pos hmoves
  · intro inSec bare
    refine ⟨fun hbare => next_of ?_, fun sec hbare => ?_⟩
    · split <;> rename_i h <;> cases hbare.symm.trans h
      rfl
    · intro g donors
      refine ⟨fun h => next_of ?_, fun k rest hdonors hmany => ?_⟩
      · split <;> rename_i h' <;> cases hbare.symm.trans h'
        dsimp only
        split
        · rfl
        · rename_i k hk
          refine if_pos (h.resolve_left fun hnone => ?_)
          cases (congrArg List.head? hnone).symm.trans hk
      · intro d
        refine next_of ?_
        split <;> rename_i h' <;> cases hbare.symm.trans h'
        dsimp only
        split <;> rename_i h <;> cases (congrArg List.head? hdonors).symm.trans h
        refine (if_neg (Nat.not_lt.mpr hmany)).trans ?_
        cases hd : d.1 <;> split <;> rename_i h <;> cases (show d = (_, d.2) from Prod.ext hd rfl).symm.trans h
        · rfl
        · rfl
  · intro hno
    refine next_of (if_pos ?_)
    simpa [full] using hno
  · intro hyes
    have hgo : ¬ ((!s.fullDue) = true ∧ s.odGet oPlacementPanelReplanForce = 0) := by
      simpa [full, Decidable.imp_iff_not_or] using hyes
    refine ⟨fun hheld => next_of ((if_neg hgo).trans ?_), fun hquiet => ⟨fun m x hstep => next_of ((if_neg hgo).trans ?_),
      fun hstep => ?_⟩⟩
    · split <;> rename_i h <;> cases (show c = (false, c.2) from Prod.ext hheld rfl).symm.trans h
      rfl
    · split <;> rename_i h <;> cases (show c = (true, c.2) from Prod.ext hquiet rfl).symm.trans h
      split <;> rename_i h <;> cases hstep.symm.trans h
      rfl
    · intro moves w last
      refine next_of ((if_neg hgo).trans ?_)
      split <;> rename_i h <;> cases (show c = (true, c.2) from Prod.ext hquiet rfl).symm.trans h
      split <;> rename_i h <;> cases hstep.symm.trans h
      exact ite_not ..
  · intro x median r f y limit
    refine ⟨fun hf => if_pos hf, fun hf hnone => (if_neg (Nat.not_le.mpr hf)).trans ?_, fun t hf ht => (if_neg (Nat.not_le.mpr hf)).trans ?_⟩
    · split <;> rename_i h <;> cases hnone.symm.trans h
      rfl
    · split <;> rename_i h <;> cases ht.symm.trans h
      exact ite_of_iff (and_congr Iff.rfl Option.isNone_iff_eq_none) rfl rfl

end Sys2Proof.Proofs
end

section
namespace Sys2Proof.Proofs
open Sys2Proof.Machine

/-! O26 and O27: what comes in over the transport. -/

section
variable {dt mtype : Nat} {d : Dgram} {bodyOk : List Nat → Bool} {run : Nat → Nat → Nat → List Nat → State → State} {s u : State}

/-- A datagram that a host port takes is acted on (R274). -/
theorem rt_runs (r : Host.Outcome State Fault Refusal) (hr : r = .next ((s.tick dt).rt d mtype bodyOk run)) (h : RtTakes dt d mtype bodyOk s)
    (hrun : run (leAt d.body 4 4) (leAt d.body 8 4) (leAt d.body 14 1) (d.body.drop 32) (((s.tick dt).rtCount d).heard d.src (leAt d.body 4 4)) = u) :
    r = .next u := by
  rw [← hrun, hr]
  exact next_of (State.rt_takes h)

theorem rt_drops_of (r : Host.Outcome State Fault Refusal) (hr : r = .next ((s.tick dt).rt d mtype bodyOk run)) : RtDrops dt d mtype bodyOk s r := by
  rw [hr]
  exact State.rt_drops dt d mtype bodyOk run s

end

/-- Settles O26: each message is one branch of its command once the datagram is taken. -/
theorem submitsAndAdmission : Obligations.SubmitsAndAdmission := by
  refine ⟨?_, ?_, ?_⟩
  · intro dt d s
    refine ⟨rt_drops_of (execSubmitFragment dt d s) rfl, fun ht => ?_⟩
    exact rt_runs (execSubmitFragment dt d s) rfl ht (ite_swap Nat.not_le.symm)
  · intro dt stream src s
    dsimp only
    refine ⟨fun hnone => ?_, fun e he => ⟨next_of ?_, fun hpart => next_of ?_, fun hwhole => ?_⟩, fun t ht hpast => next_of ?_,
      fun t ht hkeep => next_of ?_, fun hnone => next_of ?_⟩
    · constructor <;> refine next_of ?_ <;> rw [hnone]
    · rw [he]
      refine ite_of_iff ?_ rfl rfl
      rw [Bool.and_eq_true, decide_eq_true_eq]
      rfl
    · rw [he]
      exact if_pos (bnot_of hpart)
    · refine ⟨fun l x hl => next_of ?_, fun q hl hq => next_of ?_, fun t hl hq ht => next_of ?_, fun hl hq ht => next_of ?_⟩
      all_goals
        rw [he]
        refine (if_neg (not_bnot hwhole)).trans ?_
        dsimp only
      · rw [hl]
      · rw [hl, hq]
      · rw [hl, hq, ht]
      · rw [hl, hq, ht]
        rfl
    · rw [show (s.tick dt).term stream = some t from ht]
      exact if_pos hpast
    · rw [show (s.tick dt).term stream = some t from ht]
      exact if_neg (Nat.not_le.mpr hkeep)
    · rw [show (s.tick dt).term stream = none from hnone]
  · intro dt s
    dsimp only
    refine ⟨fun hno => next_of (if_pos (bnot_of hno)), fun hyes => ⟨fun v hv => next_of ?_, fun hnone => next_of ?_⟩⟩
    all_goals
      refine (if_neg (not_bnot hyes)).trans ?_
    · rw [hv]
    · rw [hnone]

/-- Settles O27: each message finds its stream on a lane, in the queue, or ended. -/
theorem transportMessages : Obligations.TransportMessages := by
  refine ⟨?_, ?_⟩
  · intro dt d s
    dsimp only
    generalize hv : ((s.tick dt).rtCount d).heard d.src (leAt d.body 4 4) = v
    refine ⟨rt_drops_of (execRtAbort dt d s) rfl, rt_drops_of (execRtSack dt d s) rfl, rt_drops_of (execRtCredit dt d s) rfl,
      fun ht => ?_, fun ht => ?_, fun ht => ?_⟩
    · have taken := fun w => hv ▸ rt_runs (u := w) (execRtAbort dt d s) rfl ht
      refine ⟨fun l x hl => taken _ ?_, fun q hl hq => taken _ ?_, fun t hl hq ht => ⟨fun hnew => taken _ ?_, fun hold => taken _ ?_⟩,
        fun hl hq ht => taken _ ?_⟩
      · rw [hl]
      · rw [hl, hq]
      · rw [hl, hq, ht]
        exact if_pos hnew
      · rw [hl, hq, ht]
        exact if_neg (not_true hold)
      · rw [hl, hq, ht]
    · have taken := fun w => hv ▸ rt_runs (u := w) (execRtSack dt d s) rfl ht
      generalize hw : (if (leAt d.body 14 1).testBit 1 = true then v.setCe { v.ceRec d.src with till := v.clk + 10 ^ 6 } else v) = w at *
      refine ⟨fun l x hl => taken _ ?_, fun t hl ht => taken _ ?_, fun hl ht => taken _ ?_⟩
      all_goals dsimp only
      · rw [hl]
      · rw [hl, ht]
      · rw [hl, ht]
    · have taken := fun w => hv ▸ rt_runs (u := w) (execRtCredit dt d s) rfl ht
      refine ⟨fun l x hl => taken _ ?_, fun q hl hq => taken _ ?_, fun t hl hq ht => taken _ ?_, fun hl hq ht => taken _ ?_⟩
      · rw [hl]
      · rw [hl, hq]
      · rw [hl, hq, ht]
      · rw [hl, hq, ht]
  · intro dt stream s
    dsimp only
    refine ⟨fun l x hl => ⟨fun hwait => next_of ?_, fun hclear => next_of ?_, next_of ?_⟩,
      fun t hl ht => ⟨fun hwait => next_of ?_, fun hclear => next_of ?_⟩, fun hl ht => next_of ?_, fun q hl hq => next_of ?_,
      fun hl hq => next_of ?_⟩
    · rw [hl]
      exact if_pos (bnot_of hwait)
    · rw [hl]
      exact if_neg (not_bnot hclear)
    · rw [hl]
      rfl
    · rw [hl, ht]
      exact if_pos (bnot_of hwait)
    · rw [hl, ht]
      exact if_neg (not_bnot hclear)
    · rw [hl, ht]
    · rw [hl, show (s.tick dt).queue.find? (fun q => q.sub.stream == stream && q.port != seamPort) = some q from hq]
      rfl
    · rw [hl, show (s.tick dt).queue.find? (fun q => q.sub.stream == stream && q.port != seamPort) = none from hq]

end Sys2Proof.Proofs
end

section
namespace Sys2Proof.Proofs
open Sys2Proof.Machine

/-! O28: releases and draft adaptation. -/

/-- A paced lane whose next token is not due, not in time or without credit lets nothing go (R253, R255). -/
theorem releaseDue_waits {v : State} {l n : Nat} {x : LaneRec} {t : ReelTok} {rest : List ReelTok} (hl : v.lane l = some x)
    (hreel : x.reel = t :: rest)
    (h : v.mayRelease x = false ∨ x.credited = false ∨
      (x.unpaced = false ∧ (v.now < x.due x.released ∨ x.due x.released < v.timeAt t.at'))) : v.releaseDue l (n + 1) = (v, []) := by
  unfold State.releaseDue
  rw [hl]
  dsimp only
  rw [hreel]
  refine if_pos ?_
  obtain h | h | ⟨hpaced, h⟩ := h
  · exact .inl (bnot_of h)
  · exact .inr (.inr (bnot_of h))
  · exact .inr (.inl ⟨bnot_of hpaced, h.imp id fun h => bnot_of (decide_eq_false (Nat.not_le.mpr h))⟩)

/-- One that may go, with credit, at its time or unpaced, goes first. -/
theorem releaseDue_sends {v : State} {l n : Nat} {x : LaneRec} {t : ReelTok} {rest : List ReelTok} (hl : v.lane l = some x)
    (hreel : x.reel = t :: rest) (hmay : v.mayRelease x = true) (hcredit : x.credited = true)
    (h : x.unpaced = true ∨ (x.due x.released ≤ v.now ∧ v.timeAt t.at' ≤ x.due x.released)) :
    let r := (v.setLane l (x.creditEnd v.now)).releaseOne l (x.due x.released)
    v.releaseDue l (n + 1) = ((r.1.releaseDue l n).1, r.2 ++ (r.1.releaseDue l n).2) := by
  intro r
  conv => lhs; unfold State.releaseDue
  rw [hl]
  dsimp only
  rw [hreel]
  refine if_neg (not_or_intro (not_bnot hmay) (not_or_intro (fun hw => ?_) (not_bnot hcredit)))
  obtain h | ⟨hdue, hin⟩ := h
  · exact not_bnot h hw.1
  · exact hw.2.elim (Nat.not_lt.mpr hdue) (not_bnot (decide_eq_true hin))

/-- Settles O28: each clause is one branch of its command. -/
theorem releasesAndAdaptation : Obligations.ReleasesAndAdaptation := by
  refine ⟨?_, fun v l n x t rest hl hreel => ⟨releaseDue_waits hl hreel, releaseDue_sends hl hreel⟩, ?_, ?_⟩
  · intro dt lane s u l
    refine ⟨fun hnone => ⟨next_of ?_, next_of ?_⟩, fun x hx => ?_⟩
    · unfold State.release
      split <;> rename_i h <;> cases hnone.symm.trans h
      rfl
    · split <;> rename_i h <;> cases hnone.symm.trans h
      rfl
    · intro sends bulk r v
      refine ⟨fun hcls => next_of ?_, fun hcls => next_of ?_, ?_⟩
      · unfold State.release
        split <;> rename_i h <;> cases hx.symm.trans h
        refine (if_pos hcls).trans ?_
        unfold State.releaseBulk
        split <;> rename_i h <;> cases hx.symm.trans h
        rfl
      · unfold State.release
        split <;> rename_i h <;> cases hx.symm.trans h
        exact if_neg hcls
      · intro late y w
        refine ⟨fun hno => next_of ?_, fun hexp hmay hl => next_of ?_⟩
        · split <;> rename_i h <;> cases hx.symm.trans h
          refine if_pos (bnot_of ?_)
          show (x.express && u.mayRelease x && late) = false
          obtain h | h | h := hno <;> simp [h]
        · split <;> rename_i h <;> cases hx.symm.trans h
          refine (if_neg (not_bnot (both_true (both_true hexp hmay) hl))).trans ?_
          exact ite_swap bnot_iff
  · intro dt lane s u
    refine ⟨fun hnone => next_of ?_, fun x hx => ?_⟩
    · split <;> rename_i h <;> cases hnone.symm.trans h
      rfl
    · intro v
      refine next_of ?_
      split <;> rename_i h <;> cases hx.symm.trans h
      refine ite_of_iff ?_ rfl rfl
      rw [Option.isNone_iff_eq_none]
  · intro dt slot s u i x starts q v w y
    have hstarts : (s.odGet (oStreamDraftAdaptEnable i) = 1 ∧ (!x.adapting) = true ∧ u.slotState i = 4 ∧
        x.samples.length ≥ s.odGet (oStreamDraftAdaptSamples i)) ↔ starts = true := by
      simp only [starts, Bool.and_eq_true, beq_iff_eq, decide_eq_true_eq, and_assoc]
    refine ⟨fun h => next_of (if_pos (hstarts.mpr h)), fun h => next_of (if_neg fun hc => not_true h (hstarts.mp hc)),
      fun hno => next_of (if_pos (bnot_of hno)), fun hyes hheld => next_of ((if_neg (not_bnot hyes)).trans ?_),
      fun hyes hquiet => next_of ((if_neg (not_bnot hyes)).trans ?_)⟩
    · have hswap : u.swapSlot i = (false, q.2) := (if_neg (not_true hheld)).trans (Prod.ext hheld rfl)
      split <;> rename_i h <;> cases hswap.symm.trans h
      rfl
    · have hswap : u.swapSlot i = (true, v) := if_pos hquiet
      split <;> rename_i h <;> cases hswap.symm.trans h
      rfl

end Sys2Proof.Proofs
end

section
namespace Sys2Proof.Proofs
open Sys2Proof.Machine

/-- Settles O29: each frame is one condition and its answer. -/
theorem framesAndPauses : Obligations.FramesAndPauses := by
  intro dt port s p u h
  refine ⟨fun prio => ?_, fun t ht => next_of ?_, fun hnone => next_of ?_, fun mac portId name => rfl, fun target sender => ⟨rfl, rfl⟩,
    fun d v6 target => ⟨fun hdown => next_of (if_pos (bnot_of hdown)), fun hup hfrag => next_of ((if_neg (not_bnot hup)).trans (if_pos hfrag)),
      fun hup hwhole => next_of ((if_neg (not_bnot hup)).trans (if_neg (not_true hwhole)))⟩⟩
  · intro starts
    have hstarts : (prio = s.odGet (oRtPortPcp p) ∧ (s.odGet (oRtPortPfcMask p)).testBit prio = true ∧ u.hostUp p = true ∧
        h.pausedAt.isNone = true) ↔ starts = true := by
      simp only [starts, Bool.and_eq_true, beq_iff_eq, and_assoc]
    exact ⟨fun hyes => next_of (if_pos (hstarts.mpr hyes)), fun hno => next_of (if_neg fun hc => not_true hno (hstarts.mp hc))⟩
  · unfold State.endPause
    dsimp only
    split <;> rename_i h' <;> cases ht.symm.trans h'
    rfl
  · unfold State.endPause
    dsimp only
    split <;> rename_i h' <;> cases hnone.symm.trans h'
    rfl

end Sys2Proof.Proofs
end

section
namespace Sys2Proof.Proofs
open Sys2Proof.Machine

/-! O30: host ports and their modules. -/

/-- A port that is not free for the role keeps the state (R267). -/
theorem setRole_keeps {u : State} {p role : Nat}
    (h : (decide (role ≤ 2) && u.odGet (oRtPortRole p) != 3 && u.odGet (oRtPortRole p) != role && !u.portBusy p &&
      (role != 1 || decide (((List.range 16).filter (fun q => q != p && u.odGet (oRtPortRole q) == 1)).length < 4))) = false) :
    (u.setRole p role).2 = u := by
  unfold State.setRole
  split
  · rfl
  split
  · rfl
  split
  · rfl
  split
  · rfl
  · rename_i h1 h2 h3 h4
    simp only [not_or, not_and, Nat.not_lt, Nat.not_le, ge_iff_le, gt_iff_lt] at h1 h2 h3 h4
    obtain ⟨-, hrole, hdark⟩ := h1
    have hfew : role ≠ 1 ∨ ((List.range 16).filter (fun q => q != p && u.odGet (oRtPortRole q) == 1)).length < 4 := Decidable.imp_iff_not_or.mp h3
    simp [hrole, hdark, h2, h4] at h
    omega

/-- One that is free for it takes it. -/
theorem setRole_takes {u : State} {p role : Nat} (hp : p < 16)
    (h : (decide (role ≤ 2) && u.odGet (oRtPortRole p) != 3 && u.odGet (oRtPortRole p) != role && !u.portBusy p &&
      (role != 1 || decide (((List.range 16).filter (fun q => q != p && u.odGet (oRtPortRole q) == 1)).length < 4))) = true) :
    (u.setRole p role).2 =
      (let st := if role = 0 ∨ u.dev < 3 ∨ 5 < u.dev then 0 else if u.odGet (oRtModuleState p) = 3 then 1 else if u.odGet (oRtModuleState p) = 0 then 3 else 0
      u.altLost (((u.odSet (oRtPortRole p) role).odSet (oRtPortState p) st).setHostPort p {})) := by
  simp only [Bool.and_eq_true, decide_eq_true_eq, bne_iff_ne, Bool.not_eq_true', Bool.or_eq_true] at h
  obtain ⟨⟨⟨⟨hrole, hdark⟩, hother⟩, hfree⟩, hfew⟩ := h
  have h1 : ¬ (p ≥ 16 ∨ role > 2 ∨ u.odGet (oRtPortRole p) = 3) := not_or_intro (Nat.not_le.mpr hp) (not_or_intro (Nat.not_lt.mpr hrole) hdark)
  have h3 : ¬ (role = 1 ∧ ((List.range 16).filter (fun q => q != p && u.odGet (oRtPortRole q) == 1)).length ≥ 4) :=
    fun h => hfew.elim (· h.1) (fun hlt => Nat.not_le.mpr hlt h.2)
  unfold State.setRole
  rw [if_neg h1, if_neg hother, if_neg h3, if_neg (not_true hfree)]

/-- Settles O30: each clause is one branch of its command. -/
theorem portsAndModules : Obligations.PortsAndModules := by
  intro dt port s p u
  refine ⟨fun role => ⟨fun h => next_of (setRole_takes port.isLt h), fun h => next_of (setRole_keeps h)⟩, rfl,
    fun h => next_of (if_pos h), fun hrole hup => ?_, ?_, fun t bias fault hno => next_of (if_pos hno), fun t bias fault hmod => ?_,
    fun hno => next_of (if_pos hno), fun hmod => next_of (if_neg hmod)⟩
  · intro v w alt ls x y moved z
    have hgo := not_or_intro (not_not_intro hrole) (not_not_intro hup)
    exact ⟨fun halt => next_of ((if_neg hgo).trans (if_neg (not_bnot halt))), fun halt => next_of ((if_neg hgo).trans (if_pos (bnot_of halt)))⟩
  · intro vendor part serial revision cmis power warn app served v w x code
    have hserved : ((!(u.dev == 3 || u.dev == 4 || u.dev == 5 || (u.dev == 2 && s.odGet oBootProgressStep == 14))) = true ∨
        s.odGet (oRtPortRole p) = 3) ↔ ¬ served = true := by
      simp only [served, Bool.and_eq_true, bne_iff_ne, Classical.not_and_iff_not_or_not, Classical.not_not, bnot_iff]
    have hcode : (if cmis % 256 < 0x50 then 1 else if (!app) = true then 2 else if power > 30000 then 3 else 0) = code := by
      cases app <;> rfl
    refine ⟨fun hno => next_of (if_pos (hserved.mpr (not_true hno))), fun hyes hne => ?_, fun hyes hzero => ?_⟩
    · refine next_of ((if_neg fun h => hserved.mp h hyes).trans ((if_pos (fun hc => hne (hcode.symm.trans hc))).trans ?_))
      rw [← hcode]
    · exact next_of ((if_neg fun h => hserved.mp h hyes).trans (if_neg (not_not_intro (hcode.trans hzero))))
  · intro e a b v c w x
    refine next_of ((if_neg hmod).trans ?_)
    have hcond : (fault = true ∨ w.eolBias p ≤ bias) ↔ (fault || decide (w.eolBias p ≤ bias)) = true := by
      rw [Bool.or_eq_true, decide_eq_true_eq]
    have hx : (if fault = true ∨ w.eolBias p ≤ bias then w.replaceEvent p 3 (w.odGet (oAgeingModuleDaysLeft p)) bias else w) = x :=
      ite_of_iff hcond rfl rfl
    have hnew : (fault = true ∧ s.odGet (oRtModuleState p) ≠ 4) ↔ (fault && s.odGet (oRtModuleState p) != 4) = true := by
      rw [Bool.and_eq_true, bne_iff_ne]
    exact ite_of_iff hnew (congrArg (fun y : State => ((y.moduleFault p).odSet (oRtModuleState p) 4).moduleEvent p 4 0) hx) hx

end Sys2Proof.Proofs
end

section
namespace Sys2Proof.Proofs
open Sys2Proof.Machine

/-- Settles O31: each clause is one branch of its command. -/
theorem timeAndClock : Obligations.TimeAndClock := by
  refine ⟨?_, ?_, ?_, ?_⟩
  · intro dt port domain announce off s p u v w first
    refine ⟨fun h => next_of (if_pos (h.imp bnot_of id)), fun hup hdomain => ?_⟩
    have hgo := not_or_intro (not_bnot hup) (not_not_intro hdomain)
    exact ⟨fun hann => next_of ((if_neg hgo).trans (if_pos hann)),
      fun hann hother => next_of ((if_neg hgo).trans ((if_neg (not_true hann)).trans (if_neg hother))),
      fun hann hcur => next_of ((if_neg hgo).trans ((if_neg (not_true hann)).trans (if_pos hcur)))⟩
  · intro dt s u held v
    refine ⟨fun hnone => ⟨next_of (if_neg fun h => h.1 hnone), next_of (if_neg fun h => h.1 hnone)⟩,
      fun hcur hup => ⟨next_of (if_pos ⟨hcur, hup⟩), next_of (if_neg fun h => not_bnot hup h.2)⟩,
      fun hcur hdown => ⟨next_of (if_neg fun h => not_true hdown h.2), fun hpick hup => ?_, fun h => ?_⟩⟩
    · exact next_of ((if_pos ⟨hcur, bnot_of hdown⟩).trans (if_neg (not_or_intro hpick (not_bnot hup))))
    · exact next_of ((if_pos ⟨hcur, bnot_of hdown⟩).trans (if_pos (h.imp id bnot_of)))
  · intro dt die s u w best
    refine ⟨fun e he hedge => next_of ?_, fun h => next_of ?_⟩
    · split <;> rename_i h <;> cases he.symm.trans h
      exact if_neg hedge
    · split
      · rename_i e he
        refine if_pos ?_
        obtain h | h := h
        · cases h.symm.trans he
        · cases h.symm.trans he
          rfl
      · rfl
  · intro dt s u h n
    refine ⟨fun halive hlock => next_of (if_pos ⟨halive, hlock⟩), fun hno => next_of (if_neg fun hgo => ?_)⟩
    exact hno.elim (not_true · hgo.1) (· hgo.2)

end Sys2Proof.Proofs
end

section
namespace Sys2Proof.Proofs
open Sys2Proof.Machine

/-! O32 and O33: how sessions open and end. -/

section
variable {dt kind : Nat} {d : Dgram} {run : State → State} {s u : State}

/-- A datagram for EOP at the management port (R291, R292). -/
theorem eop_management (h : 16 ≤ d.port) :
    (s.tick dt).eop d kind run = if d.udp ≠ 49301 ∨ (!(eopCounted dt d s).eopServed d.port) = true then eopCounted dt d s
      else if (!eopHeadOk kind d.body) = true then (eopCounted dt d s).eopDiscard else run (eopCounted dt d s) := by
  have hc : eopCounted dt d s = s.tick dt := if_neg (Nat.not_lt.mpr h)
  rw [hc]
  exact if_pos h

/-- A datagram for EOP at a host port (R271, R292). -/
theorem eop_inBand (h : d.port < 16) (hup : s.hostUp d.port = true) :
    (s.tick dt).eop d kind run = if d.frag = true ∨ d.udp ≠ (eopCounted dt d s).odGet (oRtPortEopUdp d.port) then
        (eopCounted dt d s).bump (oRtPortDiscarded d.port)
      else if (!(eopCounted dt d s).eopServed d.port) = true then eopCounted dt d s
      else if (!eopHeadOk kind d.body) = true then (eopCounted dt d s).eopDiscard else run (eopCounted dt d s) := by
  have hc : eopCounted dt d s = (s.tick dt).bump (oRtPortRxDatagrams d.port) := if_pos h
  rw [hc]
  exact (if_neg (Nat.not_le.mpr h)).trans (if_neg (not_bnot hup))

theorem eop_drops (dt kind : Nat) (d : Dgram) (run : State → State) (s : State) :
    EopDrops dt d kind s (.next ((s.tick dt).eop d kind run)) := by
  refine ⟨fun hp h => next_of ?_, fun hp hdown => next_of ?_, fun hp hup h => next_of ?_, fun hp hup hwhole hudp hno => next_of ?_,
    fun hreach hhead => next_of ?_⟩
  · exact (eop_management hp).trans (if_pos (h.imp id bnot_of))
  · exact (if_neg (Nat.not_le.mpr hp)).trans (if_pos (bnot_of hdown))
  · exact (eop_inBand hp hup).trans (if_pos h)
  · exact (eop_inBand hp hup).trans ((if_neg (not_or_intro (not_true hwhole) (not_not_intro hudp))).trans (if_pos (bnot_of hno)))
  · obtain ⟨hman, hhost, hserved⟩ := hreach
    by_cases hp : d.port < 16
    · obtain ⟨hup, hwhole, hudp⟩ := hhost hp
      exact (eop_inBand hp hup).trans ((if_neg (not_or_intro (not_true hwhole) (not_not_intro hudp))).trans
        ((if_neg (not_bnot hserved)).trans (if_pos (bnot_of hhead))))
    · have hm := Nat.not_lt.mp hp
      exact (eop_management hm).trans ((if_neg (not_or_intro (not_not_intro (hman hm)) (not_bnot hserved))).trans (if_pos (bnot_of hhead)))

theorem eop_drops_of (r : Host.Outcome State Fault Refusal) (hr : r = .next ((s.tick dt).eop d kind run)) : EopDrops dt d kind s r := by
  rw [hr]
  exact eop_drops dt kind d run s

/-- A datagram that EOP takes is acted on (R292). -/
theorem eop_runs (r : Host.Outcome State Fault Refusal) (hr : r = .next ((s.tick dt).eop d kind run)) (h : EopReaches dt d s)
    (hhead : eopHeadOk kind d.body = true) (hrun : run (eopCounted dt d s) = u) : r = .next u := by
  rw [← hrun, hr]
  exact next_of (State.eop_takes h hhead)

end

section
variable {id op : Nat} {run : State → Session → Nat → List Nat → State} {s u : State}

/-- A session's oldest request is taken from its queue and served by its own command (R302). -/
theorem serve_runs (r : Host.Outcome State Fault Refusal) (hr : r = .next (s.serve id op run)) {x : Session} {pt : List Nat} {t : List (List Nat)}
    (hx : s.session id = some x) (hin : x.inbox = pt :: t) (hop : leAt pt 0 1 = op)
    (hrun : run (s.setSession { x with inbox := t }) { x with inbox := t } (leAt pt 4 4) (pt.drop 8) = u) : r = .next u := by
  rw [← hrun, hr]
  exact next_of (State.serve_takes hx hin hop)

theorem serve_waits (r : Host.Outcome State Fault Refusal) (hr : r = .next (s.serve id op run)) (h : asksFor s id op = false) : r = .next s := by
  rw [hr]
  exact next_of (State.serve_idle h)

end

/-- Settles O32: HELLO and protected datagrams by `eop`, PROOF by the half-open session that it finds. -/
theorem sessionsOpen : Obligations.SessionsOpen := by
  refine ⟨?_, ?_⟩
  · intro dt d s c u hello ok sess seq known
    refine ⟨eop_drops_of (execHello dt d s) rfl, eop_drops_of (execProtectedReceive dt d s) rfl, fun hr hhead => ?_, fun hr hhead => ?_⟩
    · have taken := fun w => eop_runs (u := w) (execHello dt d s) rfl hr hhead
      have hok : (hello.length ≠ 1252 ∨ leAt d.body 18 2 ≠ 1 ∨ (!zeroAt d.body 4 12) = true ∨ (!zeroAt hello 1248 4) = true) ↔ ¬ ok = true := by
        simp only [ok, Bool.and_eq_true, beq_iff_eq, Classical.not_and_iff_not_or_not, or_assoc, bnot_iff]
      refine ⟨fun hno => taken _ (if_pos (hok.mpr (not_true hno))), fun h hyes hfind => taken _ ((if_neg fun hc => hok.mp hc hyes).trans ?_),
        fun hyes hfind => taken _ ((if_neg fun hc => hok.mp hc hyes).trans ?_)⟩
      · split <;> rename_i h' <;> cases hfind.symm.trans h'
        rfl
      · split <;> rename_i h' <;> cases hfind.symm.trans h'
        rfl
    · have taken := fun w => eop_runs (u := w) (execProtectedReceive dt d s) rfl hr hhead
      refine ⟨fun v hyes hjoin => taken _ ((if_pos hyes).trans ?_), fun v m x hyes hjoin hx => ?_, fun v m h hyes hjoin hx hh => ?_,
        fun hno => taken _ (if_neg (not_true hno))⟩
      · split <;> rename_i h' <;> cases hjoin.symm.trans h'
        rfl
      · refine taken _ ((if_pos hyes).trans ?_)
        split <;> rename_i h' <;> cases hjoin.symm.trans h'
        unfold State.takeProtected
        split <;> rename_i h' <;> cases hx.symm.trans h'
        exact ite_of_iff (Bool.not_eq_true' _).to_iff rfl rfl
      · refine taken _ ((if_pos hyes).trans ?_)
        split <;> rename_i h' <;> cases hjoin.symm.trans h'
        unfold State.takeProtected
        split <;> rename_i h' <;> cases hx.symm.trans h'
        split <;> rename_i h' <;> cases hh.symm.trans h'
        rfl
  · intro dt id s u found v
    refine ⟨fun hnone => next_of ?_, fun h hh hp => next_of ?_, fun h seq pt hh hp => ?_,
      serve_waits (execKeepalive dt id s) rfl, fun x pt t hx hin hop => serve_runs (execKeepalive dt id s) rfl hx hin hop rfl, rfl, rfl⟩
    · split <;> rename_i h' <;> cases hnone.symm.trans h'
      rfl
    · split <;> rename_i h' <;> cases hh.symm.trans h'
      split <;> rename_i h' <;> cases hp.symm.trans h'
      rfl
    · intro rid opened x
      refine next_of ?_
      split <;> rename_i h' <;> cases hh.symm.trans h'
      split <;> rename_i h' <;> cases hp.symm.trans h'
      rfl

/-- Settles O33: each request is served in its turn, and each check is one branch. -/
theorem sessionsEndAndQuorum : Obligations.SessionsEndAndQuorum := by
  intro dt id s u
  refine ⟨serve_waits (execCloseSession dt id s) rfl, serve_waits (execQuorum dt id s) rfl, fun x pt t hx hin => ?_, fun x hx => ?_,
    fun hnone => ?_, rfl⟩
  · intro y v rid b cid fail
    refine ⟨fun hop => serve_runs (execCloseSession dt id s) rfl hx hin hop rfl, fun hop => ?_⟩
    have taken := fun w => serve_runs (u := w) (execQuorum dt id s) rfl hx hin hop
    refine ⟨fun hlow => taken _ (if_pos hlow), fun hlevel hform => taken _ ((if_neg (Nat.not_lt.mpr hlevel)).trans (if_pos (bnot_of hform))),
      fun q hlevel hform hq => taken _ ((if_neg (Nat.not_lt.mpr hlevel)).trans ((if_neg (not_bnot hform)).trans ?_)), fun hlevel hform hq => ?_⟩
    · split <;> rename_i h' <;> cases hq.symm.trans h'
      rfl
    · refine taken _ ((if_neg (Nat.not_lt.mpr hlevel)).trans ((if_neg (not_bnot hform)).trans ?_))
      split <;> rename_i h' <;> cases hq.symm.trans h'
      rfl
  · refine ⟨next_of ?_, next_of ?_, next_of (congrArg State.closeDueNow (if_pos (Option.isSome_of_mem hx)))⟩
    all_goals
      split <;> rename_i h' <;> cases hx.symm.trans h'
      rfl
  · refine ⟨next_of ?_, next_of ?_, next_of (congrArg State.closeDueNow (if_neg (not_isSome hnone)))⟩
    all_goals
      split <;> rename_i h' <;> cases hnone.symm.trans h'
      rfl

end Sys2Proof.Proofs
end

section
namespace Sys2Proof.Proofs
open Sys2Proof.Machine

/-! O34: what is stored, and the writes of objects and records. -/

section
variable {u : State} {level ix sub : Nat} {b : List Nat}

theorem writeEntry_absent (h : u.writeRow ix sub = none) : (u.writeEntry level ix sub b).2 = u := by
  unfold State.writeEntry
  rw [h]
  split <;> rfl

/-- An entry takes its value where the level, the state and the length let it (R320 to R322). -/
theorem writeEntry_row {r : DirRow} (h : u.writeRow ix sub = some r) :
    (u.writeEntry level ix sub b).2 =
      if (!factoryIndex ix && accessWritable r && decide (r.writeLevel ≤ level) && (u.recovery || u.writeServed ix r (ofLE b)) &&
        lengthOk ix sub r b) = true then (u.applyWrite level ix r b).getD u else u := by
  unfold State.writeEntry
  rw [h]
  dsimp only
  cases hf : factoryIndex ix
  case true => rfl
  cases ha : accessWritable r
  case false => rfl
  by_cases hl : r.writeLevel ≤ level
  case neg => simp [hl, Nat.not_le.mp hl]
  cases hs : (u.recovery || u.writeServed ix r (ofLE b))
  case false =>
    have hs' : (!u.recovery && !u.writeServed ix r (ofLE b)) = true := by
      rw [← Bool.not_or, hs]
      rfl
    simp [Nat.not_lt.mpr hl, hs']
  have hs' : (!u.recovery && !u.writeServed ix r (ofLE b)) = false := by
    rw [← Bool.not_or, hs]
    rfl
  cases hlen : lengthOk ix sub r b
  case false => simp [Nat.not_lt.mpr hl, hs']
  cases happ : u.applyWrite level ix r b <;> simp [Nat.not_lt.mpr hl, hs', hl]

end

/-- Checks that come one after the other are their conjunction. -/
theorem getD_checks {c₁ c₂ c₃ : Prop} [Decidable c₁] [Decidable c₂] [Decidable c₃] {form good keeps : Bool} {u v : State}
    (hform : c₁ ↔ ¬ form = true) (hgood : c₂ ∨ c₃ ↔ ¬ good = true) :
    (if c₁ then none else if c₂ then none else if c₃ then none else if keeps then some v else none).getD u =
      if form && good && keeps then v else u := by
  cases form
  case false => rw [if_pos (hform.mpr Bool.false_ne_true)]; rfl
  rw [if_neg fun h => hform.mp h rfl]
  cases good
  case false =>
    obtain h | h := hgood.mpr Bool.false_ne_true
    · rw [if_pos h]; rfl
    · rw [if_pos h, ite_self]; rfl
  rw [if_neg fun h => hgood.mp (.inl h) rfl, if_neg fun h => hgood.mp (.inr h) rfl]
  cases keeps <;> rfl

/-- Settles O34: each write is its conditions and its work; entries go through `writeEntry`. -/
theorem storedWrites : Obligations.StoredWrites := by
  refine ⟨?_, ?_, ?_, ?_⟩
  · intro dt level b s u slot key others form good v keeps k n set w
    refine ⟨?_, fun h => ?_, fun h => ?_⟩
    · have hform : (b.length ≠ 2028 ∨ slot ≥ 16 ∨ (!zeroAt b 2 2) = true ∨ leAt b 1 1 > level ∨ (slot = 0 ∧ level < 3)) ↔ ¬ form = true := by
        simp only [form, Bool.and_eq_true, Bool.or_eq_true, beq_iff_eq, bne_iff_ne, decide_eq_true_eq, Classical.not_and_iff_not_or_not, not_or, or_assoc, bnot_iff,
          Nat.not_lt, Nat.not_le, Classical.not_not, gt_iff_lt, ge_iff_le]
      have hgood : ((key == 0) = true ∧ (!zeroAt b 1 2027) = true) ∨ ((!(key == 0)) = true ∧
          (others.any (fun i => s.odGet (oSessionPrincipalKeyId i) == key) = true ∨ (!Config.keyDecodes 0 (sliceAt b 12 32)) = true ∨
            (!Config.keyDecodes 1 (sliceAt b 44 1952)) = true ∨ (!utf8Ok (sliceAt b 1996 32)) = true)) ↔ ¬ good = true := by
        by_cases hk : key = 0
        · simp only [good, if_pos hk, hk, beq_self_eq_true, true_and, bnot_iff, not_true_eq_false, false_and, or_false]
        · simp only [good, if_neg hk, bnot_iff, beq_iff_eq, hk, not_false_eq_true, true_and, false_and, false_or, Bool.and_eq_true, Classical.not_and_iff_not_or_not,
            or_assoc, Classical.not_not]
      change execPrincipalSet dt level b s = _
      refine next_of ?_
      unfold State.principalSet
      exact getD_checks hform hgood
    all_goals
      have hset : (b.length ≠ 18220 ∨ n > 9 ∨ (!zeroAt b 2 2) = true ∨ (n ≠ 0 ∧ (k < 1 ∨ k > min n 7)) ∨
          ((List.range n).map (fun i => leAt b (4 + 2024 * i) 8)).eraseDups.length ≠ n ∨
          (!(List.range n).all (fun i => utf8Ok (sliceAt b (4 + 2024 * i + 1992) 32))) = true ∨
          (!zeroAt b (4 + 2024 * n) (2024 * (9 - n))) = true) ↔ ¬ set = true := by
        simp only [set, Bool.and_eq_true, Bool.or_eq_true, beq_iff_eq, decide_eq_true_eq, Classical.not_and_iff_not_or_not, not_or, or_assoc, bnot_iff, Nat.not_le,
          gt_iff_lt]
      change execQuorumSet dt b s = _
    · refine next_of ?_
      unfold State.quorumSet
      rw [if_neg fun hc => hset.mp hc h]
      rfl
    · exact next_of (congrArg (Option.getD · u) (if_pos (hset.mpr (not_true h))))
  · intro dt sub v s u fits
    have hfits : (sub < 4 ∨ sub > 0xA ∨ v ≥ 256 ^ [4, 1, 4, 16, 1, 16, 2].getD (sub - 4) 0 ∨ (sub = 5 ∧ (v < 1 ∨ v > 32)) ∨
        (sub = 8 ∧ (v < 1 ∨ v > 128))) ↔ ¬ fits = true := by
      simp only [fits, Bool.and_eq_true, Bool.or_eq_true, bne_iff_ne, decide_eq_true_eq, Classical.not_and_iff_not_or_not, not_or, or_assoc, Nat.not_lt, Nat.not_le, Classical.not_not,
        gt_iff_lt, ge_iff_le]
    exact ⟨fun h => next_of (congrArg (Option.getD · u) (if_neg fun hc => hfits.mp hc h)),
      fun h => next_of (congrArg (Option.getD · u) (if_pos (hfits.mpr (not_true h))))⟩
  · intro dt level ix sub b s
    dsimp only
    refine ⟨fun h => next_of ?_, fun r hr h => next_of ?_, fun r hr hacc hrec => next_of ?_, fun h => next_of ?_, fun r hr h => next_of ?_,
      fun r hr htype hsub => next_of ?_⟩
    · rw [h]
    · rw [hr]
      exact if_neg fun hc => h.elim (· hc.1) fun h => not_bnot (decide_eq_true h) hc.2
    · rw [hr]
      refine (if_pos ⟨hacc, bnot_of (decide_eq_false hrec)⟩).trans ((writeEntry_row hr).trans (ite_of_iff Iff.rfl (congrArg (Option.getD · _) ?_) rfl))
      exact (if_neg hrec).trans (if_pos hacc)
    · rw [h]
    · rw [hr]
      exact if_neg h
    · rw [hr]
      refine (if_pos htype).trans ((writeEntry_row hr).trans (ite_of_iff Iff.rfl (congrArg (Option.getD · _) ?_) rfl))
      exact if_pos ⟨htype, hsub⟩
  · intro dt id s u
    refine ⟨serve_waits (execWriteReq dt id s) rfl, fun x pt t hx hin hop => ?_⟩
    have taken := fun w => serve_runs (u := w) (execWriteReq dt id s) rfl hx hin hop
    intro y v rid b n ok
    have hok : (n < 1 ∨ n > 32 ∨ (!zeroAt b 1 3) = true) ↔ ¬ ok = true := by
      simp only [ok, Bool.and_eq_true, decide_eq_true_eq, Classical.not_and_iff_not_or_not, or_assoc, bnot_iff, Nat.not_le, gt_iff_lt]
    refine ⟨fun h => taken _ ?_, fun es hyes hes => ?_⟩
    · by_cases hyes : ok = true
      · refine (if_neg fun hc => hok.mp hc hyes).trans ?_
        have hnone := h.resolve_left fun hc => not_true hc hyes
        split <;> rename_i h' <;> cases hnone.symm.trans h'
        rfl
      · exact if_pos (hok.mpr hyes)
    · intro r pt2
      refine taken _ ((if_neg fun hc => hok.mp hc hyes).trans ?_)
      split <;> rename_i h' <;> cases hes.symm.trans h'
      rfl

end Sys2Proof.Proofs
end

section
namespace Sys2Proof.Proofs
open Sys2Proof.Machine

/-- Settles O35: each request is served in its turn, and each check is one branch. -/
theorem sessionRequests : Obligations.SessionRequests := by
  intro dt id s u
  refine ⟨serve_waits (execReadReq dt id s) rfl, serve_waits (execBulkRead dt id s) rfl, serve_waits (execSubscribe dt id s) rfl,
    serve_waits (execUnsubscribe dt id s) rfl, serve_waits (execEventAck dt id s) rfl, fun x pt t hx hin => ?_, fun sub hnone => ?_,
    fun sub x y hx hy => ?_⟩
  · intro y v rid b
    refine ⟨fun hop => ?_, fun hop => ?_, fun hop => ?_, fun hop => ?_, fun hop => ?_⟩
    · have taken := fun w => serve_runs (u := w) (execReadReq dt id s) rfl hx hin hop
      exact ⟨fun hbad => taken _ (if_pos (bnot_of hbad)), fun hok => taken _ (if_neg (not_bnot hok))⟩
    · have taken := fun w => serve_runs (u := w) (execBulkRead dt id s) rfl hx hin hop
      intro ix off n ok answer
      have hok : (b.length ≠ 24 ∨ (!zeroAt b 4 4) = true ∨ (!zeroAt b 20 4) = true) ↔ ¬ ok = true := by
        simp only [ok, Bool.and_eq_true, beq_iff_eq, Classical.not_and_iff_not_or_not, or_assoc, bnot_iff]
      refine ⟨fun hbad => taken _ (if_pos (hok.mpr (not_true hbad))), fun code hyes hread => taken _ ((if_neg fun hc => hok.mp hc hyes).trans ?_),
        fun code r hyes hread => ⟨fun hpast => taken _ ((if_neg fun hc => hok.mp hc hyes).trans ?_),
          fun hin' hmany => taken _ ((if_neg fun hc => hok.mp hc hyes).trans ?_),
          fun hin' hfew => taken _ ((if_neg fun hc => hok.mp hc hyes).trans ?_)⟩⟩
      all_goals split <;> rename_i h <;> cases hread.symm.trans h
      · rfl
      · exact if_pos hpast
      · exact (if_neg (Nat.not_le.mpr hin')).trans (if_pos hmany)
      · exact (if_neg (Nat.not_le.mpr hin')).trans (if_neg (Nat.not_lt.mpr hfew))
    · have taken := fun w => serve_runs (u := w) (execSubscribe dt id s) rfl hx hin hop
      intro free room
      refine ⟨fun hbad => taken _ (if_pos (bnot_of hbad)), fun hok h => taken _ ((if_neg (not_bnot hok)).trans ?_),
        fun n hok hfree hroom => taken _ ((if_neg (not_bnot hok)).trans ?_)⟩
      · split
        · rfl
        · rename_i n hn
          refine if_pos (Nat.not_lt.mp (of_decide_eq_false (h.resolve_left fun hnone => ?_)))
          cases hnone.symm.trans hn
      · split <;> rename_i h <;> cases hfree.symm.trans h
        exact if_neg (Nat.not_le.mpr (of_decide_eq_true hroom))
    · have taken := fun w => serve_runs (u := w) (execUnsubscribe dt id s) rfl hx hin hop
      exact ⟨fun hbad => taken _ (if_pos hbad), fun hok hno => taken _ ((if_neg hok).trans (if_neg (not_true hno))),
        fun hok hyes => taken _ ((if_neg hok).trans (if_pos hyes))⟩
    · have taken := fun w => serve_runs (u := w) (execEventAck dt id s) rfl hx hin hop
      exact ⟨fun hshort => taken _ (if_pos hshort), fun hlong => taken _ (if_neg (Nat.not_lt.mpr hlong))⟩
  · change execEventResend dt id sub s = _
    refine next_of ?_
    split
    · rfl
    · rename_i x hx
      split <;> rename_i h <;> cases (hnone x hx).symm.trans h
      rfl
  · change execEventResend dt id sub s = _
    refine next_of ?_
    split <;> rename_i h <;> cases hx.symm.trans h
    split <;> rename_i h <;> cases hy.symm.trans h
    rfl

end Sys2Proof.Proofs
end

section
namespace Sys2Proof.Proofs
open Sys2Proof.Machine

/-- What RETIRE, EXPEL and FORCED_HANDOVER do once `quorumStart` accepted them, from the state `t` that it left. -/
def retireStarted (u t : State) : State :=
  let v := { (t.odSet oDeviceStateRetired 1).setDev 6 with storeDirty := true }
  if u.dev = 1 then v.quorumDone else v.withdrawAll 1

def expelStarted (p : Nat) (t : State) : State :=
  let v := if t.odGet oCascadePanelRole = 2 then t.takeOver else t
  let w := { v with cas.expelling := v.cas.expelling ++ [p] }
  (w.cas.remote.filter (fun l => l.2.panels.contains p)).foldl (fun s l => s.couchOff p l) w

def handoverStarted (q : QCmd) (t : State) : State :=
  let p := (t.panelOf q.subject).getD 0xFF
  let ids := sortBy id (((t.lanes.filter (fun l => !l.2.ended)).map (fun l => l.2.sub.stream)).eraseDups)
  (if q.stream = 0 then ids else [q.stream]).foldl (fun (s : State) i => (s.couchAdd i p q.subject true).1) t

/-- What a start of a quorum command leaves: of a refused one the state alone, of an accepted one the effect of its beginning. -/
theorem refused_start {p : State × Bool} {t x : State} (h : p = (t, false)) : t = if p.2 = true then x else p.1 := by
  rw [h]
  rfl

theorem accepted_start {p : State × Bool} {t : State} (f : State → State) (h : p = (t, true)) : f t = if p.2 = true then f p.1 else p.1 := by
  rw [h]
  rfl

/-- Settles O37: the store, and each quorum command in its turn. -/
theorem storeAndQuorumTurns : Obligations.StoreAndQuorumTurns := by
  intro dt s u
  refine ⟨rfl, fun hclean => next_of (if_pos (bnot_of hclean)), fun hdirty => next_of (if_neg (not_bnot hdirty)), fun h => next_of ?_,
    fun h => next_of ?_, fun h => next_of ?_, fun q hq hcmd => ?_, fun q hq hcmd => ?_, fun q hq hcmd => ?_⟩
  iterate 3
    · split
      · rfl
      · rename_i q hq
        exact if_pos (h q hq)
  · refine ⟨fun hphase hfaults => next_of ?_, fun hphase hfaults => ?_, fun hphase hend => next_of ?_, fun hphase hacked hearly => next_of ?_⟩
    · split <;> rename_i h <;> cases hq.symm.trans h
      exact (if_neg (not_not_intro hcmd)).trans ((if_pos hphase).trans (if_pos hfaults))
    · intro r v
      refine next_of ?_
      split <;> rename_i h <;> cases hq.symm.trans h
      refine (if_neg (not_not_intro hcmd)).trans ((if_pos hphase).trans ((if_neg (not_not_intro hfaults)).trans ?_))
      split
      case h_1 h => exact refused_start h
      case h_2 h => exact accepted_start (retireStarted u) h
    · split <;> rename_i h <;> cases hq.symm.trans h
      exact (if_neg (not_not_intro hcmd)).trans ((if_neg hphase).trans (if_pos hend))
    · split <;> rename_i h <;> cases hq.symm.trans h
      exact (if_neg (not_not_intro hcmd)).trans ((if_neg hphase).trans (if_neg (not_or_intro (not_true hacked) (Nat.not_le.mpr hearly))))
  · intro p may held
    refine ⟨fun hphase => ?_, fun hphase hend => next_of ?_, fun hphase hearly hheld => next_of ?_⟩
    · intro r v w
      refine next_of ?_
      split <;> rename_i h <;> cases hq.symm.trans h
      refine (if_neg (not_not_intro hcmd)).trans ((if_pos hphase).trans ?_)
      dsimp only
      split
      case h_1 h => exact refused_start h
      case h_2 h => exact accepted_start (expelStarted p) h
    · split <;> rename_i h <;> cases hq.symm.trans h
      exact (if_neg (not_not_intro hcmd)).trans ((if_neg hphase).trans (if_pos (hend.imp id bnot_of)))
    · split <;> rename_i h <;> cases hq.symm.trans h
      exact (if_neg (not_not_intro hcmd)).trans ((if_neg hphase).trans (if_neg (not_or_intro (Nat.not_le.mpr hearly) (not_bnot hheld))))
  · intro left
    refine ⟨fun hphase => ?_, fun hphase hleft => next_of ?_, fun hphase hdone => next_of ?_⟩
    · intro r p ids
      refine next_of ?_
      split <;> rename_i h <;> cases hq.symm.trans h
      refine (if_neg (not_not_intro hcmd)).trans ((if_pos hphase).trans ?_)
      split
      case h_1 h => exact refused_start h
      case h_2 h => exact accepted_start (handoverStarted q) h
    · split <;> rename_i h <;> cases hq.symm.trans h
      exact (if_neg (not_not_intro hcmd)).trans ((if_neg hphase).trans (if_pos hleft))
    · split <;> rename_i h <;> cases hq.symm.trans h
      exact (if_neg (not_not_intro hcmd)).trans ((if_neg hphase).trans (if_neg (not_true hdone)))

end Sys2Proof.Proofs
end

section
namespace Sys2Proof.Proofs
open Sys2Proof.Machine

/-- The range of a set point (R344), read by the domain. -/
theorem setpointOk_of_domain (domain : Fin 2) (mv : Nat) : setpointOk domain.val mv =
    if domain = 0 then decide (550 ≤ mv) && decide (mv ≤ 850) else decide (700 ≤ mv) && decide (mv ≤ 800) := by
  rw [← Bool.decide_and, ← Bool.decide_and]
  exact ite_of_iff Fin.val_eq_zero_iff rfl rfl

/-- Settles O38: rails in order, the latch, the loss and the ramps. -/
theorem sectorSupply : Obligations.SectorSupply := by
  intro dt sec s i u x due lost
  have hdue : (u.odGet oDeviceStateState ≠ 2 ∨ u.odGet oBootProgressStep ≠ 4 ∨ u.sectorSettled i ∨ !u.sectorTurn i) ↔ ¬ due = true := by
    simp only [due, Bool.and_eq_true, beq_iff_eq, bnot_iff, Classical.not_and_iff_not_or_not, Classical.not_not, or_assoc, ne_eq]
  have hlost : (u.odGet (oPowerSectorLatched i) ≠ 1 ∨ u.sectorOut i ∨ u.faults.any (fun f => f.kind == 3 && f.ident == i)) ↔ ¬ lost = true := by
    simp only [lost, Bool.and_eq_true, beq_iff_eq, bnot_iff, Classical.not_and_iff_not_or_not, Classical.not_not, or_assoc, ne_eq]
    rfl
  refine ⟨fun phases h => next_of (if_pos (hdue.mpr (not_true h))), fun phases h => ?_, fun h => next_of (if_pos (hdue.mpr (not_true h))),
    fun h => next_of (if_neg fun hc => hdue.mp hc h), fun h => next_of (if_pos h), fun h => next_of (if_neg h),
    fun h => next_of (if_pos (hlost.mpr (not_true h))), fun h => next_of (if_neg fun hc => hlost.mp hc h), fun domain mv => ?_⟩
  · intro n v
    refine next_of ((if_neg fun hc => hdue.mp hc h).trans ?_)
    by_cases hn : n = 1
    · exact (if_neg fun h4 => absurd (hn.symm.trans h4) (by decide)).trans ((if_pos hn).trans (if_pos hn).symm)
    · exact (ite_of_iff Iff.rfl (congrArg (State.idleSector · i) (if_neg hn)) (if_neg hn)).trans (if_neg hn).symm
  · intro o range
    refine ⟨fun h => ?_, fun h => ?_, fun h => next_of ?_, fun target old t h => next_of ?_⟩
    · exact next_taken (if_pos ((setpointOk_of_domain domain mv).trans h))
    · exact next_left (if_neg (not_true ((setpointOk_of_domain domain mv).trans h)))
    · split <;> rename_i h2 <;> cases h.symm.trans h2
      rfl
    · split <;> rename_i h2 <;> cases h.symm.trans h2
      rfl

end Sys2Proof.Proofs
end

section
namespace Sys2Proof.Proofs
open Sys2Proof.Machine

theorem decide_and_iff (p : Prop) [Decidable p] (b : Bool) : (decide p && b) = true ↔ p ∧ b = true :=
  (Bool.and_eq_true _ _).to_iff.trans (and_congr_left' decide_eq_true_iff)

theorem match_eq_all (o : Option Nat) (p : Nat → Bool) : (match o with | some v => p v | none => true) = o.all p := by
  cases o <;> rfl

theorem some_getD_eq (o : Option Nat) (now : Nat) : some (o.getD now) = match o with | some t => some t | none => some now := by
  cases o <;> rfl

/-- What a current sample makes of the sector's record (R350): `since` is when the samples began to stay below 95 % of the cap. -/
def sampledPwr (u : State) (i amps projected : Nat) (since : Option Nat) : SectorPwr :=
  let x := u.sector i
  let x1 := { x with
    amps := lastN 10 (x.amps ++ [amps]), inrush := x.inrush.filter (fun p => decide (u.clk < p.1)), woken := 0, capOkFrom := since }
  let due : Bool := match since with | some t => decide (t + 10 ^ 5 ≤ u.clk) | none => false
  if projected > u.odGet (oPowerSectorCapA i) then { x1 with capLevel := (u.limiters i).foldl min 63 - 1, capOkFrom := none }
  else if due ∧ x1.capLevel < 63 then { x1 with capLevel := x1.capLevel + 1, capOkFrom := some u.clk } else x1

/-- What it makes of the panel, with the sector's record `y`. -/
def sampledPanel (u : State) (i amps watts : Nat) (y : SectorPwr) : State :=
  let x := u.sector i
  let cap := u.odGet (oPowerSectorCapA i)
  let s1 := ((u.setSector i y).odSet (oPowerSectorCurrentA i) (meanN (lastN 10 (x.amps ++ [amps])))).odSet (oPowerSectorPowerW i) watts
  let was := x.amps.getLast?.getD 0
  let s2 := if amps * 10 > cap * 9 ∧ was * 10 ≤ cap * 9 then s1.ring (stewardNode i) 2 else s1
  s2.setLevel i

section
variable {u : State} {i amps projected t : Nat} {since : Option Nat}

theorem sampledPwr_back (hcap : ¬ projected > u.odGet (oPowerSectorCapA i)) (hsince : since = some t) (ht : t + 10 ^ 5 ≤ u.clk)
    (hlevel : (u.sector i).capLevel < 63) : sampledPwr u i amps projected since = { u.sector i with
      amps := lastN 10 ((u.sector i).amps ++ [amps]), inrush := (u.sector i).inrush.filter (fun p => decide (u.clk < p.1)), woken := 0,
      capOkFrom := some u.clk, capLevel := (u.sector i).capLevel + 1 } := by
  rw [hsince]
  exact (if_neg hcap).trans (if_pos ⟨decide_eq_true ht, hlevel⟩)

theorem sampledPwr_stay (hcap : ¬ projected > u.odGet (oPowerSectorCapA i))
    (h : (∀ t, since = some t → u.clk < t + 10 ^ 5) ∨ 63 ≤ (u.sector i).capLevel) : sampledPwr u i amps projected since = { u.sector i with
      amps := lastN 10 ((u.sector i).amps ++ [amps]), inrush := (u.sector i).inrush.filter (fun p => decide (u.clk < p.1)), woken := 0,
      capOkFrom := since } := by
  refine (if_neg hcap).trans (if_neg fun ⟨hdue, hlevel⟩ => ?_)
  obtain h | h := h
  · cases since with
    | none => exact Bool.false_ne_true hdue
    | some t => exact Nat.not_le.mpr (h t rfl) (of_decide_eq_true hdue)
  · exact Nat.not_lt.mpr h hlevel

end

theorem sectorCurrentSample_good {dt amps watts projected : Nat} {sec : Fin 16} {s : State} (hgood : (s.tick dt).stewardGood sec.val = true) :
    exec (.sectorCurrentSample dt sec amps watts projected) s = .next (sampledPanel (s.tick dt) sec.val amps watts
      (sampledPwr (s.tick dt) sec.val amps projected (if amps * 100 < (s.tick dt).odGet (oPowerSectorCapA sec.val) * 95 then
        some (((s.tick dt).sector sec.val).capOkFrom.getD (s.tick dt).clk) else none))) := by
  rw [some_getD_eq]
  refine next_of ((if_pos hgood).trans ?_)
  unfold sampledPanel sampledPwr
  rfl

theorem paceShortfall_eq {dt f t : Nat} {sec : Fin 16} {s : State} (hf : (s.tick dt).fixedLevel = some f) (ht : ((s.tick dt).sector sec.val).belowFrom = some t) :
    let i := sec.val
    let u := s.tick dt
    let x := s.sector i
    let due : Bool := decide (t + 10 ^ 6 < u.clk) && x.shortfallAt.all (fun v => decide (v + 10 ^ 9 ≤ u.clk))
    exec (.paceShortfall dt sec) s = .next (if due = true then
        (u.setSector i { x with shortfallAt := some (s.clk + dt) }).publish24 oPowerPanelPaceShortfall
          [i, u.sectorPace i (u.odGet (oPowerSectorLevel i)), f, u.odGet (oPowerSectorLimiter i)] else u) := by
  intro i u x due
  refine next_of ?_
  split
  case h_2 hno => exact (hno f t hf ht).elim
  case h_1 f' t' hf' ht' =>
    cases hf.symm.trans hf'
    cases ht.symm.trans ht'
    refine ite_of_iff (Iff.trans (and_congr Iff.rfl ?_) (decide_and_iff _ _).symm) rfl rfl
    exact Iff.of_eq (congrArg (· = true) (match_eq_all ((s.tick dt).sector sec).shortfallAt (fun v => decide (v + 10 ^ 9 ≤ (s.tick dt).clk))))

/-- Settles O39: the level with a good steward, the droops, the shortfall and the current. -/
theorem sectorPace : Obligations.SectorPace := by
  intro dt sec s i u x
  refine ⟨fun h => next_of (if_pos h), fun h => next_of (if_neg (not_bnot h)), fun h => ⟨next_of (if_neg (not_true h)), next_of (if_pos (bnot_of h)),
    fun amps watts projected => next_of (if_neg (not_true h))⟩, fun h => next_of ?_, fun f t hf ht => ?_, fun amps watts projected hgood => ?_,
    fun h => next_of ?_, fun t h => next_of ?_⟩
  · split
    case h_1 f t hf ht => exact h.elim (fun hn => nomatch hn.symm.trans hf) fun hn => nomatch hn.symm.trans ht
    case h_2 => rfl
  · intro due
    have hexec := paceShortfall_eq (dt := dt) hf ht
    exact ⟨fun h => hexec.trans (next_of (if_pos h)), fun h => hexec.trans (next_of (if_neg (not_true h)))⟩
  · intro cap since l y after
    have hexec := sectorCurrentSample_good (amps := amps) (watts := watts) (projected := projected) hgood
    refine ⟨fun h => hexec.trans (next_of ?_), fun t hproj hsince ht hlevel => hexec.trans (next_of ?_), fun hproj h => hexec.trans (next_of ?_)⟩
    · exact congrArg after (if_pos h)
    · exact congrArg after (sampledPwr_back (Nat.not_lt.mpr hproj) hsince ht hlevel)
    · exact congrArg after (sampledPwr_stay (Nat.not_lt.mpr hproj) h)
  · split <;> rename_i h2 <;> cases h.symm.trans h2
    rfl
  · split <;> rename_i h2 <;> cases h.symm.trans h2
    rfl

end Sys2Proof.Proofs
end

section
namespace Sys2Proof.Proofs
open Sys2Proof.Machine

/-- A brick's loss is known in three states (R345). -/
theorem brickLoss_state (st : Nat) : [0, 2, 3].contains st = (st == 0 || st == 2 || st == 3) := by
  simp only [List.contains_cons, List.contains_nil, Bool.or_false, Bool.or_assoc]

/-- Settles O40: the cap of the panel's power, the bricks and the loss of the input. -/
theorem panelPower : Obligations.PanelPower := by
  intro dt s u
  refine ⟨fun mv watts projected outputs => ?_, fun brick st => ?_, fun brick serial => ?_, fun h => ⟨next_of (if_pos h), next_of (if_pos h)⟩,
    fun h => ⟨next_of (if_neg (not_true h)), next_of (if_neg (not_true h))⟩⟩
  · intro w n mean cap c trips low
    have htrips : (w.watts.length ≥ 10 ∧ mean > w.odGet oPowerPanelHardLimitW ∧ !w.tripped) ↔ trips = true ∧ w.tripped = false := by
      simp only [trips, Bool.and_eq_true, decide_eq_true_eq, Bool.not_eq_true', ge_iff_le, gt_iff_lt, and_assoc]
    have hlow : (c < 63 ∧ w.watts.length ≥ n ∧ w.ceilingAt + 1000 * w.odGet oPowerPanelWindowUs ≤ w.clk ∧
        meanN (lastN n w.watts) * 100 < cap * 93) ↔ low = true := by
      simp only [low, Bool.and_eq_true, decide_eq_true_eq, ge_iff_le, and_assoc]
    refine ⟨fun h hfree => next_of (if_pos (htrips.mpr ⟨h, hfree⟩)), fun h => next_of ?_, fun hfree h hover => next_of ?_, fun hfree h hunder => next_of ?_⟩
    · exact (if_neg fun hc => not_true (htrips.mp hc).2 h).trans (if_pos h)
    · exact (if_neg fun hc => not_true h (htrips.mp hc).1).trans ((if_neg (not_true hfree)).trans (if_pos hover))
    · exact (if_neg fun hc => not_true h (htrips.mp hc).1).trans ((if_neg (not_true hfree)).trans
        ((if_neg (Nat.not_lt.mpr hunder)).trans (ite_of_iff hlow rfl rfl)))
  · intro b known
    have hknown : (u.odGet (oPowerBrickState b) ≠ 1 ∨ !([0, 2, 3].contains st)) ↔ ¬ known = true := by
      simp only [known, brickLoss_state, Bool.and_eq_true, beq_iff_eq, bnot_iff, Classical.not_and_iff_not_or_not, ne_eq]
    exact ⟨fun h => next_of (if_pos (hknown.mpr (not_true h))), fun h => next_of (if_neg fun hc => hknown.mp hc h)⟩
  · intro b
    exact ⟨fun h => next_of (if_pos h), fun h => next_of (if_neg h)⟩

end Sys2Proof.Proofs
end

section
namespace Sys2Proof.Proofs
open Sys2Proof.Machine

/-- Settles O41: deep idle, the wakes' order, their steps and the end of their trim. -/
theorem idleAndWake : Obligations.IdleAndWake := by
  intro dt s u
  refine ⟨fun k h => ?_, fun k htile => ?_, fun sec => ?_⟩
  · have away : ∀ t : State, onTile k u t = .next u := fun t => congrArg Host.Outcome.next (if_neg (not_true h))
    exact ⟨away _, away _, fun r => away _⟩
  · intro t i x due wakes w
    have hdue : (t.quiet = true ∧ (!t.idle) = true ∧ t.idleSince + 1000 * u.odGet oPowerPanelIdleEntryUs ≤ u.clk) ↔ due = true := by
      simp only [due, Bool.and_eq_true, decide_eq_true_eq, and_assoc]
      rfl
    have hwakes : ((!t.idle) = true ∨ s.boot.fused.contains (k / 64) = true ∨ (!u.stewardGood i) = true ∨
        x.wakes.any (fun v => v.tiles.contains k) = true) ↔ ¬ wakes = true := by
      simp only [wakes, Bool.and_eq_true, bnot_iff, Classical.not_and_iff_not_or_not, Classical.not_not, or_assoc]
    refine ⟨onTile_of htile (ite_of_iff hdue rfl rfl), fun h => onTile_of htile (if_pos (bnot_of h)), fun h => onTile_of htile (if_neg (not_bnot h)),
      fun h r => onTile_of htile (if_pos (hwakes.mpr (not_true h))), fun h => ?_⟩
    intro ws later q
    have hno : ¬ ((!t.idle) = true ∨ s.boot.fused.contains (k / 64) = true ∨ (!u.stewardGood i) = true ∨
        x.wakes.any (fun v => v.tiles.contains k) = true) := fun hc => hwakes.mp hc h
    refine ⟨onTile_of htile ((if_neg hno).trans ?_), ?_⟩
    · rfl
    · change execWakeRequest dt k true s = _
      unfold execWakeRequest
      dsimp only
      rw [List.partition_eq_filter_filter]
      exact onTile_of htile (if_neg hno)
  · intro i x
    refine ⟨fun h => next_of ?_, fun w t c hx hc => ?_, fun h => next_of ?_, fun t h => ?_⟩
    · split
      case h_1 => rfl
      case h_2 w t hx =>
        split
        case h_1 => rfl
        case h_2 c hc => exact nomatch hc.symm.trans (h w (congrArg List.head? hx))
    · intro ks v
      have hstep : exec (.wakeStep dt sec) s = .next (if s.clk + dt < w.lastAt + 2000 ∨ u.headroom i < 50 * ks.length then u
          else if c < 7 then v.setSector i { v.sector i with wakes := { w with column := some (c + 1), lastAt := s.clk + dt } :: t }
          else ((v.setSector i { v.sector i with wakes := t, trimFrom := none }).setLevel i).serveWakes i t.length) := by
        refine next_of ?_
        split <;> rename_i h2 <;> cases hx.symm.trans h2
        split <;> rename_i h3 <;> cases hc.symm.trans h3
        rfl
      refine ⟨fun h => hstep.trans (next_of (if_pos h)),
        fun hlast hroom => hstep.trans (next_of (if_neg (not_or_intro (Nat.not_lt.mpr hlast) (Nat.not_lt.mpr hroom))))⟩
    · split <;> rename_i h2 <;> cases h.symm.trans h2
      rfl
    · intro v
      refine ⟨fun hearly => next_of ?_, fun hend => next_of ?_⟩
      · split <;> rename_i h2 <;> cases h.symm.trans h2
        exact if_neg (Nat.not_le.mpr hearly)
      · split <;> rename_i h2 <;> cases h.symm.trans h2
        exact if_pos hend

end Sys2Proof.Proofs
end

section
namespace Sys2Proof.Proofs
open Sys2Proof.Machine

theorem match_eq_any (o : Option Nat) (p : Nat → Bool) : (match o with | some v => p v | none => false) = o.any p := by
  cases o <;> rfl

/-- What a sample of a hotspot makes of the panel (R356), of the two judgements `p` and `q`, whether the sensors are `apart`, since when, and
whether that raises a dispute. -/
def spotSampled (u : State) (g spot : Nat) (a b est : Int) (p q : Bool × Option Nat) (apart : Bool) (since : Option Nat) (raise : Bool) : State :=
  let h := u.spot (g * 4 + spot)
  let h1 : HotSpot := { a := a, b := b, est := est, suspA := p.1, suspB := q.1, disp := apart && (h.disp || raise), dispFrom := since, timerA := p.2, timerB := q.2 }
  let v := (({ u with spots := mset {} u.spots (g * 4 + spot) h1 } : State).markEvent g spot 0 h.suspA p.1 (p.1 && q.1) h1).markEvent g spot 1 h.suspB q.1 (p.1 && q.1) h1
  if raise then (v.bump oThermalPanelDisputes).spotEvent g spot 1 0 h1 else v

theorem hotspotSample_eq {dt : Nat} {s : State} {site : Fin 256} (spot : Fin 4) (a b est : Int) (hdie : isCompute site.val = true) :
    let u := s.tick dt
    let h := u.spot (site.val * 4 + spot.val)
    let p := judgeSensor h.suspA h.timerA (a - est).natAbs u.clk
    let q := judgeSensor h.suspB h.timerB (b - est).natAbs u.clk
    let apart : Bool := !p.1 && !q.1 && decide (4000 < (a - b).natAbs)
    let since : Option Nat := if apart then some (h.dispFrom.getD u.clk) else none
    exec (.hotspotSample dt site spot a b est) s = .next (spotSampled u site.val spot.val a b est p q apart since
      (since.any fun t => decide (t + 10 ^ 8 ≤ u.clk) && !h.disp)) := by
  intro u h p q apart since
  have hsince : (if apart = true then (match h.dispFrom with | some t => some t | none => some u.clk) else none) = since :=
    ite_of_iff Iff.rfl (some_getD_eq h.dispFrom u.clk).symm rfl
  have hraise := (match_eq_any _ (fun t => decide (t + 10 ^ 8 ≤ u.clk) && !h.disp)).trans (congrArg _ hsince)
  change execHotspotSample dt site spot a b est s = _
  unfold execHotspotSample
  dsimp only
  rw [show judgeSensor ((s.tick dt).spot (site.val * 4 + spot.val)).suspA ((s.tick dt).spot (site.val * 4 + spot.val)).timerA
      (a - est).natAbs (s.tick dt).clk = p from rfl,
    show judgeSensor ((s.tick dt).spot (site.val * 4 + spot.val)).suspB ((s.tick dt).spot (site.val * 4 + spot.val)).timerB
      (b - est).natAbs (s.tick dt).clk = q from rfl]
  exact onDie_of hdie (congr (congrArg (spotSampled u site.val spot.val a b est p q apart) hsince) hraise)

/-- Settles O42: the hotspots, the throttling, the lost die's test, the resistance and the coolant. -/
theorem temperaturesAndCooling : Obligations.TemperaturesAndCooling := by
  intro dt s u
  refine ⟨fun site h => ?_, fun site spot a b est hdie => hotspotSample_eq spot a b est hdie, fun site hdie => ?_, fun site bad ok hdie => ?_,
    fun sec => ?_, fun inlet outlet flow => ?_⟩
  · have away : ∀ t : State, onDie site.val u t = .next u := fun t => congrArg Host.Outcome.next (if_neg (not_true h))
    exact ⟨fun spot a b est => away _, away _, fun bad ok => away _⟩
  · intro g t d old cur ceil lvl cool
    have hcool : cool = _ := ite_of_iff Iff.rfl (some_getD_eq d.coolFrom (s.clk + dt)) rfl
    clear_value cool
    subst hcool
    exact onDie_of hdie rfl
  · intro g due defects
    have hdue : (u.floorNow (oFloorSiteState g) = 4 ∧ u.floorNow (oFloorSiteCause g) = 7 ∧
        (mget {} s.dieTherm g).coolFrom.any (fun t => decide (t + 60 * 10 ^ 9 ≤ s.clk + dt)) = true ∧ ok = true ∧
        (!s.faults.any (fun f => f.kind == 2 && f.ident == g)) = true) ↔ due = true := by
      simp only [due, Bool.and_eq_true, beq_iff_eq, and_assoc]
      exact ⟨fun ⟨h1, h2, h3, h4, h5⟩ => ⟨h1, h2, h4, h3, h5⟩, fun ⟨h1, h2, h4, h3, h5⟩ => ⟨h1, h2, h3, h4, h5⟩⟩
    have hexec : exec (.criticalDieRetest dt site bad ok) s = .next (if u.floorNow (oFloorSiteState g) = 4 ∧ u.floorNow (oFloorSiteCause g) = 7 ∧
        (mget {} s.dieTherm g).coolFrom.any (fun t => decide (t + 60 * 10 ^ 9 ≤ s.clk + dt)) = true ∧ ok = true ∧
        (!s.faults.any (fun f => f.kind == 2 && f.ident == g)) = true then { u with rejoin := mins s.rejoin g ((bad ||| defects) % 2 ^ 64) } else u) := by
      rw [← match_eq_any]
      exact onDie_of hdie rfl
    exact ⟨fun h => hexec.trans (next_of (if_neg fun hc => not_true h (hdue.mp hc))), fun h => hexec.trans (next_of (if_pos (hdue.mpr h)))⟩
  · intro i dies sum w due
    have hdue : ((!u.stewardGood i) = true ∨ dies = [] ∨ w = 0 ∨ u.odGet (oPowerSectorCurrentA i) * 100 < u.odGet (oPowerSectorCapA i) * 40) ↔
        ¬ due = true := by
      simp only [due, Bool.and_eq_true, bne_iff_ne, decide_eq_true_eq, Classical.not_and_iff_not_or_not, or_assoc, bnot_iff, Classical.not_not, ne_eq, Nat.not_le]
    refine ⟨fun h => next_of (if_pos (hdue.mpr (not_true h))), fun h => next_of ((if_neg fun hc => hdue.mp hc h).trans ?_)⟩
    have hdies : dies ≠ [] := fun hnil => hdue.mp (.inr (.inl hnil)) h
    have hlen : max dies.length 1 = dies.length := Nat.max_eq_left (List.length_pos_iff.mpr hdies)
    exact congrArg (fun n : Nat => u.resistance i ((sum / (n : Int) - toSigned 32 (u.odGet oThermalPlateInletMc)) / (w : Int)).toNat) hlen
  · intro v
    refine ⟨fun h => next_of (if_pos h), fun h hnone => next_of ((if_neg h).trans ?_), fun t h ht hearly => next_of ((if_neg h).trans ?_),
      fun t cause sec ratio hc hwarn ht hlate => next_of ((if_neg ?_).trans ?_), fun t hc hwarn ht hlate => next_of ((if_neg ?_).trans ?_)⟩
    · split <;> rename_i h2 <;> cases hnone.symm.trans h2
      rfl
    · split <;> rename_i h2 <;> cases ht.symm.trans h2
      exact if_pos hearly
    · rw [hc]
      exact fun h => nomatch h.trans hwarn
    · split <;> rename_i h2 <;> cases ht.symm.trans h2
      refine (if_neg (Nat.not_lt.mpr hlate)).trans ?_
      dsimp only
      rw [hc]
      rfl
    · rw [hc]
      exact fun h => nomatch h.trans hwarn
    · split <;> rename_i h2 <;> cases ht.symm.trans h2
      refine (if_neg (Nat.not_lt.mpr hlate)).trans ?_
      dsimp only
      rw [hc]
      rfl

end Sys2Proof.Proofs
end

section
namespace Sys2Proof.Proofs
open Sys2Proof.Machine

/-- What the days left of a module bring (R375): the warnings that are due, of the panel that holds them. -/
def lifeWarned (p mean eol : Nat) (v3 : State) : State :=
  let d := v3.odGet (oAgeingModuleDaysLeft p)
  let v4 := if d < v3.odGet oAgeingModuleWarnDays then v3.replaceEvent p 1 d mean else v3
  let v5 := if d < v4.odGet oAgeingModuleUrgentDays then v4.replaceEvent p 2 d mean else v4
  if eol ≤ mean then v5.replaceEvent p 3 d mean else v5

/-- The two ways to say which days left and which date are recorded. -/
theorem daysLeft_recorded (t : State) (a b now : Nat) (left : Option Nat) :
    (match left with
      | none => (t.odSet a 0xFFFF).odSet b 0
      | some n => (t.odSet a (min n 0xFFFE)).odSet b (now + n * 86400 * 10 ^ 9)) =
    (t.odSet a (match left with | none => 0xFFFF | some n => min n 0xFFFE)).odSet b
      (match left with | none => 0 | some n => now + n * 86400 * 10 ^ 9) := by
  cases left <;> rfl

/-- Settles O43: the readings of age and the margin re-plan in steps. -/
theorem ageingChecks : Obligations.AgeingChecks := by
  intro dt s u runs
  have hruns : (u.faults ≠ [] ∨ !(u.dev == 3 || u.dev == 4 || u.dev == 5)) ↔ ¬ runs = true := by
    simp only [runs, Bool.and_eq_true, beq_iff_eq, bnot_iff, Classical.not_and_iff_not_or_not, ne_eq]
    rfl
  refine ⟨fun site margins slowing => rfl, fun link lanes h => ?_, fun link lanes hlink hlanes => ?_, fun site => ?_, ⟨fun h => next_of ?_, fun hr hm => next_of ?_,
    fun m hr hm => ?_⟩, fun h => ?_, fun h => ?_, fun port => ?_⟩
  · obtain hno | hlanes := h
    · exact next_of (if_neg (not_true hno))
    · exact next_of (ite_eq_right_iff.mpr fun _ => if_pos hlanes)
  · exact onLink_of hlink (if_neg hlanes)
  · intro i r n h v
    refine ⟨fun hno => ?_, fun hsite hdue => onStack_of hsite (if_neg (Nat.not_lt.mpr hdue))⟩
    obtain hno | hearly := hno
    · exact onStack_keep fun hs => absurd hs (not_true hno)
    · exact onStack_keep fun _ => if_pos hearly
  · exact if_pos (hruns.mpr (not_true h))
  · refine (if_neg fun hc => hruns.mp hc hr).trans ?_
    split <;> rename_i h2 <;> cases hm.symm.trans h2
    rfl
  · intro dies r q now v w
    refine ⟨fun hdies => next_of ((if_neg fun hc => hruns.mp hc hr).trans ?_), fun hdies => next_of ((if_neg fun hc => hruns.mp hc hr).trans ?_)⟩
    · split <;> rename_i h2 <;> cases hm.symm.trans h2
      refine (if_pos hdies).trans ?_
      cases hheld : r.1
      · split <;> rename_i h <;> cases (show r = (false, r.2) from Prod.ext hheld rfl).symm.trans h
        rfl
      · split <;> rename_i h <;> cases (show r = (true, r.2) from Prod.ext hheld rfl).symm.trans h
        rfl
    · split <;> rename_i h2 <;> cases hm.symm.trans h2
      refine (if_neg hdies).trans ?_
      cases hheld : q.1
      · split <;> rename_i h <;> cases (show q = (false, q.2) from Prod.ext hheld rfl).symm.trans h
        rfl
      · split <;> rename_i h <;> cases (show q = (true, q.2) from Prod.ext hheld rfl).symm.trans h
        rfl
  · exact next_left (if_pos h)
  · exact next_taken (if_neg h)
  · intro p c e mean days
    refine ⟨fun h => next_of (if_pos h), fun he hc => ?_⟩
    intro v v1 v2 eol left v3 d v4 v5
    refine next_of ((if_neg (not_or_intro (Nat.not_le.mpr he) hc)).trans ?_)
    exact congrArg (lifeWarned p mean eol) (daysLeft_recorded _ _ _ _ left)

end Sys2Proof.Proofs
end

section
namespace Sys2Proof.Proofs
open Sys2Proof.Machine

/-- Settles O44: the heartbeats that are read, and the losses. -/
theorem heartbeatsAndLosses : Obligations.HeartbeatsAndLosses := by
  intro dt s u
  refine ⟨fun site => ?_, fun hub => ?_, fun fn => ?_, fun hub => ⟨fun h => next_of (if_pos h), fun h => next_of (if_neg (not_true h))⟩,
    fun sec => ⟨fun h => next_of (if_pos h), fun h => next_of (if_neg (not_true h))⟩, fun h => next_of (if_pos h), fun h => next_of (if_neg h)⟩
  · intro g read
    have hread : ((!u.dieUsable g) = true ∨ (!u.stewardGood (sectorOf g)) = true) ↔ ¬ (u.dieUsable g && u.stewardGood (sectorOf g)) = true := by
      simp only [Bool.and_eq_true, bnot_iff, Classical.not_and_iff_not_or_not]
    have hparts : read = true ↔ isCompute g = true ∧ (u.dieUsable g && u.stewardGood (sectorOf g)) = true := by
      simp only [read, Bool.and_eq_true, and_assoc]
    refine ⟨fun h => onDie_keep fun hdie => if_pos (hread.mpr fun hc => not_true h (hparts.mpr ⟨hdie, hc⟩)), fun h hnone => ?_, fun old n h hsome => ?_⟩
    · obtain ⟨hdie, hc⟩ := hparts.mp h
      refine onDie_of hdie ((if_neg fun hno => hread.mp hno hc).trans ?_)
      split <;> rename_i h2 <;> cases hnone.symm.trans h2
      rfl
    · obtain ⟨hdie, hc⟩ := hparts.mp h
      have hexec : exec (.dieHeartbeatRead dt site) s = .next (
          if old ≠ u.beatsOf g then ({ u with beats := mins s.beats g (u.beatsOf g, 0) }).bumpN oFaultPanelHeartbeatMisses n
          else if n + 1 < 3 then { u with beats := mins s.beats g (u.beatsOf g, n + 1) }
          else ({ u with beats := mdel s.beats g }).reportFault 2 g 0x18) := by
        refine onDie_of hdie ((if_neg fun hno => hread.mp hno hc).trans ?_)
        split <;> rename_i h2 <;> cases hsome.symm.trans h2
        rfl
      exact ⟨fun hmoved => hexec.trans (next_of (if_pos hmoved)),
        fun hstill hn => hexec.trans (next_of ((if_neg (not_not_intro hstill)).trans (if_pos (Nat.succ_lt_succ hn)))),
        fun hstill hn => hexec.trans (next_of ((if_neg (not_not_intro hstill)).trans (if_neg (Nat.not_lt.mpr (Nat.succ_le_succ hn)))))⟩
  · intro h n
    refine ⟨fun hlost rung => next_of (if_pos hlost), fun hown hother => ?_⟩
    have hgood : ¬ (u.hubLost h = true ∨ u.hubLost (1 - h) = true) := not_or_intro (not_true hown) (not_true hother)
    exact ⟨next_of (if_neg hgood), next_of ((if_neg hgood).trans ((if_neg Bool.false_ne_true).trans (ite_of_iff Nat.succ_lt_succ_iff rfl rfl)))⟩
  · intro f n v
    exact ⟨fun hfailed fresh => next_of (if_pos hfailed), fun hgood => ⟨next_of (if_neg hgood),
      next_of ((if_neg hgood).trans ((if_neg Bool.false_ne_true).trans (ite_of_iff Nat.succ_lt_succ_iff rfl rfl)))⟩⟩

end Sys2Proof.Proofs
end

section
namespace Sys2Proof.Proofs
open Sys2Proof.Machine

/-- What a class with background work due comes to (R394), of its state before and its deadline. -/
def bgEscalated (v : State) (c old deadline : Nat) : State :=
  let st := bgStateFor (v.bgWaiting c) deadline
  let w := (v.odSet (oFaultBgState c) st).bumpN (oFaultBgEscalations c) (st - max old 1)
  if old < 4 ∧ st = 4 then w.bgHealth c else w

/-- Settles O45: containment, repair, notices, stalls, the background's steps and FATAL. -/
theorem containmentAndRepair : Obligations.ContainmentAndRepair := by
  intro dt s u l n
  refine ⟨rfl, fun est cap bulk h => next_of ?_, fun est cap bulk f t hf => ?_, ⟨fun h => next_of ?_, fun x h => next_of ?_⟩, fun lane => rfl, fun cls => ?_,
    fun cls us => ?_, fun which => ?_⟩
  · split <;> rename_i h2 <;> cases h.symm.trans h2
    rfl
  · intro may
    refine next_of ?_
    split <;> rename_i h2 <;> cases hf.symm.trans h2
    rfl
  · split <;> rename_i h2 <;> cases h.symm.trans h2
    rfl
  · split <;> rename_i h2 <;> cases h.symm.trans h2
    rfl
  · intro c v old st w
    refine ⟨fun h => next_of (if_pos (bnot_of h)), fun h => next_of ((if_neg (not_bnot h)).trans ?_)⟩
    have hod : ∀ a, v.odGet a = u.odGet a := fun a => by
      dsimp only [v]
      split <;> rfl
    exact congr (congrArg (bgEscalated v c) (hod (oFaultBgState c))) (hod (oFaultBgDeadlineS c))
  · intro c l may
    have hmay : (u.odGet (oFaultBgState c) < 3 ∨ us > 200 ∨ u.clk < u.bgHoldUntil ∨ sumN (l.map (·.2)) + us > 2000) ↔ ¬ may = true := by
      simp only [may, Bool.and_eq_true, decide_eq_true_eq, Classical.not_and_iff_not_or_not, or_assoc, Nat.not_le, gt_iff_lt]
      rfl
    exact ⟨fun h => next_of (if_pos (hmay.mpr (not_true h))), fun h => next_of (if_neg fun hc => hmay.mp hc h)⟩
  · intro cause
    refine ⟨fun h => next_of (if_pos h), fun h hdev => next_of ((if_neg (not_true h)).trans (if_pos hdev)),
      fun h hdev hno => next_of ((if_neg (not_true h)).trans ((if_neg hdev).trans (if_pos hno))),
      fun h hdev hon hone => next_of ((if_neg (not_true h)).trans ((if_neg hdev).trans (if_neg (not_or_intro (Nat.not_lt.mpr hon) (not_not_intro hone)))))⟩

end Sys2Proof.Proofs
end

section
namespace Sys2Proof.Proofs
open Sys2Proof.Machine

/-- Settles O46: the seam links, what they carry, and the members' reports. -/
theorem seamLinks : Obligations.SeamLinks := by
  intro dt s u
  refine ⟨fun port serial cid digest panel peerPort minPs => ?_, fun port => ?_, fun id h => next_of ?_, fun id x h => next_of ?_, fun port msgs => ?_,
    fun panel speed late rate short => ?_⟩
  · intro q up lat n h v w
    have hup : (u.odGet (oRtPortRole q) ≠ 2 ∨ u.odGet (oRtModuleState q) ≠ 3 ∨ u.odGet oCascadePanelState = 5 ∨ u.dev < 3 ∨ 5 < u.dev) ↔ ¬ up = true := by
      simp only [up, Bool.and_eq_true, beq_iff_eq, bne_iff_ne, decide_eq_true_eq, Classical.not_and_iff_not_or_not, or_assoc, Nat.not_le, Classical.not_not, ne_eq]
    exact ⟨fun h => next_of (if_pos (hup.mpr (not_true h))), fun h hfar => next_of ((if_neg fun hc => hup.mp hc h).trans (if_pos hfar)),
      fun h hnear => next_of ((if_neg fun hc => hup.mp hc h).trans (if_neg (Nat.not_lt.mpr hnear)))⟩
  · intro q
    exact ⟨fun hrole hlink => next_of (if_pos ⟨hrole, hlink⟩),
      fun h => next_of (if_neg fun hc => h.elim (fun hrole => hrole hc.1) fun hdown => hc.2 hdown)⟩
  · split <;> rename_i h2 <;> cases h.symm.trans h2
    rfl
  · split <;> rename_i h2 <;> cases h.symm.trans h2
    rfl
  · intro p st
    refine ⟨fun h => next_of ?_, fun b h => next_of ?_, fun b h => next_of ?_, fun b h2 h3 => next_of ?_⟩
    · dsimp only
      rw [show (s.tick dt).odGet (oCascadeLinkState port.val) = 2 from h]
      rfl
    · dsimp only
      rw [show (s.tick dt).odGet (oCascadeLinkState port.val) = 2 from h]
      rfl
    · dsimp only
      rw [show (s.tick dt).odGet (oCascadeLinkState port.val) = 3 from h]
      rfl
    · split
      case h_1 h => exact (h2 h).elim
      case h_2 h => exact (h3 h).elim
      case h_3 => rfl
  · intro p
    refine ⟨fun h => next_of (if_pos (bnot_of h)), fun h hown hnot => next_of ((if_neg (not_bnot h)).trans (if_pos ⟨hown, bnot_of hnot⟩)),
      fun h hmaster => next_of ((if_neg (not_bnot h)).trans ((if_neg fun hc => not_bnot hmaster hc.2).trans (ite_swap ?_))),
      fun h hother hnot => next_of ((if_neg (not_bnot h)).trans ((if_neg fun hc => hother hc.1).trans (if_pos (.inl (bnot_of hnot)))))⟩
    exact ⟨fun hc => hc.resolve_left (not_bnot hmaster), Or.inr⟩

end Sys2Proof.Proofs
end

section
namespace Sys2Proof.Proofs
open Sys2Proof.Machine

/-- Settles O47: the cascade's forming, its members' losses, its master's, and a replacement. -/
theorem cascadeMembers : Obligations.CascadeMembers := by
  intro dt s u forming n near ma votes dark takes
  have hforming : forming = true ↔ u.odGet oCascadePanelState = 1 ∧ u.panelNo = u.odGet oCascadeConfigMaster := by
    simp only [forming, Bool.and_eq_true, beq_iff_eq]
  refine ⟨fun h => ?_, fun h => ?_, fun h hearly => next_of (if_neg fun hc => Nat.not_le.mpr hearly hc.2.2), fun h hlate => next_of (if_pos ?_),
    fun panel => ?_, next_of (ite_of_iff ?_ rfl rfl), fun hmaster hmany hfew => next_of (if_neg ?_), fun h => next_of (if_pos ?_), fun b => ?_⟩
  · obtain ⟨hstate, hno⟩ := hforming.mp h
    exact next_of (ite_of_iff ⟨fun hc => hc.2.2, fun hc => ⟨hstate, hno, hc⟩⟩ rfl rfl)
  · have hnot := mt hforming.mpr (not_true h)
    exact ⟨next_of (if_neg fun hc => hnot ⟨hc.1, hc.2.1⟩), next_of (if_neg fun hc => hnot ⟨hc.1, hc.2.1⟩)⟩
  · exact ⟨(hforming.mp h).1, (hforming.mp h).2, hlate⟩
  · intro p gone
    refine next_of (ite_swap ?_)
    simp only [gone, Bool.and_eq_true, beq_iff_eq, bne_iff_ne, bnot_iff, Classical.not_and_iff_not_or_not, Classical.not_not, or_assoc, ne_eq]
    rfl
  · simp only [takes, Bool.and_eq_true, beq_iff_eq, decide_eq_true_eq, and_assoc]
    rfl
  · exact not_or_intro (not_bnot hmaster) (not_or_intro (Nat.not_le.mpr hmany) (Nat.not_lt.mpr hfew))
  · exact h.imp bnot_of id
  · intro p serial form v may fields w
    have hform : (b.length ≠ 20 ∨ (!sliceAt b 1 3 == [0, 0, 0]) = true ∨ 8 ≤ p ∨ serial = 0) ↔ ¬ form = true := by
      simp only [form, Bool.and_eq_true, beq_iff_eq, bne_iff_ne, decide_eq_true_eq, bnot_iff, Classical.not_and_iff_not_or_not, or_assoc, Nat.not_lt, Classical.not_not, ne_eq]
    have hmay : ((!u.cascadeMaster) = true ∨ (u.memberState p ≠ 3 ∧ u.memberState p ≠ 4) ∨
        (!s.cas.hellos.any (fun h => h.2.serial == serial && h.2.digest == v.seamDigest)) = true) ↔ ¬ may = true := by
      simp only [may, Bool.and_eq_true, Bool.or_eq_true, beq_iff_eq, bnot_iff, Classical.not_and_iff_not_or_not, not_or, or_assoc, ne_eq]
    exact ⟨fun h => next_left (if_pos (hform.mpr (not_true h))),
      fun h => next_taken ((if_neg fun hc => hform.mp hc h).trans ((ite_swap hmay).trans (apply_ite some _ _ _).symm))⟩

end Sys2Proof.Proofs
end

section
namespace Sys2Proof.Proofs
open Sys2Proof.Machine

/-- Settles O48: the contributions, the start and the end of a ream, and the record that ends a deepened lane's epoch. -/
theorem reams : Obligations.Reams := by
  intro dt s u
  refine ⟨fun slot red index copy word values => ?_, fun slot red => rfl, fun slot red => ?_, fun slot red => ⟨fun h => next_of ?_, fun r h => ?_⟩,
    fun port stream record => ⟨fun h => next_of ?_, fun l x h hno => next_of ?_, fun l x q f h hq hf => ?_⟩⟩
  · intro key num r fits r1
    have hfits : (r.started.isSome = true ∨ u.contributions slot.val red ≤ index ∨ word.toNat / 2 ^ 48 ≠ num % 65536 ∨
        word.toNat / 2 ^ 32 % 4096 ≠ 0) ↔ ¬ fits = true := by
      simp only [fits, Bool.and_eq_true, beq_iff_eq, decide_eq_true_eq, Classical.not_and_iff_not_or_not, or_assoc, Nat.not_lt, ne_eq, Option.isNone_iff_eq_none, Option.isSome_iff_ne_none]
    exact ⟨fun h => next_of (if_neg fun hc => hfits.mp hc h), fun h => next_of (if_pos (hfits.mpr (not_true h)))⟩
  · intro r n full past starts
    refine next_of (ite_of_iff ?_ rfl rfl)
    simp only [starts, Bool.and_eq_true, bne_iff_ne, decide_eq_true_eq, and_assoc, ne_eq]
    rfl
  · split <;> rename_i h2 <;> cases h.symm.trans h2
    rfl
  · intro missing gone
    refine next_of ?_
    split <;> rename_i h2 <;> cases h.symm.trans h2
    refine ite_of_iff ?_ rfl rfl
    simp only [gone, Bool.and_eq_true, bne_iff_ne, decide_eq_true_eq, and_assoc, ne_eq]
    rfl
  · split <;> rename_i h2 <;> cases h.symm.trans h2
    rfl
  · split <;> rename_i h2 <;> cases h.symm.trans h2
    split
    case h_1 q f hq hf => exact hno.elim (fun hn => nomatch hn.symm.trans hq) fun hn => nomatch hn.symm.trans hf
    case h_2 => rfl
  · intro ends
    refine next_of ?_
    split <;> rename_i h2 <;> cases h.symm.trans h2
    split
    case h_2 hno => exact (hno q f hq hf).elim
    case h_1 q' f' hq' hf' =>
      cases hq.symm.trans hq'
      cases hf.symm.trans hf'
      refine ite_swap ?_
      simp only [ends, Bool.and_eq_true, beq_iff_eq, bnot_iff, Classical.not_and_iff_not_or_not, Classical.not_not, or_assoc, ne_eq, Option.isNone_iff_eq_none, Option.isSome_iff_ne_none]
      rfl

end Sys2Proof.Proofs
end

section
namespace Sys2Proof.Proofs
open Sys2Proof.Machine

/-- Settles O49: the first couch in its steps, its switch, the command, and the level that the master ordered. -/
theorem couches : Obligations.Couches := by
  intro dt s u
  refine ⟨fun h => ⟨next_of ?_, next_of ?_⟩, fun c rest hc hrun => ?_, fun c rest l x hc hrun => ?_, fun b => ?_, fun h => next_of ?_, fun lvl t h => next_of ?_⟩
  · split <;> rename_i h2 <;> cases (congrArg List.head? h).symm.trans h2
    rfl
  · split <;> rename_i h2 <;> cases (congrArg List.head? h).symm.trans h2
    rfl
  · have hhead : u.cas.couches.head? = some c := congrArg List.head? hc
    refine ⟨next_of ?_, fun hlane => next_of ?_, fun k y hlane => next_of ?_⟩ <;> split <;> rename_i h2 <;> cases hhead.symm.trans h2 <;>
      split <;> rename_i h3 <;> cases hrun.symm.trans h3
    · rfl
    · split <;> rename_i h4 <;> cases hlane.symm.trans h4
      rfl
    · split <;> rename_i h4 <;> cases hlane.symm.trans h4
      rfl
  · intro lost held busy due
    have hhead : u.cas.couches.head? = some c := congrArg List.head? hc
    have hexec : exec (.couchStart dt) s = .next (if x.terminal.isSome then u.couchEnd c 2
        else if !u.couchLink c ∧ c.phase < 3 then u.couchEnd c (if c.phase = 0 then 3 else 2)
        else if c.phase = 0 then u.couchRound c l x true
        else if c.phase = 1 then
          if u.faults ≠ [] ∨ !u.idleBank then u else if !u.laneQuiet l ∨ x.pass.isSome then u.holdLane l else u.couchHand c l x
        else u) := by
      refine next_of ?_
      split <;> rename_i h2 <;> cases hhead.symm.trans h2
      split <;> rename_i h3 <;> cases hrun.symm.trans h3
      rfl
    have hlost : ((!u.couchLink c) = true ∧ c.phase < 3) ↔ lost = true := by
      simp only [lost, Bool.and_eq_true, decide_eq_true_eq]
    have hheld : (u.faults ≠ [] ∨ (!u.idleBank) = true) ↔ held = true := by
      simp only [held, Bool.or_eq_true, bne_iff_ne, ne_eq]
      rfl
    have hbusy : ((!u.laneQuiet l) = true ∨ x.pass.isSome = true) ↔ busy = true := by
      simp only [busy, Bool.or_eq_true]
    refine ⟨fun hend => hexec.trans (next_of (if_pos hend)), fun hend h => hexec.trans (next_of ((if_neg (not_isSome hend)).trans (if_pos (hlost.mpr h)))),
      fun hend h hphase => hexec.trans (next_of ((if_neg (not_isSome hend)).trans ((if_neg (mt hlost.mp (not_true h))).trans (if_pos hphase)))),
      fun hend h hphase => hexec.trans (next_of ((if_neg (not_isSome hend)).trans ((if_neg (mt hlost.mp (not_true h))).trans ((if_neg ?_).trans
        ((if_pos hphase).trans (ite_of_iff hheld rfl (ite_of_iff hbusy rfl rfl))))))),
      fun hend h hphase => hexec.trans (next_of ((if_neg (not_isSome hend)).trans ((if_neg (mt hlost.mp (not_true h))).trans ((if_neg ?_).trans (if_neg ?_))))), next_of ?_⟩
    · rw [hphase]
      decide
    · exact Nat.ne_of_gt (Nat.lt_of_lt_of_le Nat.zero_lt_two hphase)
    · exact Nat.ne_of_gt hphase
    · split <;> rename_i h2 <;> cases hhead.symm.trans h2
      split <;> rename_i h3 <;> cases hrun.symm.trans h3
      refine ite_swap ?_
      simp only [due, Bool.and_eq_true, beq_iff_eq, bne_iff_ne, bnot_iff, Classical.not_and_iff_not_or_not, Classical.not_not, or_assoc, ne_eq]
      rfl
  · intro p form r
    have hform : (b.length ≠ 24 ∨ (!sliceAt b 5 3 == [0, 0, 0]) = true ∨ (8 ≤ p ∧ p ≠ 0xFF)) ↔ ¬ form = true := by
      simp only [form, Bool.and_eq_true, Bool.or_eq_true, beq_iff_eq, decide_eq_true_eq, bnot_iff, Classical.not_and_iff_not_or_not, not_or, or_assoc, Nat.not_lt, ne_eq]
    by_cases h : form = true
    · exact (next_taken (if_neg fun hc => hform.mp hc h)).trans (next_of (if_pos h).symm)
    · exact (next_left (if_pos (hform.mpr h))).trans (next_of (if_neg h).symm)
  · split <;> rename_i h2 <;> cases h.symm.trans h2
    rfl
  · split <;> rename_i h2 <;> cases h.symm.trans h2
    rfl

end Sys2Proof.Proofs
end

section
namespace Sys2Proof.Proofs
open Sys2Proof.Machine

/-- With both hubs' checks failed the panel enters image recovery (R430). -/
theorem verifyImage_both_failed (u : State) (strap : Bool) : u.verifyImage true true strap = { u with recovery := true } := by
  have hbad : ([0, 1].filter fun h => u.boot.badHubs.contains h || (if h = 0 then true else true) || u.fwFault u.boot.image != 0) = [0, 1] :=
    List.filter_eq_self.mpr fun h _ => by rw [ite_self, Bool.or_true, Bool.true_or]
  exact if_pos (congrArg List.length hbad)

/-- Settles O50: power, the images, the off-grid dies and the steps of bring-up to READY. -/
theorem powerOnAndReady : Obligations.PowerOnAndReady := by
  intro dt s u
  refine ⟨fun romA romB bricks h => ?_, fun romA romB bricks h => next_of (if_pos h), fun a b c0 c1 p => ?_, fun fn => ?_, fun cal => ?_, fun a b => ⟨fun hdev hstep => next_of ?_,
    fun h => next_of (if_pos h)⟩, fun hdev hlate => next_of (if_pos ⟨hdev, hlate⟩),
    fun h => next_of (if_neg fun hc => h.elim (fun hno => hno hc.1) fun hearly => Nat.not_le.mpr hearly hc.2)⟩
  · intro b
    exact next_of (if_neg (not_true h))
  · intro off
    have hoff : ((!u.boot.fed) = true ∨ u.dev ≠ 0 ∨ u.recovery = true ∨ u.boot.badHubs.length = 2) ↔ ¬ off = true := by
      simp only [off, Bool.and_eq_true, beq_iff_eq, bne_iff_ne, bnot_iff, Classical.not_and_iff_not_or_not, Classical.not_not, or_assoc, ne_eq]
      rfl
    refine ⟨fun h => next_of (if_neg fun hc => hoff.mp hc h), fun h ha hb => next_of ((if_neg fun hc => hoff.mp hc h).trans ?_),
      fun h => next_of (if_pos (hoff.mpr (not_true h)))⟩
    rw [ha, hb]
    exact verifyImage_both_failed (u.storeRead c0 c1) p
  · intro o n v open'
    have hopen : ((!([1, 2, 6].contains u.dev)) = true ∨ u.odGet o = 2 ∨ u.odGet o = 3) ↔ ¬ open' = true := by
      simp only [open', Bool.and_eq_true, Bool.or_eq_true, beq_iff_eq, bne_iff_ne, bnot_iff, Classical.not_and_iff_not_or_not, Classical.not_not, or_assoc, ne_eq, List.contains_cons,
        List.contains_nil, Bool.false_eq_true, or_false]
    refine ⟨fun h => next_of ((if_neg fun hc => hopen.mp hc h)), fun h hn => next_of ((if_neg fun hc => hopen.mp hc h).trans
        ((if_neg Bool.false_ne_true).trans (if_pos (Nat.succ_lt_succ hn)))),
      fun h hn => next_of ((if_neg fun hc => hopen.mp hc h).trans
        ((if_neg Bool.false_ne_true).trans ((if_neg (Nat.not_lt.mpr (Nat.succ_le_succ hn))).trans ?_))),
      fun h ok => next_of (if_pos (hopen.mpr (not_true h)))⟩
    rfl
  · intro done
    have hdone : (u.dev ≠ 2 ∨ u.bootStep ≥ 14 ∨ (!u.stepDone) = true) ↔ ¬ done = true := by
      simp only [done, Bool.and_eq_true, beq_iff_eq, decide_eq_true_eq, bnot_iff, Classical.not_and_iff_not_or_not, Nat.not_lt, or_assoc, ne_eq, ge_iff_le]
    exact ⟨fun h => next_of (if_neg fun hc => hdone.mp hc h), fun h => next_of (if_pos (hdone.mpr (not_true h)))⟩
  · refine (if_neg (not_or_intro (not_not_intro hdev) (not_not_intro hstep))).trans ?_
    rfl

end Sys2Proof.Proofs
end

section
namespace Sys2Proof.Proofs
open Sys2Proof.Machine

/-- Settles O51: the places that dies claim, the links' and the dies' tests, and the first floor plan, each at its step. -/
theorem discoveryAndTests : Obligations.DiscoveryAndTests := by
  intro dt s u at'
  have hat (n : Nat) : at' n = true ↔ u.dev = 2 ∧ u.bootStep = n := by
    simp only [at', Bool.and_eq_true, beq_iff_eq]
  have hoff (n : Nat) : (u.dev ≠ 2 ∨ u.bootStep ≠ n) ↔ ¬ at' n = true := by
    rw [hat, Classical.not_and_iff_not_or_not]
  refine ⟨fun die edge x y kind id peers => ⟨fun h => next_of (if_pos ((hoff 7).mpr (not_true h))), fun f h hf => next_of ((if_neg fun hc => (hoff 7).mp hc h).trans ?_),
    fun h hf => next_of ((if_neg fun hc => (hoff 7).mp hc h).trans ?_)⟩, fun link bits o i c c1 c2 ps => ?_, fun stack trained tested n => ?_,
    fun site point bad raised dieBad => ?_, fun pairs => ?_⟩
  · split <;> rename_i h2 <;> cases hf.symm.trans h2
    rfl
  · split <;> rename_i h2 <;> cases hf.symm.trans h2
    rfl
  · intro due
    have hdue : (u.dev ≠ 2 ∨ u.bootStep ≠ 9 ∨ (!u.linkLive link) = true ∨ u.boot.berDone.contains link = true ∨ (!u.linkPassable link) = true) ↔
        ¬ (at' 9 && u.linkLive link && !s.boot.berDone.contains link && u.linkPassable link) = true := by
      simp only [Bool.and_eq_true, hat, bnot_iff, Classical.not_and_iff_not_or_not, Classical.not_not, or_assoc, ne_eq]
      rfl
    have hparts : due = true ↔ linkExists link = true ∧ (at' 9 && u.linkLive link && !s.boot.berDone.contains link && u.linkPassable link) = true := by
      simp only [due, Bool.and_eq_true, and_assoc]
    refine ⟨fun h => next_of (ite_eq_right_iff.mpr fun hlink => if_pos (hdue.mpr fun hc => not_true h (hparts.mpr ⟨hlink, hc⟩))),
      fun h => onLink_of (hparts.mp h).1 (if_neg fun hc => hdue.mp hc (hparts.mp h).2)⟩
  · intro i g due v m
    have hdue : (u.dev ≠ 2 ∨ (u.bootStep ≠ 11 ∧ u.bootStep ≠ 12) ∨ u.odGet (oFwDieState g) ≠ 2 ∨ u.boot.stacksDone.contains i = true ∨ (!u.live g) = true) ↔
        ¬ due = true := by
      simp only [due, at', Bool.and_eq_true, Bool.or_eq_true, beq_iff_eq, bnot_iff, ← and_or_left, Classical.not_and_iff_not_or_not, not_or, Classical.not_not, or_assoc, ne_eq]
      rfl
    refine ⟨fun h => next_of (if_pos (hdue.mpr (not_true h))), fun h hbad => next_of ((if_neg fun hc => hdue.mp hc h).trans (if_pos (hbad.imp bnot_of bnot_of))),
      fun h htrained htested => next_of ((if_neg fun hc => hdue.mp hc h).trans ((if_neg (not_or_intro (not_bnot htrained) (not_bnot htested))).trans ?_))⟩
    rfl
  · intro g had due v low m w
    have hdue : (u.dev ≠ 2 ∨ u.bootStep ≠ 12 ∨ (!u.live g) = true ∨ had.contains point.val = true ∨ u.odGet (oFwDieState g) ≠ 2) ↔
        ¬ (at' 12 && u.live g && !had.contains point.val && u.odGet (oFwDieState g) == 2) = true := by
      simp only [Bool.and_eq_true, hat, bnot_iff, beq_iff_eq, Classical.not_and_iff_not_or_not, Classical.not_not, or_assoc, ne_eq]
    have hparts : due = true ↔ isCompute g = true ∧ (at' 12 && u.live g && !had.contains point.val && u.odGet (oFwDieState g) == 2) = true := by
      simp only [due, Bool.and_eq_true, and_assoc]
    exact ⟨fun h => onDie_keep fun hdie => if_pos (hdue.mpr fun hc => not_true h (hparts.mpr ⟨hdie, hc⟩)),
      fun h => onDie_of (hparts.mp h).1 (if_neg fun hc => hdue.mp hc (hparts.mp h).2)⟩
  · intro v
    have hexec : exec (.floorPlanAssembly dt pairs) s = .next (if u.dev ≠ 2 ∨ u.bootStep ≠ 13 ∨ u.boot.assembled = true then u
        else { u.firstGeneration pairs with boot := { (u.firstGeneration pairs).boot with assembled := true } }) := by
      change execFloorPlanAssembly dt pairs s = _
      unfold execFloorPlanAssembly
      dsimp only [u]
    refine ⟨fun h hnew => hexec.trans (congrArg Host.Outcome.next (if_neg ?_)), fun h => hexec.trans (congrArg Host.Outcome.next (if_pos ?_))⟩
    · obtain ⟨hdev, hstep⟩ := (hat 13).mp h
      exact not_or_intro (not_not_intro hdev) (not_or_intro (not_not_intro hstep) (not_true hnew))
    · exact or_assoc.mp (h.imp (fun h => (hoff 13).mpr (not_true h)) id)

end Sys2Proof.Proofs
end

section
namespace Sys2Proof.Proofs
open Sys2Proof.Machine

/-- Settles O52: the broadcast, the chunks, the repair rounds, the activation and the recovered image. -/
theorem firmwareToTheDies : Obligations.FirmwareToTheDies := by
  intro dt s u at10
  have hat : at10 = true ↔ u.dev = 2 ∧ u.bootStep = 10 := by
    simp only [at10, Bool.and_eq_true, beq_iff_eq]
  have hoff : (u.dev ≠ 2 ∨ u.bootStep ≠ 10) ↔ ¬ at10 = true := by
    rw [hat, Classical.not_and_iff_not_or_not]
  refine ⟨fun base => ?_, fun site => ?_, fun h => next_of (if_pos ?_), fun h hsent => ?_, fun h => ?_, fun h => ?_, fun strap h => next_of (if_pos (h.imp bnot_of id)),
    fun strap h hstate => next_of ((if_neg (not_or_intro (not_bnot h) (not_not_intro hstate))).trans ?_)⟩
  · intro kind
    refine ⟨fun h => next_of ?_, fun c h hsent hc => ?_⟩
    · rw [← or_assoc] at h
      obtain h | h := h
      · exact if_pos (or_assoc.mp (h.imp (fun h => hoff.mpr (not_true h)) id))
      · refine ite_eq_left_iff.mpr fun _ => ?_
        split <;> rename_i h2 <;> cases h.symm.trans h2
        rfl
    · intro hub v w
      have hgo : ¬ (u.dev ≠ 2 ∨ u.bootStep ≠ 10 ∨ u.boot.sent.contains kind = true) :=
        fun hno => (or_assoc.mpr hno).elim (fun hno => hoff.mp hno h) (not_true hsent)
      refine next_of ((if_neg hgo).trans ?_)
      split <;> rename_i h2 <;> cases hc.symm.trans h2
      rfl
  · intro g here
    have hhere : (u.dev ≠ 2 ∨ u.bootStep ≠ 10 ∨ siteKind g ≥ 2 ∨ (!u.live g) = true) ↔ ¬ here = true := by
      simp only [here, Bool.and_eq_true, hat, bnot_iff, decide_eq_true_eq, Classical.not_and_iff_not_or_not, Nat.not_lt, or_assoc, ne_eq, ge_iff_le]
    refine ⟨fun h n data => next_of ?_, fun c h hc => ⟨fun data => ?_, fun i data => ?_⟩⟩
    · obtain h | h := h
      · exact if_pos (hhere.mpr (not_true h))
      · refine ite_eq_left_iff.mpr fun _ => ?_
        split
        case h_1 => rfl
        case h_2 c hc => exact nomatch hc.symm.trans h
        case h_3 c i hc => exact nomatch hc.symm.trans h
    · intro v
      refine next_of ((if_neg fun hno => hhere.mp hno h).trans ?_)
      split
      case h_1 hno => exact nomatch hno.symm.trans hc
      case h_3 hchunk => exact nomatch hchunk
      case h_2 c' hc' hchunk =>
        cases hc.symm.trans hc'
        exact ite_of_iff (and_congr_right' (bnot_iff.trans (Iff.of_eq (Bool.not_eq_true _)))) rfl rfl
    · intro m wanted v
      have hwanted : ((!u.boot.preambles.contains g) = true ∨ i ≥ c.count ∨ m.testBit i = true) ↔ wanted = false := by
        rw [← Bool.not_eq_true wanted]
        simp only [wanted, Bool.and_eq_true, decide_eq_true_eq, bnot_iff, Classical.not_and_iff_not_or_not, Nat.not_lt, Classical.not_not, or_assoc, ge_iff_le]
        rfl
      refine next_of ((if_neg fun hno => hhere.mp hno h).trans ?_)
      split
      case h_1 hno => exact nomatch hno.symm.trans hc
      case h_2 hchunk => exact nomatch hchunk
      case h_3 c' i' hc' hchunk =>
        cases hc.symm.trans hc'
        cases hchunk
        exact ite_of_iff hwanted rfl rfl
  · exact or_assoc.mp (h.imp (fun h => hoff.mpr (not_true h)) id)
  · intro dies bad v r
    refine next_of ((if_neg fun hno => (or_assoc.mpr hno).elim (fun hno => hoff.mp hno h) (Nat.not_lt.mpr hsent)).trans ?_)
    rfl
  · exact congrArg (fun o : Option State => Host.Outcome.next (o.getD u).closeDueNow) (if_pos h)
  · exact ⟨_, congrArg (fun o : Option State => Host.Outcome.next (o.getD u).closeDueNow) (if_neg (not_not_intro h)), rfl, rfl⟩
  · split
    case h_1 hsound => exact (if_pos hsound).symm
    case h_2 hfault => exact (if_neg hfault).symm

end Sys2Proof.Proofs
end

section
namespace Sys2Proof.Proofs
open Sys2Proof.Machine

/-- Settles O53: an update begins, receives, commits, is written and is cancelled. -/
theorem firmwareCommands : Obligations.FirmwareCommands := by
  intro dt s u full st drop
  refine ⟨fun len h => next_left (if_pos (h.imp id bnot_of)), fun len hfree hstate => ?_, fun b => ?_, fun h => ⟨next_left (if_pos (bnot_of h)), next_left (if_pos (bnot_of h))⟩,
    fun h => ⟨fun hpart => ?_, fun hwhole hflash => ?_, fun hwhole hplace => ?_, fun hst => ?_, fun h1 h2 h5 => ?_⟩,
    fun h => ⟨next_of (if_neg (not_not_intro h)), next_of ((if_neg (not_not_intro h)).trans (if_neg Bool.false_ne_true))⟩, fun h ok => next_of (if_pos h)⟩
  · refine next_taken ((if_neg (not_or_intro (not_true hfree) (not_bnot hstate))).trans ?_)
    exact (apply_ite some _ _ _).symm
  · intro may v
    have hmay : (b = [] ∨ b.length > 1024 ∨ (!u.fwState) = true) ↔ ¬ may = true := by
      simp only [may, Bool.and_eq_true, bne_iff_ne, decide_eq_true_eq, bnot_iff, Classical.not_and_iff_not_or_not, Nat.not_le, Classical.not_not, or_assoc, ne_eq, gt_iff_lt]
    refine ⟨fun h => next_left (if_pos (hmay.mpr (not_true h))), fun h => next_taken ((if_neg fun hc => hmay.mp hc h).trans ?_)⟩
    exact (apply_ite some _ _ _).symm
  · exact next_taken ((if_neg (not_bnot h)).trans (if_pos (bnot_of hpart)))
  · exact next_taken ((if_neg (not_bnot h)).trans ((if_neg (not_bnot hwhole)).trans (if_neg (not_true hflash))))
  · exact next_taken ((if_neg (not_bnot h)).trans ((if_neg (not_bnot hwhole)).trans (if_pos hplace)))
  · exact next_taken ((if_neg (not_bnot h)).trans (if_pos hst))
  · exact next_taken ((if_neg (not_bnot h)).trans (if_neg (not_or_intro h1 (not_or_intro h2 h5))))

end Sys2Proof.Proofs
end

section
namespace Sys2Proof.Proofs
open Sys2Proof.Machine

/-- A dump that ends early at step 5 or later has nothing of its first sections still to close (R467). -/
theorem endDumpEarly_late {u : State} (h : 5 ≤ u.odGet oDumpProgressStep) :
    let w := ([1, 2, 3, 4, 5, 6 + u.dump.hub, 8, 10].filter (fun k => (mlook u.dump.sections k).isNone)).foldl (fun (s : State) k =>
      if s.sectionAbsent k then s else s.endSection k 2 []) (u.putDump statusAt u.statusBytes)
    u.endDumpEarly = ((w.finishHeader 8).idleAll.odSet oDumpState 3).dumpEvent 3 (w.odGet oDiagFatalCause) := by
  have h3 : ¬ u.odGet oDumpProgressStep < 3 := by omega
  have h5 : ¬ u.odGet oDumpProgressStep < 5 := by omega
  unfold State.endDumpEarly
  simp only [if_neg h3, if_neg h5, List.contains_nil, Bool.false_eq_true, if_false]

/-- Settles O54: the version, the keys, the report, the dump's end and what power loss keeps. -/
theorem versionsAttestationAndDump : Obligations.VersionsAttestationAndDump := by
  intro dt s u runs v due
  have hruns : (u.dev ≠ 3 ∧ u.dev ≠ 4 ∧ u.dev ≠ 5) ↔ ¬ runs = true := by
    simp only [runs, Bool.or_eq_true, beq_iff_eq, not_or, and_assoc, ne_eq]
  have hdue : (u.odGet oDumpState ≠ 1 ∨ u.dev ≠ 7 ∨ u.hubsLost = true ∨ u.clk < s.dump.decidedAt + 10 * 10 ^ 9 ∨ u.odGet oDumpProgressStep ≥ 8) ↔
      ¬ due = true := by
    simp only [due, Bool.and_eq_true, beq_iff_eq, decide_eq_true_eq, bnot_iff, Classical.not_and_iff_not_or_not, Nat.not_lt, Nat.not_le, Classical.not_not, or_assoc, ne_eq, ge_iff_le]
    rfl
  refine ⟨fun h => next_left (if_pos (hruns.mpr (not_true h))), fun h => next_taken ((if_neg fun hc => hruns.mp hc h).trans ?_),
    fun level slot hlevel hslot => next_taken (if_neg (not_or_intro (Nat.not_lt.mpr hlevel) (Nat.not_lt.mpr hslot))),
    fun level slot h => next_left (if_pos h), fun nonce h => next_taken (if_neg h), fun nonce h => next_left (if_pos h), next_of (ite_swap hdue),
    fun h => endDumpEarly_late h, fun h => next_left (if_pos h), fun h => next_taken (if_neg h), rfl, rfl, rfl, rfl, rfl, rfl, rfl, fun h => if_neg h⟩
  exact (apply_ite some _ _ _).symm

end Sys2Proof.Proofs
end
